-- ==== Sys2Proof/Word.lean ====
section
/-! DEFINITION. The word types of the block and their plainest arithmetic: bytes, 64-bit and 128-bit
words, and byte strings. Numbers that the manual counts (folios, slots, indexes) are `Nat`; whatever it
shifts, masks or concatenates is a bit vector. -/

namespace Sys2Proof

/-- One byte. -/
abbrev Byte := BitVec 8

/-- A byte string, first byte first. -/
abbrev Bytes := List (BitVec 8)

/-- A 32-bit management register word. -/
abbrev Word32 := BitVec 32

/-- A 64-bit core word (R134). -/
abbrev Word64 := BitVec 64

/-- A 128-bit core word (R134). -/
abbrev Word128 := BitVec 128

end Sys2Proof
end

