-- ==== Sys2Proof/Machine/Tab.lean ====
section
/-! DEFINITION. Sparse tables: a list of (key, value) pairs in one canonical form, keys strictly rising and
no entry equal to what an unlisted key reads as. Every per-tenant, per-slot, per-channel, per-core table and
every addressed memory of the block is held so (log entry 2), and equal contents are equal data. -/

namespace Sys2Proof.Machine

/-- The value at key `k`: the listed one, else what an unlisted key reads as, `d`. -/
def tabGet {α : Type} (d : α) : List (Nat × α) → Nat → α
  | [], _ => d
  | (j, v) :: t, k => if j = k then v else tabGet d t k

/-- `t` without key `k`. -/
def tabDrop {α : Type} : List (Nat × α) → Nat → List (Nat × α)
  | [], _ => []
  | (j, v) :: t, k => if j = k then t else (j, v) :: tabDrop t k

/-- `t` with `v` listed at `k`, in rising order of keys. -/
def tabInsert {α : Type} : List (Nat × α) → Nat → α → List (Nat × α)
  | [], k, v => [(k, v)]
  | (j, w) :: t, k, v =>
    if k < j then (k, v) :: (j, w) :: t
    else if j = k then (k, v) :: t
    else (j, w) :: tabInsert t k v

/-- Write `v` at `k`; writing what an unlisted key reads as removes the entry. -/
def tabPut {α : Type} [DecidableEq α] (d : α) (t : List (Nat × α)) (k : Nat) (v : α) : List (Nat × α) :=
  if v = d then tabDrop t k else tabInsert t k v

/-- Read, change and write back the value at `k`. -/
def tabMod {α : Type} [DecidableEq α] (d : α) (t : List (Nat × α)) (k : Nat) (f : α → α) : List (Nat × α) :=
  tabPut d t k (f (tabGet d t k))

/-- Every key of `t` is above `lo`. -/
def tabAbove {α : Type} (lo : Nat) (t : List (Nat × α)) : Prop := ∀ p ∈ t, lo < p.1

/-- The canonical form: keys strictly rising, and no listed value equal to `d`. -/
def tabWf {α : Type} [DecidableEq α] (d : α) : List (Nat × α) → Bool
  | [] => true
  | (j, v) :: t => decide (v ≠ d) && t.all (fun p => decide (j < p.1)) && tabWf d t

/-- Read `n` bytes of a byte memory from address `a`; an unlisted byte reads 0. -/
def memRead (m : List (Nat × Byte)) (a : Nat) : Nat → Bytes
  | 0 => []
  | n + 1 => tabGet 0 m a :: memRead m (a + 1) n

/-- Write a byte string into a byte memory from address `a`. -/
def memWrite (m : List (Nat × Byte)) (a : Nat) : Bytes → List (Nat × Byte)
  | [] => m
  | b :: bs => memWrite (tabPut 0 m a b) (a + 1) bs

/-- Clear `n` bytes of a byte memory from address `a`. -/
def memClear (m : List (Nat × Byte)) (a n : Nat) : List (Nat × Byte) :=
  m.filter (fun p => decide (p.1 < a ∨ a + n ≤ p.1))

end Sys2Proof.Machine
end

