-- ==== Sys2Proof/Machine/StKeys.lean ====
section
/-! DEFINITION. The state of the key store (chapter 09): SMK generations, resident bindings, cache bindings,
counter records, client keys, the vault and its refresh; plain data only. -/

namespace Sys2Proof.Machine

/-- KIND of a binding (Table 9.2). -/
inductive BindKind where
  | free | key | counter | retiring
  deriving DecidableEq, Repr

/-- The content of a counter record (Table 9.5). -/
structure CounterRec where
  type : Nat := 0
  psn : Nat := 0
  digits : Nat := 0
  id : Bytes := []
  /-- Last committed ATC or counter. -/
  s : Nat := 0
  /-- Outstanding claims in increasing order, each with the request it belongs to (R264). -/
  claims : List (Nat × Nat) := []
  deriving DecidableEq, Repr

/-- A key as the key store holds it: the value A XOR B of its two shares (R248a, R249) and its attributes
(Table 9.2). The shares themselves are `shareA` and `shareB`. -/
structure KeyAttr where
  alg : Nat := 0
  usage : Nat := 0
  mode : Nat := 0
  exportability : Nat := 0
  curve : Nat := 0
  level : Nat := 0
  isPublic : Bool := false
  deriving DecidableEq, Repr

/-- A resident binding (Table 9.2, RESIDENT 1), at the first unit of its run. -/
structure Resident where
  kind : BindKind := .free
  tenant : Nat := 0
  units : Nat := 0
  attr : KeyAttr := {}
  /-- The two shares; the key is their exclusive or (R17, R248). -/
  shareA : Bytes := []
  shareB : Bytes := []
  useLimited : Bool := false
  resetExpiry : Bool := false
  rootSlot : Nat := 0xFF
  rootGen : Nat := 0
  uses : Nat := 0
  limit : Nat := 0
  /-- First folio whose requests may name the slot (FROM). -/
  from_ : Nat := 0
  slotGen : Nat := 0
  record : CounterRec := {}
  /-- KIND 7: the tick at which it retired, and whether it held a counter record (R257). -/
  retiredAt : Nat := 0
  wasCounter : Bool := false
  /-- Being reloaded from its vault record (R252). -/
  reloading : Bool := false
  /-- Durable uses: the reservation high-water mark (R262). -/
  reserved : Nat := 0
  deriving DecidableEq, Repr

/-- A generation of an SMK: its number, the tick at which it took effect, the two shares of its AES-256 key. -/
structure SmkGen where
  gen : Nat
  from_ : Nat := 0
  shareA : Bytes
  shareB : Bytes
  deriving DecidableEq, Repr

/-- A generation retiring since tick `since` (R256). -/
structure SmkRetiring where
  g : SmkGen
  since : Nat
  deriving DecidableEq, Repr

/-- An SMK slot (R253). -/
structure SmkSlot where
  current : Option SmkGen := none
  pending : Option SmkGen := none
  retiring : List SmkRetiring := []
  /-- The last generation number used in this slot. -/
  lastGen : Nat := 0
  deriving DecidableEq, Repr

/-- The parent of a derived key (R265): a resident slot and its generation, or a root SMK slot and generation. -/
inductive KeyParent where
  | none
  | resident (slot slotGen : Nat)
  | root (smkSlot gen : Nat)
  deriving DecidableEq, Repr

/-- A key-cache binding (Table 9.2, RESIDENT 0). -/
structure CacheBinding where
  tenant : Nat
  units : Nat
  attr : KeyAttr
  shareA : Bytes
  shareB : Bytes
  rootSlot : Nat
  rootGen : Nat
  parent : KeyParent
  digest : Bytes
  deriving DecidableEq, Repr

/-- A registered client key (R269): 1 ECDSA P-384 or 2 ML-DSA-65, the public key sealed in the vault and the
digest key SRAM holds. -/
structure ClientKey where
  alg : Nat := 0
  pub : Bytes := []
  digest : Bytes := []
  deriving DecidableEq, Repr

/-- One change waiting for the next vault batch (R267). -/
structure VaultChange where
  kind : Nat
  tenant : Nat
  slot : Nat
  value : Nat
  deriving DecidableEq, Repr

/-- The handles of one task (R259, R265): the bound key, and the last status and miss of KLOOK. -/
structure Handle where
  bound : Bool := false
  hit : Bool := false
  status : Nat := 0
  attr : KeyAttr := {}
  key : Bytes := []
  tenant : Nat := 0
  rootSlot : Nat := 0xFF
  rootGen : Nat := 0
  parent : KeyParent := .none
  /-- The resident slot the handle was bound from. -/
  resident : Option Nat := none
  /-- Bound under a RETIRING generation (R256, R265). -/
  underRetiring : Bool := false
  /-- The block of the last KLOOK that missed, waiting for KUNWRAP, and the SMK slot it names. -/
  missed : Bytes := []
  missedSlot : Nat := 0
  deriving DecidableEq, Repr

end Sys2Proof.Machine
end

