-- ==== Sys2Proof/Machine/StEngines.lean ====
section
/-! DEFINITION. The state of the big-number engines and the curve table (chapter 10), of the bulk cipher engines
and their streams (chapter 11) and of the random number generator (chapter 12): plain data only. -/

namespace Sys2Proof.Machine

/-- A bank's state as BN_BANK reports it. -/
inductive BankState where
  | clean | fgOpen | fgDone | background | clearing
  deriving DecidableEq, Repr

/-- One of the four context banks of an engine (R277). -/
structure Bank where
  state : BankState := .clean
  /-- The operand memory that BIN writes and BOUT reads (Table 10.5). -/
  mem : List (Nat × Byte) := []
  /-- The engine's working area: the key shares copied at BGO (R285). -/
  key : Bytes := []
  deriving DecidableEq, Repr

/-- State of a big-number handle (R282). -/
inductive BnHandleState where
  | free | open | running | done
  deriving DecidableEq, Repr

/-- A big-number handle of a task (R282, BSTAT). -/
structure BnHandle where
  state : BnHandleState := .free
  /-- Opened with no engine (R280). -/
  refused : Bool := false
  engine : Nat := 0
  bank : Nat := 0
  op : Nat := 0
  curve : Nat := 0
  curveHandle : Nat := 0
  /-- Half of a pair, and the odd half. -/
  paired : Bool := false
  odd : Bool := false
  ptr : Nat := 0
  status : Nat := 0
  iterations : Nat := 0
  cycles : Nat := 0
  /-- The key-store handle's key, when BGO named one. -/
  hasKey : Bool := false
  keyAttr : KeyAttr := {}
  mlen : Nat := 0
  ctxlen : Nat := 0
  e : Nat := 0
  /-- Started: the job's start has passed the end of any background slice (R290). -/
  started : Bool := false
  /-- The status an abort leaves when its clear ends (R297). -/
  abortStatus : Option Nat := none
  /-- The status that the operation computed, waiting for the cycle of its completion; whether its validation refused it;
  the ML-DSA iterations it needs; the code of a failed invariant. -/
  outcome : Option Nat := none
  refusedInput : Bool := false
  need : Nat := 0
  invariant : Nat := 0
  deriving DecidableEq, Repr

/-- A big-number engine (R277, BN window). -/
structure BnEngine where
  banks : List (Nat × Bank) := []
  /-- The open foreground handle: core, and handle number. -/
  owner : Option (Nat × Nat) := none
  tenant : Nat := 0
  /-- The background context: the curve record index it validates and its bank; running a slice or suspended. -/
  background : Option (Nat × Nat) := none
  sliceRunning : Bool := false
  iter : Nat := 0
  cycles : Nat := 0
  faultStatus : Nat := 0
  faultOp : Nat := 0
  faultInv : Nat := 0
  withdrawn : Bool := false
  /-- To be withdrawn at the next tick (R296). -/
  marked : Bool := false
  counters : List (Nat × Nat) := []
  deriving DecidableEq, Repr

/-- State of a curve record (R300). -/
inductive CurveState where
  | free | validating | valid | rejected
  deriving DecidableEq, Repr

/-- A record of the curve table (R300–R303). -/
structure CurveRec where
  state : CurveState := .free
  tenant : Nat := 0
  gen : Nat := 0
  check : Nat := 0
  progress : Nat := 0
  h : Nat := 0
  pbits : Nat := 0
  p : Nat := 0
  a : Nat := 0
  b : Nat := 0
  gx : Nat := 0
  gy : Nat := 0
  n : Nat := 0
  /-- The tick from which jobs may name it, once VALID (R302). -/
  validFrom : Nat := 0
  /-- All checks passed; VALID at the next tick. -/
  passed : Bool := false
  /-- Deleted from this tick on (R303). -/
  deletedAt : Option Nat := none
  deriving DecidableEq, Repr

/-- State of a stream (R314–R316). -/
inductive StreamState where
  | free | open | failed
  deriving DecidableEq, Repr

/-- One side of a stream: mode, key and chaining state (R308, R309). -/
structure StreamSide where
  mode : Nat := 0
  attr : KeyAttr := {}
  key : Bytes := []
  iv : Bytes := []
  /-- Chaining state of the side: last ciphertext block, counter block, GHASH or CMAC state, XTS data unit. -/
  chain : Bytes := []
  /-- Data bytes processed. -/
  done : Nat := 0
  rootSlot : Nat := 0xFF
  rootGen : Nat := 0
  resident : Option (Nat × Nat) := none
  deriving DecidableEq, Repr

/-- A stream context and its binding (R308, R309, R314). -/
structure Stream where
  state : StreamState := .free
  tenant : Nat := 0
  channel : Nat := 0
  queue : Nat := 0
  handle : Nat := 0
  next : Nat := 1
  tagLen : Nat := 0
  duSize : Nat := 0
  aad : Bytes := []
  sideIn : StreamSide := {}
  sideOut : StreamSide := {}
  /-- Cache units of the stream binding (R309). -/
  units : Nat := 0
  /-- A retired key: the tick (R324). -/
  revokedAt : Option Nat := none
  deriving DecidableEq, Repr

/-- An operation of BKSUB (Table 11.3). -/
inductive BulkOp where
  | openOp | segment | final | abort
  deriving DecidableEq, Repr

/-- An accepted bulk job (R323). -/
structure BulkJob where
  slot : Nat
  op : BulkOp
  context : Nat
  /-- Last folio of the job's span, and acceptance order. -/
  deadline : Nat
  order : Nat
  data : Bytes
  tag : Bytes
  rekey : Bool
  engines : List Nat := []
  running : Bool := false
  rerun : Bool := false
  /-- Set when the task's DONE has handed the request to the job (R321). -/
  handed : Bool := false
  deriving DecidableEq, Repr

/-- A submission waiting for its answer (R320). -/
structure BulkSubmission where
  core : Nat
  op : Nat
  kin : Nat
  kout : Nat
  deriving DecidableEq, Repr

/-- BKSTAT of a core (Table 11.3). -/
structure BulkStat where
  status : Nat := 0
  accepted : Bool := false
  next : Nat := 0
  submitted : Bool := false
  deriving DecidableEq, Repr

/-- Health states of a noise source (R330). -/
inductive SourceHealth where
  | notStarted | startTest | healthy | requalifying | quarantined
  deriving DecidableEq, Repr

/-- A noise source (R329–R332). -/
structure Source where
  health : SourceHealth := .notStarted
  lastTest : Nat := 0
  /-- Folio-seconds of the failures that count towards quarantine. -/
  failTimes : List Nat := []
  passed : Nat := 0
  /-- Windows since start (R332). -/
  windows : Nat := 0
  /-- Windows passed in requalification, the fresh start-up test included. -/
  requal : Nat := 0
  bias : BitVec 16 := 0
  corr : List (Nat × BitVec 16) := []
  /-- Released blocks not yet part of a seed, and the last passed window of C waiting for its second. -/
  blocks : List Bytes := []
  half : Option Bytes := none
  seeds : List Bytes := []
  /-- C only: the seed the security die's own draws take (R332). -/
  ownSeed : Option Bytes := none
  alertSecond : Option Nat := none
  /-- The run of identical samples that the RCT has seen up to now, and their value (R329). -/
  run : Nat := 0
  runBit : Bool := false
  deriving DecidableEq, Repr

/-- States of a DRBG instance as RNG_DRBG reports them. -/
inductive DrbgState where
  | none | running | reseeding | withdrawn
  deriving DecidableEq, Repr

/-- One of the eight CTR_DRBG instances (R333). -/
structure Drbg where
  state : DrbgState := .none
  source : Nat := 0
  reseeds : Nat := 0
  /-- The instance's working state: its last seed material (the key and counter block are functions of it). -/
  seed : Bytes := []
  faultTimes : List Nat := []
  quarantined : Bool := false
  /-- Folio time in microseconds of the last scheduled reseed (R334). -/
  lastReseed : Nat := 0
  /-- Returned after an error: it counts from the next tick (R348). -/
  returned : Bool := false
  deriving DecidableEq, Repr

/-- RNG states of Table 12.4. -/
inductive RngState where
  | off | startup | ready | degraded | cOnly | failed
  deriving DecidableEq, Repr

/-- The random number generator (chapter 12, RNG window). -/
structure Rng where
  state : RngState := .off
  ready : Bool := false
  /-- 0 A, 1 B, 2 C, 3 none. -/
  active : Nat := 3
  events : BitVec 5 := 0
  poolInt : Nat := 0
  poolTen : Nat := 0
  poolSize : Nat := 0
  poolSpan : Nat := 0
  pers : Bytes := []
  sources : List (Nat × Source) := []
  drbgs : List (Nat × Drbg) := []
  counters : List (Nat × Nat) := []
  /-- A forced reseed is in progress, from this source (R335). -/
  forced : Option Nat := none
  /-- The tenant pool is being refilled; RAND capacity does not count (R345). -/
  refilling : Bool := false
  /-- Capacity counts again from the next tick. -/
  refillDone : Bool := false
  drawRefusedSecond : Option Nat := none
  /-- RTEN refusals since the last event 0x4F. -/
  drawsRefused : Nat := 0
  /-- The model's own counter of random bytes drawn (a free value: log entry). -/
  draws : Nat := 0
  deriving DecidableEq, Repr

/-- The random port of a core (Table 12.3). -/
structure RandPort where
  status : Nat := 0
  delivered : Nat := 0
  rbuf : List (Nat × Word128) := []
  /-- A draw in progress: tenant pool or internal, blocks, result offset. -/
  draw : Option (Bool × Nat × Nat) := none
  deriving DecidableEq, Repr

/-- The big-number engines, the curve table and the device-wide registers (chapter 10). -/
structure BnState where
  engines : List (Nat × BnEngine) := []
  curves : List (Nat × CurveRec) := []
  /-- Curve records waiting for validation, in the order of their loads (R302). -/
  queue : List Nat := []
  events : BitVec 5 := 0
  /-- Reserve cycles drawn in the last whole folio, and in this one. -/
  lastDrawn : Nat := 0
  drawn : Nat := 0
  /-- Handles opened REFUSED since the last tick (event 0xA8). -/
  refusedThisTick : Nat := 0
  deriving DecidableEq, Repr

/-- The bulk cipher engines (chapter 11). -/
structure BulkState where
  /-- Stream contexts by index 0–4,095. -/
  streams : List (Nat × Stream) := []
  jobs : List BulkJob := []
  submissions : List BulkSubmission := []
  accepted : Nat := 0
  events : BitVec 4 := 0
  counters : List (Nat × Nat) := []
  deriving DecidableEq, Repr

end Sys2Proof.Machine
end

