-- ==== Sys2Proof/Machine/StControl.lean ====
section
/-! DEFINITION. The state of dual control (chapter 13), the life cycle and debug (chapter 14), tamper response
(chapter 15) and start-up (chapter 16): plain data only. -/

namespace Sys2Proof.Machine

/-- Session states (R356). -/
inductive SessionState where
  | free | open | granted | inUse | spent | expired | closed
  deriving DecidableEq, Repr

/-- A signature counted in a session (R358): the card, the folio whose tick makes it take effect, the component. -/
structure Counted where
  serial : Nat
  /-- The tick at which it takes effect; none while its task's reply has no commit point. -/
  effectAt : Option Nat
  component : Bytes
  kcv : Bytes
  /-- The request slot of the AUTH_SIGN that made the count; none for a local card. -/
  slot : Option Nat
  deriving DecidableEq, Repr

/-- An authorisation session (R355). -/
structure Session where
  state : SessionState := .free
  gen : Nat := 0
  scope : Nat := 0
  command : Nat := 0
  role : Nat := 0
  compLen : Nat := 0
  pdigest : Bytes := []
  m : Nat := 0
  expires : Nat := 0
  challenge : Bytes := []
  /-- The private half of the device's ephemeral key pair (R366). -/
  ephemeral : Bytes := []
  counted : List Counted := []
  localStatus : Nat := 0
  /-- Order of ending, for the reuse of indices (R360). -/
  endedAt : Nat := 0
  deriving DecidableEq, Repr

/-- Registry states of a card (Table 13.2). -/
inductive CardState where
  | free | active | warned | exhausted | revoked
  deriving DecidableEq, Repr

/-- A registry entry (Table 13.2). -/
structure Card where
  state : CardState := .free
  serial : Nat := 0
  scope : Nat := 0
  role : Nat := 0
  usesLeft : Nat := 0
  notBefore : Nat := 0
  notAfter : Nat := 0
  pub : Bytes := []
  deriving DecidableEq, Repr

/-- A custodian-card interface (R364, DC_IFACE). -/
structure CardIface where
  present : Bool := false
  classA : Bool := false
  /-- The exchange in progress: the session identifier it serves. -/
  exchange : Option Nat := none
  /-- CARDx_PWREN. -/
  powered : Bool := false
  deriving DecidableEq, Repr

/-- Life-cycle states (Table 14.1). -/
inductive LcState where
  | blank | test | provisioned | deployed | returned | scrapped | invalid
  deriving DecidableEq, Repr

/-- An intent record (Table 14.4). -/
structure Intent where
  source : Nat
  target : Nat
  stripe : Nat
  slot : Nat
  quorum : Bool
  valid : Bool
  complete : Bool := false
  abandoned : Bool := false
  deriving DecidableEq, Repr

/-- The debug record and challenge (R384, R385). -/
structure DebugRec where
  armed : Bool := false
  startsLeft : Nat := 0
  grantState : Nat := 0
  challenge : Option Bytes := none
  /-- This start uses the test root. -/
  active : Bool := false
  deriving DecidableEq, Repr

/-- JTAG instructions (Table 14.6). -/
inductive JtagInstr where
  | extest | samplePreload | idcode | clamp | highz | mailbox | dbgAccess | bypass
  deriving DecidableEq, Repr

/-- The TAP (R386, R387). -/
structure Tap where
  instr : JtagInstr := .idcode
  /-- Boundary register contents: the preloaded pin values. -/
  boundary : Bytes := []
  /-- Pins driven from the boundary register (EXTEST, CLAMP) or floated (HIGHZ). -/
  pinsFromBoundary : Bool := false
  pinsHighZ : Bool := false
  /-- The last DBG_ACCESS data register contents read. -/
  dbgData : Word32 := 0
  deriving DecidableEq, Repr

/-- Life cycle and debug (chapter 14). -/
structure Lc where
  /-- The state decoded at START step 3, and LC_STATE's reason for INVALID. -/
  state : LcState := .invalid
  cause : Nat := 0
  word0 : Word64 := -1
  word1 : Word64 := -1
  intents : List Intent := []
  /-- SHA-384 digests of the tokens, slots 0–8; the empty string is the zeroed digest. -/
  digests : List (Nat × Bytes) := []
  dbg : DebugRec := {}
  lastStatus : Nat := 0
  lastFunction : Nat := 0
  lastMailbox : Bool := false
  /-- A transition between VALID and its restart (R379). -/
  inProgress : Bool := false
  /-- Certificates IDK, AK-EC, AK-PQ in the package partition (R270, R388). -/
  certs : List (Nat × Bytes) := []
  tap : Tap := {}
  mailboxReply : Option (Nat × Bytes) := none
  debugLockedSecond : Option Nat := none
  debugLockedCount : Nat := 0
  debugDeniedSecond : Option Nat := none
  debugDeniedCount : Nat := 0
  deriving DecidableEq, Repr

/-- A capture of the always-on domain (R398). -/
structure Capture where
  sensor : Nat
  data : BitVec 16
  devState : Nat
  step : Nat
  seconds : Nat
  cycles : Nat
  folio : Nat
  erase : Bool
  deriving DecidableEq, Repr

/-- Tamper detection and response (chapter 15, TMP window). -/
structure Tamper where
  latch : Bool := false
  sensor : Nat := 0
  later : Nat := 0
  /-- The capture of the detection that set the latch, which TMP_CAPTURE_INFO reports. -/
  first : Option Capture := none
  /-- Captures not yet recorded, oldest first; at most eight. -/
  captures : List Capture := []
  /-- Bit c: sensor c takes the erase response (configurable sensors). -/
  action : BitVec 29 := 0
  active : BitVec 29 := 0
  alerts : BitVec 29 := 0
  filter : List (Nat × Nat) := []
  /-- Bit k: TAMPER_INk is active high. -/
  level : BitVec 8 := -1
  /-- Consecutive samples at the active level, per switch. -/
  runs : List (Nat × Nat) := []
  erases : Nat := 0
  temps : List (Nat × BitVec 16) := []
  counters : List (Nat × Nat) := []
  /-- Per sensor: the second of the last event 0x01 and the detections since. -/
  alertSeconds : List (Nat × Nat) := []
  alertCounts : List (Nat × Nat) := []
  latchedSecond : Option Nat := none
  /-- Battery-backed RAM: tamper key share and presence word (R396). -/
  share : Bytes := []
  presence : Bool := false
  /-- The crystal has stopped and the internal oscillator runs. -/
  internalOsc : Bool := false
  /-- The egress release (R399). -/
  egress : Bool := true
  /-- The security die's root, L1 and private SRAM hold a formed root in this start. -/
  rootFormed : Bool := false
  deriving DecidableEq, Repr

/-- A memory that MBIST finds failing (R412): of a unit that can be quarantined, named by its source code (Table 18.1),
of a core block, or any other, by its bank. -/
inductive BadMemory where
  | unit (source : Nat)
  | coreBlock (b : Nat)
  | other (bank : Nat)
  deriving DecidableEq, Repr

/-- What the hardware finds at each step of a start (Table 16.1). -/
structure StartEnv where
  /-- Step 1: the firmware's SHA-384 check passes. -/
  firmwareOk : Bool := true
  /-- Step 2: the corrected PUF response, or the number of uncorrectable blocks. -/
  puf : Bytes ⊕ Nat := .inl []
  /-- Step 6: the core clock locks; the gutter link comes up. -/
  clockLock : Bool := true
  gutterUp : Bool := true
  /-- Step 7. -/
  badMemories : List BadMemory := []
  /-- Step 8: an XSPI0 error, with its status. -/
  xspi0 : Option Nat := none
  /-- Step 10: the known-answer tests of the conditioning and of CTR_DRBG. -/
  conditionerOk : Bool := true
  drbgOk : Bool := true
  /-- The samples of the first windows of A and B from step 10 on, and of C from step 1 on, 128 bytes each. -/
  windowsA : List Bytes := []
  windowsB : List Bytes := []
  windowsC : List Bytes := []
  /-- Step 11: an XSPI1 error, with its status. -/
  xspi1 : Option Nat := none
  /-- Step 12: a physical port that does not come up. -/
  portFail : Option Nat := none
  /-- The step that overruns its limit. -/
  hang : Option Nat := none
  /-- Milliseconds each step takes. -/
  ms : List Nat := []
  deriving DecidableEq, Repr

/-- The cause record (R424). -/
structure CauseRec where
  reason : Nat := 0
  step : Nat := 0
  attempt : Nat := 0
  cause : Nat := 0
  data : Nat := 0
  seconds : Nat := 0
  cycles : Nat := 0
  deriving DecidableEq, Repr

/-- An image load (R426). -/
structure ImageLoad where
  /-- 0 none, 1 receiving, 2 writing, 3 written. -/
  state : Nat := 0
  failed : Bool := false
  cause : Nat := 0
  percent : Nat := 0
  len : Nat := 0
  digest : Bytes := []
  /-- The image bytes written so far, and the 256-byte cells written. -/
  mem : List (Nat × Byte) := []
  cells : List Nat := []
  deriving DecidableEq, Repr

/-- A signer of the owner set (R417). -/
structure Signer where
  ec : Bytes
  pq : Bytes
  deriving DecidableEq, Repr

/-- The owner signer set (R417). -/
structure OwnerSet where
  k : Nat
  signers : List Signer
  deriving DecidableEq, Repr

/-- The restart that the device owes (Table 1.7): the next INTERNAL_RESTART performs it. -/
inductive Restart where
  /-- Into START. -/
  | start
  /-- Into START steps 1 to 4 and then RECOVERY (DEV_RESTART TARGET 1). -/
  | recovery
  deriving DecidableEq, Repr

/-- Start-up (chapter 16, BOOT and DEV windows). -/
structure Boot where
  /-- Last step completed, and the step in progress in START. -/
  step : Nat := 0
  running : Option Nat := none
  stepMs : List (Nat × Nat) := []
  /-- Milliseconds since START began. -/
  ms : Nat := 0
  attempts : Nat := 0
  cause : CauseRec := {}
  imgLen : Nat := 0
  imgNumber : Nat := 0
  imgHash : Bytes := []
  imgK : Nat := 0
  imgN : Nat := 0
  imgRecorded : Bool := false
  imgSigned : BitVec 8 := 0
  /-- The recorded rollback number and owner set of the card-registry partition. -/
  rollback : Nat := 0
  ownerSet : Option OwnerSet := none
  load : ImageLoad := {}
  /-- A drain in progress: the folio at which it began and what follows. -/
  drain : Option (Nat × Restart) := none
  vaultMark : Bool := false
  restart : Option Restart := none
  /-- The next start stops after step 4 for RECOVERY (DEV_RESTART TARGET 1). -/
  commanded : Bool := false
  counters : List (Nat × Nat) := []
  /-- Configuration NVM on XSPI0. -/
  nvm0 : List (Nat × Byte) := []
  /-- What the hardware finds in the start in progress: the operand of the command that began it. -/
  env : StartEnv := {}
  deriving DecidableEq, Repr

end Sys2Proof.Machine
end

