-- ==== Sys2Proof/Machine/StCore.lean ====
section
/-! DEFINITION. The state of a core of chapter 06 (transaction, control or security core), of its core block
and of the memory protection units of chapter 07: plain data only. -/

namespace Sys2Proof.Machine

/-- G0, the ALU (R168): operand port A and output port RES. -/
structure AluUnit where
  a : Word64 := 0
  res : Word64 := 0
  deriving DecidableEq, Repr

/-- G1, the LSU (R169, Table 6.10): store-data operand and the output ports LD and SC. -/
structure LsuUnit where
  sd : Word128 := 0
  ld : Word128 := 0
  sc : Word64 := 0
  deriving DecidableEq, Repr

/-- G2, the IOU (R171, Table 6.11). -/
structure IouUnit where
  iod : Word128 := 0
  ior : Word128 := 0
  deriving DecidableEq, Repr

/-- G3, the bit unit (R173, Table 6.12). -/
structure BitUnit where
  bv : Word64 := 0
  res : Word64 := 0
  deriving DecidableEq, Repr

/-- The key types of KSET (Table 6.13a). -/
inductive KeyType where
  | aes128 | aes192 | aes256 | tdes2 | tdes3
  deriving DecidableEq, Repr

/-- G4, SYM (R175): key and chaining operands, the key set in force, OUT, and the two stall conditions of
R165 that SYM has: a TDES operation in progress and the two cycles after KSET. -/
structure SymUnit where
  k0 : Word128 := 0
  k1 : Word128 := 0
  xin : Word128 := 0
  out : Word128 := 0
  /-- The key set at the last KSET, with the operands it was set from; none before the first. -/
  key : Option (KeyType × Word128 × Word128) := none
  /-- A TDES operation is in progress before this cycle (R176). -/
  tdesUntil : Nat := 0
  /-- Block triggers stall before this cycle after a KSET (R165). -/
  ksetUntil : Nat := 0
  deriving DecidableEq, Repr

/-- The algorithms of INIT (R177). -/
inductive HashAlg where
  | sha256 | sha384 | sha512 | sha3 | hmac256 | cmac128 | cmac256
  deriving DecidableEq, Repr

/-- The message that HASH accumulates. -/
inductive HashPhase where
  /-- No message: before the first INIT, or after a FINAL. -/
  | idle
  | open
  | done
  deriving DecidableEq, Repr

/-- G5, HASH (R177, R178). -/
structure HashUnit where
  hk0 : Word128 := 0
  hk1 : Word128 := 0
  hk2 : Word128 := 0
  hk3 : Word128 := 0
  hd : Word128 := 0
  dig0 : Word128 := 0
  dig1 : Word128 := 0
  dig2 : Word128 := 0
  dig3 : Word128 := 0
  phase : HashPhase := .idle
  alg : HashAlg := .sha256
  /-- The key taken at INIT, for HMAC and CMAC. -/
  key : Bytes := []
  /-- The bytes appended so far. -/
  msg : Bytes := []
  /-- Bytes in blocks not yet given to a compression. -/
  waiting : Nat := 0
  /-- A compression is running before this cycle. -/
  busyUntil : Nat := 0
  deriving DecidableEq, Repr

/-- G6, PIN (R179, Table 6.13c). -/
structure PinUnit where
  pan : Word128 := 0
  dtab : Word64 := 0
  fill : Word64 := 0
  da : Word64 := 0
  out : Word128 := 0
  out2 : Word128 := 0
  ok : Word128 := 0
  deriving DecidableEq, Repr

/-- One active counted loop (R182): the address of its body's first bundle, of its last bundle, of the word
after the body, and the iterations still to begin after the current one. -/
structure LoopFrame where
  first : Nat
  last : Nat
  remaining : Nat
  deriving DecidableEq, Repr

/-- G7, CTL (R181): operand ports, mode bits, the loop stack (innermost first) and the mode flags. -/
structure CtlUnit where
  lcnt : Nat := 0
  wb : Nat := 0
  cba : Word64 := 0
  cbt : Nat := 0
  guarded : Bool := false
  btestPass : Bool := false
  modeRefused : Bool := false
  loops : List LoopFrame := []
  deriving DecidableEq, Repr

/-- The output ports a result can mature on (R154). -/
inductive OutPort where
  | aluRes | lsuLd | lsuSc | iouIor | bitRes | symOut | dig0 | dig1 | dig2 | dig3
  | pinOut | pinOut2 | pinOk
  deriving DecidableEq, Repr

/-- A result on its way to an output port: readable by a bundle issued at cycle `ready` or later (R154). -/
structure Result where
  ready : Nat
  port : OutPort
  value : Word128
  deriving DecidableEq, Repr

/-- The spaces of Table 6.7 that a protection unit checks. -/
inductive Space where
  | data | io | bit
  deriving DecidableEq, Repr

/-- A segment or window of a protection unit (R210). -/
structure Region where
  valid : Bool := false
  space : Space := .data
  base : Nat := 0
  limit : Nat := 0
  r : Bool := false
  w : Bool := false
  deriving DecidableEq, Repr

/-- What a delayed access does (R167, R169, R171, R173). -/
inductive AccessOp where
  | load (bytes : Nat)
  | loadReserved
  | store (bytes : Nat) (value : Word128)
  | storeConditional (value : Word64)
  | ioRead (bytes : Nat)
  | ioWrite (bytes : Nat) (value : Word128)
  | bitRead
  | bitWrite (value : Bool)
  | bitTas
  | bitRead64
  | bitWrite64 (value : Word64)
  deriving DecidableEq, Repr

/-- An access that has been issued and not yet performed. -/
structure Access where
  /-- The cycle in which it is performed (R167). -/
  due : Nat
  /-- The cycle from which its result is readable. -/
  ready : Nat
  addr : Nat
  op : AccessOp
  /-- The address of the bundle that issued it, and whether its trigger's source was computed (R201). -/
  pc : Nat
  computed : Bool
  /-- The windows in force at its issue (R215). -/
  windows : List (Nat × Region) := []
  deriving DecidableEq, Repr

/-- What keeps a core from issuing. -/
inductive Stall where
  | none
  /-- A TAKE or DONE has been issued and not yet performed at the Square. -/
  | square
  /-- Waiting to be given a task (R137). -/
  | take
  /-- WAITF: the mask and the cycle after which WB has passed (R183). -/
  | waitf (mask : BitVec 32) (until_ : Nat)
  /-- The bit-space test (R185). -/
  | btest
  /-- HALT, or an illegal bundle or move in plain mode (R181, R185). -/
  | halted
  /-- Held before the instruction spaces are loaded (R184). -/
  | held
  deriving DecidableEq, Repr

/-- The task a core runs: its request slot and graph node (Table 5.4). -/
structure TaskRef where
  slot : Nat
  node : Nat
  /-- The request's placement number: the task lives while the slot holds that request. -/
  req : Nat := 0
  deriving DecidableEq, Repr

/-- The fault record of TC_FAULT, TC_FAULT_PC and TC_FAULT_ADDR. -/
structure CoreFault where
  status : Nat := 0
  cause : Nat := 0
  kind : Nat := 0
  pc : Nat := 0
  addr : Nat := 0
  deriving DecidableEq, Repr

/-- A core of chapter 06. Cores 0–127 are TC0–TC127, 128–131 are CC0–CC3, 132 is the security core. -/
structure Core where
  g : List (Nat × Word64) := []
  w : List (Nat × Word128) := []
  alu : AluUnit := {}
  lsu : LsuUnit := {}
  iou : IouUnit := {}
  bitu : BitUnit := {}
  sym : SymUnit := {}
  hash : HashUnit := {}
  pin : PinUnit := {}
  ctl : CtlUnit := {}
  /-- Instruction address of the next bundle. -/
  pc : Nat := 0
  /-- The cycle, of the core's own count, at which the next bundle issues at the earliest. -/
  time : Nat := 0
  stall : Stall := .none
  results : List Result := []
  accesses : List Access := []
  reservation : Option Nat := none
  /-- Local bits 1–31 and 64–65,535 that are 1. -/
  bits : List (Nat × Bool) := []
  dmem : List (Nat × Byte) := []
  /-- Bytes 0x1_0000–0x1_FFFF and the 128 KiB SRAM at 0x10_0000 of the security core (Table 6.1). -/
  xmem : List (Nat × Byte) := []
  imem : List (Nat × Word32) := []
  task : Option TaskRef := none
  /-- The task word TAKE returned, before and after ENTER (R186). -/
  taskWord : Word64 := 0
  entered : Bool := false
  privileged : Bool := false
  budget : Nat := 0
  /-- The cycle in which the Square gave the task: the budget counts from it (R187). -/
  givenAt : Nat := 0
  /-- The tenant of the previous task; none before the first since reset or test (R139). -/
  lastTenant : Option Nat := none
  /-- The address of the bundle after the last TAKE bundle (R188). -/
  resume : Nat := 0
  /-- The STATUS and LENGTH of a DONE or a core-supplied status, set when the task has ended. -/
  fault : CoreFault := {}
  counters : List (Nat × Nat) := []
  deriving DecidableEq, Repr

/-- A memory protection unit (R210, MPU window). -/
structure Mpu where
  tenant : Nat := 0
  privileged : Bool := false
  segments : List (Nat × Region) := []
  windows : List (Nat × Region) := []
  faulted : Bool := false
  faultKind : Nat := 0
  faultSpace : Nat := 0
  faultWrite : Bool := false
  faultAddr : Nat := 0
  faults : Nat := 0
  deriving DecidableEq, Repr

end Sys2Proof.Machine
end

