-- ==== Sys2Proof/Machine/StImage.lean ====
section
/-! DEFINITION. What the configuration image carries (Table 16.3), as the sections' chapters name it, and the
function library entries of chapter 07: plain data only. The byte encodings of the sections are not in the spec
(log entry 9): the image's bytes are read by an opaque function of Config. -/

namespace Sys2Proof.Machine

/-- Service classes (Table 2.3) are their 3-bit codes 0–7. -/
abbrev ClassCode := Nat

/-- A function's cost record (R92). -/
structure Cost where
  core : Nat := 0
  bn : Nat := 0
  bulk : Nat := 0
  rand : Nat := 0
  lmax : Nat := 0
  span : Nat := 0
  /-- Bit b: placed on core block b. -/
  place : Nat := 0
  deriving DecidableEq, Repr

/-- A wait-table entry (Table 7.2). -/
structure WaitEntry where
  offset : Nat
  kind : Nat
  param : Nat
  deriving DecidableEq, Repr

/-- A submission-table entry (Table 7.2). -/
structure SubEntry where
  offset : Nat
  cls : Nat
  amount : Nat
  deriving DecidableEq, Repr

/-- A function entry of the image (Tables 7.1 and 7.2). -/
structure FnEntry where
  code : Nat := 0
  tenant : Nat := 0
  kind : Nat := 0
  stateChanging : Bool := false
  privileged : Bool := false
  nodes : List Nat := [0]
  claimCore : Nat := 0
  claimBn : Nat := 0
  claimBulk : Nat := 0
  claimRand : Nat := 0
  lmax : Nat := 0
  lenMin : Nat := 0
  lenMax : Nat := 0
  place : Nat := 0
  waits : List WaitEntry := []
  subs : List SubEntry := []
  words : List Word32 := []
  /-- The header breaks Table 7.1 in a reserved field, or the parts do not fill the entry (reason FORMAT). -/
  malformed : Bool := false
  deriving DecidableEq, Repr

/-- A library entry as the load left it (R199, TC_LIB_RESULT). -/
structure FnRec where
  entry : FnEntry
  /-- Reason of Table 7.3; 0 when loaded. -/
  reason : Nat := 0
  placed : Nat := 0
  proved : Nat := 0
  jf : Nat := 0
  span : Nat := 0
  /-- Address of the entry's code on each block it is placed on. -/
  addr : List (Nat × Nat) := []
  deriving DecidableEq, Repr

/-- A logical port's part of the ports section. -/
structure PortImage where
  present : Bool := false
  mode : Nat := 0
  ifc : Nat := 0
  macsec : Bool := false
  /-- The PTP service runs here (R64). -/
  ptp : Bool := false
  vlan : Nat := 0
  mac : Nat := 0
  /-- IPv4 and IPv6 addresses by index, 0 meaning unused, and those held by the active only (R433). -/
  ipv4 : List (Nat × Nat) := []
  ipv6 : List (Nat × Nat) := []
  service4 : List Nat := []
  service6 : List Nat := []
  vlans : List Nat := []
  /-- Prefix lengths by index, and the default gateways (R60). -/
  prefix4 : List (Nat × Nat) := []
  prefix6 : List (Nat × Nat) := []
  gateway4 : Nat := 0
  gateway6 : Nat := 0
  keyPriority : Nat := 0
  replayWindow : Nat := 0
  deriving DecidableEq, Repr

/-- A tenant's part of the image. -/
structure TenantImage where
  channelQuota : Nat := 0
  hsRate : Nat := 64
  slotQuota : Nat := 0
  cellQuota : Nat := 0
  cacheQuota : Nat := 0
  residentQuota : Nat := 0
  streamQuota : Nat := 0
  curveQuota : Nat := 0
  vlan : Option Nat := none
  pcp : Nat := 0
  /-- Translation from format 1 is allowed (R232). -/
  fromFormat1 : Bool := false
  /-- Standard function codes enabled (R197). -/
  enabled : List Nat := []
  cards : List Card := []
  /-- Quorum per role. -/
  quorums : List (Nat × Nat) := []
  clientKeys : List (Nat × ClientKey) := []
  /-- The package of custom functions as it is signed and approved (R194, R354). -/
  package : Bytes := []
  deriving DecidableEq, Repr

/-- A queue's attributes (Table 5.1). -/
structure QueueImage where
  owner : Nat := 0
  priority : Nat := 0
  mode : Nat := 0
  ceiling : Nat := 0
  deriving DecidableEq, Repr

/-- The recovery record (R420). -/
structure RecoveryRec where
  ifc : Nat := 2
  mac : Nat := 0
  ipv4 : List (Nat × Nat) := []
  ipv6 : List (Nat × Nat) := []
  gateway4 : Nat := 0
  gateway6 : Nat := 0
  udpPort : Nat := 47310
  keys : List (Nat × ClientKey) := []
  deriving DecidableEq, Repr

/-- An offline approval (R354): the scope whose section or package it approves, and its valid card serials. -/
structure Approval where
  /-- 0: the tenants section; otherwise the tenant whose package it approves. -/
  target : Nat
  sigs : List (Nat × Bytes)
  deriving DecidableEq, Repr

/-- The values of an image (Table 16.3). -/
structure Image where
  -- device
  ownerSet : Option OwnerSet := none
  recovery : RecoveryRec := {}
  tamperAction : BitVec 29 := 0
  switchFilter : List (Nat × Nat) := []
  switchLevel : BitVec 8 := -1
  cards : List Card := []
  quorums : List (Nat × Nat) := []
  rngActive : Nat := 0
  rngPers : Bytes := []
  rngThresholds : List (Nat × Nat) := []
  lifeMax : Nat := 0x0ABA9500
  policy : BitVec 256 := -1
  -- ports
  ports : List (Nat × PortImage) := []
  srpPort : Nat := 47310
  hsMs : Nat := 1000
  idleS : Nat := 600
  -- folio
  periodUs : Nat := 10
  syncMode : Nat := 0
  ptpPort : Nat := 3
  ptpDomain : Nat := 0
  asymmetry : Int := 0
  acquireUs : Nat := 1000000
  -- tenants and queues
  tenants : List (Nat × TenantImage) := []
  queues : List (Nat × QueueImage) := []
  /-- Values of the ST registers of groups 1 to 4 by address (ADM, SQ, PWR windows). -/
  st : List (Nat × Nat) := []
  -- library
  functions : List FnEntry := []
  placement : List (Nat × Nat) := []
  /-- Segments 6–15 of tenant t on block b, keyed t × 16 + b. -/
  segments : List (Nat × List Region) := []
  /-- Instruction words 0x0_0000–0x0_0FFF: the core firmware, by word index. -/
  firmware : List (Nat × Word32) := []
  -- power plan
  qMap : List (Nat × Nat) := []
  idleHold : Nat := 16
  warmAt : Int := 2240
  pmcInterval : Nat := 0
  -- pairing
  horizon : Nat := 4
  hop : Nat := 10
  budget : Nat := 32768
  memberA : Nat := 0
  memberB : Nat := 8
  peers : List Bytes := []
  journalQueue : Nat := 0
  -- approvals
  approvals : List Approval := []
  deriving DecidableEq, Repr

end Sys2Proof.Machine
end

