-- ==== Sys2Proof/Machine/StBlock.lean ====
section
/-! DEFINITION. The state of the device and its folio (chapters 01, 02), the ports and channels (03), admission (04),
the Square (05), pairing (17), the recorder, the counters and the power districts (18): plain data only. -/

namespace Sys2Proof.Machine

/-- The device states of Table 1.6. -/
inductive DevState where
  | reset | start | service | standby | recovery | tampered | sleep
  deriving DecidableEq, Repr

/-- The device, its supply pins and its units (chapter 01). -/
structure Dev where
  state : DevState := .reset
  entryFolio : Nat := 0
  pwrGood : Bool := true
  resetN : Bool := true
  mainRails : Bool := true
  vsec : Bool := true
  vidValid : Bool := true
  /-- Units quarantined until the next start, by source code (Table 18.1). -/
  quarantined : List Nat := []
  /-- Gutter link (R13, R14): keyed in this start, both keys, and the next frame count that the compute die (Tx) and the
  security die (Rx) expect. -/
  gutterKeyed : Bool := false
  gutterKey : Bytes := []
  gutterTx : Nat := 0
  gutterRx : Nat := 0
  deriving DecidableEq, Repr

/-- Sync modes (R27). -/
inductive SyncMode where
  | free | ptp | ptpPps
  deriving DecidableEq, Repr

/-- Sync states (Table 2.2). -/
inductive SyncState where
  | free | acquire | locked | holdover | unaligned
  deriving DecidableEq, Repr

/-- States of a commit group. -/
inductive GroupState where
  | clean | dirty | armed
  deriving DecidableEq, Repr

/-- A commit group (R45–R48): its staged values are held over the values in effect, by register address. -/
structure Group where
  state : GroupState := .clean
  writes : Nat := 0
  lastRefused : Bool := false
  folio : Nat := 0
  staged : List (Nat × Nat) := []
  deriving DecidableEq, Repr

/-- Effects applied at a tick (R43, R44). -/
inductive TickEffect where
  /-- A commit group takes effect. -/
  | commitGroup (g : Nat)
  /-- An SMK generation becomes current, pending or retires (R255); shares travel in the effect. -/
  | smkCreate (t j : Nat) (g : SmkGen)
  | smkBegin (t j : Nat) (g : SmkGen)
  | smkComplete (t j : Nat)
  | smkAbort (t j : Nat)
  | smkInvalidate (t j : Nat)
  | residentDelete (slot : Nat)
  | clientKeySet (t index : Nat) (k : ClientKey)
  | cardRevoke (serial : Nat)
  | cardFree (serial : Nat)
  | quorumSet (scope role m : Nat)
  | cakSet (lport : Nat) (ckn cak : Bytes)
  | curveDelete (index : Nat)
  | drainBegin (recovery : Bool)
  | handoverDrain
  | declareTakeover (cause : Nat)
  | pmcSnap
  deriving DecidableEq, Repr

/-- An armed tick effect (R43, R505): the request that armed it, none when its commit point has passed. -/
structure ArmedEffect where
  /-- Folio whose tick applies it; none while the arming command has no commit point. -/
  folio : Option Nat
  slot : Option Nat
  effect : TickEffect
  deriving DecidableEq, Repr

/-- The ordinary clock of R64: its parent, the Sync waiting for its Follow_Up, and the last measurement, in nanoseconds. -/
structure PtpClock where
  parent : Option Nat := none
  /-- Rank of the parent's Announce data set in the best master clock algorithm (lower is better). -/
  parentRank : Nat := 0
  /-- Sequence number and arrival time of a two-step Sync. -/
  pendingSync : Option (Nat × Int) := none
  /-- A Sync has been measured; t1 and t2 of the last one. -/
  valid : Bool := false
  t1 : Int := 0
  t2 : Int := 0
  /-- A Delay_Req waits for its Delay_Resp. -/
  reqOpen : Bool := false
  /-- Mean path delay. -/
  delay : Int := 0
  /-- Delay_Req messages sent in this second (R64), and that second. -/
  reqs : Nat := 0
  reqSecond : Nat := 0
  deriving DecidableEq, Repr

/-- The folio tick (chapter 02, FOLIO window). -/
structure Folio where
  periodUs : Nat := 10
  now : Nat := 0
  delayTick : Nat := 0
  mode : SyncMode := .free
  sync : SyncState := .free
  stepped : Bool := false
  ptpPort : Nat := 3
  offset : Int := 0
  slewLast : Int := 0
  /-- Core cycles still to slew from the last offset. -/
  slewLeft : Int := 0
  sinceSync : Nat := 0
  goodRun : Nat := 0
  acquiring : Bool := false
  pps : Bool := false
  commitIndex : Nat := 0
  groups : List (Nat × Group) := []
  effects : List ArmedEffect := []
  ptp : PtpClock := {}
  /-- Ticks since compute-die release: device seconds for the per-second limits are counted from it. -/
  ticks : Nat := 0
  deriving DecidableEq, Repr

/-- A neighbour-cache entry (R61). -/
structure Neighbour where
  addr : Nat
  mac : Nat
  /-- Seconds of device time when it was entered. -/
  since : Nat
  deriving DecidableEq, Repr

/-- A datagram's addresses: what a reply to it uses (R82). -/
structure Source4 where
  mac : Nat := 0
  ip : Nat := 0
  v6 : Bool := false
  port : Nat := 0
  dstIp : Nat := 0
  vlan : Option Nat := none
  deriving DecidableEq, Repr

/-- An SRP datagram as it came out of UDP (R66), with its logical port and addresses. -/
structure Dgram where
  lport : Nat := 0
  src : Source4 := {}
  bytes : Bytes := []
  deriving DecidableEq, Repr

/-- A frame formed and not yet left (R82, R83): the reply slots it carries. -/
structure TxFrame where
  bytes : Bytes
  dst : Source4
  slots : List Nat := []
  deriving DecidableEq, Repr

/-- Duplicate Address Detection of an IPv6 address, or the ARP probe of an IPv4 one (R61). -/
inductive AddrState where
  | untested | probing | ok | conflict
  deriving DecidableEq, Repr

/-- A MACsec security association in use (R57). -/
structure Sa where
  sci : Nat
  an : Nat
  keyNumber : Nat
  sak : Bytes
  nextPn : Nat := 1
  deriving DecidableEq, Repr

/-- A logical port (chapter 03, PORT window). -/
structure Port where
  cfg : PortImage := {}
  speed : Nat := 7
  link : Bool := false
  pcsLock : Bool := false
  fecOk : Bool := false
  ipReady : Bool := false
  macsecLive : Bool := false
  events : BitVec 6 := 0
  counters : List (Nat × Nat) := []
  neighbours : List Neighbour := []
  addr4 : List (Nat × AddrState) := []
  addr6 : List (Nat × AddrState) := []
  ckn : Bytes := []
  cak : Bytes := []
  txSa : Option Sa := none
  rxSas : List Sa := []
  peers : List Nat := []
  ingress : List Dgram := []
  tx : List TxFrame := []
  /-- Per device second: the second, echoes answered, tag failures, replay refusals, and events raised once. -/
  second : Nat := 0
  echoes : Nat := 0
  tagFails : Nat := 0
  replays : Nat := 0
  tagRaised : Bool := false
  replayRaised : Bool := false
  /-- Status balance in 1/1,280,000 of a wire byte (R113). -/
  balance : Int := 0
  /-- NACKs and other frames waiting for the status allowance, in the order in which they arose; an entry without bytes holds the
  place of the status reply of its slot (R113). -/
  waiting : List TxFrame := []
  deriving DecidableEq, Repr

/-- Channel states (R75). -/
inductive ChanState where
  | free | pending | open | closing
  deriving DecidableEq, Repr

/-- A channel (R75, R78, R81). -/
structure Channel where
  state : ChanState := .free
  gen : Nat := 0
  /-- Physical port: 0 A, 1 B, 2 M. -/
  phys : Nat := 0
  authAlg : Nat := 0
  tenant : Nat := 0
  clientKey : Nat := 0
  rxHigh : Nat := 0
  /-- Bit i: sequence H − i has been accepted. -/
  rxBits : BitVec 1024 := 0
  txSeq : Nat := 0
  idle : Nat := 0
  src : Source4 := {}
  lport : Nat := 0
  hs1 : Bytes := []
  hs2 : Bytes := []
  hsC : Bytes := []
  hsD : Bytes := []
  prk : Bytes := []
  /-- Key (32) and salt (4) of each direction. -/
  c2d : Bytes := []
  d2c : Bytes := []
  /-- The tick at which its HS1 was admitted: the handshake timeout counts from it (R77). -/
  admitted : Option Nat := none
  cause : Nat := 0
  /-- The device is the client of this member channel (R439), of the member in this record slot. -/
  member : Option Nat := none
  /-- The identifier that the server gave a member channel; its header carries it. -/
  peerId : Option Nat := none
  /-- Selector registers and HI captures of a device-domain channel, by register address. -/
  sel : List (Nat × Nat) := []
  deriving DecidableEq, Repr

/-- The SRP engines (chapter 03, SRP window). -/
structure Srp where
  udpPort : Nat := 47310
  idleS : Nat := 600
  hsMs : Nat := 1000
  events : BitVec 4 := 0
  counters : List (Nat × Nat) := []
  channels : List (Nat × Channel) := []
  /-- Handshakes admitted in this device second, per tenant, and that second. -/
  hsSecond : Nat := 0
  hsCount : List (Nat × Nat) := []
  deriving DecidableEq, Repr

/-- A hold kind (R101). -/
inductive ChargeKind where
  | frontage | plaza
  deriving DecidableEq, Repr

/-- A charge record of the ledger (R94, R95). -/
structure Charge where
  /-- The request's placement number, and its tenant. -/
  req : Nat
  tenant : Nat
  kind : ChargeKind
  block : Option Nat
  lport : Nat
  /-- First folio, span, and last egress folio. -/
  b : Nat
  span : Nat
  last : Nat
  core : Nat
  bn : Nat
  bulk : Nat
  rand : Nat
  egress : Nat
  /-- Tick and place of the decision (R119). -/
  tick : Nat
  order : Nat
  deriving DecidableEq, Repr

/-- Admission (chapter 04, ADM window). -/
structure Adm where
  events : BitVec 8 := 0
  counters : List (Nat × Nat) := []
  /-- Values in effect of the ST registers of all groups, by address. -/
  st : List (Nat × Nat) := []
  ledger : List Charge := []
  examined : Nat := 0
  admitted : Nat := 0
  undecided : Nat := 0
  owed : Nat := 0
  /-- RETRY count by folio (R117). -/
  retries : List (Nat × Nat) := []
  /-- Requests decided so far (R119's order). -/
  decided : Nat := 0
  /-- Slots whose status reply waits for the status allowance, in the order answered (R113). -/
  deferred : List Nat := []
  deriving DecidableEq, Repr

/-- Slot states (Table 5.2). -/
inductive SlotState where
  | free | queued | admitted | ready | running | held | sending
  deriving DecidableEq, Repr

/-- A node of a request: a request that is not a graph has node 0 alone (R133, R149). -/
structure Node where
  flags : BitVec 32 := 0
  mask : BitVec 32 := 0
  prog : Nat := 0
  inEdges : Nat := 0
  opdOff : Nat := 0
  opdLen : Nat := 0
  core : Option Nat := none
  ended : Bool := false
  status : Nat := 0
  given : Bool := false
  deriving DecidableEq, Repr

/-- What a task's commit point brings about with status OK (R34, R44): applied together, in order. -/
inductive Effect where
  /-- Arm a tick effect for the folio after the commit point. -/
  | arm (e : TickEffect)
  | loadResident (unit : Nat) (r : Resident)
  | claim (unit value : Nat)
  | sessionOpen (index : Nat) (s : Session)
  | sessionClose (index : Nat)
  | signature (index serial : Nat)
  | cardRegister (c : Card)
  | mgmtWrite (addr : Nat) (words : List Nat) (chan : Nat)
  | lcTransition
  | debugArm (starts grantState : Nat) (quorum : Bool)
  | debugEnd
  | certLoad (index : Nat) (cert : Bytes)
  | latchClear (session : Nat)
  | restartNow (commanded : Bool)
  | imageWrite
  | curveLoad (index : Nat) (c : CurveRec)
  | pairOffer (offer : Bytes) (keys : Bytes) (nonce : Bytes)
  | pairAccept (record : Bytes) (pairKey : Bytes) (serial epoch : Nat) (keys : Bytes)
  | pairConfirm (pairKey : Bytes) (serial : Nat) (idHash keys : Bytes)
  | pairLeave (erase : Bool)
  | channelOpen (c : Nat) (c2d d2c : Bytes)
  | channelRefuse (c : Nat)
  | hs2 (c : Nat) (hs2 prk hsC hsD : Bytes)
  | cardLocal (session iface : Nat)
  | clearStaging
  | eventOnCommit (code source tenant : Nat) (data : Bytes)
  deriving DecidableEq, Repr

/-- What a function computed: its status and result. -/
structure Outcome where
  status : Nat
  result : Bytes
  deriving DecidableEq, Repr

/-- What REC_HEAD reports, as it stood at the request's admission tick (R467). -/
structure RecHead where
  frontCount : Nat := 0
  frontChain : Bytes := []
  next : Nat := 0
  tailChain : Bytes := []
  oldest : Nat := 0
  deriving DecidableEq, Repr

/-- A request slot (R129–R131): the descriptor and its cells. -/
structure Slot where
  state : SlotState := .free
  /-- Placement number: unique, rising in placement order (R72). -/
  req : Nat := 0
  queue : Nat := 0
  cls : ClassCode := 0
  func : Nat := 0
  tenant : Nat := 0
  orderKey : Nat := 0
  patience : Nat := 0
  chan : Nat := 0
  chanGen : Nat := 0
  lport : Nat := 0
  src : Source4 := {}
  reqSeq : Nat := 0
  reqIndex : Nat := 0
  noGather : Bool := false
  /-- The type is BULK (AUX and ORDER_KEY name the segment and stream). -/
  aux : Nat := 0
  bulk : Bool := false
  mailbox : Bool := false
  arrival : Nat := 0
  payload : Bytes := []
  /-- The result cells, byte k at key k. -/
  window : List (Nat × Byte) := []
  cells : Nat := 0
  /-- Refused at placement: the status to answer (R73). -/
  refused : Option Nat := none
  /-- A status answered and waiting (R113 deferral, R145 hold). -/
  answer : Option Nat := none
  /-- The reply has reached the sequencer and waits for an earlier reply (R145). -/
  inOrder : Bool := false
  admitTick : Nat := 0
  decision : Nat := 0
  kind : ChargeKind := .frontage
  block : Option Nat := none
  start : Nat := 0
  deadline : Nat := 0
  cost : Cost := {}
  replaced : Bool := false
  /-- Stopped by a detected error: to be re-placed at the next tick (R116). -/
  toReplace : Bool := false
  nodes : List (Nat × Node) := []
  graphFail : Option Nat := none
  outcome : Option Outcome := none
  effects : List Effect := []
  /-- The session the task holds IN_USE (R359). -/
  session : Option Nat := none
  /-- Counter-record claims of the task (R264): resident unit and value. -/
  claims : List (Nat × Nat) := []
  /-- The commit point: folio and index, and the reply's status and result (R34). -/
  commit : Option (Nat × Nat) := none
  status : Nat := 0
  result : Bytes := []
  /-- The reply waits for the journal acknowledgement of its batch (R444). -/
  journalHeld : Bool := false
  /-- In a frame formed and not yet left. -/
  formed : Bool := false
  /-- The recorder's heads at the admission tick of a REC_HEAD. -/
  head : Option RecHead := none
  deriving DecidableEq, Repr

/-- A ready-list entry (R136). -/
structure ReadyEntry where
  slot : Nat
  node : Nat
  block : Nat
  deriving DecidableEq, Repr

/-- A delay-list entry (R142): a START time of a slot, or a DELAY time of one of its tasks. -/
structure DelayEntry where
  time : Nat
  slot : Nat
  node : Option Nat
  deriving DecidableEq, Repr

/-- The Square (chapter 05, SQ window). -/
structure Square where
  queues : List (Nat × QueueImage) := []
  slots : List (Nat × Slot) := []
  ready : List (Nat × List ReadyEntry) := []
  delays : List (Nat × List DelayEntry) := []
  /-- Cores stalled at TAKE, the earliest first (R137). -/
  takers : List Nat := []
  events : BitVec 5 := 0
  counters : List (Nat × Nat) := []
  /-- Placement numbers given out. -/
  placed : Nat := 0
  /-- Cells the tenant pool takes (R337). -/
  poolCells : Nat := 0
  deriving DecidableEq, Repr

/-- The function library in service (chapter 07, TC window). -/
structure Library where
  fns : List FnRec := []
  dispatch : List (Nat × Nat) := []
  hashes : List (Nat × Bytes) := []
  concurrency : Nat := 0
  placement : List (Nat × Nat) := []
  segments : List (Nat × List Region) := []
  deriving DecidableEq, Repr

/-- The cores, core blocks and protection units (chapters 06, 07). -/
structure Cores where
  core : List (Nat × Core) := []
  /-- Core-block memory and shared bits, per block. -/
  blockMem : List (Nat × List (Nat × Byte)) := []
  blockBits : List (Nat × List (Nat × Bool)) := []
  /-- Reservations are held in the cores; units 0–158 of Table 7.7. -/
  mpu : List (Nat × Mpu) := []
  mpuDenied : Bool := false
  mpuLockedHit : Bool := false
  mpuDbgAddr : Nat := 0
  library : Library := {}
  /-- Key-store, big-number, random and bulk ports of each core. -/
  handles : List (Nat × List (Nat × Handle)) := []
  kdig : List (Nat × Word128) := []
  /-- A lookup, derived lookup or advance awaits KEY_RESIDENT; the handle of an unwrap in progress, plus 1. -/
  keyBusy : List (Nat × Bool) := []
  unwrap : List (Nat × Nat) := []
  cstat : List (Nat × Nat) := []
  /-- Event 0xA5 by tenant: the device second of the last one plus 1, and the faults counted since (R216). -/
  faultSecond : List (Nat × Nat) := []
  faultCount : List (Nat × Nat) := []
  bn : List (Nat × List (Nat × BnHandle)) := []
  rand : List (Nat × RandPort) := []
  bulk : List (Nat × BulkStat) := []
  deriving DecidableEq, Repr

/-- A vault batch (R267, R446): its number, its chain value, and the changes it seals. -/
structure VaultBatch where
  seq : Nat
  chain : Bytes
  body : Bytes
  fenceFlush : Bool := false
  deriving DecidableEq, Repr

/-- What the vault's sealed stores hold once every batch is consolidated (R267): what an unseal restores. -/
structure Vault where
  smk : List (Nat × SmkSlot) := []
  resident : List (Nat × Resident) := []
  clientKeys : List (Nat × ClientKey) := []
  /-- The chain record and pair keys a member seals (R432). -/
  chainRecord : Bytes := []
  pairKey : Bytes := []
  chainKey : Bytes := []
  /-- Public keys of the chain's members by record slot, and the CONFIG records of the journal in order (R439, R450). -/
  memberKeys : List (Nat × Bytes) := []
  config : List Bytes := []
  deriving DecidableEq, Repr

/-- The key store (chapter 09, KS window). -/
structure KeyStore where
  /-- KS_STATE.ROOT: 0 none, 1 L0, 2 test root. -/
  root : Nat := 0
  unsealed : Bool := false
  refresh : Bool := false
  refreshUnit : Nat := 0
  passes : Nat := 0
  events : BitVec 5 := 0
  counters : List (Nat × Nat) := []
  l1 : Bytes := []
  vaultKey : Bytes := []
  scramble : Bytes := []
  /-- Identity keys of the device region: IDK and AK-EC scalars, AK-PQ seed (R246). -/
  idk : Bytes := []
  akEc : Bytes := []
  akPq : Bytes := []
  attestId : Bytes := []
  certs : List (Nat × Bytes) := []
  /-- SMK slots, keyed 8t + j. -/
  smk : List (Nat × SmkSlot) := []
  /-- Resident bindings by first unit. -/
  resident : List (Nat × Resident) := []
  /-- Cache bindings, the least recently resolved first. -/
  cache : List CacheBinding := []
  /-- Client keys, keyed 64t + index. -/
  clientKeys : List (Nat × ClientKey) := []
  cacheQuota : List (Nat × Nat) := []
  residentQuota : List (Nat × Nat) := []
  /-- KEY_INVALID and KEY_REVOKED answers in this device second, keyed by tenant (0x68, 0x69). -/
  rateSecond : Nat := 0
  invalidCount : List (Nat × Nat) := []
  revokedCount : List (Nat × Nat) := []
  /-- Changes waiting for a vault batch, and the folio of the oldest. -/
  changes : Nat := 0
  oldest : Option Nat := none
  deriving DecidableEq, Repr

/-- The vault NVM on XSPI1 and what the security die holds of it in battery-backed RAM (R267). -/
structure VaultNvm where
  batches : List VaultBatch := []
  store : Vault := {}
  seq : Nat := 0
  heldSeq : Nat := 0
  heldChain : Bytes := []
  /-- Batches of old chains not yet erased (R417). -/
  old : List VaultBatch := []
  /-- A standby's appended journal batches, folio and clear records, oldest first, not yet consolidated (R446). -/
  log : List (Nat × List (Nat × Bytes)) := []
  /-- The folio up to which a standby holds every batch. -/
  heldFolio : Nat := 0
  deriving DecidableEq, Repr

/-- One member of the chain record (Table 17.1). -/
structure Member where
  serial : Nat := 0
  position : Nat := 0
  /-- 0 empty, 1 IN_CHAIN, 2 SYNCING. -/
  state : Nat := 0
  idHash : Bytes := []
  /-- Public keys of the member, learnt at pairing or from a snapshot: IDK (97), AK-EC (97), AK-PQ (1,952). -/
  keys : Bytes := []
  /-- HELD last reported, and folios since Port A and Port B carried something. -/
  held : Nat := 0
  silentA : Nat := 0
  silentB : Nat := 0
  deriving DecidableEq, Repr

/-- A stored journal batch part (R442, R445). -/
structure BatchPart where
  folio : Nat
  part : Nat
  parts : Nat
  records : Bytes
  deriving DecidableEq, Repr

/-- A peer object in the staging area (R434). -/
structure Staged where
  total : Nat := 0
  mem : List (Nat × Byte) := []
  /-- Offsets and lengths written. -/
  covered : List (Nat × Nat) := []
  deriving DecidableEq, Repr

/-- Pairing and the journal (chapter 17, PAIR window). -/
structure Pair where
  epoch : Nat := 0
  members : List (Nat × Member) := []
  /-- Number of members; 0 while no record is held. -/
  count : Nat := 0
  slot : Nat := 0
  confirmed : Bool := true
  horizon : Nat := 4
  hop : Nat := 10
  budget : Nat := 32768
  memberA : Nat := 0
  memberB : Nat := 8
  peers : List Bytes := []
  journalQueue : Nat := 0
  /-- Active: last batch acknowledged. Standby: HELD. -/
  held : Nat := 0
  ackSilence : Nat := 0
  aheadSilence : Nat := 0
  /-- The silence timer runs: a heartbeat has come from ahead since the restart (R449). -/
  timer : Bool := false
  events : BitVec 5 := 0
  counters : List (Nat × Nat) := []
  chainKey : Bytes := []
  pairKey : Bytes := []
  staging : List (Nat × Staged) := []
  /-- The offer made, its private keys and nonce (R435). -/
  offer : Bytes := []
  offerKeys : Bytes := []
  offerNonce : Bytes := []
  offerEpoch : Nat := 0
  /-- Journal records of the current folio's batch, kind and clear body (Table 17.5), and the reservations sent and not yet
  acknowledged: folio, resident slot, high-water mark (R262, R447). -/
  records : List (Nat × Bytes) := []
  sent : List (Nat × Nat × Nat) := []
  /-- The parts of the last 4,096 folios, kept by every member (R445). -/
  parts : List BatchPart := []
  /-- Snapshot parts received, by number, of how many (R438). -/
  snapshot : List (Nat × Bytes) := []
  snapshotParts : Nat := 0
  /-- The snapshot being sent: parts still to send, how many in all, and the record slot it goes to. -/
  snapOut : List (Nat × Bytes) := []
  snapTotal : Nat := 0
  snapTo : Nat := 0
  /-- Takeover declared: the folio, and the cause of event 0xD5 (R449, R450). -/
  takeover : Option (Nat × Nat) := none
  lagSecond : Option Nat := none
  /-- A handover is under way: the folio of the HANDOVER batch (R451). -/
  handover : Option Nat := none
  deriving DecidableEq, Repr

/-- A record of the recorder (Table 18.2) before its CHAIN field. -/
structure Record where
  seconds : Nat
  cycles : Nat
  folio : Nat
  code : Nat
  source : Nat
  tenant : Nat
  front : Bool := false
  deferred : Bool := false
  data : Bytes
  /-- The CHAIN field, once written. -/
  chain : Bytes := []
  deriving DecidableEq, Repr

/-- The event recorder and the counters of the security die (chapter 18, REC window). -/
structure Recorder where
  policy : BitVec 256 := -1
  /-- Records offered and not yet written, oldest first; whether each has taken a token. -/
  offered : List Record := []
  /-- Events of RESET and START before step 4, held by the security die (R465). -/
  deferred : List Record := []
  frontCount : Nat := 0
  front : List (Nat × Record) := []
  frontChain : Bytes := []
  tail : List (Nat × Record) := []
  tailChain : Bytes := []
  next : Nat := 0
  oldest : Nat := 0
  bucket : Nat := 512
  /-- Suppressed counts of the eight ranges (R464). -/
  suppressed : List (Nat × Nat) := []
  counters : List (Nat × Nat) := []
  sectors : Nat := 66
  spares : Nat := 8
  seconds : Nat := 0
  cycles : Nat := 0
  storedSeconds : Nat := 0
  storedCycles : Nat := 0
  sleepEntryStored : Bool := true
  /-- The next start follows a rise of PWRGOOD (R461). -/
  coldStart : Bool := true
  everDeployed : Bool := false
  deriving DecidableEq, Repr

/-- The performance counters (R468–R470, PMC window). -/
structure Pmc where
  interval : Nat := 0
  snapAsked : Bool := false
  seq : Nat := 0
  cause : Nat := 0
  pageFolio : Nat := 0
  select : List (Nat × Nat) := []
  live : List (Nat × Nat) := []
  page0 : List (Nat × Nat) := []
  page1 : List (Nat × Nat) := []
  latest : Bool := false
  ovf : List (Nat × Bool) := []
  wrapSecond : Option Nat := none
  deriving DecidableEq, Repr

/-- Power-district states (Table 18.7). -/
inductive DistrictState where
  | active | gated | retain | off
  deriving DecidableEq, Repr

/-- A power district (R475–R477). -/
structure District where
  state : DistrictState := .active
  waking : Bool := false
  /-- Its ready folio has come, and it is not ready (R118). -/
  late : Bool := false
  wakeStart : Nat := 0
  ready : Nat := 0
  idle : Nat := 0
  /-- Something made it busy in the folio in progress (R477). -/
  busy : Bool := false
  deriving DecidableEq, Repr

/-- The power controller (chapter 18, PWR window). -/
structure Power where
  districts : List (Nat × District) := []
  idleHold : Nat := 16
  qMap : List (Nat × Nat) := []
  thermal : Nat := 0
  warmAt : Int := 2240
  tmax : BitVec 16 := 0x8000
  counters : List (Nat × Nat) := []
  deriving DecidableEq, Repr

/-- Detected errors and targeted tests (R471–R474), by unit (source code of Table 18.1). -/
structure Faults where
  /-- Units marked for withdrawal at the next tick. -/
  marked : List Nat := []
  /-- Units under test, or waiting for their district to wake. -/
  withdrawn : List Nat := []
  /-- Device seconds of each unit's detected errors. -/
  times : List (Nat × List Nat) := []
  /-- Units to quarantine at the next tick, with the cause. -/
  toQuarantine : List (Nat × Nat) := []
  /-- Units whose test passed: they count again from the next tick. -/
  returning : List Nat := []
  /-- Requests ended by a request-memory error at the next tick (R473). -/
  memErrors : List Nat := []
  /-- Corrected errors of each unit in a second of device time: the second, and how many (event 0xA7). -/
  corrected : List (Nat × Nat × Nat) := []
  deriving DecidableEq, Repr

/-- Dual control (chapter 13, DC window). -/
structure Dual where
  sessions : List (Nat × Session) := []
  cards : List (Nat × Card) := []
  /-- Quorums, keyed 4 × scope + role. -/
  quorums : List (Nat × Nat) := []
  lifeMax : Nat := 0x0ABA9500
  events : BitVec 4 := 0
  counters : List (Nat × Nat) := []
  ifaces : List (Nat × CardIface) := []
  /-- Order of ending of sessions. -/
  ended : Nat := 0
  /-- Registry time: last written, and the operating seconds of that write (R363). -/
  timeWritten : Nat := 0
  timeAt : Nat := 0
  /-- The registry has been written from an image once (R352). -/
  written : Bool := false
  deriving DecidableEq, Repr

end Sys2Proof.Machine
end

