-- ==== Sys2Proof/Machine/StInput.lean ====
section
/-! DEFINITION. What comes to the block from outside with a command: frames, sensor readings, outcomes of tests and
of the parts of a start that the spec leaves to the hardware. Plain data only. -/

namespace Sys2Proof.Machine

/-- The pin that falls (Table 1.7). -/
inductive ResetPin where
  | pwrGood | resetN
  deriving DecidableEq, Repr

/-- A frame as the MAC receives it (R53), up to what the IP and UDP layers see. -/
structure RxFrame where
  /-- Bytes from the destination address to the FCS. -/
  len : Nat
  fcsOk : Bool := true
  dst : Nat
  srcMac : Nat
  /-- Ethertypes of the tags before the inner one, with their VLAN IDs. -/
  tags : List (Nat × Nat) := []
  ethertype : Nat
  /-- The frame carried a SecTAG: SCI, association number and packet number. `icvOk`: it passed its ICV. -/
  secured : Option (Nat × Nat × Nat) := none
  icvOk : Bool := true
  /-- The frame finds its ingress buffer full (R55). -/
  bufferFull : Bool := false
  /-- IP: version 6, addresses, header checks of R60, protocol or next header. -/
  v6 : Bool := false
  srcIp : Nat := 0
  dstIp : Nat := 0
  ipOk : Bool := true
  proto : Nat := 17
  udpSrc : Nat := 0
  udpDst : Nat := 0
  udpZeroSum : Bool := false
  udpSumOk : Bool := true
  payload : Bytes := []
  deriving DecidableEq, Repr

/-- An MKA message as CC0 reads it (IEEE 802.1X-2020, which the spec names and does not give). -/
structure MkaMsg where
  icvOk : Bool
  peer : Nat
  /-- A SAK distributed by the key server: association and key number, and the wrapped key. -/
  sak : Option (Nat × Nat × Bytes) := none
  /-- The peer's key-server priority. -/
  priority : Nat := 255
  deriving DecidableEq, Repr

/-- A PTP Sync (R64): times in nanoseconds; t1 is the origin time, t2 the device time of its arrival. -/
structure PtpSync where
  domain : Nat
  source : Nat
  seq : Nat
  twoStep : Bool
  t1 : Int
  t2 : Int
  deriving DecidableEq, Repr

/-- The data set of an Announce that the best master clock algorithm of the default profile compares, in its order. -/
structure PtpAnnounce where
  domain : Nat
  priority1 : Nat
  clockClass : Nat
  accuracy : Nat
  variance : Nat
  priority2 : Nat
  identity : Nat
  deriving DecidableEq, Repr

end Sys2Proof.Machine
end

