-- ==== Sys2Proof/Syntax.lean ====
section
/-! DEFINITION. The commands of the block: one constructor for each row of spec/opcode_table.json, in the table's
order, with the operands that come from outside. A command whose operand is `slot` is a function that the task of
that request slot computes; `core`, `engine`, `lport` (0–7 Port A, 8–15 Port B, 16 Port M) and `chan` name a unit, a
logical port or a channel index. -/

namespace Sys2Proof

open Sys2Proof.Machine

/-- The 268 commands. -/
inductive Instr where
  /-- PWRGOOD and RESET_N both high in RESET start the start-up sequence of Table 16.1 (R409). -/
  | startBegin (env : StartEnv)
  /-- A start step that overruns its limit fails the attempt with START_TIMEOUT (R409). -/
  | startStepTimeout
  /-- The acquire wait for a first valid PTP offset ends at its limit, and start-up continues, in sync state FREE if no step was taken (R29). -/
  | acquireWaitEnd
  /-- A restart command of the device passes it through an internal RESET into START (R18). -/
  | internalRestart (env : StartEnv)
  /-- PWRGOOD or RESET_N falling disarms the compute-die monitors, strobes the compute-die SRAM clear and moves the device to RESET (R395). -/
  | resetAsserted (pin : ResetPin)
  /-- Removal of the main rails with VSEC present moves the device to SLEEP (R18). -/
  | mainRailsRemoved
  /-- The return of the main rails and PWRGOOD in SLEEP moves the device to RESET (R18). -/
  | mainRailsPresent
  /-- A patrol drives a fresh pattern on each cover-mesh net and compares the return, and a mismatch is an erase detection (R394). -/
  | coverMeshPatrol (diff0 diff1 diff2 diff3 : BitVec 64)
  /-- A patrol of an enclosure mesh compares the pattern read on ENC_MESHk_IN with the pattern driven (R394). -/
  | encMeshPatrol (k : Nat) (diff : BitVec 64)
  /-- A sample of TAMPER_INk detects after FILTER consecutive samples at the active level (R392). -/
  | switchSample (k : Nat) (high : Bool)
  /-- A rail beyond a threshold of Table 15.2 for 50 ns is a fixed erase detection (R392). -/
  | vmonExcursion (rail : Nat) (above : Bool)
  /-- A departure of VDD_CORE or VSEC from its 1 µs average is a fixed erase detection (R392). -/
  | supplyGlitch (which : Nat)
  /-- REFCLK_SYS or the core clock out of range over a 1 µs window is a fixed erase detection (R392). -/
  | clockFreq (which khz : Nat)
  /-- A short clock phase is a fixed erase detection (R392). -/
  | clockGlitch (which : Nat)
  /-- Irradiance above the threshold at a light detector is detected and takes its configured action (R392). -/
  | light (detector : Nat) (present : Bool)
  /-- A photocurrent pulse at a laser fault detector is detected and takes its configured action (R392). -/
  | laser (detector : Nat) (present : Bool)
  /-- A field transient at the electromagnetic detector is detected and takes its configured action (R392). -/
  | em (detector : Nat) (present : Bool)
  /-- The five temperature sensors are read, the thermal state is updated and TEMP_LOW or TEMP_HIGH is judged (R478). -/
  | tempReading (t0 t1 t2 t3 t4 : BitVec 16)
  /-- A stopped 32.768 kHz crystal makes the always-on domain switch to its internal oscillator (R492). -/
  | crystalStop
  /-- The event 0x00 record is written from the capture within 20 ms, or at START step 4 after SLEEP (R397). -/
  | tamperRecordWrite
  /-- A gutter-link frame is checked for its tag and frame count and accepted or discarded (R14). -/
  | gutterFrameReceive (toCompute : Bool) (count : Nat) (frame : Bytes)
  /-- At each tick the folio number advances, security actions, tick effects, lost-capacity precedence and admission decisions run in order (R43). -/
  | tick
  /-- At the start of a delay tick the due entries are released, and their START or DELAY flags are set (R142). -/
  | delayListRelease (k : Nat)
  /-- A PTP Sync measures an offset, updates the sync state, steps the folio where allowed and sends a Delay_Req (R30). -/
  | ptpSyncReceive (lport : Nat) (m : PtpSync)
  /-- A Follow_Up completes the timestamp of a two-step Sync (R64). -/
  | ptpFollowUpReceive (lport domain source seq : Nat) (t1 : Int)
  /-- A Delay_Resp completes the end-to-end delay measurement (R64). -/
  | ptpDelayRespReceive (lport domain source : Nat) (t3 t4 : Int)
  /-- An Announce feeds the best master clock algorithm, which may change the parent (R64). -/
  | ptpAnnounceReceive (lport : Nat) (m : PtpAnnounce)
  /-- A rising edge of PPS_IN measures the offset in PTP_PPS mode (R30). -/
  | ppsInEdge (t : Int)
  /-- Two seconds without a valid offset in ACQUIRE or LOCKED move the sync state to HOLDOVER (R30). -/
  | syncHoldoverTimeout
  /-- PCS and FEC lock held for 10 ms bring a logical port's link up, with DAD and gratuitous ARP (R52). -/
  | linkUp (lport speed : Nat)
  /-- Loss of PCS or FEC lock takes a logical port's link down (R52). -/
  | linkDown (lport : Nat)
  /-- A received frame passes length, FCS, address filter, buffer, MACsec, VLAN, IP and UDP checks, or is dropped and counted (R53). -/
  | frameReceive (lport : Nat) (f : RxFrame)
  /-- An MKA frame is handled by CC0 and may install a SAK (R57). -/
  | mkaFrameReceive (lport : Nat) (m : MkaMsg)
  /-- Loss of the last live peer clears MACSEC_LIVE and raises event 0xC3 (R58). -/
  | macsecPeerLost (lport sci : Nat)
  /-- An ARP request for an own address is answered (R61). -/
  | arpRequestReceive (lport mac ip target : Nat)
  /-- A Neighbour Solicitation for an own address is answered (R61). -/
  | neighbourSolicitationReceive (lport mac ip target : Nat)
  /-- A neighbour-cache entry expires after 300 s (R61). -/
  | neighbourEntryExpiry (lport ip : Nat)
  /-- An echo request is answered within the rate limit or dropped (R62). -/
  | icmpEchoReceive (lport : Nat) (src : Source4) (data : Bytes)
  /-- An HS1 is dropped or accepted as an HS_RESPOND task on Q1 (R76). -/
  | hs1Receive (lport : Nat)
  /-- An HS3 on a PENDING channel passes the receive checks and becomes an HS_FINISH task (R70). -/
  | hs3Receive (lport : Nat)
  /-- A REQ datagram passes the receive checks in order and places its records, or is dropped or refused with a NACK (R70). -/
  | reqDatagramReceive (lport : Nat)
  /-- A MGMT datagram passes the receive checks and places its management records (R70). -/
  | mgmtDatagramReceive (lport : Nat)
  /-- A BULK datagram passes the receive checks and places its one segment record (R70). -/
  | bulkDatagramReceive (lport : Nat)
  /-- A device opening a member channel as client checks the HS2 signatures and sends HS3 (R79). -/
  | hs2Receive (lport : Nat)
  /-- A channel still PENDING when the handshake timeout ends returns to FREE (R77). -/
  | handshakeTimeout (chan : Nat)
  /-- A channel without an accepted datagram for the idle timeout begins CLOSING (R81). -/
  | channelIdleTimeout (chan : Nat)
  /-- The egress mover gathers a channel's waiting reply records in stamp order into a REP, or sends a stream reply or NACK, and encrypts it (R83). -/
  | repForm (chan : Nat)
  /-- When the last bit of a reply frame leaves, its slots return to FREE; a CLOSING channel's final REP follows its last reply (R132). -/
  | replyFrameLeft (lport : Nat)
  /-- The Square gives a ready task to a core waiting at TAKE, with a tenant scrub where needed (R137). -/
  | taskGive (block : Nat)
  /-- A core issues one bundle, reads every source and writes every destination at the end of the cycle (R152). -/
  | bundleIssue (core : Nat)
  /-- A core-block access is performed 3 cycles after issue, and an I/O access 4 cycles after, under protection checks (R167). -/
  | delayedAccessPerform (core : Nat)
  /-- The bit-space test ends after 10,240 cycles, zeroing the bits and setting BTEST_PASS (R185). -/
  | btestComplete (core : Nat) (pass : Bool)
  /-- The mirrored flags satisfy the mask, and the next bundle issues (R183). -/
  | waitfSatisfied (core cycles : Nat)
  /-- WB cycles pass before the mask is satisfied, and the task stops as a detected timing error (R183). -/
  | waitBoundExpiry (core : Nat)
  /-- The task budget reaches zero before DONE, and the task stops with DEADLINE_MISSED and is withdrawn for test (R115). -/
  | budgetExpiry (core : Nat)
  /-- A move to TAKE stalls the core until the Square gives a task (R137). -/
  | take (core : Nat)
  /-- Clears the running task's flags 3 to 11 named in the value (R140). -/
  | flagClr (core : Nat) (value : Word64)
  /-- Clears DELAY and inserts a delay entry d delay ticks ahead, or sets DELAY at once for 0 (R140). -/
  | delay (core : Nat) (value : Word64)
  /-- Ends the task, hands the result and status to the sequencer and runs the task-end clear (R141). -/
  | doneTask (core : Nat) (value : Word64)
  /-- At an admitted request's miss point, a request without a commit point is answered DEADLINE_MISSED, and earlier open requests of its queue are answered too (R114). -/
  | missPoint (slot : Nat)
  /-- Sets and enables a protection window inside a segment (R215). -/
  | winSet (core : Nat) (value : Word128)
  /-- Disables the named windows (R215). -/
  | winClr (core : Nat) (value : Word64)
  /-- An uncorrectable ECC, parity, datapath or address error of a unit stops its work and marks it for withdrawal (R471). -/
  | detectedError (unit kind : Nat)
  /-- A unit's targeted test ends, and the unit counts again or is quarantined (R471). -/
  | targetedTestComplete (unit : Nat) (pass : Bool) (failStep : Nat)
  /-- A waking district becomes usable after its wake time, with the test of an OFF wake (R110). -/
  | districtWakeComplete (district : Nat) (failing : List Nat) (cycles : Nat)
  /-- Resolves a KREF into a handle by the resident checks, or by SMK checks and cache lookup (R259). -/
  | klook (core : Nat) (value : Word64)
  /-- Unwraps the block of a missed lookup in the core's unwrap lane (R260). -/
  | kunwrap (core : Nat) (value : Word64)
  /-- Looks up the derived child of a parent by the digest in KDIG (R265). -/
  | kdlook (core : Nat) (value : Word64)
  /-- Stores a derived child binding under KDIG at level 5 or 6 (R265). -/
  | kdstore (core : Nat) (value : Word64)
  /-- Checks and claims a counter-record value in one indivisible step (R264). -/
  | cadv (core : Nat) (value : Word64)
  /-- Clears a key handle (R265). -/
  | krel (core : Nat) (value : Word64)
  /-- A lookup, derived lookup or advance is served within 48 cycles and sets KEY_RESIDENT (R266). -/
  | keyRequestComplete (core : Nat)
  /-- An unwrap ends, binds the handle, inserts a cache copy and sets UNWRAP_DONE (R266). -/
  | unwrapComplete (core : Nat)
  /-- Every 16 cycles the key store remasks one unit of key SRAM with a fresh random difference (R251). -/
  | maskRefreshStep
  /-- An uncorrectable key-SRAM error frees a cache binding or starts reloading a resident slot (R252). -/
  | keySramError (resident : Bool) (unit : Nat)
  /-- A resident slot is reloaded from its vault record (R252). -/
  | residentReloadComplete (unit : Nat)
  /-- A sealed vault batch of changes is written and its chain value recorded by the security die (R267). -/
  | vaultBatchWrite
  /-- CC0 erases the batches of an old vault chain in the background (R417). -/
  | vaultOldBatchErase
  /-- Opens a big-number handle on a chosen engine and clean bank, or in state REFUSED (R280). -/
  | bopen (core handle : Nat) (value : Word64)
  /-- Sets the bank pointer of a handle (R282). -/
  | bptr (core handle : Nat) (value : Word64)
  /-- Writes 16 bytes into the bank at the pointer (R284). -/
  | bin (core handle : Nat) (value : Word128)
  /-- Reads 16 bytes of a result from the bank (R284). -/
  | bout (core handle : Nat)
  /-- Copies the key shares and starts the job, or completes it at once with an unavailable or curve status (R285). -/
  | bgo (core handle : Nat) (value : Word64)
  /-- Aborts the job of a handle (R297). -/
  | babort (core handle : Nat)
  /-- Releases a handle, aborting it first if RUNNING (R282). -/
  | brel (core handle : Nat)
  /-- A background slice ends, and the context is suspended or continues (R292). -/
  | bnSliceEnd (engine : Nat) (progress : Nat)
  /-- The engine validates and raises X to E modulo N (R287). -/
  | rsaPub (engine : Nat)
  /-- The paired engines run the two CRT halves, recombine and check the invariant (R289). -/
  | rsaPriv (engine : Nat)
  /-- The engine generates an ML-KEM-768 key pair (R287). -/
  | mlKemKeygen (engine : Nat)
  /-- The engine encapsulates to an ML-KEM encapsulation key (R287). -/
  | bnMlKemEncaps (engine : Nat)
  /-- The engine decapsulates with implicit rejection (R287). -/
  | bnMlKemDecaps (engine : Nat)
  /-- The engine generates an ML-DSA-65 key pair (R287). -/
  | mlDsaKeygen (engine : Nat)
  /-- The engine signs in hedged mode, drawing from the overrun reserve after 16 iterations (R299). -/
  | bnMlDsaSign (engine : Nat)
  /-- The engine verifies an ML-DSA signature and writes MATCH (R287). -/
  | bnMlDsaVerify (engine : Nat)
  /-- The engine signs e with a DRBG nonce (R287). -/
  | ecdsaSign (engine : Nat)
  /-- The engine verifies (r, s) against Q and writes MATCH (R287). -/
  | ecdsaVerify (engine : Nat)
  /-- The engine computes the x-coordinate of h × d × Q (R287). -/
  | ecdh (engine : Nat)
  /-- The engine draws d and returns d and Q (R287). -/
  | ecKeygen (engine : Nat)
  /-- The engine validates Q and returns a status only (R287). -/
  | ecPointCheck (engine : Nat)
  /-- An ML-DSA iteration beyond the 16th begins with a reserve draw, or the job is aborted with RETRY (R299). -/
  | mlDsaIteration (engine : Nat)
  /-- A job completes at start + V or start + T, with its result or status, and sets BN_DONEh (R290). -/
  | bnJobComplete (engine : Nat)
  /-- An aborted bank finishes clearing, and its handle becomes DONE with the abort status (R297). -/
  | bankClearComplete (engine bank : Nat)
  /-- A background validation ends, REJECTED at its first failed check or passed (R302). -/
  | curveValidationComplete (engine : Nat)
  /-- Submits a stream open, segment, final or abort to the bulk engines, which accept or refuse it (R320). -/
  | bksub (core : Nat) (value : Word64)
  /-- The engines accept or refuse within 48 cycles and set BULK_CREDIT (R321). -/
  | bulkSubmissionAnswer (core : Nat)
  /-- An accepted job starts earliest deadline first on one engine, or two for re-key (R323). -/
  | bulkJobStart
  /-- The job writes its output and tag, updates the context and hands the reply to the sequencer (R323). -/
  | bulkJobComplete (slot : Nat)
  /-- Draws 1 to 8 blocks from the internal pool into RBUF (R339). -/
  | rreq (core : Nat) (value : Word64)
  /-- Draws 1 to 256 blocks from the tenant pool into the result window (R339). -/
  | rten (core : Nat) (value : Word64)
  /-- A draw delivers its blocks or its status and sets RANDOM_READY (R339). -/
  | randomDrawComplete (core : Nat)
  /-- A window of 1,024 samples ends, passes or not, and releases conditioned blocks and seeds (R329). -/
  | sourceWindowEnd (source : Nat) (samples : Bytes)
  /-- An RCT or APT failure fails the source, discards its output and starts requalification or quarantine (R330). -/
  | sourceTestFailure (source test value : Nat)
  /-- After 2^20 samples a source updates its bias and correlation estimates and may raise an alert (R331). -/
  | sourceEstimate (source ones : Nat) (sums : List Int)
  /-- An instance reseeds from a fresh seed of the active source without a gap in output (R334). -/
  | drbgScheduledReseed (instance_ : Nat)
  /-- All eight instances have reseeded, and output resumes (R335). -/
  | forcedReseedComplete (cycles : Nat)
  /-- The refilled tenant pool lets RAND capacity count again from the next tick (R345). -/
  | tenantPoolFull
  /-- An uncorrectable error withdraws an instance and discards its undelivered output (R348). -/
  | drbgInstanceError (instance_ : Nat)
  /-- A withdrawn instance is instantiated again after its known-answer test (R348). -/
  | drbgInstanceReturn (instance_ : Nat) (katOk : Bool)
  /-- A write of 1 to RNG_CTRL.RESEED starts a forced reseed in READY or DEGRADED (R335). -/
  | rngCtrlReseed (chan : Nat)
  /-- A read of RNG_RANDOM takes 32 fresh bits from the internal pool, or is refused (R342). -/
  | rngRandomRead (chan word : Nat)
  /-- A read of a split HI register returns the upper half and captures the lower half for the channel (R87). -/
  | hiRegisterRead (chan addr : Nat)
  /-- A write of 1 to PMC_CTRL.SNAP asks for a snapshot at the next tick (R470). -/
  | pmcCtrlSnap
  /-- A write to a counter select register sets its event and clears that counter (R469). -/
  | pmcSelWrite (counter event : Nat)
  /-- Reads NREG management registers after checking the whole range (R86). -/
  | mgmtRead (slot : Nat)
  /-- Writes NREG management registers in address order at its commit point, staged fields to their staged copy (R86). -/
  | mgmtWrite (slot : Nat)
  /-- Checks a commit group's consistency rules and arms it for its target tick, or discards its staged copy (R46). -/
  | mgmtCommit (slot : Nat)
  /-- The device draws its ephemeral keys, encapsulates, forms and signs HS2 (R77). -/
  | hsRespond (slot : Nat)
  /-- The device checks the client key and HS3 signature, then opens the channel with the ready REP or sends AUTH_FAILED (R79). -/
  | hsFinish (slot : Nat)
  /-- Verifies a PIN by the offset method (R233). -/
  | pinVerifyOffset (slot : Nat)
  /-- Re-formats and re-encrypts a PIN block (R231). -/
  | pinTranslate (slot : Nat)
  /-- Verifies a PIN by the PVV method (R234). -/
  | pinVerifyPvv (slot : Nat)
  /-- Generates a PIN offset (R233). -/
  | pinOffsetGenerate (slot : Nat)
  /-- Generates a PVV (R234). -/
  | pvvGenerate (slot : Nat)
  /-- Generates a MAC over up to 384 bytes (R235). -/
  | macGenerate (slot : Nat)
  /-- Verifies a MAC over up to 384 bytes (R235). -/
  | macVerify (slot : Nat)
  /-- Generates a MAC over up to 8,064 bytes (R235). -/
  | macGenerateLong (slot : Nat)
  /-- Verifies a MAC over up to 8,064 bytes (R235). -/
  | macVerifyLong (slot : Nat)
  /-- Generates a card verification value (R235). -/
  | cvvGenerate (slot : Nat)
  /-- Verifies a card verification value (R235). -/
  | cvvVerify (slot : Nat)
  /-- Verifies an EMV ARQC (R236). -/
  | arqcVerify (slot : Nat)
  /-- Verifies an ARQC and returns an ARPC (R236). -/
  | arqcVerifyArpc (slot : Nat)
  /-- Computes a secure-messaging MAC (R236). -/
  | smMac (slot : Nat)
  /-- Encrypts secure-messaging data (R236). -/
  | smEncrypt (slot : Nat)
  /-- Returns a PIN as a format 2 block under the confidentiality session key (R236). -/
  | smPinChange (slot : Nat)
  /-- Verifies an ARQC and advances its ATC counter record (R238). -/
  | arqcVerifyTracked (slot : Nat)
  /-- Verifies a DUKPT MAC (R237). -/
  | dukptMacVerify (slot : Nat)
  /-- Generates a DUKPT MAC (R237). -/
  | dukptMacGenerate (slot : Nat)
  /-- Translates a DUKPT PIN block (R237). -/
  | dukptPinTranslate (slot : Nat)
  /-- Decrypts data under a DUKPT key (R237). -/
  | dukptDataDecrypt (slot : Nat)
  /-- Encrypts data under a DUKPT key (R237). -/
  | dukptDataEncrypt (slot : Nat)
  /-- Translates a DUKPT PIN block and advances its counter record (R238). -/
  | dukptPinTranslateTracked (slot : Nat)
  /-- Imports a key block under a KEK into a block under an SMK (R238). -/
  | keyImport (slot : Nat)
  /-- Exports a key under a key-encryption key (R239). -/
  | keyExport (slot : Nat)
  /-- Translates a key block from one KEK to another (R239). -/
  | keyTranslate (slot : Nat)
  /-- Generates a key under the SMK and optionally a KEK (R239). -/
  | keyGenerate (slot : Nat)
  /-- Returns a key's check value (R272). -/
  | keyCheckValue (slot : Nat)
  /-- Imports a key block of up to 4,000 bytes (R239). -/
  | keyImportLarge (slot : Nat)
  /-- Loads a key into a resident run within the tenant's quota (R240). -/
  | keyLoadResident (slot : Nat)
  /-- Arms the retirement of a resident slot for the next tick (R257). -/
  | keyDeleteResident (slot : Nat)
  /-- Imports a key from a TR-34 token (R241). -/
  | tr34Import (slot : Nat)
  /-- Builds and signs a TR-34 token for a key (R241). -/
  | tr34Export (slot : Nat)
  /-- Generates an EC key pair (R241). -/
  | ecKeypairGenerate (slot : Nat)
  /-- Generates an ML-KEM-768 key pair (R241). -/
  | mlKemKeypair (slot : Nat)
  /-- Generates an ML-DSA-65 key pair (R241). -/
  | mlDsaKeypair (slot : Nat)
  /-- Performs an RSA private signature or decryption of 2048, 3072 or 4096 bits (R242). -/
  | rsaPrivate (slot : Nat)
  /-- Performs an RSA public verification or encryption (R242). -/
  | rsaPublic (slot : Nat)
  /-- Signs a digest with ECDSA on P-256, P-384, P-521 or a curve by handle (R243). -/
  | ecdsaSignFunction (slot : Nat)
  /-- Verifies an ECDSA signature (R243). -/
  | ecdsaVerifyFunction (slot : Nat)
  /-- Agrees a key by ECDH and a KDF, returned as KBOUT (R243). -/
  | ecdhFunction (slot : Nat)
  /-- Encapsulates to an ML-KEM key and returns the ciphertext and key block (R243). -/
  | mlKemEncaps (slot : Nat)
  /-- Decapsulates a ciphertext into a key block (R243). -/
  | mlKemDecaps (slot : Nat)
  /-- Signs a message with ML-DSA-65 (R244). -/
  | mlDsaSign (slot : Nat)
  /-- Verifies an ML-DSA-65 signature (R244). -/
  | mlDsaVerify (slot : Nat)
  /-- Returns up to 64 random bytes (R245). -/
  | randomShort (slot : Nat)
  /-- Returns up to 4,096 random bytes (R245). -/
  | randomLong (slot : Nat)
  /-- Returns the digest of up to 8,180 bytes (R245). -/
  | hash (slot : Nat)
  /-- Encrypts by FF1 (R245). -/
  | ff1Encrypt (slot : Nat)
  /-- Decrypts by FF1 (R245). -/
  | ff1Decrypt (slot : Nat)
  /-- A graph request runs its node programs under one admission (R147). -/
  | graphFunction (slot : Nat)
  /-- Opens a bulk stream after the queue, handle, mode and quota checks (R314). -/
  | streamOpen (slot : Nat)
  /-- Processes one AES stream segment (R315). -/
  | streamSegment (slot : Nat)
  /-- Processes the final AES segment with its tag, and frees the stream (R317). -/
  | streamFinal (slot : Nat)
  /-- Frees a stream (R316). -/
  | streamAbort (slot : Nat)
  /-- Processes one segment of a stream with a TDES side (R315). -/
  | streamSegmentTdes (slot : Nat)
  /-- Processes the final segment of a stream with a TDES side (R317). -/
  | streamFinalTdes (slot : Nat)
  /-- Re-wraps a block under the generation that new blocks use (R255). -/
  | smkRewrap (slot : Nat)
  /-- Creates an SMK generation in an EMPTY slot (R255). -/
  | smkCreate (slot : Nat)
  /-- Creates a pending SMK generation (R255). -/
  | smkRotateBegin (slot : Nat)
  /-- Makes the pending generation current and retires the old one (R255). -/
  | smkRotateComplete (slot : Nat)
  /-- Retires the pending generation (R255). -/
  | smkRotateAbort (slot : Nat)
  /-- Retires every generation of a slot (R255). -/
  | smkInvalidate (slot : Nat)
  /-- Creates a counter record in a resident unit (R273). -/
  | counterCreate (slot : Nat)
  /-- Sets or removes a registered client key (R269). -/
  | clientKeySet (slot : Nat)
  /-- Returns a signed colophon of the device (R271). -/
  | colophon (slot : Nat)
  /-- Returns a signed colophon for one tenant (R271). -/
  | colophonTenant (slot : Nat)
  /-- Returns the three device certificates (R270). -/
  | certificates (slot : Nat)
  /-- Loads a curve record as VALIDATING and queues its validation (R301). -/
  | curveLoad (slot : Nat)
  /-- Reports a curve record's state (R301). -/
  | curveQuery (slot : Nat)
  /-- Deletes a curve record from the next tick (R303). -/
  | curveDelete (slot : Nat)
  /-- Opens an authorisation session bound to a command, role and payload digest (R355). -/
  | authOpen (slot : Nat)
  /-- Verifies and counts a remote card's signature and component (R358). -/
  | authSign (slot : Nat)
  /-- Starts a local card exchange on CARD0 or CARD1 for a session (R364). -/
  | authCardLocal (slot : Nat)
  /-- Reports a session's state (R360). -/
  | authQuery (slot : Nat)
  /-- Closes an OPEN or GRANTED session (R360). -/
  | authClose (slot : Nat)
  /-- Registers a custodian card from its certificate (R362). -/
  | cardRegister (slot : Nat)
  /-- Revokes a card and withdraws its signatures at the next tick (R361). -/
  | cardRevoke (slot : Nat)
  /-- Sets a role's quorum from the next tick (R361). -/
  | quorumSet (slot : Nat)
  /-- Installs an assembled CAK on a logical port (R368). -/
  | macsecCakSet (slot : Nat)
  /-- Produces a key block from the assembled clear components (R367). -/
  | keyEnter (slot : Nat)
  /-- An OPEN or GRANTED session expires at the tick that begins E, and its components are erased (R360). -/
  | sessionExpiry (index : Nat)
  /-- The security die verifies a local card's signature and component, and counts it (R364). -/
  | cardExchangeComplete (iface serial : Nat) (sig cmsg : Bytes)
  /-- An exchange not finished in 2.0 s or losing its card counts nothing (R364). -/
  | cardExchangeTimeout (iface : Nat) (lost : Bool)
  /-- A card is inserted or removed at an interface (R371). -/
  | cardPresenceChange (iface : Nat) (present classA : Bool)
  /-- Registry time passing 90 % or NOT_AFTER makes a card WARNED or EXHAUSTED (R363). -/
  | cardValidityChange (entry : Nat)
  /-- Checks a life-cycle transition request and writes its intent record (R377). -/
  | lcTransition (slot : Nat)
  /-- Once the intent is durable, the reply is committed, the wipes run, the stripes and slot are programmed and the device restarts (R379). -/
  | lcTransitionExecute
  /-- Returns a fresh debug nonce drawn from source C (R384). -/
  | lcDebugChallenge (slot : Nat)
  /-- Verifies a Brosyn debug grant and arms the debug record (R384). -/
  | lcDebugAuth (slot : Nat)
  /-- Voids the debug record (R385). -/
  | lcDebugEnd (slot : Nat)
  /-- Returns the identity public keys in TEST (R388). -/
  | lcIdentity (slot : Nat)
  /-- Stores a device certificate in TEST (R388). -/
  | lcCertLoad (slot : Nat)
  /-- A message shifted through the JTAG mailbox is served as a function in RECOVERY (R387). -/
  | lcMailbox (function : Nat) (payload : Bytes)
  /-- A 32-bit debug-master access is performed under Table 7.12 and R219 (R387). -/
  | dbgAccess (write : Bool) (space addr : Nat) (data : Word32)
  /-- Boundary-scan EXTEST instruction (R386). -/
  | extest
  /-- Boundary-scan SAMPLE/PRELOAD instruction (R386). -/
  | samplePreload (pins preload : Bytes)
  /-- Selects the IDCODE register (R386). -/
  | idcode
  /-- Boundary-scan CLAMP instruction (R386). -/
  | clamp
  /-- Boundary-scan HIGHZ instruction (R386). -/
  | highz
  /-- Selects the bypass register (R386). -/
  | bypass
  /-- Test-Logic-Reset selects IDCODE (R386). -/
  | tapReset
  /-- A SCRAPPED device sends its report frame on Port M once a second (R383). -/
  | reportFrame
  /-- Clears the tamper latch under quorum, draws a new share, marks the vault and restarts (R404). -/
  | tmpLatchClear (slot : Nat)
  /-- Returns the recovery reason and the last cause record (R424). -/
  | recoveryStatus (slot : Nat)
  /-- Restarts the device, after a drain in SERVICE or STANDBY or at once in RECOVERY (R425). -/
  | devRestart (slot : Nat)
  /-- At the first tick with no reply owed, the drain ends and the device restarts (R425). -/
  | drainEnd
  /-- Opens an image load (R426). -/
  | imageLoadBegin (slot : Nat)
  /-- Writes image data at an offset (R426). -/
  | imageLoadData (slot : Nat)
  /-- Checks the loaded image and starts writing it to XSPI0 (R426). -/
  | imageLoadEnd (slot : Nat)
  /-- The NVM write and readback of the image end, or fail (R426). -/
  | imageWriteComplete (error : Option Nat)
  /-- Writes peer material into the staging area (R434). -/
  | pairStage (slot : Nat)
  /-- Forms and signs the OFFER (R435). -/
  | pairOffer (slot : Nat)
  /-- Checks the offer, forms the ANSWER, starts a new vault chain and restarts into STANDBY (R436). -/
  | pairAccept (slot : Nat)
  /-- Checks the answer, journals the new chain record and begins the snapshot (R437). -/
  | pairConfirm (slot : Nat)
  /-- Drains the active, sends the handover batch and restarts it as last standby (R451). -/
  | pairHandover (slot : Nat)
  /-- Makes the position-1 standby declare takeover at the next tick (R452). -/
  | pairTakeover (slot : Nat)
  /-- Takes the device out of its chain, keeping or erasing its vault (R452). -/
  | pairLeave (slot : Nat)
  /-- A standby stores, appends and forwards a journal batch part and acknowledges it (R445). -/
  | journalBatch (slot : Nat)
  /-- A member answers a heartbeat, or answers PAIR_SUPERSEDED for a lower epoch (R440). -/
  | heartbeat (slot : Nat)
  /-- A joiner stores a snapshot part (R438). -/
  | snapshot (slot : Nat)
  /-- An acknowledgement with HELD ≥ g lets the active release the held replies of batch g (R444). -/
  | journalAck (lport : Nat)
  /-- A heartbeat reply updates the sender's view of the member; IN_CHAIN is journalled, and PAIR_SUPERSEDED stops the sender (R440). -/
  | heartbeatReply (lport : Nat)
  /-- An active without acknowledgement for 40 folios stops, flushes its vault and enters RECOVERY (R448). -/
  | selfFence
  /-- A standby silent from ahead for its timeout declares takeover (R449). -/
  | takeoverSilence
  /-- A successor silent for 1,024 folios is dropped, and the chain re-links behind it (R445). -/
  | memberDrop (memberSlot : Nat)
  /-- CC0 consolidates appended batches into the sealed stores in the background (R446). -/
  | vaultConsolidate
  /-- Returns a signed head of the recorder's chains (R467). -/
  | recHead (slot : Nat)
  /-- Returns up to 8 records visible to the sender (R467). -/
  | recRead (slot : Nat)
  /-- An offered record with a token is written to the tail and front matter, extending the chains (R464). -/
  | recordWrite (sectorFails : Bool)
  /-- The bucket gains a token every 125 ms, and a suppression record is written first where needed (R464). -/
  | recTokenGain
  /-- The security die counts an operating second and writes the counters every 64 s (R461). -/
  | operatingSecond
  /-- An ARP reply resolves a next hop for traffic the device originates and fills the neighbour cache, or reveals an address conflict (R61). -/
  | arpReplyReceive (lport mac ip : Nat)
  /-- A Neighbour Advertisement resolves an IPv6 next hop, or shows a Duplicate Address Detection conflict that leaves IP_READY low (R61). -/
  | neighbourAdvertisementReceive (lport mac ip : Nat)
  /-- Duplicate Address Detection on an IPv6 address ends without conflict, and once every address has passed IP_READY rises (R61). -/
  | dadComplete (lport j : Nat)
  /-- More than 16 uncorrected codewords in the last whole second make FEC_OK fall, set FEC_DEGRADED and raise event 0xC2, and FEC_OK rises again when the count drops (R90). -/
  | fecDegraded (lport corrected uncorrected : Nat)
  /-- A performance counter wraps modulo 2^32, incrementing a chained counter or setting its PMC_OVF bit and raising event 0xEA (R469). -/
  | counterWrapped (counter : Nat)
  /-- VSEC rising from absence powers the security die's always-on domain with a zero battery-backed RAM, whose missing presence word is found at the next start (R19). -/
  | vsecApplied
  /-- VDDIO reaching 1.71 V with VSEC present makes VID4 to VID0 valid within 1 ms, before PWRGOOD (R486). -/
  | vidValid
  /-- A device opening a member channel as client receives the ready REP, and may then send journal batches and heartbeats on that channel (R80). -/
  | readyRepReceive (lport : Nat)
  deriving DecidableEq, Repr

end Sys2Proof
end

