-- ==== Sys2Proof/Decode.lean ====
section
/-! DEFINITION. The words of the command table: none of its rows gives bits (spec/opcode_table.json lists names,
shapes and rules), so no word spells a command. -/

namespace Sys2Proof

/-- The command that `nbits` bits of `w` spell by the table: the table gives no row any bits. -/
def decodeTableWord (_nbits _w : Nat) : Option Instr := none

end Sys2Proof
end

