-- ==== Sys2Proof/Machine/Operands.lean ====
section
/-! DEFINITION. Operand forms: fields of byte strings in network byte order (R3), bits and fields of words, and byte
strings of fixed length. -/

namespace Sys2Proof.Machine

/-- The `n` low-order bytes of `v`, most significant first (R3). -/
def beBytes : Nat → Nat → Bytes
  | 0, _ => []
  | n + 1, v => BitVec.ofNat 8 (v / 256 ^ n) :: beBytes n v

/-- The number a byte string spells in network byte order (R3). -/
def beNat (b : Bytes) : Nat := b.foldl (fun a x => a * 256 + x.toNat) 0

/-- `len` bytes of `p` from offset `off`; bytes past the end are absent. -/
def slice (p : Bytes) (off len : Nat) : Bytes := (p.drop off).take len

/-- The field of `len` bytes at offset `off`; bytes past the end count as zero bytes. -/
def fld (p : Bytes) (off len : Nat) : Nat :=
  let b := slice p off len
  beNat b * 256 ^ (len - b.length)

/-- Bits [hi:lo] of `v` (R2). -/
def bitsOf (v hi lo : Nat) : Nat := v / 2 ^ lo % 2 ^ (hi + 1 - lo)

/-- `true` as 1. -/
def bit (b : Bool) : Nat := if b then 1 else 0

/-- `n` zero bytes. -/
def zeros (n : Nat) : Bytes := List.replicate n 0

/-- The first `n` bytes of `b`, zero bytes appended where `b` is shorter. -/
def padTo (n : Nat) (b : Bytes) : Bytes := (b ++ zeros (n - b.length)).take n

/-- Exclusive or of two byte strings, as long as the shorter. -/
def xorBytes (a b : Bytes) : Bytes := List.zipWith (· ^^^ ·) a b

/-- Every byte is zero. -/
def allZero (b : Bytes) : Bool := b.all (fun x => x == 0)

/-- The ASCII bytes of a text. -/
def ascii (t : String) : Bytes := t.toList.map (fun c => BitVec.ofNat 8 c.toNat)

/-- A 64-bit word as eight bytes. -/
def bytes64 (w : Word64) : Bytes := beBytes 8 w.toNat

/-- A 128-bit word as sixteen bytes. -/
def bytes128 (w : Word128) : Bytes := beBytes 16 w.toNat

/-- The first eight bytes of `b` as a word. -/
def word64 (b : Bytes) : Word64 := BitVec.ofNat 64 (fld b 0 8)

/-- The first sixteen bytes of `b` as a word. -/
def word128 (b : Bytes) : Word128 := BitVec.ofNat 128 (fld b 0 16)

/-- Cut `b` into blocks of `n` bytes, the last perhaps shorter; `fuel` bounds the number of blocks. -/
def blocksOf (n : Nat) : Nat → Bytes → List Bytes
  | 0, _ => []
  | fuel + 1, b => if b = [] then [] else b.take n :: blocksOf n fuel (b.drop n)

/-- Cut `b` into blocks of `n` bytes. -/
def chunks (n : Nat) (b : Bytes) : List Bytes := blocksOf n (b.length + 1) b

/-- The two decimal or hexadecimal digits of a byte, high first. -/
def nibbles (b : Bytes) : List Nat := b.flatMap (fun x => [x.toNat / 16, x.toNat % 16])

/-- Nibbles packed two to a byte, high first. -/
def packNibbles : List Nat → Bytes
  | [] => []
  | [a] => [BitVec.ofNat 8 (a % 16 * 16)]
  | a :: b :: t => BitVec.ofNat 8 (a % 16 * 16 + b % 16) :: packNibbles t

/-- A sum that stops at `top`. -/
def satAdd (top a b : Nat) : Nat := if a + b ≤ top then a + b else top

/-- Ceiling of a / b. -/
def ceilDiv (a b : Nat) : Nat := (a + b - 1) / b

/-- The least element of a list, by a key; the first of equals. -/
def minBy {α : Type} (key : α → Nat) : List α → Option α
  | [] => none
  | a :: t =>
    match minBy key t with
    | none => some a
    | some b => if key a ≤ key b then some a else some b

/-- Insertion into a list sorted by a key, after equal keys. -/
def insertBy {α : Type} (key : α → Nat) (a : α) : List α → List α
  | [] => [a]
  | b :: t => if key b ≤ key a then b :: insertBy key a t else a :: b :: t

/-- A list sorted by a key, equal keys in their former order. -/
def sortBy {α : Type} (key : α → Nat) : List α → List α
  | [] => []
  | a :: t => insertFront key a (sortBy key t)
where
  insertFront (key : α → Nat) (a : α) : List α → List α
    | [] => [a]
    | b :: t => if key a ≤ key b then a :: b :: t else b :: insertFront key a t

/-- Two's complement value of an `n`-bit field. -/
def signed (n v : Nat) : Int := if v % 2 ^ n < 2 ^ (n - 1) then (v % 2 ^ n : Nat) else (v % 2 ^ n : Nat) - (2 ^ n : Nat)

/-- The `n`-bit two's complement field of an integer. -/
def twos (n : Nat) (x : Int) : Nat := (x % (2 ^ n : Nat)).toNat

end Sys2Proof.Machine
end

