-- ==== Sys2Proof/Machine/Ec.lean ====
section
/-! DEFINITION. The arithmetic of the big-number engines (chapter 10): modular powers and inverses, points of
short Weierstrass curves, ECDSA, RSA by the Chinese remainder theorem, and the curve constants of the named curves
(FIPS 186-5, SP 800-186 and RFC 5639, which the spec names; log entry 19, PRESUMED). -/

namespace Sys2Proof.Machine

/-! ### Integers modulo m -/

/-- `b ^ e` modulo `m`, over the low `fuel` bits of the exponent. -/
def powModBits (m : Nat) : Nat → Nat → Nat → Nat → Nat
  | 0, _, _, acc => acc % m
  | fuel + 1, b, e, acc => powModBits m fuel (b * b % m) (e / 2) (if e % 2 = 1 then acc * b % m else acc)

def powMod (b e m : Nat) : Nat := powModBits m (Nat.log2 e + 1) (b % m) e 1

/-- Extended Euclid: the coefficient of the first of two numbers, modulo `m`. -/
def euclid (m : Nat) : Nat → Nat → Nat → Int → Int → Int
  | 0, _, _, x, _ => x % m
  | fuel + 1, a, b, x, y => if b = 0 then x % m else euclid m fuel b (a % b) y (x - (a / b : Nat) * y)

/-- The inverse of `a` modulo `m`; 0 where there is none. -/
def invMod (a m : Nat) : Nat :=
  if Nat.gcd a m = 1 then (euclid m (2 * (Nat.log2 m + 2)) (a % m) m 1 0).toNat else 0

def subMod (a b m : Nat) : Nat := (a + m - b % m) % m

/-! ### Curves and points -/

/-- A curve y² = x³ + a x + b over the integers modulo p, base point, order and cofactor. -/
structure Curve where
  p : Nat
  a : Nat
  b : Nat
  gx : Nat
  gy : Nat
  n : Nat
  h : Nat := 1

/-- P-256. -/
def p256 : Curve :=
  { p := 0xffffffff00000001000000000000000000000000ffffffffffffffffffffffff
    a := 0xffffffff00000001000000000000000000000000fffffffffffffffffffffffc
    b := 0x5ac635d8aa3a93e7b3ebbd55769886bc651d06b0cc53b0f63bce3c3e27d2604b
    gx := 0x6b17d1f2e12c4247f8bce6e563a440f277037d812deb33a0f4a13945d898c296
    gy := 0x4fe342e2fe1a7f9b8ee7eb4a7c0f9e162bce33576b315ececbb6406837bf51f5
    n := 0xffffffff00000000ffffffffffffffffbce6faada7179e84f3b9cac2fc632551 }

/-- P-384. -/
def p384 : Curve :=
  { p := 0xfffffffffffffffffffffffffffffffffffffffffffffffffffffffffffffffeffffffff0000000000000000ffffffff
    a := 0xfffffffffffffffffffffffffffffffffffffffffffffffffffffffffffffffeffffffff0000000000000000fffffffc
    b := 0xb3312fa7e23ee7e4988e056be3f82d19181d9c6efe8141120314088f5013875ac656398d8a2ed19d2a85c8edd3ec2aef
    gx := 0xaa87ca22be8b05378eb1c71ef320ad746e1d3b628ba79b9859f741e082542a385502f25dbf55296c3a545e3872760ab7
    gy := 0x3617de4a96262c6f5d9e98bf9292dc29f8f41dbd289a147ce9da3113b5f0b8c00a60b1ce1d7e819d7a431d7c90ea0e5f
    n := 0xffffffffffffffffffffffffffffffffffffffffffffffffc7634d81f4372ddf581a0db248b0a77aecec196accc52973 }

/-- P-521. -/
def p521 : Curve :=
  { p := 0x1ffffffffffffffffffffffffffffffffffffffffffffffffffffffffffffffffffffffffffffffffffffffffffffffffffffffffffffffffffffffffffffffffff
    a := 0x1fffffffffffffffffffffffffffffffffffffffffffffffffffffffffffffffffffffffffffffffffffffffffffffffffffffffffffffffffffffffffffffffffc
    b := 0x51953eb9618e1c9a1f929a21a0b68540eea2da725b99b315f3b8b489918ef109e156193951ec7e937b1652c0bd3bb1bf073573df883d2c34f1ef451fd46b503f00
    gx := 0xc6858e06b70404e9cd9e3ecb662395b4429c648139053fb521f828af606b4d3dbaa14b5e77efe75928fe1dc127a2ffa8de3348b3c1856a429bf97e7e31c2e5bd66
    gy := 0x11839296a789a3bc0045c8a5fb42c7d1bd998f54449579b446817afbd17273e662c97ee72995ef42640c550b9013fad0761353c7086a272c24088be94769fd16650
    n := 0x1fffffffffffffffffffffffffffffffffffffffffffffffffffffffffffffffffa51868783bf2f966b7fcc0148f709a5d03bb5c9b8899c47aebb6fb71e91386409 }

/-- brainpoolP256r1. -/
def brainpool256 : Curve :=
  { p := 0xa9fb57dba1eea9bc3e660a909d838d726e3bf623d52620282013481d1f6e5377
    a := 0x7d5a0975fc2c3057eef67530417affe7fb8055c126dc5c6ce94a4b44f330b5d9
    b := 0x26dc5c6ce94a4b44f330b5d9bbd77cbf958416295cf7e1ce6bccdc18ff8c07b6
    gx := 0x8bd2aeb9cb7e57cb2c4b482ffc81b7afb9de27e1e3bd23c23a4453bd9ace3262
    gy := 0x547ef835c3dac4fd97f8461a14611dc9c27745132ded8e545c1d54c72f046997
    n := 0xa9fb57dba1eea9bc3e660a909d838d718c397aa3b561a6f7901e0e82974856a7 }

/-- brainpoolP384r1. -/
def brainpool384 : Curve :=
  { p := 0x8cb91e82a3386d280f5d6f7e50e641df152f7109ed5456b412b1da197fb71123acd3a729901d1a71874700133107ec53
    a := 0x7bc382c63d8c150c3c72080ace05afa0c2bea28e4fb22787139165efba91f90f8aa5814a503ad4eb04a8c7dd22ce2826
    b := 0x4a8c7dd22ce28268b39b55416f0447c2fb77de107dcd2a62e880ea53eeb62d57cb4390295dbc9943ab78696fa504c11
    gx := 0x1d1c64f068cf45ffa2a63a81b7c13f6b8847a3e77ef14fe3db7fcafe0cbd10e8e826e03436d646aaef87b2e247d4af1e
    gy := 0x8abe1d7520f9c2a45cb1eb8e95cfd55262b70b29feec5864e19c054ff99129280e4646217791811142820341263c5315
    n := 0x8cb91e82a3386d280f5d6f7e50e641df152f7109ed5456b31f166e6cac0425a7cf3ab6af6b7fc3103b883202e9046565 }

/-- brainpoolP512r1. -/
def brainpool512 : Curve :=
  { p := 0xaadd9db8dbe9c48b3fd4e6ae33c9fc07cb308db3b3c9d20ed6639cca703308717d4d9b009bc66842aecda12ae6a380e62881ff2f2d82c68528aa6056583a48f3
    a := 0x7830a3318b603b89e2327145ac234cc594cbdd8d3df91610a83441caea9863bc2ded5d5aa8253aa10a2ef1c98b9ac8b57f1117a72bf2c7b9e7c1ac4d77fc94ca
    b := 0x3df91610a83441caea9863bc2ded5d5aa8253aa10a2ef1c98b9ac8b57f1117a72bf2c7b9e7c1ac4d77fc94cadc083e67984050b75ebae5dd2809bd638016f723
    gx := 0x81aee4bdd82ed9645a21322e9c4c6a9385ed9f70b5d916c1b43b62eef4d0098eff3b1f78e2d0d48d50d1687b93b97d5f7c6d5047406a5e688b352209bcb9f822
    gy := 0x7dde385d566332ecc0eabfa9cf7822fdf209f70024a57b1aa000c55b881f8111b2dcde494a5f485e5bca4bd88a2763aed1ca2b2fa8f0540678cd1e0f3ad80892
    n := 0xaadd9db8dbe9c48b3fd4e6ae33c9fc07cb308db3b3c9d20ed6639cca70330870553e5c414ca92619418661197fac10471db1d381085ddaddb58796829ca90069 }

/-- A point: none is the point at infinity. -/
abbrev Point := Option (Nat × Nat)

def Curve.base (c : Curve) : Point := some (c.gx, c.gy)

/-- The point satisfies the curve equation. -/
def Curve.has (c : Curve) (x y : Nat) : Bool := decide (y * y % c.p = (x * x * x + c.a * x + c.b) % c.p)

def Curve.add (c : Curve) (u v : Point) : Point :=
  match u, v with
  | none, q => q
  | q, none => q
  | some (x1, y1), some (x2, y2) =>
    if x1 = x2 ∧ (y1 + y2) % c.p = 0 then none
    else
      let l := if x1 = x2 then (3 * x1 * x1 + c.a) * invMod (2 * y1) c.p % c.p
        else subMod y2 y1 c.p * invMod (subMod x2 x1 c.p) c.p % c.p
      let x := subMod (l * l) (x1 + x2) c.p
      some (x, subMod (l * subMod x1 x c.p) y1 c.p)

def Curve.mulBits (c : Curve) : Nat → Nat → Point → Point → Point
  | 0, _, _, acc => acc
  | fuel + 1, k, q, acc => c.mulBits fuel (k / 2) (c.add q q) (if k % 2 = 1 then c.add acc q else acc)

/-- k × q. -/
def Curve.mul (c : Curve) (k : Nat) (q : Point) : Point := c.mulBits (Nat.log2 k + 1) k q none

/-- Bytes of the larger of p and n (R288). -/
def Curve.size (c : Curve) : Nat := (Nat.log2 (max c.p c.n) + 8) / 8

/-! ### ECDSA (FIPS 186-5) -/

/-- (r, s) of the integer e under d with nonce k. -/
def ecdsaSignInt (c : Curve) (d e k : Nat) : Nat × Nat :=
  match c.mul k c.base with
  | none => (0, 0)
  | some (x, _) =>
    let r := x % c.n
    (r, invMod k c.n * ((e + r * d) % c.n) % c.n)

/-- (r, s) verifies for e against the point (x, y). -/
def ecdsaVerifyInt (c : Curve) (x y e r s : Nat) : Bool :=
  let w := invMod s c.n
  match c.add (c.mul (e * w % c.n) c.base) (c.mul (r * w % c.n) (some (x, y))) with
  | none => false
  | some (v, _) => decide (v % c.n = r)

/-! ### RSA -/

/-- An RSA private key as a binding holds it: p, q, dp, dq and qInv, each a fifth of the bytes. -/
structure RsaKey where
  p : Nat
  q : Nat
  dp : Nat
  dq : Nat
  qInv : Nat

def rsaKeyOf (raw : Bytes) : RsaKey :=
  let k := raw.length / 5
  let f := fun i => beNat (slice raw (k * i) k)
  { p := f 0, q := f 1, dp := f 2, dq := f 3, qInv := f 4 }

def RsaKey.n (k : RsaKey) : Nat := k.p * k.q

/-- X to the private exponent by the Chinese remainder theorem (R287, R289). -/
def RsaKey.crt (k : RsaKey) (x : Nat) : Nat :=
  let a := powMod x k.dp k.p
  let b := powMod x k.dq k.q
  b + k.q * (k.qInv * subMod a b k.p % k.p)

/-! ### Primality (Table 10.9) -/

/-- One Miller–Rabin round of base `a` on odd n > 2. -/
def mrSquares (n : Nat) : Nat → Nat → Bool
  | 0, _ => false
  | r + 1, x => decide (x = n - 1) || mrSquares n r (x * x % n)

/-- n − 1 as d × 2^r, over at most `fuel` halvings. -/
def mrSplit : Nat → Nat → Nat → Nat × Nat
  | 0, d, r => (d, r)
  | fuel + 1, d, r => if d % 2 = 0 then mrSplit fuel (d / 2) (r + 1) else (d, r)

def mrRound (n a : Nat) : Bool :=
  let (d, r) := mrSplit (Nat.log2 n + 1) (n - 1) 0
  let x := powMod a d n
  decide (x = 1) || mrSquares n r x

/-- n passes a round for every base. -/
def millerRabin (n : Nat) (bases : List Nat) : Bool :=
  decide (n = 2 ∨ n = 3) || (decide (3 < n ∧ n % 2 = 1) && bases.all (fun b => mrRound n (2 + b % (n - 3))))

end Sys2Proof.Machine
end

