-- ==== Sys2Proof/Config.lean ====
section
/-! DEFINITION. What an implementation or a device fixes, and values and encodings that the manual leaves open: constants with no
body, of which nothing can be proved but their types (log entries 5 and 6). -/

namespace Sys2Proof.Config

/-! The device (R13, DEV window). -/

/-- DEV_SERIAL. -/
opaque serial : BitVec 64
/-- The owner's claim token, a 32-byte value delivered with the device (Table 14.3, R421). -/
opaque claimToken : BitVec 256
/-- The 256-bit package secret of R13. -/
opaque packageSecret : BitVec 256

/-! Random bytes: the byte drawn at each value of the model's draw counter (log entry 6). -/

opaque randomByte : Nat → Byte

/-! Key blocks (X9.143): the two algorithm characters that no source gives, and the encoding of a private or public
asymmetric key inside a block, read as (algorithm code of Table 9.2, curve code, raw key) and written from them. -/

opaque algCharMlKem : Byte
opaque algCharMlDsa : Byte
opaque readAsym : Byte → Bytes → Option (Nat × Nat × Bytes)
opaque writeAsym : Nat → Nat → Bytes → Bytes

/-! Keys and certificates whose values or encodings are outside the spec: Brosyn's debug keys in ROM (R384), whether
Brosyn's ECDSA and ML-DSA signatures of an image's library verify (R194), the public key that a device certificate certifies
(R270), and a card certificate (R362) as (serial number, NOT_BEFORE, NOT_AFTER, point X then Y), none where its signature under
the card root of its tenant or its form fails. -/

opaque debugKeyEc : Bytes
opaque debugKeyPq : Bytes
opaque librarySignatures : Bytes → Bool × Bool
/-- Both signatures of a tenant's package verify (R194). -/
opaque packageSigned : Bytes → Bool
opaque certifiedKey : Bytes → Option Bytes
opaque readCard : Bytes → Option (Nat × Nat × Nat × Bytes)

/-! What the EMV and TR-34 functions need and no source gives: the second half of the AES plaintext of EPIN (R236), and the
CMS encodings of a TR-34 token (R241): its parts as (signed bytes, signature scheme, signature, encrypted content key, content
algorithm, IV, ciphertext), the key in its clear content as (usage, algorithm character, mode, exportability, key), the clear
content and the signed bytes of a token that is built, and the token of signed bytes and a signature. -/

opaque format2Tail : BitVec 64
opaque tr34Parse : Bytes → Option (Bytes × Nat × Bytes × Bytes × Nat × Bytes × Bytes)
opaque tr34Key : Bytes → Option (Nat × Byte × Nat × Nat × Bytes)
opaque tr34Content : Nat → Byte → Nat → Nat → Bytes → Bytes
opaque tr34Signed : Bytes → Bytes → Bytes → Bytes → Bytes
opaque tr34Token : Bytes → Bytes → Bytes

/-- Offset of a bad value in a section of an image (Table 16.5), whose section encodings the spec does not give. -/
opaque sectionOffset : Nat → Bytes → BitVec 28

/-- Which memory of Table 1.2, and which of its bytes, the debug master's compute-die SRAM space (R387) shows at an address: the
row, from 0 for core-block memory to 12 for the port buffers, 13 for the DRBG state and 14 for the rest of the last row; any
other number is no memory. The spec gives the space no map. -/
opaque debugSram : Nat → Nat × Nat

end Sys2Proof.Config
end

