-- ==== Sys2Proof/Machine/BlockCipher.lean ====
section
/-! DEFINITION. The block ciphers that the manual names: AES (FIPS 197) and DES (SP 800-67; log entry 13, PRESUMED: the manual
names the standards and does not repeat them). -/

namespace Sys2Proof.Machine

/-! ### AES -/

/-- The S-box: sixteen rows of sixteen bytes, the first byte highest. -/
def aesBoxRows : List Nat :=
  [0x637C777BF26B6FC53001672BFED7AB76, 0xCA82C97DFA5947F0ADD4A2AF9CA472C0,
   0xB7FD9326363FF7CC34A5E5F171D83115, 0x04C723C31896059A071280E2EB27B275,
   0x09832C1A1B6E5AA0523BD6B329E32F84, 0x53D100ED20FCB15B6ACBBE394A4C58CF,
   0xD0EFAAFB434D338545F9027F503C9FA8, 0x51A3408F929D38F5BCB6DA2110FFF3D2,
   0xCD0C13EC5F974417C4A77E3D645D1973, 0x60814FDC222A908846EEB814DE5E0BDB,
   0xE0323A0A4906245CC2D3AC629195E479, 0xE7C8376D8DD54EA96C56F4EA657AAE08,
   0xBA78252E1CA6B4C6E8DD741F4BBD8B8A, 0x703EB5664803F60E613557B986C11D9E,
   0xE1F8981169D98E949B1E87E9CE5528DF, 0x8CA1890DBFE6426841992D0FB054BB16]

/-- The inverse S-box. -/
def aesInvBoxRows : List Nat :=
  [0x52096AD53036A538BF40A39E81F3D7FB, 0x7CE339829B2FFF87348E4344C4DEE9CB,
   0x547B9432A6C2233DEE4C950B42FAC34E, 0x082EA16628D924B2765BA2496D8BD125,
   0x72F8F66486689816D4A45CCC5D65B692, 0x6C704850FDEDB9DA5E154657A78D9D84,
   0x90D8AB008CBCD30AF7E45805B8B34506, 0xD02C1E8FCA3F0F02C1AFBD0301138A6B,
   0x3A9111414F67DCEA97F2CFCEF0B4E673, 0x96AC7422E7AD3585E2F937E81C75DF6E,
   0x47F11A711D29C5896FB7620EAA18BE1B, 0xFC563E4BC6D279209ADBC0FE78CD5AF4,
   0x1FDDA8338807C731B11210592780EC5F, 0x60517FA919B54A0D2DE57A9F93C99CEF,
   0xA0E03B4DAE2AF5B0C8EBBB3C83539961, 0x172B047EBA77D626E169146355210C7D]

def boxOf (rows : List Nat) (x : Nat) : Nat := rows.getD (x / 16) 0 / 256 ^ (15 - x % 16) % 256
def aesSub (x : Nat) : Nat := boxOf aesBoxRows x
def aesInvSub (x : Nat) : Nat := boxOf aesInvBoxRows x

/-- Multiplication in GF(2^8) by a small number, over the bits of `c`. -/
def aesTimes : Nat → Nat → Nat → Nat
  | 0, _, _ => 0
  | n + 1, c, x => (if c % 2 = 1 then x else 0) ^^^ aesTimes n (c / 2) (if x < 128 then 2 * x else (2 * x) ^^^ 0x11B)

/-- One column times the circulant matrix of `m`. -/
def aesMixColumn (m : List Nat) (c : List Nat) : List Nat :=
  (List.range 4).map (fun r => ((List.range 4).map (fun j => aesTimes 4 (m.getD ((j + 4 - r) % 4) 0) (c.getD j 0))).foldl (· ^^^ ·) 0)

/-- Four columns of four bytes. -/
def aesMix (m : List Nat) (s : List Nat) : List Nat :=
  (List.range 4).flatMap (fun c => aesMixColumn m ((s.drop (4 * c)).take 4))

/-- Byte r of column c comes from column c + r, or, undoing it, c − r. -/
def aesShift (s : List Nat) : List Nat := (List.range 16).map (fun i => s.getD ((i + 4 * (i % 4)) % 16) 0)
def aesUnshift (s : List Nat) : List Nat := (List.range 16).map (fun i => s.getD ((i + 16 - 4 * (i % 4)) % 16) 0)

/-- The key schedule, held last word first: word `i` of keys of `nk` words, for `n` more words. -/
def aesExpand (nk : Nat) : Nat → Nat → Nat → List (List Nat) → List (List Nat)
  | 0, _, _, w => w
  | n + 1, i, rcon, w =>
    let t := w.getD 0 []
    let first := decide (i % nk = 0)
    let t1 :=
      if first then
        match (t.drop 1 ++ t.take 1).map aesSub with
        | a :: l => (a ^^^ rcon) :: l
        | [] => []
      else if 6 < nk ∧ i % nk = 4 then t.map aesSub
      else t
    let next := if first then (if rcon < 128 then 2 * rcon else (2 * rcon) ^^^ 0x11B) else rcon
    aesExpand nk n (i + 1) next (List.zipWith (· ^^^ ·) (w.getD (nk - 1) []) t1 :: w)

/-- Round keys of 16 bytes, the last round's first. -/
def aesKeys (key : Bytes) : List (List Nat) :=
  let nk := key.length / 4
  let w := (chunks 4 key).map (fun b => b.map (·.toNat))
  let l := aesExpand nk (4 * (nk + 7) - nk) nk 1 w.reverse
  (List.range (nk + 7)).map (fun r => (((l.drop (4 * r)).take 4).reverse).flatten)

def aesXor (a b : List Nat) : List Nat := List.zipWith (· ^^^ ·) a b
def aesBytes (l : List Nat) : Word128 := BitVec.ofNat 128 (l.foldl (fun a x => a * 256 + x) 0)

/-- AES of a 16-, 24- or 32-byte key on one block. -/
@[irreducible] def aesEncrypt (key : Bytes) (b : Word128) : Word128 :=
  match (aesKeys key).reverse with
  | [] => b
  | k0 :: rest =>
    let s := rest.dropLast.foldl (fun s k => aesXor (aesMix [2, 3, 1, 1] (aesShift (s.map aesSub))) k) (aesXor ((bytes128 b).map (·.toNat)) k0)
    aesBytes (aesXor (aesShift (s.map aesSub)) (rest.getLastD []))

/-- The inverse cipher. -/
@[irreducible] def aesDecrypt (key : Bytes) (b : Word128) : Word128 :=
  match aesKeys key with
  | [] => b
  | k0 :: rest =>
    let s := rest.dropLast.foldl (fun s k => aesMix [14, 11, 13, 9] (aesXor ((aesUnshift s).map aesInvSub) k)) (aesXor ((bytes128 b).map (·.toNat)) k0)
    aesBytes (aesXor ((aesUnshift s).map aesInvSub) (rest.getLastD []))

/-! ### DES -/

/-- The initial permutation: bit i of the result is this bit of the input, counted from 1 at the top. -/
def desInitial : List Nat :=
  [58, 50, 42, 34, 26, 18, 10, 2, 60, 52, 44, 36, 28, 20, 12, 4] ++
  [62, 54, 46, 38, 30, 22, 14, 6, 64, 56, 48, 40, 32, 24, 16, 8] ++
  [57, 49, 41, 33, 25, 17, 9, 1, 59, 51, 43, 35, 27, 19, 11, 3] ++
  [61, 53, 45, 37, 29, 21, 13, 5, 63, 55, 47, 39, 31, 23, 15, 7]

/-- Its inverse. -/
def desFinal : List Nat :=
  [40, 8, 48, 16, 56, 24, 64, 32, 39, 7, 47, 15, 55, 23, 63, 31] ++
  [38, 6, 46, 14, 54, 22, 62, 30, 37, 5, 45, 13, 53, 21, 61, 29] ++
  [36, 4, 44, 12, 52, 20, 60, 28, 35, 3, 43, 11, 51, 19, 59, 27] ++
  [34, 2, 42, 10, 50, 18, 58, 26, 33, 1, 41, 9, 49, 17, 57, 25]

/-- The expansion of a half to 48 bits. -/
def desExpansion : List Nat :=
  [32, 1, 2, 3, 4, 5, 4, 5, 6, 7, 8, 9, 8, 9, 10, 11] ++
  [12, 13, 12, 13, 14, 15, 16, 17, 16, 17, 18, 19, 20, 21, 20, 21] ++
  [22, 23, 24, 25, 24, 25, 26, 27, 28, 29, 28, 29, 30, 31, 32, 1]

/-- The permutation after the boxes. -/
def desPermutation : List Nat :=
  [16, 7, 20, 21, 29, 12, 28, 17, 1, 15, 23, 26, 5, 18, 31, 10] ++
  [2, 8, 24, 14, 32, 27, 3, 9, 19, 13, 30, 6, 22, 11, 4, 25]

/-- The 56 key bits. -/
def desKeyBits : List Nat :=
  [57, 49, 41, 33, 25, 17, 9, 1, 58, 50, 42, 34, 26, 18] ++
  [10, 2, 59, 51, 43, 35, 27, 19, 11, 3, 60, 52, 44, 36] ++
  [63, 55, 47, 39, 31, 23, 15, 7, 62, 54, 46, 38, 30, 22] ++
  [14, 6, 61, 53, 45, 37, 29, 21, 13, 5, 28, 20, 12, 4]

/-- The 48 bits of a round key. -/
def desRoundBits : List Nat :=
  [14, 17, 11, 24, 1, 5, 3, 28, 15, 6, 21, 10] ++
  [23, 19, 12, 4, 26, 8, 16, 7, 27, 20, 13, 2] ++
  [41, 52, 31, 37, 47, 55, 30, 40, 51, 45, 33, 48] ++
  [44, 49, 39, 56, 34, 53, 46, 42, 50, 36, 29, 32]

/-- The rotation of each round. -/
def desShifts : List Nat :=
  [1, 1, 2, 2, 2, 2, 2, 2, 1, 2, 2, 2, 2, 2, 2, 1]

/-- The eight substitution boxes: each four rows of sixteen values, the first value highest. -/
def desBoxes : List (List Nat) :=
  [[0xE4D12FB83A6C5907, 0x0F74E2D1A6CB9538, 0x41E8D62BFC973A50, 0xFC8249175B3EA06D],
   [0xF18E6B34972DC05A, 0x3D47F28EC01A69B5, 0x0E7BA4D158C6932F, 0xD8A13F42B67C05E9],
   [0xA09E63F51DC7B428, 0xD709346A285ECBF1, 0xD6498F30B12C5AE7, 0x1AD069874FE3B52C],
   [0x7DE3069A1285BC4F, 0xD8B56F03472C1AE9, 0xA690CB7DF13E5284, 0x3F06A1D8945BC72E],
   [0x2C417AB6853FD0E9, 0xEB2C47D150FA3986, 0x421BAD78F9C5630E, 0xB8C71E2D6F09A453],
   [0xC1AF92680D34E75B, 0xAF427C9561DE0B38, 0x9EF528C3704A1DB6, 0x432C95FABE17608D],
   [0x4B2EF08D3C975A61, 0xD0B7491AE35C2F86, 0x14BDC37EAF680592, 0x6BD814A7950FE23C],
   [0xD2846FB1A93E50C7, 0x1FD8A374C56B0E92, 0x7B419CE206ADF358, 0x21E74A8DFC90356B]]

/-- Bits of a number of `n` bits, in the order of a table. -/
def permute (n : Nat) (table : List Nat) (x : Nat) : Nat := table.foldl (fun a p => 2 * a + x / 2 ^ (n - p) % 2) 0

/-- A 28-bit half rotated left. -/
def desRotate (k x : Nat) : Nat := (x * 2 ^ k) % 2 ^ 28 + x / 2 ^ (28 - k)

/-- The round keys, first round first. -/
def desRoundKeys : List Nat → Nat → Nat → List Nat
  | [], _, _ => []
  | k :: l, c, d =>
    let c1 := desRotate k c
    let d1 := desRotate k d
    permute 56 desRoundBits (c1 * 2 ^ 28 + d1) :: desRoundKeys l c1 d1

def desKeys (key : Bytes) : List Nat :=
  let x := permute 64 desKeyBits (fld key 0 8)
  desRoundKeys desShifts (x / 2 ^ 28) (x % 2 ^ 28)

/-- The round function. -/
def desF (k r : Nat) : Nat :=
  let x := permute 32 desExpansion r ^^^ k
  let y := (desBoxes.zipIdx).foldl (fun a p =>
    let v := x / 2 ^ (42 - 6 * p.2) % 64
    let row := 2 * (v / 32) + v % 2
    a * 16 + p.1.getD row 0 / 16 ^ (15 - v / 2 % 16) % 16) 0
  permute 32 desPermutation y

def desRun (keys : List Nat) (b : Word64) : Word64 :=
  let x := permute 64 desInitial b.toNat
  let (l, r) := keys.foldl (fun (q : Nat × Nat) k => (q.2, q.1 ^^^ desF k q.2)) (x / 2 ^ 32, x % 2 ^ 32)
  BitVec.ofNat 64 (permute 64 desFinal (r * 2 ^ 32 + l))

/-- DES of an 8-byte key on one block, and its inverse. -/
@[irreducible] def desEncrypt (key : Bytes) (b : Word64) : Word64 := desRun (desKeys key) b
@[irreducible] def desDecrypt (key : Bytes) (b : Word64) : Word64 := desRun (desKeys key).reverse b

end Sys2Proof.Machine
end

