-- ==== Sys2Proof/Machine/Hash.lean ====
section
/-! DEFINITION. The hash functions that the manual names: SHA-1 and SHA-2 (FIPS 180-4), SHA-3 and SHAKE (FIPS 202; log entry 13,
PRESUMED: the manual names the standards and does not repeat them). Words are numbers below 2^32 or 2^64. -/

namespace Sys2Proof.Machine

/-! ### Words -/

def rotl (w n x : Nat) : Nat := (x <<< n) % 2 ^ w ||| x >>> (w - n)
def rotr (w n x : Nat) : Nat := rotl w (w - n) x

/-- A message with its padding for blocks of `blk` bytes: the bit 1, zeros, and the bit length in `len` bytes. -/
def shaPad (blk len : Nat) (m : Bytes) : Bytes :=
  m ++ 0x80 :: (zeros ((2 * blk - (m.length + 1 + len) % blk) % blk) ++ beBytes len (8 * m.length))

/-- The words of `n` bytes of a block, first word first. -/
def wordsOf (n : Nat) (b : Bytes) : List Nat := (chunks n b).map beNat

/-- The bytes of words of `n` bytes. -/
def wordBytes (n : Nat) (l : List Nat) : Bytes := l.flatMap (beBytes n)

/-- Add word by word. -/
def addWords (w : Nat) (a b : List Nat) : List Nat := List.zipWith (fun x y => (x + y) % 2 ^ w) a b

/-! ### SHA-1 -/

/-- Extend the schedule, held last word first, by `n` words. -/
def sha1Extend : Nat → List Nat → List Nat
  | 0, r => r
  | n + 1, r => sha1Extend n (rotl 32 1 (r.getD 2 0 ^^^ r.getD 7 0 ^^^ r.getD 13 0 ^^^ r.getD 15 0) :: r)

def sha1Round (t : Nat) (v : List Nat) (x : Nat) : List Nat :=
  let a := v.getD 0 0
  let b := v.getD 1 0
  let c := v.getD 2 0
  let d := v.getD 3 0
  let not := fun (y : Nat) => 0xFFFFFFFF - y
  let f := if t < 20 then (b &&& c) ^^^ (not b &&& d) else if t < 40 then b ^^^ c ^^^ d
    else if t < 60 then (b &&& c) ^^^ (b &&& d) ^^^ (c &&& d) else b ^^^ c ^^^ d
  let k := if t < 20 then 0x5A827999 else if t < 40 then 0x6ED9EBA1 else if t < 60 then 0x8F1BBCDC else 0xCA62C1D6
  [(rotl 32 5 a + f + v.getD 4 0 + k + x) % 2 ^ 32, a, rotl 32 30 b, c, d]

def sha1Rounds : Nat → List Nat → List Nat → List Nat
  | _, v, [] => v
  | t, v, x :: l => sha1Rounds (t + 1) (sha1Round t v x) l

def sha1Block (h : List Nat) (b : Bytes) : List Nat :=
  addWords 32 h (sha1Rounds 0 h (sha1Extend 64 (wordsOf 4 b).reverse).reverse)

@[irreducible] def sha1B (m : Bytes) : Bytes :=
  wordBytes 4 ((chunks 64 (shaPad 64 8 m)).foldl sha1Block [0x67452301, 0xEFCDAB89, 0x98BADCFE, 0x10325476, 0xC3D2E1F0])

/-! ### SHA-2 -/

/-- The constants of SHA-512; those of SHA-256 are the upper halves of the first 64. -/
def sha2K : List Nat :=
  [0x428A2F98D728AE22, 0x7137449123EF65CD, 0xB5C0FBCFEC4D3B2F, 0xE9B5DBA58189DBBC,
   0x3956C25BF348B538, 0x59F111F1B605D019, 0x923F82A4AF194F9B, 0xAB1C5ED5DA6D8118,
   0xD807AA98A3030242, 0x12835B0145706FBE, 0x243185BE4EE4B28C, 0x550C7DC3D5FFB4E2,
   0x72BE5D74F27B896F, 0x80DEB1FE3B1696B1, 0x9BDC06A725C71235, 0xC19BF174CF692694] ++
  [0xE49B69C19EF14AD2, 0xEFBE4786384F25E3, 0x0FC19DC68B8CD5B5, 0x240CA1CC77AC9C65,
   0x2DE92C6F592B0275, 0x4A7484AA6EA6E483, 0x5CB0A9DCBD41FBD4, 0x76F988DA831153B5,
   0x983E5152EE66DFAB, 0xA831C66D2DB43210, 0xB00327C898FB213F, 0xBF597FC7BEEF0EE4,
   0xC6E00BF33DA88FC2, 0xD5A79147930AA725, 0x06CA6351E003826F, 0x142929670A0E6E70] ++
  [0x27B70A8546D22FFC, 0x2E1B21385C26C926, 0x4D2C6DFC5AC42AED, 0x53380D139D95B3DF,
   0x650A73548BAF63DE, 0x766A0ABB3C77B2A8, 0x81C2C92E47EDAEE6, 0x92722C851482353B,
   0xA2BFE8A14CF10364, 0xA81A664BBC423001, 0xC24B8B70D0F89791, 0xC76C51A30654BE30,
   0xD192E819D6EF5218, 0xD69906245565A910, 0xF40E35855771202A, 0x106AA07032BBD1B8] ++
  [0x19A4C116B8D2D0C8, 0x1E376C085141AB53, 0x2748774CDF8EEB99, 0x34B0BCB5E19B48A8,
   0x391C0CB3C5C95A63, 0x4ED8AA4AE3418ACB, 0x5B9CCA4F7763E373, 0x682E6FF3D6B2B8A3,
   0x748F82EE5DEFB2FC, 0x78A5636F43172F60, 0x84C87814A1F0AB72, 0x8CC702081A6439EC,
   0x90BEFFFA23631E28, 0xA4506CEBDE82BDE9, 0xBEF9A3F7B2C67915, 0xC67178F2E372532B] ++
  [0xCA273ECEEA26619C, 0xD186B8C721C0C207, 0xEADA7DD6CDE0EB1E, 0xF57D4F7FEE6ED178,
   0x06F067AA72176FBA, 0x0A637DC5A2C898A6, 0x113F9804BEF90DAE, 0x1B710B35131C471B,
   0x28DB77F523047D84, 0x32CAAB7B40C72493, 0x3C9EBE0A15C9BEBC, 0x431D67C49C100D4C,
   0x4CC5D4BECB3E42B6, 0x597F299CFC657E2A, 0x5FCB6FAB3AD6FAEC, 0x6C44198C4A475817]

/-- The initial value of SHA-512; that of SHA-256 is the upper halves. -/
def sha512Start : List Nat :=
  [0x6A09E667F3BCC908, 0xBB67AE8584CAA73B, 0x3C6EF372FE94F82B, 0xA54FF53A5F1D36F1,
   0x510E527FADE682D1, 0x9B05688C2B3E6C1F, 0x1F83D9ABFB41BD6B, 0x5BE0CD19137E2179]

/-- The initial value of SHA-384; that of SHA-224 is the lower halves. -/
def sha384Start : List Nat :=
  [0xCBBB9D5DC1059ED8, 0x629A292A367CD507, 0x9159015A3070DD17, 0x152FECD8F70E5939,
   0x67332667FFC00B31, 0x8EB44A8768581511, 0xDB0C2E0D64F98FA7, 0x47B5481DBEFA4FA4]

/-- The rotations of the four functions of SHA-256 and SHA-512: the last of a lower-case one is a shift. -/
structure Sha2 where
  w : Nat
  big0 : Nat × Nat × Nat
  big1 : Nat × Nat × Nat
  small0 : Nat × Nat × Nat
  small1 : Nat × Nat × Nat

def sha256Form : Sha2 := { w := 32, big0 := (2, 13, 22), big1 := (6, 11, 25), small0 := (7, 18, 3), small1 := (17, 19, 10) }
def sha512Form : Sha2 := { w := 64, big0 := (28, 34, 39), big1 := (14, 18, 41), small0 := (1, 8, 7), small1 := (19, 61, 6) }

def Sha2.big (f : Sha2) (r : Nat × Nat × Nat) (x : Nat) : Nat := rotr f.w r.1 x ^^^ rotr f.w r.2.1 x ^^^ rotr f.w r.2.2 x
def Sha2.small (f : Sha2) (r : Nat × Nat × Nat) (x : Nat) : Nat := rotr f.w r.1 x ^^^ rotr f.w r.2.1 x ^^^ x >>> r.2.2

/-- Extend the schedule, held last word first, by `n` words. -/
def Sha2.extend (f : Sha2) : Nat → List Nat → List Nat
  | 0, r => r
  | n + 1, r =>
    f.extend n (((f.small f.small1 (r.getD 1 0) + r.getD 6 0 + f.small f.small0 (r.getD 14 0) + r.getD 15 0) % 2 ^ f.w) :: r)

def Sha2.round (f : Sha2) (v : List Nat) (kw : Nat × Nat) : List Nat :=
  let a := v.getD 0 0
  let b := v.getD 1 0
  let c := v.getD 2 0
  let e := v.getD 4 0
  let g := v.getD 6 0
  let t1 := v.getD 7 0 + f.big f.big1 e + ((e &&& v.getD 5 0) ^^^ ((2 ^ f.w - 1 - e) &&& g)) + kw.1 + kw.2
  let t2 := f.big f.big0 a + ((a &&& b) ^^^ (a &&& c) ^^^ (b &&& c))
  [(t1 + t2) % 2 ^ f.w, a, b, c, (v.getD 3 0 + t1) % 2 ^ f.w, e, v.getD 5 0, g]

def Sha2.block (f : Sha2) (k : List Nat) (h : List Nat) (b : Bytes) : List Nat :=
  let w := (f.extend (k.length - 16) (wordsOf (f.w / 8) b).reverse).reverse
  addWords f.w h ((k.zip w).foldl f.round h)

def sha256With (start : List Nat) (m : Bytes) : Bytes :=
  let k := (sha2K.take 64).map (· >>> 32)
  wordBytes 4 ((chunks 64 (shaPad 64 8 m)).foldl (sha256Form.block k) start)

def sha512With (start : List Nat) (m : Bytes) : Bytes :=
  wordBytes 8 ((chunks 128 (shaPad 128 16 m)).foldl (sha512Form.block sha2K) start)

@[irreducible] def sha224B (m : Bytes) : Bytes := (sha256With (sha384Start.map (· % 2 ^ 32)) m).take 28
@[irreducible] def sha256B (m : Bytes) : Bytes := sha256With (sha512Start.map (· >>> 32)) m
@[irreducible] def sha384B (m : Bytes) : Bytes := (sha512With sha384Start m).take 48
@[irreducible] def sha512B (m : Bytes) : Bytes := sha512With sha512Start m

/-! ### SHA-3 and SHAKE -/

/-- The round constants of KECCAK-f[1600]. -/
def keccakRound : List Nat :=
  [0x0000000000000001, 0x0000000000008082, 0x800000000000808A, 0x8000000080008000,
   0x000000000000808B, 0x0000000080000001, 0x8000000080008081, 0x8000000000008009,
   0x000000000000008A, 0x0000000000000088, 0x0000000080008009, 0x000000008000000A] ++
  [0x000000008000808B, 0x800000000000008B, 0x8000000000008089, 0x8000000000008003,
   0x8000000000008002, 0x8000000000000080, 0x000000000000800A, 0x800000008000000A,
   0x8000000080008081, 0x8000000000008080, 0x0000000080000001, 0x8000000080008008]

/-- The rotation of lane x + 5y. -/
def keccakOffset : List Nat :=
  [0, 1, 62, 28, 27,
   36, 44, 6, 55, 20,
   3, 10, 43, 25, 39,
   41, 45, 15, 21, 8,
   18, 2, 61, 56, 14]

/-- One round on 25 lanes, lane x + 5y. -/
def keccakOne (a : List Nat) (rc : Nat) : List Nat :=
  let c := (List.range 5).map (fun x => a.getD x 0 ^^^ a.getD (x + 5) 0 ^^^ a.getD (x + 10) 0 ^^^ a.getD (x + 15) 0 ^^^ a.getD (x + 20) 0)
  let d := (List.range 5).map (fun x => c.getD ((x + 4) % 5) 0 ^^^ rotl 64 1 (c.getD ((x + 1) % 5) 0))
  let r := (List.range 25).map (fun i => rotl 64 (keccakOffset.getD i 0) (a.getD i 0 ^^^ d.getD (i % 5) 0))
  -- lane x + 5y of the next array comes from lane (x + 3y) mod 5 of row x
  let b := (List.range 25).map (fun i => r.getD ((i % 5 + 3 * (i / 5)) % 5 + 5 * (i % 5)) 0)
  let e := (List.range 25).map (fun i =>
    b.getD i 0 ^^^ ((2 ^ 64 - 1 - b.getD ((i + 1) % 5 + i / 5 * 5) 0) &&& b.getD ((i + 2) % 5 + i / 5 * 5) 0))
  (e.getD 0 0 ^^^ rc) :: e.drop 1

def keccakF (a : List Nat) : List Nat := keccakRound.foldl keccakOne a

/-- Lanes and their bytes: the first byte of a lane is its lowest. -/
def lanesOf (b : Bytes) : List Nat := (chunks 8 b).map (fun l => beNat l.reverse)
def laneBytes (l : List Nat) : Bytes := l.flatMap (fun x => (beBytes 8 x).reverse)

/-- Absorb a block. -/
def keccakAbsorb (a : List Nat) (block : Bytes) : List Nat := keccakF (List.zipWith (· ^^^ ·) a (lanesOf (padTo 200 block)))

/-- Squeeze `n` blocks of `rate` bytes. -/
def keccakSqueeze (rate : Nat) : Nat → List Nat → Bytes
  | 0, _ => []
  | n + 1, a => (laneBytes a).take rate ++ keccakSqueeze rate n (keccakF a)

/-- The sponge with `rate` bytes, the domain byte and `len` bytes of output. -/
def sponge (rate : Nat) (domain : Byte) (len : Nat) (m : Bytes) : Bytes :=
  let n := rate - m.length % rate
  let tail := if n = 1 then [domain ||| 0x80] else domain :: (zeros (n - 2) ++ [0x80])
  (keccakSqueeze rate ((len + rate - 1) / rate) ((chunks rate (m ++ tail)).foldl keccakAbsorb (List.replicate 25 0))).take len

@[irreducible] def sha3_256B (m : Bytes) : Bytes := sponge 136 6 32 m
@[irreducible] def sha3_384B (m : Bytes) : Bytes := sponge 104 6 48 m
@[irreducible] def sha3_512B (m : Bytes) : Bytes := sponge 72 6 64 m

end Sys2Proof.Machine
end

