-- ==== Sys2Proof/Machine/Lattice.lean ====
section
/-! DEFINITION. ML-KEM-768 (FIPS 203) and ML-DSA-65 (FIPS 204), which the manual names and does not repeat (R244, chapter 10; log
entry 13, PRESUMED). Polynomials are lists of 256 coefficients below the modulus. -/

namespace Sys2Proof.Machine

def shake128 (m : Bytes) (n : Nat) : Bytes := sponge 168 0x1F n m
def shake256 (m : Bytes) (n : Nat) : Bytes := sponge 136 0x1F n m

/-! ### Polynomials -/

/-- The lowest `n` bits of `x` in reverse. -/
def bitRev : Nat → Nat → Nat
  | 0, _ => 0
  | n + 1, x => x % 2 * 2 ^ n + bitRev n (x / 2)

/-- A ring: its modulus, a root of unity, the root's order, the layers of its transform and the inverse of 2 to their number. -/
structure Ring where
  q : Nat
  zeta : Nat
  order : Nat
  layers : Nat
  scale : Nat

def kemRing : Ring := { q := 3329, zeta := 17, order := 256, layers := 7, scale := 3303 }
def dsaRing : Ring := { q := 8380417, zeta := 1753, order := 512, layers := 8, scale := 8347681 }

def Ring.add (r : Ring) (a b : List Nat) : List Nat := List.zipWith (fun x y => (x + y) % r.q) a b
def Ring.sub (r : Ring) (a b : List Nat) : List Nat := List.zipWith (fun x y => (x + r.q - y) % r.q) a b
def Ring.times (r : Ring) (c : Nat) (a : List Nat) : List Nat := a.map (fun x => c * x % r.q)
def Ring.zero : List Nat := List.replicate 256 0

/-- The transform below node `i` of its tree. -/
def Ring.split (r : Ring) : Nat → Nat → List Nat → List Nat
  | 0, _, f => f
  | n + 1, i, f =>
    let h := f.length / 2
    let t := r.times (r.zeta ^ bitRev r.layers i % r.q) (f.drop h)
    r.split n (2 * i) (r.add (f.take h) t) ++ r.split n (2 * i + 1) (r.sub (f.take h) t)

/-- Its inverse, but for the factor of 2 at each layer. -/
def Ring.join (r : Ring) : Nat → Nat → List Nat → List Nat
  | 0, _, f => f
  | n + 1, i, f =>
    let h := f.length / 2
    let a := r.join n (2 * i) (f.take h)
    let b := r.join n (2 * i + 1) (f.drop h)
    r.add a b ++ r.times (r.zeta ^ (r.order - bitRev r.layers i) % r.q) (r.sub a b)

def Ring.ntt (r : Ring) (f : List Nat) : List Nat := r.split r.layers 1 f
def Ring.intt (r : Ring) (f : List Nat) : List Nat := r.times r.scale (r.join r.layers 1 f)

/-- Products of transforms of ML-KEM: pairs of coefficients, modulo X² − ζ^(2 BitRev(i) + 1). -/
def kemPairs : Nat → List Nat → List Nat → List Nat
  | i, a0 :: a1 :: a, b0 :: b1 :: b =>
    let g := 17 ^ (2 * bitRev 7 i + 1) % 3329
    ((a0 * b0 + a1 * b1 % 3329 * g) % 3329) :: ((a0 * b1 + a1 * b0) % 3329) :: kemPairs (i + 1) a b
  | _, _, _ => []

def kemMul (a b : List Nat) : List Nat := kemPairs 0 a b
def dsaMul (a b : List Nat) : List Nat := List.zipWith (fun x y => x * y % 8380417) a b

/-- The sum of products of two vectors of transforms. -/
def Ring.dot (r : Ring) (mul : List Nat → List Nat → List Nat) (a b : List (List Nat)) : List Nat :=
  (List.zipWith mul a b).foldl r.add Ring.zero

/-- Numbers of `d` bits as bytes, the lowest bit first, and back. -/
def packBits (d : Nat) (l : List Nat) : Bytes := (beBytes (l.length * d / 8) (l.foldr (fun c a => a * 2 ^ d + c) 0)).reverse
def unpackBits (d n : Nat) (b : Bytes) : List Nat :=
  let x := beNat b.reverse
  (List.range n).map (fun i => x / 2 ^ (d * i) % 2 ^ d)

/-- The first 256 of a list, zeros after its end. -/
def first256 (l : List Nat) : List Nat := (l ++ Ring.zero).take 256

/-! ### ML-KEM-768 -/

def kemPick : Bytes → List Nat
  | a :: b :: c :: t =>
    let d1 := a.toNat + 256 * (b.toNat % 16)
    let d2 := b.toNat / 16 + 16 * c.toNat
    ([d1, d2].filter (fun d => decide (d < 3329))) ++ kemPick t
  | _ => []

/-- Entry (i, j) of the matrix, as a transform. -/
def kemEntry (rho : Bytes) (i j : Nat) : List Nat := first256 (kemPick (shake128 (rho ++ beBytes 1 j ++ beBytes 1 i) 840))

/-- A polynomial of the centred binomial distribution with η = 2: draw `n` under `seed`. -/
def kemNoise (seed : Bytes) (n : Nat) : List Nat :=
  (unpackBits 4 256 (shake256 (seed ++ beBytes 1 n) 128)).map (fun v => (v % 2 + v / 2 % 2 + 3329 - v / 4 % 2 - v / 8) % 3329)

def kemCompress (d : Nat) (f : List Nat) : List Nat := f.map (fun x => (x * 2 ^ (d + 1) + 3329) / 6658 % 2 ^ d)
def kemDecompress (d : Nat) (f : List Nat) : List Nat := f.map (fun y => (2 * 3329 * y + 2 ^ d) / 2 ^ (d + 1))

/-- The matrix or its transpose. -/
def kemMatrix (rho : Bytes) (flip : Bool) : List (List (List Nat)) :=
  (List.range 3).map (fun i => (List.range 3).map (fun j => if flip then kemEntry rho j i else kemEntry rho i j))

/-- The secret vector as transforms, and the encapsulation key, of the first half of a seed. -/
def kemKeys (d : Bytes) : List (List Nat) × Bytes :=
  let g := sha3_512B (d ++ [3])
  let rho := g.take 32
  let sigma := g.drop 32
  let s := (List.range 3).map (fun i => kemRing.ntt (kemNoise sigma i))
  let e := (List.range 3).map (fun i => kemRing.ntt (kemNoise sigma (3 + i)))
  let t := List.zipWith (fun row n => kemRing.add (kemRing.dot kemMul row s) n) (kemMatrix rho false) e
  (s, t.flatMap (packBits 12) ++ rho)

/-- Encryption of 32 bytes under an encapsulation key. -/
def kemEncrypt (ek m r : Bytes) : Bytes :=
  let t := (List.range 3).map (fun i => (unpackBits 12 256 (slice ek (384 * i) 384)).map (· % 3329))
  let y := (List.range 3).map (fun i => kemRing.ntt (kemNoise r i))
  let e1 := (List.range 3).map (fun i => kemNoise r (3 + i))
  let u := List.zipWith (fun row n => kemRing.add (kemRing.intt (kemRing.dot kemMul row y)) n) (kemMatrix (slice ek 1152 32) true) e1
  let v := kemRing.add (kemRing.add (kemRing.intt (kemRing.dot kemMul t y)) (kemNoise r 6)) (kemDecompress 1 (unpackBits 1 256 m))
  u.flatMap (fun f => packBits 10 (kemCompress 10 f)) ++ packBits 4 (kemCompress 4 v)

def kemDecrypt (s : List (List Nat)) (ct : Bytes) : Bytes :=
  let u := (List.range 3).map (fun i => kemRing.ntt (kemDecompress 10 (unpackBits 10 256 (slice ct (320 * i) 320))))
  let v := kemDecompress 4 (unpackBits 4 256 (slice ct 960 128))
  packBits 1 (kemCompress 1 (kemRing.sub v (kemRing.intt (kemRing.dot kemMul s u))))

/-- Encapsulation key of a 64-byte seed. -/
@[irreducible] def mlKemPublic (seed : Bytes) : Bytes := (kemKeys (seed.take 32)).2

/-- Ciphertext and shared secret of an encapsulation key and 32 random bytes. -/
@[irreducible] def mlKemEncaps (ek m : Bytes) : Bytes × Bytes :=
  let g := sha3_512B (m ++ sha3_256B ek)
  (kemEncrypt ek m (g.drop 32), g.take 32)

/-- Shared secret of a seed and a ciphertext, implicit rejection included. -/
@[irreducible] def mlKemDecaps (seed ct : Bytes) : Bytes :=
  let (s, ek) := kemKeys (seed.take 32)
  let m := kemDecrypt s ct
  let g := sha3_512B (m ++ sha3_256B ek)
  if kemEncrypt ek m (g.drop 32) = ct then g.take 32 else shake256 (seed.drop 32 ++ ct) 32

/-! ### ML-DSA-65 -/

def dsaPick : Bytes → List Nat
  | a :: b :: c :: t =>
    let x := a.toNat + 256 * b.toNat + 65536 * (c.toNat % 128)
    if x < 8380417 then x :: dsaPick t else dsaPick t
  | _ => []

/-- The 6 × 5 matrix, as transforms. -/
def dsaMatrix (rho : Bytes) : List (List (List Nat)) :=
  (List.range 6).map (fun r => (List.range 5).map (fun s => first256 (dsaPick (shake128 (rho ++ beBytes 1 s ++ beBytes 1 r) 1008))))

/-- A secret polynomial with coefficients from −4 to 4. -/
def dsaSecret (rho : Bytes) (n : Nat) : List Nat :=
  let z := (shake256 (rho ++ [BitVec.ofNat 8 n, 0]) 544).flatMap (fun b => [b.toNat % 16, b.toNat / 16])
  first256 ((z.filter (fun v => decide (v < 9))).map (fun v => (8380417 + 4 - v) % 8380417))

/-- The size of a coefficient modulo q, taken nearest to 0. -/
def dsaSize (x : Nat) : Nat := min x (8380417 - x)
def dsaBelow (bound : Nat) (v : List (List Nat)) : Bool := v.all (fun f => f.all (fun x => decide (dsaSize x < bound)))

def dsaHigh (x : Nat) : Nat := (x + 261887) / 523776 % 16
def dsaLow (x : Nat) : Nat := (x + 8380417 - dsaHigh x * 523776) % 8380417

/-- What a seed expands to: ρ, K, the transforms of s1 and s2, t1, t0 as a transform, and the public key. -/
structure DsaKey where
  rho : Bytes
  k : Bytes
  s1 : List (List Nat)
  s2 : List (List Nat)
  t0 : List (List Nat)
  pub : Bytes

def dsaKey (seed : Bytes) : DsaKey :=
  let h := shake256 (seed ++ [6, 5]) 128
  let rho := h.take 32
  let s1 := (List.range 5).map (fun i => dsaRing.ntt (dsaSecret (slice h 32 64) i))
  let s2 := (List.range 6).map (fun i => dsaSecret (slice h 32 64) (5 + i))
  let t := List.zipWith (fun row e => dsaRing.add (dsaRing.intt (dsaRing.dot dsaMul row s1)) e) (dsaMatrix rho) s2
  let t1 := t.map (fun f => f.map (fun x => (x + 4095) / 8192))
  let t0 := t.map (fun f => f.map (fun x => (x + 8380417 - (x + 4095) / 8192 * 8192) % 8380417))
  { rho := rho, k := h.drop 96, s1 := s1, s2 := s2.map dsaRing.ntt, t0 := t0.map dsaRing.ntt, pub := rho ++ t1.flatMap (packBits 10) }

/-- Public key of a 32-byte seed. -/
@[irreducible] def mlDsaPublic (seed : Bytes) : Bytes := (dsaKey (seed.take 32)).pub

/-- The places of the challenge: each next place takes what place `j` holds, and `j` takes a sign. -/
def dsaBall : Nat → Nat → List Nat → Bytes → List Nat
  | 0, _, c, _ => c
  | _, _, c, [] => c
  | fuel + 1, signs, c, j :: t =>
    let i := 256 - fuel - 1
    if i < j.toNat then dsaBall (fuel + 1) signs c t
    else dsaBall fuel (signs / 2) ((c.set i (c.getD j.toNat 0)).set j.toNat (if signs % 2 = 1 then 8380416 else 1)) t

def dsaChallenge (c : Bytes) : List Nat :=
  let h := shake256 c 408
  dsaBall 49 (beNat (h.take 8).reverse) Ring.zero (h.drop 8)

/-- The mask of an iteration. -/
def dsaMask (rho : Bytes) (kappa : Nat) : List (List Nat) :=
  (List.range 5).map (fun r =>
    (unpackBits 20 256 (shake256 (rho ++ (beBytes 2 (kappa + r)).reverse) 640)).map (fun v => (8380417 + 524288 - v) % 8380417))

def dsaCommit (mu : Bytes) (w1 : List (List Nat)) : Bytes := shake256 (mu ++ w1.flatMap (packBits 4)) 48

/-- The hints as bytes: the places of each polynomial, zeros, and the running counts. -/
def dsaPackHints (h : List (List Bool)) : Bytes :=
  let places := h.map (fun f => (List.range 256).filter (fun i => f.getD i false))
  let counts := (List.range 6).map (fun i => ((places.take (i + 1)).map (fun l => l.length)).sum)
  padTo 55 (places.flatten.map (BitVec.ofNat 8)) ++ counts.map (BitVec.ofNat 8)

/-- One iteration: the signature, or none where it is rejected. -/
def dsaTry (key : DsaKey) (a : List (List (List Nat))) (mu rho : Bytes) (kappa : Nat) : Option Bytes :=
  let y := dsaMask rho kappa
  let w := a.map (fun row => dsaRing.intt (dsaRing.dot dsaMul row (y.map dsaRing.ntt)))
  let seed := dsaCommit mu (w.map (fun f => f.map dsaHigh))
  let c := dsaRing.ntt (dsaChallenge seed)
  let cs := fun (v : List (List Nat)) => v.map (fun f => dsaRing.intt (dsaMul c f))
  let z := List.zipWith dsaRing.add y (cs key.s1)
  let r := List.zipWith dsaRing.sub w (cs key.s2)
  if ¬ dsaBelow (524288 - 196) z ∨ ¬ dsaBelow (261888 - 196) (r.map (fun f => f.map dsaLow)) then none
  else
    let ct0 := cs key.t0
    let h := List.zipWith (fun f g => List.zipWith (fun x d => decide (dsaHigh ((x + d) % 8380417) ≠ dsaHigh x)) f g) r ct0
    if ¬ dsaBelow 261888 ct0 ∨ 55 < (h.map (fun f => (f.filter id).length)).sum then none
    else some (seed ++ z.flatMap (fun f => packBits 20 (f.map (fun x => (8380417 + 524288 - x) % 8380417))) ++ dsaPackHints h)

/-- Iterations until a signature comes, and the signature. -/
def dsaLoop (key : DsaKey) (a : List (List (List Nat))) (mu rho : Bytes) : Nat → Nat → Nat × Bytes
  | 0, n => (n, [])
  | fuel + 1, n =>
    match dsaTry key a mu rho (5 * n) with
    | some sig => (n + 1, sig)
    | none => dsaLoop key a mu rho fuel (n + 1)

/-- The message representative of a public key, a context and a message. -/
def dsaMu (pub ctx msg : Bytes) : Bytes := shake256 (shake256 pub 64 ++ [0] ++ beBytes 1 ctx.length ++ ctx ++ msg) 64

/-- Iterations and signature of (seed, context, message, random). -/
@[irreducible] def mlDsaRun (seed ctx msg rnd : Bytes) : Nat × Bytes :=
  let key := dsaKey (seed.take 32)
  let mu := dsaMu key.pub ctx msg
  dsaLoop key (dsaMatrix key.rho) mu (shake256 (key.k ++ rnd ++ mu) 64) 1024 0

def mlDsaIterations (seed ctx msg rnd : Bytes) : Nat := (mlDsaRun seed ctx msg rnd).1
def mlDsaSign (seed ctx msg rnd : Bytes) : Bytes := (mlDsaRun seed ctx msg rnd).2

/-- The hints of a signature: none where their encoding is not the one way of writing them. -/
def dsaHints (b : Bytes) : Option (List (List Nat)) :=
  let counts := 0 :: (b.drop 55).map (·.toNat)
  let rows := (List.range 6).map (fun i =>
    (slice b (counts.getD i 0) (counts.getD (i + 1) 0 - counts.getD i 0)).map (·.toNat))
  let rising := fun (l : List Nat) => (List.zip l (l.drop 1)).all (fun p => decide (p.1 < p.2))
  let counted := (List.zip counts (counts.drop 1)).all (fun p => decide (p.1 ≤ p.2)) && decide (counts.getD 6 0 ≤ 55)
  if counted && rows.all rising && allZero ((b.take 55).drop (counts.getD 6 0)) then some rows else none

/-- A signature of (public key, context, message) verifies. -/
@[irreducible] def mlDsaVerify (pub ctx msg sig : Bytes) : Bool :=
  if pub.length ≠ 1952 ∨ sig.length ≠ 3309 then false
  else
    let seed := sig.take 48
    let z := (List.range 5).map (fun i => (unpackBits 20 256 (slice sig (48 + 640 * i) 640)).map (fun v => (8380417 + 524288 - v) % 8380417))
    match dsaHints (sig.drop 3248) with
    | none => false
    | some h =>
      let t1 := (List.range 6).map (fun i => dsaRing.ntt ((unpackBits 10 256 (slice pub (32 + 320 * i) 320)).map (· * 8192)))
      let c := dsaRing.ntt (dsaChallenge seed)
      let zt := z.map dsaRing.ntt
      let w := List.zipWith (fun row t => dsaRing.intt (dsaRing.sub (dsaRing.dot dsaMul row zt) (dsaMul c t))) (dsaMatrix (pub.take 32)) t1
      let useHint := fun (on : Bool) (x : Nat) =>
        let low := dsaLow x
        if ¬ on then dsaHigh x else if 0 < low ∧ low ≤ 4190208 then (dsaHigh x + 1) % 16 else (dsaHigh x + 15) % 16
      let w1 := List.zipWith (fun f l => (f.zipIdx).map (fun p => useHint (l.contains p.2) p.1)) w h
      dsaBelow (524288 - 196) z && decide (dsaCommit (dsaMu pub ctx msg) w1 = seed)

end Sys2Proof.Machine
end

