-- ==== Sys2Proof/Machine/Crypto.lean ====
section
/-! DEFINITION. The constructions that the manual names by their standards, built on the ciphers and hash functions (log entry
13, PRESUMED: FIPS 198-1, RFC 5869, SP 800-38A, B, D and SP 800-67 as generally known). -/

namespace Sys2Proof.Machine

/-! ### HMAC and HKDF -/

/-- HMAC over a hash of block size `blk`. -/
def hmacWith (h : Bytes → Bytes) (blk : Nat) (key msg : Bytes) : Bytes :=
  let k := padTo blk (if blk < key.length then h key else key)
  h (k.map (· ^^^ 0x5C) ++ h (k.map (· ^^^ 0x36) ++ msg))

def hmac256 (key msg : Bytes) : Bytes := hmacWith sha256B 64 key msg
def hmac384 (key msg : Bytes) : Bytes := hmacWith sha384B 128 key msg
def hmac512 (key msg : Bytes) : Bytes := hmacWith sha512B 128 key msg

/-- HKDF-Extract with SHA-384 (R78). -/
def hkdfExtract (salt ikm : Bytes) : Bytes := hmac384 (if salt = [] then zeros 48 else salt) ikm

/-- The blocks T(i), T(i + 1) … of HKDF-Expand. -/
def hkdfBlocks (prk info : Bytes) : Nat → Bytes → Nat → Bytes
  | 0, _, _ => []
  | fuel + 1, prev, i =>
    let t := hmac384 prk (prev ++ info ++ beBytes 1 i)
    t ++ hkdfBlocks prk info fuel t (i + 1)

/-- HKDF-Expand with SHA-384 to `len` bytes. -/
def hkdfExpand (prk info : Bytes) (len : Nat) : Bytes := (hkdfBlocks prk info (len / 48 + 1) [] 1).take len

/-- HKDF-SHA-384 in one call. -/
def hkdf (salt ikm info : Bytes) (len : Nat) : Bytes := hkdfExpand (hkdfExtract salt ikm) info len

/-! ### Block ciphers on byte strings -/

def aesEnc (key b : Bytes) : Bytes := bytes128 (aesEncrypt key (word128 b))
def aesDec (key b : Bytes) : Bytes := bytes128 (aesDecrypt key (word128 b))

/-- The three DES keys of a TDES key of 16 or 24 bytes. -/
def tdesKeys (key : Bytes) : Bytes × Bytes × Bytes :=
  (slice key 0 8, slice key 8 8, if key.length < 24 then slice key 0 8 else slice key 16 8)

def tdesEnc (key b : Bytes) : Bytes :=
  let (a, c, d) := tdesKeys key
  bytes64 (desEncrypt d (desDecrypt c (desEncrypt a (word64 b))))

def tdesDec (key b : Bytes) : Bytes :=
  let (a, c, d) := tdesKeys key
  bytes64 (desDecrypt a (desEncrypt c (desDecrypt d (word64 b))))

/-- A block cipher: its block size in bytes, and both directions. -/
structure Cipher where
  size : Nat
  enc : Bytes → Bytes
  dec : Bytes → Bytes

def aesCipher (key : Bytes) : Cipher := { size := 16, enc := aesEnc key, dec := aesDec key }
def tdesCipher (key : Bytes) : Cipher := { size := 8, enc := tdesEnc key, dec := tdesDec key }

/-! ### Modes -/

def ecbEnc (c : Cipher) (data : Bytes) : Bytes := (chunks c.size data).flatMap c.enc
def ecbDec (c : Cipher) (data : Bytes) : Bytes := (chunks c.size data).flatMap c.dec

def cbcEncBlocks (c : Cipher) : Bytes → List Bytes → Bytes
  | _, [] => []
  | iv, b :: t => let x := c.enc (xorBytes iv b); x ++ cbcEncBlocks c x t

def cbcDecBlocks (c : Cipher) : Bytes → List Bytes → Bytes
  | _, [] => []
  | iv, b :: t => xorBytes iv (c.dec b) ++ cbcDecBlocks c b t

def cbcEnc (c : Cipher) (iv data : Bytes) : Bytes := cbcEncBlocks c iv (chunks c.size data)
def cbcDec (c : Cipher) (iv data : Bytes) : Bytes := cbcDecBlocks c iv (chunks c.size data)

/-- A counter block plus one in its last `n` bytes. -/
def incBlock (n : Nat) (b : Bytes) : Bytes :=
  let head := b.take (b.length - n)
  head ++ beBytes n ((beNat (b.drop (b.length - n)) + 1) % 256 ^ n)

def ctrBlocks (c : Cipher) (n : Nat) : Bytes → List Bytes → Bytes
  | _, [] => []
  | ctr, b :: t => xorBytes b (c.enc ctr) ++ ctrBlocks c n (incBlock n ctr) t

/-- CTR mode; the counter is the last `n` bytes of the counter block. -/
def ctrMode (c : Cipher) (n : Nat) (ctr data : Bytes) : Bytes := ctrBlocks c n ctr (chunks c.size data)

/-! ### CMAC (SP 800-38B) -/

/-- Doubling in the field of the block size. -/
def cmacDouble (b : Bytes) : Bytes :=
  let n := b.length
  let v := beNat b
  let d := v * 2 % 256 ^ n
  beBytes n (if v.testBit (8 * n - 1) then Nat.xor d (if n = 16 then 0x87 else 0x1B) else d)

/-- CMAC of a message. -/
def cmac (c : Cipher) (msg : Bytes) : Bytes :=
  let k1 := cmacDouble (c.enc (zeros c.size))
  let k2 := cmacDouble k1
  let bs := chunks c.size msg
  let last := bs.getLast?.getD []
  let init := (bs.dropLast).foldl (fun x b => c.enc (xorBytes x b)) (zeros c.size)
  let final := if last.length = c.size then xorBytes last k1
    else xorBytes (padTo c.size (last ++ [0x80])) k2
  c.enc (xorBytes init final)

/-! ### GCM (SP 800-38D) -/

/-- Product in GF(2^128) as GCM orders its bits. -/
def gmulLoop (x : Word128) : Nat → Word128 → Word128 → Word128
  | 0, z, _ => z
  | n + 1, z, v =>
    let z' := if x.getLsbD n then z ^^^ v else z
    let v' := if v.getLsbD 0 then (v >>> 1) ^^^ (0xE1 <<< 120) else v >>> 1
    gmulLoop x n z' v'

def gmul (x y : Word128) : Word128 := gmulLoop x 128 0 y

def ghash (h : Word128) (blocks : List Bytes) : Word128 :=
  blocks.foldl (fun y b => gmul (y ^^^ word128 (padTo 16 b)) h) 0

/-- The GCM authentication value before encryption, over AAD and ciphertext. -/
def gcmHash (key aad ct : Bytes) : Word128 :=
  let h := aesEncrypt key 0
  ghash h (chunks 16 aad ++ chunks 16 ct ++ [beBytes 8 (8 * aad.length) ++ beBytes 8 (8 * ct.length)])

/-- The pre-counter block of a nonce. -/
def gcmJ0 (key iv : Bytes) : Bytes :=
  if iv.length = 12 then iv ++ [0, 0, 0, 1]
  else bytes128 (ghash (aesEncrypt key 0) (chunks 16 iv ++ [zeros 8 ++ beBytes 8 (8 * iv.length)]))

/-- AES-GCM: ciphertext and 16-byte tag. -/
def gcmSeal (key iv aad pt : Bytes) : Bytes × Bytes :=
  let j := gcmJ0 key iv
  let ct := ctrMode (aesCipher key) 4 (incBlock 4 j) pt
  (ct, bytes128 (aesEncrypt key (word128 j) ^^^ gcmHash key aad ct))

/-- AES-GCM open: the plaintext where the tag of its own length agrees. -/
def gcmOpen (key iv aad ct tag : Bytes) : Option Bytes :=
  let j := gcmJ0 key iv
  let t := bytes128 (aesEncrypt key (word128 j) ^^^ gcmHash key aad ct)
  if t.take tag.length = tag then some (ctrMode (aesCipher key) 4 (incBlock 4 j) ct) else none

end Sys2Proof.Machine
end

