-- ==== Sys2Proof/Machine/Flags.lean ====
section
/-! DEFINITION. The numbers the manual gives names to: status codes (Table 0.6 and each chapter's table), event codes
(Table 0.7 and each chapter's table), source codes (Table 18.1) and the flags of a request slot (Table 5.3). -/

namespace Sys2Proof.Machine

/-! Status codes (R8 to R10). -/

abbrev stOk : Nat := 0
abbrev stClassUndefined : Nat := 0x0101
abbrev stFunctionUnknown : Nat := 0x0102
abbrev stQueueNotOwned : Nat := 0x0103
abbrev stQueueDisabled : Nat := 0x0104
abbrev stLengthInvalid : Nat := 0x0105
abbrev stFunctionNotPermitted : Nat := 0x0106
abbrev stTypeFunctionMismatch : Nat := 0x0107
abbrev stNotAdmitted : Nat := 0x0201
abbrev stPatienceExpired : Nat := 0x0202
abbrev stClassInfeasible : Nat := 0x0203
abbrev stDeadlineShed : Nat := 0x0301
abbrev stDeadlineMissed : Nat := 0x0302
abbrev stKeyInvalid : Nat := 0x0401
abbrev stKeyRevoked : Nat := 0x0402
abbrev stUsageDenied : Nat := 0x0403
abbrev stUseLimitReached : Nat := 0x0404
abbrev stSmkEmpty : Nat := 0x0405
abbrev stSmkState : Nat := 0x0406
abbrev stSmkGenExhausted : Nat := 0x0407
abbrev stSlotNotOwned : Nat := 0x0408
abbrev stSlotKind : Nat := 0x0409
abbrev stClientKeyInvalid : Nat := 0x040A
abbrev stCounterBusy : Nat := 0x040B
abbrev stUseReservationPending : Nat := 0x040C
abbrev stInputZero : Nat := 0x0501
abbrev stInputNotReduced : Nat := 0x0502
abbrev stPointNotOnCurve : Nat := 0x0503
abbrev stInvariantFailed : Nat := 0x0504
abbrev stAborted : Nat := 0x0505
abbrev stRetry : Nat := 0x0506
abbrev stParameterInvalid : Nat := 0x0507
abbrev stEngineUnavailable : Nat := 0x0508
abbrev stCurvePending : Nat := 0x0509
abbrev stCurveQuotaFull : Nat := 0x050A
abbrev stRandomNotReady : Nat := 0x0601
abbrev stRandomUnavailable : Nat := 0x0602
abbrev stProtectionFault : Nat := 0x0701
abbrev stIllegalBundle : Nat := 0x0720
abbrev stIllegalMove : Nat := 0x0721
abbrev stAuthRequired : Nat := 0x0801
abbrev stAuthExpired : Nat := 0x0802
abbrev stAuthMismatch : Nat := 0x0803
abbrev stAuthInUse : Nat := 0x0804
abbrev stAuthSpent : Nat := 0x0805
abbrev stQuorumNotMet : Nat := 0x0806
abbrev stCardUnknown : Nat := 0x0807
abbrev stCardRole : Nat := 0x0808
abbrev stCardExhausted : Nat := 0x0809
abbrev stCardRevoked : Nat := 0x080A
abbrev stCardDuplicate : Nat := 0x080B
abbrev stSignatureInvalid : Nat := 0x080C
abbrev stSessionLimit : Nat := 0x080D
abbrev stCardRegistryFull : Nat := 0x080E
abbrev stQuorumInvalid : Nat := 0x080F
abbrev stCardBusy : Nat := 0x0810
abbrev stCardAbsent : Nat := 0x0811
abbrev stCardTimeout : Nat := 0x0812
abbrev stComponentInvalid : Nat := 0x0813
abbrev stLcTokenInvalid : Nat := 0x0820
abbrev stLcTransitionNotAllowed : Nat := 0x0821
abbrev stLcIntentPending : Nat := 0x0822
abbrev stLcWordDamaged : Nat := 0x0823
abbrev stLcCertMissing : Nat := 0x0824
abbrev stLcPath : Nat := 0x0825
abbrev stDebugNotPermitted : Nat := 0x0826
abbrev stDebugSignatureInvalid : Nat := 0x0827
abbrev stDebugNoChallenge : Nat := 0x0828
abbrev stLcExhausted : Nat := 0x0829
abbrev stLcBusy : Nat := 0x082A
abbrev stTmpLatchNotSet : Nat := 0x0830
abbrev stTmpSensorActive : Nat := 0x0831
abbrev stTmpPath : Nat := 0x0832
abbrev stFieldInvalid : Nat := 0x0901
abbrev stPinBlockInvalid : Nat := 0x0902
abbrev stPinLength : Nat := 0x0903
abbrev stPanInvalid : Nat := 0x0904
abbrev stDtabInvalid : Nat := 0x0905
abbrev stTranslationNotPermitted : Nat := 0x0906
abbrev stVerifyFailed : Nat := 0x0910
abbrev stDukptCounterInvalid : Nat := 0x0920
abbrev stCounterReplay : Nat := 0x0921
abbrev stKekTooWeak : Nat := 0x0930
abbrev stKeyBlockFormat : Nat := 0x0931
abbrev stResidentQuotaFull : Nat := 0x0932
abbrev stTokenInvalid : Nat := 0x0933
abbrev stCurveUnsupported : Nat := 0x0940
abbrev stFf1Domain : Nat := 0x0950
abbrev stGraphInvalid : Nat := 0x09F0
abbrev stStreamUnknown : Nat := 0x0A01
abbrev stStreamExists : Nat := 0x0A02
abbrev stStreamLimit : Nat := 0x0A03
abbrev stStreamQueueMode : Nat := 0x0A04
abbrev stModeInvalid : Nat := 0x0A05
abbrev stSegmentOrder : Nat := 0x0A06
abbrev stSegmentLength : Nat := 0x0A07
abbrev stStreamExhausted : Nat := 0x0A08
abbrev stTagMismatch : Nat := 0x0A09
abbrev stStreamFailed : Nat := 0x0A0A
abbrev stStreamCacheFull : Nat := 0x0A0B
abbrev stMgmtAddrUndefined : Nat := 0x0B01
abbrev stMgmtAddrAlign : Nat := 0x0B02
abbrev stMgmtCount : Nat := 0x0B03
abbrev stCommitInconsistent : Nat := 0x0B10
abbrev stCommitPending : Nat := 0x0B11
abbrev stCommitOrder : Nat := 0x0B12
abbrev stCommitFolioRange : Nat := 0x0B13
abbrev stCommitGroupUnknown : Nat := 0x0B14
abbrev stBootState : Nat := 0x0B20
abbrev stBootBusy : Nat := 0x0B21
abbrev stImageNoLoad : Nat := 0x0B22
abbrev stImageRange : Nat := 0x0B23
abbrev stImageIncomplete : Nat := 0x0B24
abbrev stImageDigest : Nat := 0x0B25
abbrev stImageRefused : Nat := 0x0B26
abbrev stImageTooLarge : Nat := 0x0B27
abbrev stPairState : Nat := 0x0B30
abbrev stPairNotEmpty : Nat := 0x0B31
abbrev stPairNotStaged : Nat := 0x0B32
abbrev stPairPeerInvalid : Nat := 0x0B33
abbrev stPairSettings : Nat := 0x0B34
abbrev stPairSuperseded : Nat := 0x0B35

/-! Event codes (R11). -/

abbrev evTamperErase : Nat := 0x00
abbrev evTamperAlert : Nat := 0x01
abbrev evTamperWhileLatched : Nat := 0x02
abbrev evLatchCleared : Nat := 0x03
abbrev evTamperConfigChanged : Nat := 0x04
abbrev evLatchClearRefused : Nat := 0x05
abbrev evVsecLost : Nat := 0x06
abbrev evLcTransitionBegun : Nat := 0x20
abbrev evLcTransitionDone : Nat := 0x21
abbrev evLcTransitionRefused : Nat := 0x22
abbrev evLcInvalid : Nat := 0x23
abbrev evLcResumed : Nat := 0x24
abbrev evLcWordDamaged : Nat := 0x25
abbrev evDebugChallenge : Nat := 0x26
abbrev evDebugArmed : Nat := 0x27
abbrev evDebugStart : Nat := 0x28
abbrev evDebugEnded : Nat := 0x29
abbrev evDebugRefused : Nat := 0x2A
abbrev evDebugLockedAccess : Nat := 0x2B
abbrev evDebugDenied : Nat := 0x2C
abbrev evCertLoaded : Nat := 0x2D
abbrev evStartBegun : Nat := 0x30
abbrev evStartComplete : Nat := 0x31
abbrev evStartFailed : Nat := 0x32
abbrev evRecoveryEntered : Nat := 0x33
abbrev evImageAccepted : Nat := 0x34
abbrev evImageRefused : Nat := 0x35
abbrev evFunctionRefused : Nat := 0x36
abbrev evBistQuarantine : Nat := 0x37
abbrev evOwnerSetRecorded : Nat := 0x38
abbrev evVaultErased : Nat := 0x39
abbrev evRestartCommanded : Nat := 0x3A
abbrev evDrainDone : Nat := 0x3B
abbrev evImageWritten : Nat := 0x3C
abbrev evImageWriteFailed : Nat := 0x3D
abbrev evRecoveryRecordWritten : Nat := 0x3E
abbrev evRngReady : Nat := 0x40
abbrev evSourceStartFail : Nat := 0x41
abbrev evSourceRctFail : Nat := 0x42
abbrev evSourceAptFail : Nat := 0x43
abbrev evSourceHealthy : Nat := 0x44
abbrev evSourceQuarantined : Nat := 0x45
abbrev evActiveChanged : Nat := 0x46
abbrev evForcedReseed : Nat := 0x47
abbrev evRngDegraded : Nat := 0x48
abbrev evRngCOnly : Nat := 0x49
abbrev evRngFailed : Nat := 0x4A
abbrev evEstimateAlert : Nat := 0x4B
abbrev evDrbgKatFail : Nat := 0x4C
abbrev evConditionerKatFail : Nat := 0x4D
abbrev evReseedCommanded : Nat := 0x4E
abbrev evTenantDrawRefused : Nat := 0x4F
abbrev evInstanceFault : Nat := 0x50
abbrev evSmkCreated : Nat := 0x60
abbrev evSmkRotationBegun : Nat := 0x61
abbrev evSmkRotated : Nat := 0x62
abbrev evSmkRotationAborted : Nat := 0x63
abbrev evSmkInvalidated : Nat := 0x64
abbrev evResidentDeleted : Nat := 0x65
abbrev evResidentErased : Nat := 0x66
abbrev evUseLimitReached : Nat := 0x67
abbrev evBlockAuthRate : Nat := 0x68
abbrev evRevokedRate : Nat := 0x69
abbrev evClientKeyChanged : Nat := 0x6A
abbrev evVaultRefused : Nat := 0x6B
abbrev evTestRoot : Nat := 0x6C
abbrev evColophonIssued : Nat := 0x6D
abbrev evMaskRefreshStopped : Nat := 0x6E
abbrev evKeySramError : Nat := 0x6F
abbrev evSessionOpened : Nat := 0x70
abbrev evSignatureCounted : Nat := 0x71
abbrev evSignatureRefused : Nat := 0x72
abbrev evSessionGranted : Nat := 0x73
abbrev evSessionSpent : Nat := 0x74
abbrev evSessionExpired : Nat := 0x75
abbrev evSessionClosed : Nat := 0x76
abbrev evCardRegistered : Nat := 0x77
abbrev evCardRevoked : Nat := 0x78
abbrev evCardWarned : Nat := 0x79
abbrev evCardExhausted : Nat := 0x7A
abbrev evQuorumChanged : Nat := 0x7B
abbrev evCardPresence : Nat := 0x7C
abbrev evIfaceFault : Nat := 0x7D
abbrev evKeyAssembled : Nat := 0x7E
abbrev evOfflineRefused : Nat := 0x7F
abbrev evDeadlineMissed : Nat := 0x80
abbrev evShed : Nat := 0x81
abbrev evCapacityLost : Nat := 0x82
abbrev evCapacityRestored : Nat := 0x83
abbrev evReserveEmpty : Nat := 0x84
abbrev evChargeOverrun : Nat := 0x85
abbrev evWakeLate : Nat := 0x86
abbrev evWakeStarted : Nat := 0x87
abbrev evTenantSuspended : Nat := 0x88
abbrev evTenantResumed : Nat := 0x89
abbrev evOwedLimit : Nat := 0x8A
abbrev evExamLimit : Nat := 0x8B
abbrev evReplaced : Nat := 0x8C
abbrev evSyncAcquire : Nat := 0x90
abbrev evSyncLocked : Nat := 0x91
abbrev evSyncHoldover : Nat := 0x92
abbrev evSyncUnaligned : Nat := 0x93
abbrev evSyncFree : Nat := 0x94
abbrev evCommitApplied : Nat := 0x95
abbrev evCommitRefused : Nat := 0x96
abbrev evUnitError : Nat := 0xA0
abbrev evUnitWithdrawn : Nat := 0xA1
abbrev evTestPassed : Nat := 0xA2
abbrev evTestFailed : Nat := 0xA3
abbrev evUnitQuarantined : Nat := 0xA4
abbrev evProtectionFault : Nat := 0xA5
abbrev evCoreHalted : Nat := 0xA6
abbrev evEccCorrectedRate : Nat := 0xA7
abbrev evBnRefused : Nat := 0xA8
abbrev evBkRerun : Nat := 0xA9
abbrev evStreamFailed : Nat := 0xAA
abbrev evRequestMemoryError : Nat := 0xAB
abbrev evControlWorkMoved : Nat := 0xAC
abbrev evLinkUp : Nat := 0xC0
abbrev evLinkDown : Nat := 0xC1
abbrev evFecDegraded : Nat := 0xC2
abbrev evMacsecLost : Nat := 0xC3
abbrev evMacsecSak : Nat := 0xC4
abbrev evAddrConflict : Nat := 0xC5
abbrev evChannelOpened : Nat := 0xC6
abbrev evChannelClosed : Nat := 0xC7
abbrev evHandshakeFailed : Nat := 0xC8
abbrev evTagFailRate : Nat := 0xC9
abbrev evReplayRate : Nat := 0xCA
abbrev evTenantMismatch : Nat := 0xCB
abbrev evSlotsExhausted : Nat := 0xCC
abbrev evReplyDropped : Nat := 0xCD
abbrev evPtpParent : Nat := 0xCE
abbrev evMgmtWrite : Nat := 0xCF
abbrev evPaired : Nat := 0xD0
abbrev evMemberInChain : Nat := 0xD1
abbrev evJournalLate : Nat := 0xD2
abbrev evPathLost : Nat := 0xD3
abbrev evSelfFence : Nat := 0xD4
abbrev evTakeoverDeclared : Nat := 0xD5
abbrev evTakeoverDone : Nat := 0xD6
abbrev evHandover : Nat := 0xD7
abbrev evSuperseded : Nat := 0xD8
abbrev evMemberDropped : Nat := 0xD9
abbrev evSnapshotBegun : Nat := 0xDA
abbrev evJournalLag : Nat := 0xDB
abbrev evLeftChain : Nat := 0xDC
abbrev evUsesAdvanced : Nat := 0xDD
abbrev evBudgetFull : Nat := 0xDE
abbrev evDistrictSleep : Nat := 0xE0
abbrev evDistrictWake : Nat := 0xE1
abbrev evWakeTestFailed : Nat := 0xE2
abbrev evRecordsSuppressed : Nat := 0xE3
abbrev evTailCheckpoint : Nat := 0xE4
abbrev evFrontMatterFull : Nat := 0xE5
abbrev evThermalWarm : Nat := 0xE6
abbrev evThermalHot : Nat := 0xE7
abbrev evThermalNormal : Nat := 0xE8
abbrev evRecHeadIssued : Nat := 0xE9
abbrev evCounterWrapped : Nat := 0xEA
abbrev evRecorderSectorFailed : Nat := 0xEB

/-! Source codes (R459, Table 18.1). -/

abbrev srcNone : Nat := 0x00
abbrev srcSecurity : Nat := 0x01
abbrev srcAdmission : Nat := 0x02
abbrev srcSquare : Nat := 0x03
abbrev srcKeyStore : Nat := 0x04
abbrev srcRng : Nat := 0x05
abbrev srcPower : Nat := 0x06
abbrev srcRecorder : Nat := 0x07
def srcCc (k : Nat) : Nat := 0x08 + k
def srcSrp (k : Nat) : Nat := 0x0C + k
def srcIngress (k : Nat) : Nat := 0x11 + k
def srcEgress (k : Nat) : Nat := 0x16 + k
def srcPort (i : Nat) : Nat := 0x1B + i
def srcBk (e : Nat) : Nat := 0x2C + e
abbrev srcDebug : Nat := 0x3C
def srcBn (e : Nat) : Nat := 0x40 + e
def srcTc (i : Nat) : Nat := 0x80 + i

/-- The source code of a core: TC0–TC127, CC0–CC3, the security core. -/
def srcCore (c : Nat) : Nat :=
  if c < 128 then srcTc c else if c < 132 then srcCc (c - 128) else srcSecurity

end Sys2Proof.Machine
end

