-- ==== Sys2Proof/Machine/State.lean ====
section
/-! DEFINITION. The state of the block: everything the spec gives it, plain data, with the queue of waiting commands,
and the state right after reset. -/

namespace Sys2Proof.Machine

/-- Why a command stops the machine. No command of this block does: whatever the manual calls a fault is an effect on
the state (log entry 3). -/
inductive Fault where
  /-- No command raises it; it stands so that the type has a constructor. Safe: nothing is proved of a run past it. -/
  | never
  deriving DecidableEq, Repr

/-- Why a command has no meaning here. -/
inductive Refusal where
  /-- A row of the table without its meaning yet: raised by `exec` alone. Safe. -/
  | notModelled (mnemonic : String)
  /-- A bundle or access of a control core or of the security core reaches its I/O space, which R151 (Table 6.1) calls
  internal to Brosyn firmware and does not describe. Raised by BUNDLE_ISSUE and DELAYED_ACCESS_PERFORM. Safe. -/
  | firmwareIoUndescribed
  deriving DecidableEq, Repr

/-- The whole state of the block. -/
structure State where
  dev : Dev := {}
  folio : Folio := {}
  ports : List (Nat × Port) := []
  srp : Srp := {}
  adm : Adm := {}
  sq : Square := {}
  cores : Cores := {}
  ks : KeyStore := {}
  vault : VaultNvm := {}
  bn : BnState := {}
  bulk : BulkState := {}
  rng : Rng := {}
  dual : Dual := {}
  lc : Lc := {}
  tmp : Tamper := {}
  boot : Boot := {}
  image : Image := {}
  pair : Pair := {}
  recorder : Recorder := {}
  pmc : Pmc := {}
  pwr : Power := {}
  faults : Faults := {}
  /-- The recovery record that an accepted image wrote (R420); none while the factory record of R421 is in force. -/
  recovery : Option RecoveryRec := none
  /-- The value the last register read of HI_REGISTER_READ or RNG_RANDOM_READ returned. -/
  readBack : Word32 := 0
  /-- The commands waiting, first in, first out. -/
  pending : List Instr := []
  deriving DecidableEq, Repr

/-- The block right after reset: the register reset values of the spec, and for everything the spec gives no reset
value the value of log entry 10. -/
def State.reset : State := {}

end Sys2Proof.Machine
end

