-- ==== Sys2Proof/Machine/Ops.lean ====
section
/-! DEFINITION. The named operations that every chapter shares: time, random bytes, units and their availability,
events offered to the recorder, and performance counters. -/

namespace Sys2Proof.Machine

/-! ### Time (R25, R26, R31) -/

/-- Nominal core cycles of a folio (R25). -/
def State.cycles (s : State) : Nat := 1600 * s.folio.periodUs

/-- Whole seconds of device time since the compute die was released: what "in one second" counts by (log entry 7). -/
def State.second (s : State) : Nat := s.folio.ticks * s.folio.periodUs / 1000000

/-- Folios that cover `us` microseconds. -/
def State.foliosOf (s : State) (us : Nat) : Nat := ceilDiv us s.folio.periodUs

/-- The delay time, folio number × 64 + delay tick (R26). -/
def State.delayTime (s : State) : Nat := s.folio.now * 64 + s.folio.delayTick

/-- `a − b` modulo 2^48, for folio numbers (R27, R40). -/
def folioDiff (a b : Nat) : Nat := (a + 2 ^ 48 - b % 2 ^ 48) % 2 ^ 48

/-- `a + n` modulo 2^48. -/
def folioAdd (a n : Nat) : Nat := (a + n) % 2 ^ 48

/-- `a` has come when the folio is `now`: the difference lies in the half that R40 calls not earlier. -/
def folioReached (now a : Nat) : Bool := decide (folioDiff now a < 2 ^ 47)

/-! ### Random bytes (chapter 12; log entry 6) -/

/-- The next `n` random bytes, from draw `k` on. -/
def randomFrom (k : Nat) : Nat → Bytes
  | 0 => []
  | n + 1 => Config.randomByte k :: randomFrom (k + 1) n

/-- `n` random bytes and the state after drawing them. -/
def State.random (s : State) (n : Nat) : Bytes × State :=
  (randomFrom s.rng.draws n, { s with rng := { s.rng with draws := s.rng.draws + n } })

/-! ### Counters -/

/-- Add to counter `k`, modulo 2^64 (R87). -/
def bump (t : List (Nat × Nat)) (k n : Nat) : List (Nat × Nat) := tabMod 0 t k (fun v => (v + n) % 2 ^ 64)

/-! ### Units (R16, R23, R471, R472) -/

/-- Quarantined until the next start. -/
def State.quarantined (s : State) (unit : Nat) : Bool := decide (unit ∈ s.dev.quarantined)

/-- Withdrawn for a test, or due to be withdrawn or quarantined at the next tick. -/
def State.withdrawn (s : State) (unit : Nat) : Bool :=
  decide (unit ∈ s.faults.withdrawn ∨ unit ∈ s.faults.marked) || s.faults.toQuarantine.any (fun p => p.1 == unit)

/-- Takes new work: neither quarantined nor withdrawn (R471). -/
def State.unitOk (s : State) (unit : Nat) : Bool := !s.quarantined unit && !s.withdrawn unit

/-- Units of a range of source codes that are not quarantined (R23). -/
def State.unitsHeld (s : State) (first count : Nat) : Nat :=
  ((List.range count).filter (fun i => !s.quarantined (first + i))).length

/-- The district of a transaction core, big-number engine or bulk engine (R16). -/
def districtOfTc (i : Nat) : Nat := i / 8
def districtOfBn (e : Nat) : Nat := 16 + e / 16
def districtOfBk (e : Nat) : Nat := 20 + e / 4

/-- A district whose units can be used. -/
def State.districtUp (s : State) (d : Nat) : Bool :=
  let x := tabGet ({} : District) s.pwr.districts d
  decide (x.state = .active) && !x.waking

/-- Something makes district `d` busy in the folio in progress (R477). -/
def State.busyDistrict (s : State) (d : Nat) : State :=
  { s with pwr := { s.pwr with districts := tabMod {} s.pwr.districts d (fun x => { x with busy := true }) } }

/-- The lowest-numbered available control core, whose work a withdrawn core's moves to (R473). -/
def State.controlCore (s : State) (k : Nat) : Option Nat :=
  if s.unitOk (srcCc k) then some k else (List.range 4).find? (fun j => s.unitOk (srcCc j))

/-- The control core that serves management requests: CC1 in SERVICE (Table 2.8), CC0 in STANDBY and RECOVERY (R377, R441). -/
def State.mgmtCore (s : State) : Nat := srcCc (if s.dev.state = .service then (s.controlCore 1).getD 1 else 0)

/-! ### Events (R456 to R458, R464, R465) -/

/-- The data bytes of an event: each item with its width in bytes (R458). -/
def items (l : List (Nat × Nat)) : Bytes := l.flatMap (fun p => beBytes p.1 p.2)

/-- The recording policy of R457: the bits of 0x00–0x3F, 0x60–0x7F and 0xD0–0xDF always read 1. -/
def policyBit (policy : BitVec 256) (code : Nat) : Bool :=
  decide (code < 0x40) || (decide (0x60 ≤ code) && decide (code < 0x80)) ||
    (decide (0xD0 ≤ code) && decide (code < 0xE0)) || policy.getLsbD code

/-- A folio is running: the compute die is out of reset. -/
def State.folioRuns (s : State) : Bool :=
  match s.dev.state with
  | .service | .standby | .recovery => true
  | .start => decide (6 ≤ s.boot.step) || decide (s.boot.running = some 6)
  | _ => false

/-- Before START step 4, and in SLEEP, the security die holds events back (R400, R465). -/
def State.beforeStep4 (s : State) : Bool :=
  match s.dev.state with
  | .reset | .sleep => true
  | .start => decide (s.boot.step < 4)
  | _ => false

/-- The record of an event raised now. -/
def State.record (s : State) (code source tenant : Nat) (data : Bytes) : Record :=
  { seconds := s.recorder.seconds, cycles := s.recorder.cycles,
    folio := if s.folioRuns then s.folio.now % 2 ^ 16 else 0,
    code := code, source := source, tenant := tenant, data := padTo 16 data }

/-- Sum of the suppressed counts. -/
def suppressedSum (r : Recorder) : Nat := (r.suppressed.map (·.2)).foldl (· + ·) 0

/-- Offer a record: with a token present it takes the token and waits to be written, with none it is counted in its
code's range (R464). -/
def offer (r : Recorder) (x : Record) : Recorder :=
  if 0 < r.bucket then { r with offered := r.offered ++ [x], bucket := r.bucket - 1 }
  else { r with suppressed := bump r.suppressed (x.code / 32) 1, counters := bump r.counters 1 1 }

/-- Raise an event: recorded as the policy says, held back before START step 4 (R457, R465). -/
def State.raise (s : State) (code source tenant : Nat) (data : Bytes) : State :=
  if policyBit s.recorder.policy code then
    let x := s.record code source tenant data
    if s.beforeStep4 then
      { s with recorder := { s.recorder with deferred := s.recorder.deferred ++ [{ x with deferred := true }] } }
    else { s with recorder := offer s.recorder x }
  else s

/-- What happens in one core cycle: the events that `f` raises are offered in order of code, then of source (R456). They are
gathered under a bucket that cannot run out, then take their tokens in that order. -/
def State.inOneCycle (f : State → State) (s : State) : State :=
  let old := s.recorder
  let u := f { s with recorder := { old with offered := [], bucket := 2 ^ 32 } }
  let new := sortBy (fun x => 256 * x.code + x.source) u.recorder.offered
  { u with recorder := new.foldl offer { u.recorder with offered := old.offered, bucket := old.bucket } }

/-! ### Performance counters (R468, R469) -/

/-- The first counter of the block a counter belongs to (Table 18.4). -/
def pmcBlockFirst (c : Nat) : Nat :=
  if c < 512 then c / 4 * 4 else if c < 768 then c / 4 * 4 else if c < 832 then c / 4 * 4
  else if c < 900 then 832 + (c - 832) / 4 * 4
  else if c < 940 then 900 + (c - 900) / 8 * 8
  else if c < 956 then 940 else if c < 972 then 956 else if c < 988 then 972 else if c < 996 then 988
  else if c < 1012 then 996 + (c - 996) / 4 * 4 else 1012

/-- Counter `c` wraps: the chained counter above it in its block counts one, else its PMC_OVF bit is set and event
0xEA is raised, at most once per second (R469). `fuel` bounds the chain, which is inside one block of at most 16. -/
def State.counterWrap : Nat → Nat → State → State
  | 0, _, s => s
  | fuel + 1, c, s =>
    if tabGet 0 s.pmc.select (c + 1) = 0xFF ∧ pmcBlockFirst (c + 1) ≠ c + 1 ∧ c + 1 < 1024 then
      let v := tabGet 0 s.pmc.live (c + 1) + 1
      let s1 := { s with pmc := { s.pmc with live := tabPut 0 s.pmc.live (c + 1) (v % 2 ^ 32) } }
      if v = 2 ^ 32 then State.counterWrap fuel (c + 1) s1 else s1
    else
      let s1 := { s with pmc := { s.pmc with ovf := tabPut false s.pmc.ovf c true } }
      if s.pmc.wrapSecond = some s.second then s1
      else
        let n := (s1.pmc.ovf.filter (·.2)).length
        { s1 with pmc := { s1.pmc with wrapSecond := some s.second } }.raise evCounterWrapped srcNone 0 (items [(2, n)])

/-- Add `n` events to counter `c`, modulo 2^32. -/
def State.pmcAddTo (s : State) (c n : Nat) : State :=
  let v := tabGet 0 s.pmc.live c + n
  let s1 := { s with pmc := { s.pmc with live := tabPut 0 s.pmc.live c (v % 2 ^ 32) } }
  if 2 ^ 32 ≤ v then State.counterWrap 16 c s1 else s1

/-- Event number `ev` happens `n` times in the block whose `count` counters start at `first`: each counter that selects
it adds `n` (R468). -/
def State.pmcEvent (s : State) (first count ev n : Nat) : State :=
  (List.range count).foldl
    (fun s i => if tabGet 0 s.pmc.select (first + i) = ev then s.pmcAddTo (first + i) n else s) s

def State.pmcTc (s : State) (i ev n : Nat) : State := s.pmcEvent (4 * i) 4 ev n
def State.pmcBn (s : State) (e ev n : Nat) : State := s.pmcEvent (512 + 4 * e) 4 ev n
def State.pmcBk (s : State) (e ev n : Nat) : State := s.pmcEvent (768 + 4 * e) 4 ev n
def State.pmcPort (s : State) (i ev n : Nat) : State := s.pmcEvent (832 + 4 * i) 4 ev n
def State.pmcSrp (s : State) (k ev n : Nat) : State := s.pmcEvent (900 + 8 * k) 8 ev n
def State.pmcSquare (s : State) (ev n : Nat) : State := s.pmcEvent 940 16 ev n
def State.pmcAdm (s : State) (ev n : Nat) : State := s.pmcEvent 956 16 ev n
def State.pmcKs (s : State) (ev n : Nat) : State := s.pmcEvent 972 16 ev n
def State.pmcRng (s : State) (ev n : Nat) : State := s.pmcEvent 988 8 ev n
def State.pmcCc (s : State) (k ev n : Nat) : State := s.pmcEvent (996 + 4 * k) 4 ev n
def State.pmcMovers (s : State) (ev n : Nat) : State := s.pmcEvent 1012 12 ev n

/-! ### Restarts (Table 1.7) -/

/-- The device passes through an internal RESET: the next INTERNAL_RESTART starts it again. -/
def State.askRestart (s : State) (r : Restart) : State :=
  { s with dev := { s.dev with state := .reset }, boot := { s.boot with restart := some r } }

/-- Enter a device state in the folio in progress (DEV_ENTRY_FOLIO). -/
def State.enter (s : State) (d : DevState) : State :=
  { s with dev := { s.dev with state := d, entryFolio := s.folio.now } }

end Sys2Proof.Machine
end

