-- ==== Sys2Proof/Machine/Recorder.lean ====
section
/-! DEFINITION. The event recorder, its token bucket, the operating counters, the thermal state and the performance
counters (chapter 18). -/

namespace Sys2Proof.Machine

/-- The 32 bytes of a record up to its CHAIN field (Table 18.2, bytes 0–29). -/
def recordBody (r : Record) : Bytes :=
  beBytes 5 r.seconds ++ beBytes 3 r.cycles ++ beBytes 2 r.folio ++ beBytes 1 r.code ++ beBytes 1 r.source ++
    beBytes 2 (r.tenant * 64 + bit r.front * 32 + bit r.deferred * 16) ++ padTo 16 r.data

/-- The 32 bytes of a written record. -/
def recordBytes (r : Record) : Bytes := recordBody r ++ padTo 2 r.chain

/-- c0 of an area: 0x46 for the front matter, 0x54 for the tail (R460). -/
def chainStart (area : Byte) : Bytes :=
  (sha384B (ascii "SKZ2 rec" ++ beBytes 8 Config.serial.toNat ++ [area])).take 16

/-- The chain value in force: c0 while no record has been written (log entry 11). -/
def chainOf (area : Byte) (c : Bytes) : Bytes := if c = [] then chainStart area else c

/-- The chain value after a record (R460). -/
def chainNext (c : Bytes) (r : Record) : Bytes :=
  (sha384B (c ++ recordBody r)).take 16

/-- Append a record to the tail at number NEXT, with its chain field (R460, R462). -/
def appendTail (x : Recorder) (r : Record) : Recorder :=
  let c := chainNext (chainOf 0x54 x.tailChain) r
  { x with tail := tabInsert x.tail x.next { r with chain := c.take 2 }, tailChain := c, next := x.next + 1,
           counters := bump x.counters 0 1 }

/-- Before the first record of a sector: the oldest sector of a full ring is erased, and the sector begins with its
checkpoint, event 0xE4 with the chain value before it (R463). -/
def openSector (s : State) (x : Recorder) : Recorder :=
  if x.next % 1024 ≠ 0 then x
  else
    let x1 :=
      if x.sectors * 1024 ≤ x.next - x.oldest then
        { x with oldest := x.oldest + 1024, tail := x.tail.filter (fun p => decide (x.oldest + 1024 ≤ p.1)),
                 counters := bump x.counters 3 1 }
      else x
    appendTail x1 (s.record evTailCheckpoint srcRecorder 0 (chainOf 0x54 x1.tailChain))

/-- Write a record: to the front matter while it has room and the device has been DEPLOYED, with FRONT set in both
copies, and to the tail (R462). -/
def writeRecord (s : State) (r : Record) : State :=
  let x := s.recorder
  let front := decide (x.frontCount < 1024) && x.everDeployed
  let r1 := { r with front := front }
  let c := chainNext (chainOf 0x46 x.frontChain) r1
  let x1 :=
    if front then
      { x with front := tabInsert x.front x.frontCount { r1 with chain := c.take 2 }, frontChain := c,
               frontCount := x.frontCount + 1 }
    else x
  let x2 := appendTail (openSector s x1) r1
  let s1 := { s with recorder := x2 }
  if front ∧ x2.frontCount = 1024 then s1.raise evFrontMatterFull srcRecorder 0 [] else s1

/-- A tail sector fails to erase or program: it is skipped and retired, a spare takes its place, and with none left the
ring is one sector shorter (R465). A shorter ring drops its oldest sector where it would be too full. -/
def sectorFailed (s : State) : State :=
  let x := s.recorder
  let x1 :=
    if 0 < x.spares then { x with spares := x.spares - 1 }
    else { x with sectors := x.sectors - 1 }
  { s with recorder := x1 }.raise evRecorderSectorFailed srcRecorder 0
    (items [(1, x.next / 1024 % x.sectors), (1, x1.spares)])

/-- RECORD_WRITE (R464): the oldest offered record is written. -/
def execRecordWrite (sectorFails : Bool) (s : State) : Host.Outcome State Fault Refusal :=
  match s.recorder.offered with
  | [] => .next s
  | r :: rest =>
    let s1 := if sectorFails then sectorFailed s else s
    let o := s1.recorder.offered.drop 1
    .next (writeRecord { s1 with recorder := { s1.recorder with offered := if sectorFails then o else rest } } r)

/-- The suppressed counts as eight 16-bit values saturating at 0xFFFF (R464). -/
def suppressedData (x : Recorder) : Bytes :=
  (List.range 8).flatMap (fun k => beBytes 2 (min 0xFFFF (tabGet 0 x.suppressed k)))

/-- REC_TOKEN_GAIN (R464): one token more, at most 512; a suppression record takes it where any count is nonzero. -/
def execRecTokenGain (s : State) : Host.Outcome State Fault Refusal :=
  let x := s.recorder
  if x.suppressed = [] then .next { s with recorder := { x with bucket := min 512 (x.bucket + 1) } }
  else
    let r := s.record evRecordsSuppressed srcRecorder 0 (suppressedData x)
    .next { s with recorder := { x with offered := x.offered ++ [r], suppressed := [],
                                        counters := bump x.counters 2 1 } }

/-- The counts are written to the counters partition (R461). -/
def storeSeconds (x : Recorder) : Recorder := { x with storedSeconds := x.seconds, storedCycles := x.cycles }

/-- OPERATING_SECOND (R461): counted while PWRGOOD is high and VSEC is present, and stored every 64 s. -/
def execOperatingSecond (s : State) : Host.Outcome State Fault Refusal :=
  if s.dev.pwrGood && s.dev.vsec then
    let x := { s.recorder with seconds := s.recorder.seconds + 1 }
    .next { s with recorder := if x.seconds % 64 = 0 then storeSeconds x else x }
  else .next s

/-! ### Thermal state (R478) -/

/-- The thermal state after readings in 0.0625 °C: a state falls only when every reading is 5.0 °C below its
threshold. -/
def thermalNext (now : Nat) (warmAt : Int) (r : List Int) : Nat :=
  if r.any (fun t => decide (2400 ≤ t)) then 2
  else if now = 2 ∧ ¬ (r.all (fun t => decide (t ≤ 2320))) then 2
  else if r.any (fun t => decide (warmAt ≤ t)) then 1
  else if now = 1 ∧ ¬ (r.all (fun t => decide (t ≤ warmAt - 80))) then 1
  else 0

/-- The sensor with the highest reading, and that reading; the first of equals. -/
def hottest : List Int → Nat → Nat × Int → Nat × Int
  | [], _, b => b
  | t :: rest, i, b => hottest rest (i + 1) (if b.2 < t then (i, t) else b)

/-- The thermal part of a temperature reading: the state and its event, and PWR_TMAX (R478). -/
def thermalUpdate (s : State) (r : List Int) : State :=
  let now := s.pwr.thermal
  let nxt := thermalNext now s.pwr.warmAt r
  let h := hottest r 0 (0, -32768)
  let p := { s.pwr with thermal := nxt,
                        tmax := if s.pwr.tmax.toInt < h.2 then BitVec.ofInt 16 h.2 else s.pwr.tmax }
  let s1 := { s with pwr := p }
  if nxt = now then s1
  else if nxt = 2 then s1.raise evThermalHot srcPower 0 (items [(1, h.1), (2, twos 16 h.2)])
  else if nxt = 1 then s1.raise evThermalWarm srcPower 0 (items [(1, h.1), (2, twos 16 h.2)])
  else s1.raise evThermalNormal srcPower 0 (items [(2, twos 16 h.2)])

/-! ### Performance counters (R469, R470) -/

/-- The compute die's registers are served: management requests reach them (R21). -/
def State.managed (s : State) : Bool :=
  match s.dev.state with
  | .service | .standby | .recovery => true
  | _ => false

/-- COUNTER_WRAPPED (R469): a counter that counts something goes from 2^32 − 1 to 0. -/
def execCounterWrapped (counter : Nat) (s : State) : Host.Outcome State Fault Refusal :=
  if counter < 1024 ∧ tabGet 0 s.pmc.select counter ≠ 0 then
    .next (State.counterWrap 16 counter { s with pmc := { s.pmc with live := tabPut 0 s.pmc.live counter 0 } })
  else .next s

/-- PMC_CTRL_SNAP (R470): a snapshot at the next tick. -/
def execPmcCtrlSnap (s : State) : Host.Outcome State Fault Refusal :=
  if s.managed then .next { s with pmc := { s.pmc with snapAsked := true } } else .next s

/-- A write to a counter's select register sets its event and clears that counter alone (R469). -/
def pmcSelect (s : State) (counter event : Nat) : State :=
  { s with pmc := { s.pmc with select := tabPut 0 s.pmc.select counter (event % 256),
                               live := tabPut 0 s.pmc.live counter 0 } }

/-- PMC_SEL_WRITE (R469). -/
def execPmcSelWrite (counter event : Nat) (s : State) : Host.Outcome State Fault Refusal :=
  if s.managed ∧ counter < 1024 then .next (pmcSelect s counter event) else .next s

/-- A snapshot at the tick (R470): every live counter into the page that is not the latest, which becomes the latest.
Cause 1 is a commanded snapshot. -/
def pmcSnapshot (s : State) (cause : Nat) : State :=
  let p := s.pmc
  let p1 := if p.latest then { p with page0 := p.live } else { p with page1 := p.live }
  { s with pmc := { p1 with latest := !p.latest, seq := (p.seq + 1) % 2 ^ 16, cause := cause,
                            pageFolio := s.folio.now, snapAsked := false } }

/-- The snapshot of a tick (R470): an interval snapshot at multiples of PMC_INTERVAL, a commanded one when asked; when
both fall on one tick one snapshot is taken, with cause 1. -/
def tickSnapshot (s : State) : State :=
  if s.pmc.snapAsked then pmcSnapshot s 1
  else if s.pmc.interval ≠ 0 ∧ s.folio.now % s.pmc.interval = 0 then pmcSnapshot s 0
  else s

end Sys2Proof.Machine
end

