-- ==== Sys2Proof/Machine/Square.lean ====
section
/-! DEFINITION. The Square's tables (chapter 05): slots, tasks and their flags, ready lists, delay lists, and the order
of replies on a queue. -/

namespace Sys2Proof.Machine

/-! ### Queues (R125 to R128) -/

def State.queue (s : State) (q : Nat) : QueueImage := tabGet {} s.sq.queues q

/-- What an ST register reads as where the image names no value: 0, and for a wake tolerance 0xFFFF, no limit (R476). -/
def stDefault (addr : Nat) : Nat := if 0xE05000 ≤ addr then 0xFFFF else 0

/-- Values of ST registers by address, each held as its difference from that value. -/
def stRead (t : List (Nat × Nat)) (addr : Nat) : Nat := Nat.xor (tabGet 0 t addr) (stDefault addr)
def stWrite (t : List (Nat × Nat)) (addr v : Nat) : List (Nat × Nat) := tabPut 0 t addr (Nat.xor v (stDefault addr))

/-- A value in effect of an ST register, by address. -/
def State.inEffect (s : State) (addr : Nat) : Nat := stRead s.adm.st addr

/-- The enable of queue `q` in effect (SQ_Q_EN). -/
def State.queueEnabled (s : State) (q : Nat) : Bool := (s.inEffect (0x58000 + 4 * (q / 32))).testBit (q % 32)

/-! ### Slots (R129 to R132) -/

def State.slot (s : State) (k : Nat) : Slot := tabGet {} s.sq.slots k

def State.putSlot (s : State) (k : Nat) (x : Slot) : State :=
  { s with sq := { s.sq with slots := tabPut {} s.sq.slots k x } }

def State.modSlot (s : State) (k : Nat) (f : Slot → Slot) : State := s.putSlot k (f (s.slot k))

/-- A request is in the slot. -/
def Slot.live (x : Slot) : Bool := decide (x.state ≠ .free)

/-- An undecided request: on its queue, neither admitted nor answered (R105). -/
def Slot.undecided (x : Slot) : Bool := decide (x.state = .queued ∧ x.answer = none ∧ x.refused = none)

/-- A reply is owed: the request has no commit point yet (R36). -/
def Slot.owed (x : Slot) : Bool := x.live && decide (x.commit = none)

/-- A request that was admitted. -/
def Slot.wasAdmitted (x : Slot) : Bool :=
  decide (x.state = .admitted ∨ x.state = .ready ∨ x.state = .running ∨ x.state = .held)

/-- The lowest free slot: which free descriptor a record takes is not laid down (log entry 12). -/
def firstFree : List (Nat × Slot) → Nat → Nat
  | [], k => k
  | (j, x) :: t, k => if j = k ∧ x.live then firstFree t (k + 1) else if j < k then firstFree t k else k

def State.freeSlot (s : State) : Nat := firstFree s.sq.slots 0

/-- Descriptors and cells in use, of all tenants or of one (R130). -/
def State.slotsUsed (s : State) : Nat := (s.sq.slots.filter (·.2.live)).length
def State.cellsUsed (s : State) : Nat := ((s.sq.slots.map (fun p => if p.2.live then p.2.cells else 0)).sum) + s.sq.poolCells
def State.slotsFree (s : State) : Nat := 65536 - s.slotsUsed
def State.cellsFree (s : State) : Nat := 196608 - s.cellsUsed
def State.tenantSlots (s : State) (t : Nat) : Nat := (s.sq.slots.filter (fun p => p.2.live && p.2.tenant == t)).length
def State.tenantCells (s : State) (t : Nat) : Nat :=
  (s.sq.slots.map (fun p => if p.2.live && p.2.tenant == t then p.2.cells else 0)).sum

/-! ### Flags and masks (R133 to R135, Table 5.3) -/

abbrev flagOperands : Nat := 0
abbrev flagStart : Nat := 1
abbrev flagPred : Nat := 2
abbrev flagDelay : Nat := 3
abbrev flagKeyResident : Nat := 4
abbrev flagUnwrapDone : Nat := 5
abbrev flagRandomReady : Nat := 6
abbrev flagBulkCredit : Nat := 7
def flagBnDone (h : Nat) : Nat := 8 + h
def flagIn (j : Nat) : Nat := 16 + j

/-- The bit of a flag. -/
def flagBit (i : Nat) : BitVec 32 := BitVec.ofNat 32 (2 ^ i)

def Slot.node (x : Slot) (n : Nat) : Node := tabGet {} x.nodes n

def Slot.modNode (x : Slot) (n : Nat) (f : Node → Node) : Slot := { x with nodes := tabMod {} x.nodes n f }

/-- (flags AND mask) = mask (R133). -/
def Node.ready (n : Node) : Bool := decide (n.flags &&& n.mask = n.mask)

/-- A task becomes ready: it joins the ready list of its queue's priority with the block chosen at admission (R136). -/
def State.joinReady (s : State) (k n : Nat) : State :=
  let x := s.slot k
  let l := (s.queue x.queue).priority
  let e : ReadyEntry := { slot := k, node := n, block := x.block.getD 0 }
  let s1 := { s with sq := { s.sq with ready := tabMod [] s.sq.ready l (fun t => t ++ [e]) } }
  (s1.modSlot k (fun x => if x.state = .admitted then { x with state := .ready } else x)).pmcSquare 0x11 1

/-- A task that is admitted, not yet given, and whose mask is satisfied joins its list once. A management or handshake
task that a control core serves is bound to no block and joins none (R504). -/
def State.checkReady (s : State) (k n : Nat) : State :=
  let x := s.slot k
  let nd := x.node n
  if x.wasAdmitted ∧ x.commit = none ∧ x.graphFail = none ∧ x.block.isSome ∧ nd.ready ∧ nd.mask ≠ 0 ∧ ¬ nd.given ∧
      ¬ (s.sq.ready.any (fun p => p.2.any (fun e => e.slot == k && e.node == n)))
  then s.joinReady k n else s

/-- Set flag `i` of node `n` of slot `k`. -/
def State.setFlag (s : State) (k n i : Nat) : State :=
  (s.modSlot k (fun x => x.modNode n (fun d => { d with flags := d.flags ||| flagBit i }))).checkReady k n

/-- Clear flag `i` of node `n` of slot `k`. -/
def State.clearFlag (s : State) (k n i : Nat) : State :=
  s.modSlot k (fun x => x.modNode n (fun d => { d with flags := d.flags &&& ~~~ flagBit i }))

/-- The node numbers of a slot. -/
def Slot.nodeNumbers (x : Slot) : List Nat := x.nodes.map (·.1)

/-- Set a flag that every task of the slot shares (START, PRED). -/
def State.setFlagAll (s : State) (k i : Nat) : State :=
  (s.slot k).nodeNumbers.foldl (fun s n => s.setFlag k n i) s

/-! ### Delay lists (R142) -/

/-- Insert an entry in its list: sorted by time, in order of insertion within one time. -/
def State.insertDelay (s : State) (e : DelayEntry) : State :=
  { s with sq := { s.sq with delays := tabMod [] s.sq.delays (e.slot % 4) (fun l => insertBy (fun d => d.time) e l) } }

/-- Remove the entries of a task, or of a whole slot. -/
def State.dropDelay (s : State) (k : Nat) (node : Option Nat) : State :=
  let keep := fun (e : DelayEntry) => !(e.slot == k && (node == none || e.node == node))
  { s with sq := { s.sq with delays := tabMod [] s.sq.delays (k % 4) (fun l => l.filter keep) } }

/-- The flag of an entry that falls due. -/
def State.releaseEntry (s : State) (e : DelayEntry) : State :=
  match e.node with
  | none =>
    let x := s.slot e.slot
    let waits := x.nodes.any (fun p => p.2.flags &&& flagBit flagPred == 0)
    let s1 := if waits then { s with sq := { s.sq with counters := bump s.sq.counters 3 1 } } else s
    s1.setFlagAll e.slot flagStart
  | some n => s.setFlag e.slot n flagDelay

/-- An entry whose time is at or before the current delay time sets its flag at once and is not listed (R142). Delay
times are 54 bits and compare as folio numbers do (R40). -/
def State.addDelay (s : State) (e : DelayEntry) : State :=
  if folioReached s.folio.now (e.time / 64) ∧
      (s.folio.now ≠ e.time / 64 ∨ e.time % 64 ≤ s.folio.delayTick) then s.releaseEntry e
  else s.insertDelay e

/-- The entries of all lists that are due at the current delay time, each list in its order, and the lists without
them. -/
def State.due (s : State) (e : DelayEntry) : Bool :=
  folioReached s.folio.now (e.time / 64) &&
    (decide (s.folio.now ≠ e.time / 64) || decide (e.time % 64 ≤ s.folio.delayTick))

/-- A list under its key, unless it is empty. -/
def dropEmpty {α : Type} (k : Nat) (l : List α) : Option (Nat × List α) := if l.isEmpty then none else some (k, l)

/-- Release every due entry (R142), and with them START entries that were never listed. START entries of one moment join the
ready lists in slot order (R136). -/
def State.releaseDue (s : State) (unlisted : List DelayEntry) : State :=
  let due := s.sq.delays.flatMap (fun p => p.2.filter s.due)
  let left := s.sq.delays.filterMap (fun p => dropEmpty p.1 (p.2.filter (fun e => !s.due e)))
  let s1 := { s with sq := { s.sq with delays := left, counters := bump s.sq.counters 2 due.length } }
  ((sortBy (fun e => e.slot) (due ++ unlisted)).foldl (fun s e => s.releaseEntry e) s1).pmcSquare 0x12 due.length

/-- DELAY_LIST_RELEASE (R26, R142): delay tick `k` of the folio begins. -/
def execDelayListRelease (k : Nat) (s : State) : Host.Outcome State Fault Refusal :=
  if s.folioRuns ∧ s.folio.delayTick < k ∧ k < 64 then
    .next (State.releaseDue { s with folio := { s.folio with delayTick := k } } [])
  else .next s

/-! ### Order of replies (R39, R143, R145) -/

/-- Two requests lie on one ordered queue, and where it orders by key have the same order key. -/
def State.sameOrder (s : State) (x y : Slot) : Bool :=
  decide (x.queue = y.queue) && !x.mailbox && !y.mailbox && x.refused == none && y.refused == none &&
    match (s.queue x.queue).mode with
    | 1 => true
    | 2 => decide (x.orderKey = y.orderKey)
    | _ => false

/-- The live requests submitted earlier than `x` in its order. -/
def State.earlier (s : State) (x : Slot) : List (Nat × Slot) :=
  s.sq.slots.filter (fun p => p.2.live && decide (p.2.req < x.req) && s.sameOrder x p.2)

/-- Those of them without a commit point, in submission order. -/
def State.earlierOpen (s : State) (x : Slot) : List (Nat × Slot) :=
  sortBy (fun p => p.2.req) ((s.earlier x).filter (fun p => p.2.owed))

/-- A reply of `x` must wait for an earlier reply (R145). -/
def State.mustHold (s : State) (x : Slot) : Bool := !(s.earlierOpen x).isEmpty

/-- The next later request of the same order without a commit point. -/
def State.nextLater (s : State) (x : Slot) : Option Nat :=
  (minBy (fun p => p.2.req) (s.sq.slots.filter (fun p => p.2.owed && decide (x.req < p.2.req) && s.sameOrder x p.2))).map (·.1)

/-- The ordering predecessor of R143: the latest earlier-submitted request with the same order key, on a per-order-key
queue only. -/
def State.predecessor (s : State) (x : Slot) : Option (Nat × Slot) :=
  if (s.queue x.queue).mode = 2 then (sortBy (fun p => p.2.req) (s.earlier x)).getLast? else none

/-! ### Ready lists (R136, R137) -/

/-- Remove the entries of slot `k` from every ready list. -/
def State.dropReady (s : State) (k : Nat) : State :=
  let left := s.sq.ready.filterMap (fun p => dropEmpty p.1 (p.2.filter (fun e => decide (e.slot ≠ k))))
  { s with sq := { s.sq with ready := left } }

/-- The first entry bound to block `b`, highest list first. -/
def State.readyFor (s : State) (b : Nat) : Option ReadyEntry :=
  ((List.range 8).reverse.findSome? (fun l => (tabGet [] s.sq.ready l).find? (fun e => decide (e.block = b))))

end Sys2Proof.Machine
end

