-- ==== Sys2Proof/Machine/Admission.lean ====
section
/-! DEFINITION. Admission (chapter 04): capacity, frontage and the plaza, placement, the admission pass, lost capacity
and precedence. -/

namespace Sys2Proof.Machine

/-! ### Capacity (R96 to R98) -/

/-- F, the shortest folio length (R96). -/
def State.admF (s : State) : Nat := 1600 * s.folio.periodUs - 16
/-- A, the admission allowance. -/
def State.admA (s : State) : Nat := s.admF / 20
/-- CORE capacity of one transaction core. -/
def State.perCore (s : State) : Nat := s.admF - s.admA
def State.rawBn (s : State) : Nat := 64 * s.admF
/-- The overrun reserve. -/
def State.reserveBn (s : State) : Nat := ceilDiv (64 * s.admF * 8) 100
def State.nomBn (s : State) : Nat := s.rawBn - s.reserveBn
def State.nomBulk (s : State) : Nat := 256 * s.admF
def State.randPer (s : State) : Nat := s.admF / 4
def State.nomRand (s : State) : Nat := 8 * s.randPer - 4 * s.randPer

/-- The physical port of a logical port: 0 A, 1 B, 2 M. -/
def physOf (i : Nat) : Nat := if i < 8 then 0 else if i < 16 then 1 else 2

def State.port (s : State) (i : Nat) : Port := tabGet {} s.ports i

/-- The rate of a logical port in Mbit/s: the mode's (Table 3.1), and on Port M the speed it runs at, 1,000 while it has
no link (R98: link loss does not reduce capacity). -/
def State.rateM (s : State) (i : Nat) : Nat :=
  if i < 16 then 800000 / 2 ^ (s.port i).cfg.mode
  else if (s.port i).speed = 5 then 100 else if (s.port i).speed = 6 then 10 else 1000

/-- The device is a member of a journal chain. -/
def State.paired (s : State) : Bool := decide (0 < s.pair.count)

/-- J_E, withheld on the two member logical ports of a paired device (R98). -/
def State.journalAllowance (s : State) (i : Nat) : Nat :=
  if s.paired ∧ (i = s.pair.memberA ∨ i = s.pair.memberB) then s.pair.budget else 0

/-- Nominal EGRESS of a logical port (Table 4.2). -/
def State.nomEg (s : State) (i : Nat) : Nat :=
  if (s.port i).cfg.present then s.rateM i * s.admF * 97 / 1280000 else 0

/-- District `d` is ready in folio `f` (R110): a waking one from its ready folio. -/
def State.districtReady (s : State) (d f : Nat) : Bool :=
  let x := tabGet ({} : District) s.pwr.districts d
  if x.waking then !x.late && folioReached f x.ready else decide (x.state = .active)

/-- `awake` counts every district as ready: the capacity that sleeping districts would supply (R110). -/
def State.ready' (s : State) (awake : Bool) (d f : Nat) : Bool := awake || s.districtReady d f

/-- Units of a class counted in folio `f` (R98): available and in a ready district. -/
def State.coresIn (s : State) (awake : Bool) (b f : Nat) : Nat :=
  if s.ready' awake b f then ((List.range 8).filter (fun i => s.unitOk (srcTc (8 * b + i)))).length else 0
def State.bnIn (s : State) (awake : Bool) (f : Nat) : Nat :=
  ((List.range 4).map (fun g => if s.ready' awake (16 + g) f then
    ((List.range 16).filter (fun i => s.unitOk (srcBn (16 * g + i)))).length else 0)).sum
def State.bkIn (s : State) (awake : Bool) (f : Nat) : Nat :=
  ((List.range 4).map (fun g => if s.ready' awake (20 + g) f then
    ((List.range 4).filter (fun i => s.unitOk (srcBk (4 * g + i)))).length else 0)).sum

/-- DRBG instances that run. -/
def State.drbgsRunning (s : State) : Nat :=
  ((List.range 8).filter (fun i => let d := tabGet ({} : Drbg) s.rng.drbgs i
    decide ((d.state = .running ∨ d.state = .reseeding) ∧ ¬ d.returned))).length

def State.capCore (s : State) (awake : Bool) (b f : Nat) : Nat := s.coresIn awake b f * s.perCore
/-- Lost BN capacity is taken first from the reserve (R98). -/
def State.capBn (s : State) (awake : Bool) (f : Nat) : Nat := min s.nomBn (s.bnIn awake f * s.admF)
/-- The reserve still withheld after absorbing loss. -/
def State.reserveLeft (s : State) (f : Nat) : Nat := s.bnIn false f * s.admF - s.capBn false f
def State.capBulk (s : State) (awake : Bool) (f : Nat) : Nat := s.bkIn awake f * (16 * s.admF)
/-- RAND: nothing while A and B have both failed (R98) or while the tenant pool is refilled (R345). -/
def State.capRand (s : State) : Nat :=
  if (s.rng.state = .ready ∨ s.rng.state = .degraded) ∧ ¬ s.rng.refilling then
    s.drbgsRunning * s.randPer - 4 * s.randPer else 0
def State.capEg (s : State) (i : Nat) : Nat := s.nomEg i - s.journalAllowance i

/-! ### Resource classes as the ledger holds them -/

/-- A class with what it is reckoned per (R101): a core block, a logical port, or the device. -/
inductive Res where
  | core (b : Nat)
  | bn
  | bulk
  | rand
  | eg (i : Nat)
  deriving DecidableEq, Repr

/-- Current capacity of a class in folio `f`. -/
def State.cap (s : State) (awake : Bool) (r : Res) (f : Nat) : Nat :=
  match r with
  | .core b => s.capCore awake b f
  | .bn => s.capBn awake f
  | .bulk => s.capBulk awake f
  | .rand => s.capRand
  | .eg i => s.capEg i

/-- The amount of class `r` that a charge holds in folio `f`: from b over the span, EGRESS up to the deadline folio
(R94). -/
def Charge.amount (c : Charge) (r : Res) (f : Nat) : Nat :=
  let inSpan := decide (folioDiff f c.b < c.span)
  match r with
  | .core b => if inSpan && c.block == some b then c.core else 0
  | .bn => if inSpan then c.bn else 0
  | .bulk => if inSpan then c.bulk else 0
  | .rand => if inSpan then c.rand else 0
  | .eg i => if decide (folioDiff f c.b ≤ folioDiff c.last c.b) && c.lport == i then c.egress else 0

/-- Frontage of tenant `t` (R99): for T0 on Port M the whole current EGRESS capacity. -/
def State.frontage (s : State) (t : Nat) (r : Res) : Nat :=
  match r with
  | .core b => s.inEffect (0x47000 + 0x40 * t + 4 * b)
  | .bn => s.inEffect (0x42000 + 4 * t)
  | .bulk => s.inEffect (0x43000 + 4 * t)
  | .rand => s.inEffect (0x44000 + 4 * t)
  | .eg i => if i = 16 then (if t = 0 then s.capEg 16 else 0) else s.inEffect (0x45000 + 4 * t)

/-- Sum over all tenants of a table of values at `base + step × t`. -/
def sumSt (st : List (Nat × Nat)) (base step : Nat) : Nat :=
  (st.map (fun p => if base ≤ p.1 ∧ p.1 < base + step * 513 ∧ (p.1 - base) % step = 0 then p.2 else 0)).sum

/-- Sum of all frontages of a class (R101). -/
def State.frontages (s : State) (r : Res) : Nat :=
  match r with
  | .core b => sumSt s.adm.st (0x47000 + 4 * b) 0x40
  | .bn => sumSt s.adm.st 0x42000 4
  | .bulk => sumSt s.adm.st 0x43000 4
  | .rand => sumSt s.adm.st 0x44000 4
  | .eg i => if i = 16 then s.capEg 16 else sumSt s.adm.st 0x45000 4

def State.charged (s : State) (r : Res) (f : Nat) : Nat := (s.adm.ledger.map (fun c => c.amount r f)).sum

/-- Frontage charges of one tenant, and plaza charges, in a folio. -/
def State.frontCharged (s : State) (t : Nat) (r : Res) (f : Nat) : Nat :=
  (s.adm.ledger.map (fun c => if c.kind = .frontage ∧ c.tenant = t then c.amount r f else 0)).sum
def State.plazaCharged (s : State) (r : Res) (f : Nat) : Nat :=
  (s.adm.ledger.map (fun c => if c.kind = .plaza then c.amount r f else 0)).sum

/-- The tenants that hold charges. -/
def State.chargedTenants (s : State) : List Nat := (s.adm.ledger.map (·.tenant)).eraseDups

/-- Frontage charges above a tenant's frontage, counted against the plaza (R103). -/
def State.excess (s : State) (r : Res) (f : Nat) : Nat :=
  ((s.chargedTenants).map (fun t => s.frontCharged t r f - s.frontage t r)).sum

/-- The plaza of a class in a folio (R101); Port M has none. -/
def State.plaza (s : State) (awake : Bool) (r : Res) (f : Nat) : Nat :=
  if r = .eg 16 then 0 else s.cap awake r f - s.frontages r

/-- `x` more of class `r` in folio `f` fits the kind and the current capacity (R101, R102). -/
def State.fits (s : State) (awake : Bool) (kind : ChargeKind) (t : Nat) (r : Res) (f x : Nat) : Bool :=
  decide (x = 0) ||
    (decide (s.charged r f + x ≤ s.cap awake r f) &&
      match kind with
      | .frontage => decide (s.frontCharged t r f + x ≤ s.frontage t r)
      | .plaza => decide (s.plazaCharged r f + s.excess r f + x ≤ s.plaza awake r f))

/-! ### The charges of a request (R92 to R94) -/

/-- Wire bytes of a reply beyond its result on the logical port its datagram arrived on (R93). -/
def State.replyOverhead (s : State) (x : Slot) : Nat :=
  24 + 32 + 16 + 8 + (if x.src.v6 then 40 else 20) + 18 + (if x.src.vlan.isSome then 4 else 0) +
    (if (s.port x.lport).cfg.macsec then 32 else 0) + 20

/-- The result bytes that c_E covers: L_max, and for a stream segment its data too (R93, R312). -/
def Slot.resultBound (x : Slot) : Nat :=
  if x.func ∈ [0x0802, 0x0803, 0x0812, 0x0813] then x.payload.length - 4 + x.cost.lmax else x.cost.lmax

/-- c_E (R93). -/
def State.costEgress (s : State) (x : Slot) : Nat := ceilDiv x.resultBound 8 * 8 + s.replyOverhead x

/-- D of a class code (Table 2.3). -/
def classD (c : Nat) : Nat :=
  match c with
  | 0 => 1 | 1 => 2 | 2 => 4 | 3 => 8 | 4 => 16 | 5 => 64 | 6 => 256 | _ => 1024

/-- The smallest class whose D is at least `span` (R92). -/
def minClass (span : Nat) : Nat := ((List.range 8).find? (fun c => decide (span ≤ classD c))).getD 7

/-- The charge of request `x` placed with `off` folios after `a` and `left` folios from a to its deadline, on a block. -/
def State.chargeOf (s : State) (x : Slot) (kind : ChargeKind) (a off left : Nat) (block : Option Nat) : Charge :=
  { req := x.req, tenant := x.tenant, kind := kind, block := block, lport := x.lport,
    b := folioAdd a off, span := x.cost.span, last := folioAdd a (left - 1),
    core := ceilDiv x.cost.core x.cost.span, bn := ceilDiv x.cost.bn x.cost.span,
    bulk := ceilDiv x.cost.bulk x.cost.span, rand := ceilDiv x.cost.rand x.cost.span,
    egress := ceilDiv (s.costEgress x) (left - off), tick := a, order := 0 }

/-- A class amount fits in every folio of the span. -/
def State.fitsSpan (s : State) (awake : Bool) (kind : ChargeKind) (t : Nat) (r : Res) (b span x : Nat) : Bool :=
  (List.range span).all (fun i => s.fits awake kind t r (folioAdd b i) x)

/-- The first core block of the placement set on which the CORE charge fits (R109). -/
def State.pickBlock (s : State) (awake : Bool) (kind : ChargeKind) (x : Slot) (b amount : Nat) : Option Nat :=
  (List.range 16).find? (fun k => x.cost.place.testBit k && s.fitsSpan awake kind x.tenant (.core k) b x.cost.span amount)

/-- The device-wide charges of a request fit at start folio b. -/
def State.fitsRest (s : State) (awake : Bool) (kind : ChargeKind) (x : Slot) (c : Charge) (off left : Nat) : Bool :=
  s.fitsSpan awake kind x.tenant .bn c.b c.span c.bn && s.fitsSpan awake kind x.tenant .bulk c.b c.span c.bulk &&
    s.fitsSpan awake kind x.tenant .rand c.b c.span c.rand &&
    (List.range (left - off)).all (fun i => s.fits awake kind x.tenant (.eg x.lport) (folioAdd c.b i) c.egress)

/-- The charge at the start folio a + off, when every charge fits there. -/
def State.placeAt (s : State) (awake : Bool) (kind : ChargeKind) (x : Slot) (a off left : Nat) : Option Charge :=
  let c := s.chargeOf x kind a off left none
  if ¬ s.fitsRest awake kind x c off left then none
  else if x.cost.core = 0 then some c
  else
    match s.pickBlock awake kind x c.b c.core with
    | none => none
    | some k => some { c with block := some k }

/-- place(c, kind) of R108: b upwards from the lowest value allowed to min(a + D − s, a + 15). `left` is the number of
folios from a to the deadline folio, and `lo` the lowest offset allowed by R107. -/
def State.place (s : State) (awake : Bool) (kind : ChargeKind) (x : Slot) (a left lo : Nat) : Option Charge :=
  if left < x.cost.span then none
  else ((List.range (min (left - x.cost.span) 15 + 1)).filter (fun off => decide (lo ≤ off))).findSome?
    (fun off => s.placeAt awake kind x a off left)

/-! ### Admitting -/

/-- Node j of a graph request as its node table gives it (Table 5.6). -/
def graphNode (p : Bytes) (flags : BitVec 32) (j : Nat) : Node :=
  { flags := flags, mask := BitVec.ofNat 32 (7 + fld p (4 + 8 * j) 2 * 65536), prog := fld p (6 + 8 * j) 1,
    inEdges := fld p (4 + 8 * j) 2, opdOff := fld p (8 + 8 * j) 2, opdLen := fld p (10 + 8 * j) 2 }

/-- The function is a graph function: codes 0x0A01 to 0x0AFF. -/
def isGraph (func : Nat) : Bool := decide (0x0A01 ≤ func) && decide (func ≤ 0x0AFF)

/-- Node programs of a graph function, from its library entry (chapter 07). -/
def State.graphPrograms (s : State) (x : Slot) : Nat :=
  match s.cores.library.fns.find? (fun r => r.entry.code == x.func && r.reason == 0 && r.entry.tenant == (if 0x8000 ≤ x.func then x.tenant else 0)) with
  | some r => r.entry.nodes.length
  | none => 0

/-- The node table is valid (R148). -/
def graphValid (programs : Nat) (p : Bytes) : Bool :=
  let n := fld p 0 1
  decide (1 ≤ n ∧ n ≤ 16) && (List.range n).all (fun j =>
    decide (fld p (4 + 8 * j) 2 < 2 ^ j) && decide (fld p (6 + 8 * j) 1 < programs) &&
      decide (4 + 8 * n ≤ fld p (8 + 8 * j) 2) && decide (fld p (8 + 8 * j) 2 + fld p (10 + 8 * j) 2 ≤ p.length))

/-- The nodes of an admitted request, with their dispatch masks (R134, R149). -/
def admittedNodes (x : Slot) : List (Nat × Node) :=
  let fl := (x.node 0).flags
  if isGraph x.func then (List.range (fld x.payload 0 1)).map (fun j => (j, graphNode x.payload fl j))
  else [(0, { flags := fl, mask := 7 })]

/-- The recorder's heads now. -/
def State.recHead (s : State) : RecHead :=
  let x := s.recorder
  { frontCount := x.frontCount, frontChain := x.frontChain, next := x.next, tailChain := x.tailChain, oldest := x.oldest }

/-- Record the admission of slot `k` with charge `c` at the tick that begins `a`. -/
def State.grantAt (s : State) (k : Nat) (c : Charge) (a d : Nat) : State :=
  let x := s.slot k
  let x1 := { x with state := .admitted, admitTick := a, decision := s.adm.decided, kind := c.kind, block := c.block,
                     start := c.b, deadline := folioAdd a (d - 1), nodes := admittedNodes x,
                     head := if x.func = 0xB0 then some s.recHead else none }
  let cnt1 := bump s.adm.counters (if c.kind = .frontage then 0 else 1) 1
  let cnt2 := if c.b = a then cnt1 else bump cnt1 2 1
  let adm := { s.adm with ledger := s.adm.ledger ++ [{ c with order := s.adm.decided }],
                          decided := s.adm.decided + 1, counters := cnt2 }
  let s1 := (State.putSlot { s with adm := adm } k x1).pmcAdm (if c.kind = .frontage then 0x11 else 0x12) 1
  if x.func = 0xC0 then
    { s1 with srp := { s1.srp with channels := tabMod {} s1.srp.channels x.chan (fun y => { y with admitted := some a }) } }
  else s1

/-- Answer request `k` with a status; it takes its place in the order of decisions. -/
def State.answer (s : State) (k st : Nat) : State :=
  let s1 := s.modSlot k (fun x => { x with answer := some st, decision := s.adm.decided })
  { s1 with adm := { s1.adm with decided := s1.adm.decided + 1 } }

/-- Release the charges of a request (R95: only when shed or re-placed). -/
def State.release (s : State) (req : Nat) : State :=
  { s with adm := { s.adm with ledger := s.adm.ledger.filter (fun c => decide (c.req ≠ req)) } }

/-- Drop charges whose folios have all passed (R95). -/
def State.trimLedger (s : State) : State :=
  let live := fun (c : Charge) => decide (folioDiff s.folio.now c.b < c.span) ||
    decide (folioDiff s.folio.now c.b ≤ folioDiff c.last c.b) || !folioReached s.folio.now c.b
  { s with adm := { s.adm with ledger := s.adm.ledger.filter live } }

/-! ### Waking districts (R110, R477) -/

/-- Wake time of Table 18.7 in nanoseconds. -/
def wakeNs : DistrictState → Nat
  | .active => 0
  | .gated => 500
  | .retain => 40000
  | .off => 1500000

/-- Start waking a district: cause 0 admission, 1 commit. The ready folio is the first to begin at or after the wake
time, counted from this tick. -/
def State.startWake (s : State) (d cause : Nat) : State :=
  let x := tabGet ({} : District) s.pwr.districts d
  let r := folioAdd s.folio.now (ceilDiv (wakeNs x.state) (1000 * s.folio.periodUs))
  let p := { s.pwr with districts := tabPut {} s.pwr.districts d
                          { x with waking := true, wakeStart := s.folio.now, ready := r, idle := 0, busy := true },
                        counters := bump s.pwr.counters 0 1 }
  let c := if cause = 0 then bump s.adm.counters 13 1 else s.adm.counters
  { s with pwr := p, adm := { s.adm with counters := c } }.raise evWakeStarted (if cause = 0 then srcAdmission else srcPower) 0
    (items [(1, d), (8, r), (1, cause)])

def State.asleep (s : State) (d : Nat) : Bool :=
  let x := tabGet ({} : District) s.pwr.districts d
  decide (x.state ≠ .active) && !x.waking

/-- The districts that supply the classes a request lacks with the capacity that is ready (R110): the core blocks of its
placement set when no block has room, the big-number or bulk groups when theirs has none. -/
def State.lacking (s : State) (kind : ChargeKind) (x : Slot) (a left lo : Nat) : List Nat :=
  let offs := (List.range (min (left - x.cost.span) 15 + 1)).filter (fun off => decide (lo ≤ off))
  let t := x.tenant
  let lacks := fun (r : Res) (sel : Charge → Nat) => offs.all (fun off =>
    let c := s.chargeOf x kind a off left none
    !s.fitsSpan false kind t r c.b c.span (sel c))
  let coreLacks := decide (x.cost.core ≠ 0) && offs.all (fun off =>
    let c := s.chargeOf x kind a off left none
    (s.pickBlock false kind x c.b c.core).isNone)
  (if coreLacks then (List.range 16).filter (fun b => x.cost.place.testBit b) else []) ++
    (if lacks .bn (·.bn) then [16, 17, 18, 19] else []) ++ (if lacks .bulk (·.bulk) then [20, 21, 22, 23] else [])

/-- A request that does not fit, and would if the sleeping districts were ready, starts a wake of the lowest-numbered
one that supplies missing capacity. -/
def State.wakeFor (s : State) (x : Slot) (a left lo : Nat) : State :=
  let try_ := fun (kind : ChargeKind) =>
    if (s.place true kind x a left lo).isSome then (s.lacking kind x a left lo).find? (fun d => s.asleep d) else none
  match try_ ChargeKind.frontage with
  | some d => s.startWake d 0
  | none =>
    match try_ ChargeKind.plaza with
    | some d => s.startWake d 0
    | none => s

/-! ### The admission pass (R105 to R108) -/

/-- The constraints of R107: the lowest offset of b, or none when the candidate may not be admitted at this tick. -/
def State.orderLow (s : State) (x : Slot) (a d : Nat) : Option Nat :=
  let es := s.earlierOpen x
  -- an unconfirmed first member of a chain admits only T0's requests (R449)
  if (s.paired ∧ ¬ s.pair.confirmed ∧ x.tenant ≠ 0) ∨ es.any (fun p => !p.2.wasAdmitted) then none
  else
    match es.getLast? with
    | none => some 0
    | some (_, y) =>
      -- the deadline folio a + D − 1 is not earlier than that of the latest earlier request
      if ¬ folioReached (folioAdd a (d - 1)) y.deadline then none
      else if (s.queue x.queue).mode = 2 then
        let after := folioAdd y.start y.cost.span
        some (if folioReached a after then 0 else folioDiff after a)
      else some 0

/-- The channel on which the request came is CLOSING. -/
def State.chanClosing (s : State) (x : Slot) : Bool :=
  let c := tabGet ({} : Channel) s.srp.channels x.chan
  decide (c.state = .closing ∧ c.gen = x.chanGen)

/-- The status that the pass gives before any placement (R108, R425), `late` when the tick is later than the one that ends
folio n + p. -/
def State.preStatus (s : State) (x : Slot) (a : Nat) : Option Nat :=
  if (s.inEffect (0x41000 + 4 * x.tenant)).testBit 0 ∨ s.chanClosing x ∨ s.boot.drain.isSome then some stNotAdmitted
  else if classD x.cls < x.cost.span then some stClassInfeasible
  else if folioDiff a x.arrival > x.patience + 1 then some stPatienceExpired
  else none

/-- What the pass did so far: the state, the answers it gave in order, and the requests it admitted. -/
structure PassOut where
  s : State
  answers : List Nat := []
  admitted : List Nat := []
  kept : List Nat := []
  skipped : List Nat := []
  examined : Nat := 0
  perTenant : List (Nat × Nat) := []

/-- Admit with the charge, the graph check of R148 included. -/
def PassOut.grantAt (o : PassOut) (k : Nat) (c : Charge) (a : Nat) : PassOut :=
  let x := o.s.slot k
  if isGraph x.func ∧ ¬ graphValid (o.s.graphPrograms x) x.payload then
    let s1 := (o.s.grantAt k c a (classD x.cls)).answer k stGraphInvalid
    let s2 := { s1 with sq := { s1.sq with events := s1.sq.events ||| 8 } }
    { o with s := s2, answers := o.answers ++ [k] }
  else { o with s := o.s.grantAt k c a (classD x.cls), admitted := o.admitted ++ [k] }

def PassOut.answer (o : PassOut) (k st : Nat) : PassOut :=
  let n := if st = stNotAdmitted then 3 else if st = stPatienceExpired then 4 else 5
  let s1 := (o.s.answer k st).pmcAdm 0x13 1
  { o with s := { s1 with adm := { s1.adm with counters := bump s1.adm.counters n 1 } }, answers := o.answers ++ [k] }

/-- The frontage pass on one candidate. -/
def frontagePass (a : Nat) (o : PassOut) (k : Nat) : PassOut :=
  let x := o.s.slot k
  let seen := tabGet 0 o.perTenant x.tenant
  if o.s.inEffect (0x46000 + 4 * x.tenant) ≤ seen then { o with skipped := o.skipped ++ [k] }
  else
    let o := { o with examined := o.examined + 1, perTenant := tabPut 0 o.perTenant x.tenant (seen + 1) }
    match o.s.preStatus x a with
    | some st => o.answer k st
    | none =>
      match o.s.orderLow x a (classD x.cls) with
      | none => { o with kept := o.kept ++ [k] }
      | some lo =>
        match o.s.place false ChargeKind.frontage x a (classD x.cls) lo with
        | some c => o.grantAt k c a
        | none => { o with kept := o.kept ++ [k] }

/-- The plaza pass on one candidate. -/
def plazaPass (a : Nat) (o : PassOut) (k : Nat) : PassOut :=
  let x := o.s.slot k
  if 16 * o.s.admA ≤ o.examined then o
  else
    let o := { o with examined := o.examined + 1 }
    let last := decide (x.patience + 1 ≤ folioDiff a x.arrival)
    match if k ∈ o.skipped then o.s.preStatus x a else none with
    | some st => o.answer k st
    | none =>
      match o.s.orderLow x a (classD x.cls) with
      | none => if last then o.answer k stPatienceExpired else o
      | some lo =>
        let d := classD x.cls
        match (o.s.place false ChargeKind.frontage x a d lo).orElse (fun _ => o.s.place false .plaza x a d lo) with
        | some c => o.grantAt k c a
        | none =>
          let o := { o with s := o.s.wakeFor x a d lo }
          if last then o.answer k stPatienceExpired else o

/-- The functions that only member channels carry (Table 17.3), which CC0 serves without admission. -/
def isMemberFn (func : Nat) : Bool := decide (0xA8 ≤ func) && decide (func ≤ 0xAA)

/-- The candidates of a tick in the order of R106: priority of the queue, arrival folio, placement. -/
def State.candidates (s : State) (a : Nat) : List Nat :=
  let c := s.sq.slots.filter (fun p => p.2.undecided && !p.2.mailbox && !isMemberFn p.2.func)
  let byReq := sortBy (fun p => p.2.req) c
  let byArrival := sortBy (fun p => 2 ^ 48 - folioDiff a p.2.arrival) byReq
  (sortBy (fun p => 7 - (s.queue p.2.queue).priority) byArrival).map (·.1)

/-- The frontage and plaza passes of R108. -/
def admissionPass (s : State) (a : Nat) : PassOut :=
  let cs := s.candidates a
  let o := cs.foldl (frontagePass a) { s := s }
  -- kept and skipped candidates, in the order of R106
  let rest := cs.filter (fun k => k ∈ o.kept ∨ k ∈ o.skipped)
  let o1 := rest.foldl (plazaPass a) o
  let limit := 16 * s.admA
  let s1 := { o1.s with adm := { o1.s.adm with examined := min 0xFFFF o1.examined,
                                               admitted := min 0xFFFF o1.admitted.length } }
  let s2 := s1.pmcAdm 0x10 o1.examined
  if limit < o.examined + rest.length then
    let n := o.examined + rest.length - limit
    let s3 := { s2 with adm := { s2.adm with events := s2.adm.events ||| 0x20 } }
    { o1 with s := s3.raise evExamLimit srcAdmission 0 (items [(8, a), (2, n)]) }
  else { o1 with s := s2 }

/-- Re-placements of R116: the folio of the tick stands in for a, within the original deadline folio, with the original
kind. Answers the requests that fail. -/
def replacePass (s : State) (a : Nat) : State × List Nat × List Nat :=
  let todo := sortBy (fun p => p.2.decision) (s.sq.slots.filter (fun p => p.2.toReplace && decide (p.2.commit = none)))
  todo.foldl (fun acc p =>
    let (s, failed, placed) := acc
    let k := p.1
    let s0 := s.release p.2.req
    let x := { p.2 with toReplace := false, replaced := true }
    let left := folioDiff x.deadline a + 1
    match (if folioReached x.deadline a && !p.2.replaced then s0.place false x.kind x a left 0 else none) with
    | some c =>
      let y := { x with state := .admitted, start := c.b, block := c.block, nodes := admittedNodes x, graphFail := none,
                        outcome := none, effects := [] }
      let adm := { s0.adm with ledger := s0.adm.ledger ++ [{ c with order := x.decision, tick := x.admitTick }],
                               counters := bump s0.adm.counters 9 1 }
      let s1 := State.putSlot { s0 with adm := adm } k y
      let core := (x.node 0).core.getD 0
      (s1.raise evReplaced srcAdmission x.tenant (items [(1, core), (2, x.tenant), (8, c.b)]), failed, placed ++ [k])
    | none => ((s0.putSlot k x).answer k stDeadlineShed, failed ++ [k], placed)) (s, [], [])

/-! ### Lost capacity and precedence (R118, R119) -/

/-- The folios the ledger holds from `a` on, earliest first. -/
def State.ledgerFolios (s : State) (a : Nat) : List Nat :=
  let top := (s.adm.ledger.map (fun c => max (folioDiff (folioAdd c.b c.span) a) (folioDiff c.last a + 1))).foldl max 0
  if top < 2 ^ 20 then (List.range top).map (folioAdd a) else []

/-- Every class in code order (R119). -/
def allRes : List Res :=
  (List.range 16).map .core ++ [.bn, .bulk, .rand] ++ (List.range 17).map .eg

/-- The next request to shed in a folio and class (R119): plaza before frontage, latest tick first, decided last first;
only requests that hold a charge there and have no commit point. -/
def State.victim (s : State) (a : Nat) (r : Res) (f : Nat) (plazaOnly : Bool) : Option Charge :=
  let open_ := fun (c : Charge) =>
    s.sq.slots.any (fun p => p.2.live && p.2.req == c.req && p.2.commit == none && p.2.answer == none)
  let cs := s.adm.ledger.filter (fun c => decide (0 < c.amount r f) && open_ c && (!plazaOnly || c.kind == .plaza))
  minBy (fun (c : Charge) => (if c.kind = .plaza then 0 else 2 ^ 100) + folioDiff a c.tick * 2 ^ 40 + (2 ^ 40 - 1 - c.order)) cs

/-- Shed until the charges of one folio and class fit. `plazaToo` applies R103 at a commit tick: plaza charges must fit
the plaza as well. -/
def shedIn (a : Nat) (r : Res) (f : Nat) (plazaToo : Bool) : Nat → State × List (Nat × ChargeKind) → State × List (Nat × ChargeKind)
  | 0, acc => acc
  | fuel + 1, (s, shed) =>
    let excess := decide (s.cap false r f < s.charged r f)
    let plazaOver := plazaToo && decide (s.plaza false r f < s.plazaCharged r f + s.excess r f)
    if excess || plazaOver then
      match s.victim a r f (!excess) with
      | none => (s, shed)
      | some c =>
        match s.sq.slots.find? (fun p => p.2.live && p.2.req == c.req) with
        | none => (s, shed)
        | some (k, _) => shedIn a r f plazaToo fuel (((s.release c.req).answer k stDeadlineShed), shed ++ [(k, c.kind)])
    else (s, shed)

/-- Step 3 of R43: every folio of the ledger, earliest first, every class in code order. -/
def precedence (s : State) (a : Nat) (plazaToo : Bool) : State × List (Nat × ChargeKind) :=
  let n := s.adm.ledger.length
  let work := (s.ledgerFolios a).flatMap (fun f => allRes.map (fun r => (f, r)))
  let (s1, shed) := work.foldl (fun acc p => shedIn a p.2 p.1 plazaToo (n + 1) acc) (s, [])
  if shed.isEmpty then (s1, shed)
  else
    let pl := (shed.filter (fun p => decide (p.2 = .plaza))).length
    (s1.raise evShed srcAdmission 0 (items [(8, a), (2, pl), (2, shed.length - pl)]) |>.pmcAdm 0x14 shed.length, shed)

/-- Capacity of a class falls: event 0x82 and the sticky bit. Class codes as Table 4.1, `unit` the source code. -/
def State.capacityLost (s : State) (cls unit amount : Nat) : State :=
  { s with adm := { s.adm with events := s.adm.events ||| 8 } }.raise evCapacityLost srcAdmission 0
    (items [(1, cls), (1, unit), (4, amount)])

/-- The class and amount per folio that a unit supplies (Table 4.2). -/
def State.unitCapacity (s : State) (unit : Nat) : Option (Nat × Nat) :=
  if 0x80 ≤ unit ∧ unit ≤ 0xFF then some (0, s.perCore)
  else if 0x40 ≤ unit ∧ unit ≤ 0x7F then some (1, s.admF)
  else if 0x2C ≤ unit ∧ unit ≤ 0x3B then some (2, 16 * s.admF)
  else none

/-! ### The status allowance (R113) -/

/-- The allowance of one folio, in 1/1,280,000 byte. -/
def State.allowance (s : State) (i : Nat) : Int := if (s.port i).cfg.present then s.rateM i * s.admF * 3 else 0

def State.modPort (s : State) (i : Nat) (f : Port → Port) : State := { s with ports := tabMod {} s.ports i f }

/-- The balance rises by one allowance, never above one. -/
def State.refillPort (s : State) (i : Nat) : State :=
  s.modPort i (fun p => { p with balance := min (s.allowance i) (p.balance + s.allowance i) })

/-- The allowance of port `i` is not used up. -/
def State.allows (s : State) (i : Nat) : Bool := decide (0 ≤ (s.port i).balance)

/-- Subtract a frame's wire bytes. -/
def State.spend (s : State) (i bytes : Nat) : State :=
  s.modPort i (fun p => { p with balance := p.balance - bytes * 1280000 })

end Sys2Proof.Machine
end

