-- ==== Sys2Proof/Machine/Factory.lean ====
section
/-! DEFINITION. Public points of P-384, and the recovery record: the factory record of R421 until an image writes one. -/

namespace Sys2Proof.Machine

/-- Affine coordinates of a point, X then Y; zeros for the point at infinity. -/
def pointBytes (c : Curve) : Point → Bytes
  | none => zeros (2 * c.size)
  | some (x, y) => beBytes c.size x ++ beBytes c.size y

/-- The point of a scalar on P-384. -/
def public384 (d : Bytes) : Bytes := pointBytes p384 (p384.mul (beNat d) p384.base)

/-- The scalar of P-384 that 64 bytes of HKDF output give (Table 9.1, R421). -/
def scalar384 (b : Bytes) : Bytes := beBytes 48 (beNat b % (p384.n - 1) + 1)

/-- The MAC address 02-00-00 and the three low bytes of the serial number. -/
def factoryMac : Nat := 0x020000 * 2 ^ 24 + Config.serial.toNat % 2 ^ 24

/-- The interface identifier of a MAC address (RFC 4291, modified EUI-64). -/
def eui64 (mac : Nat) : Nat := Nat.xor (mac / 2 ^ 24) 0x020000 * 2 ^ 40 + 0xFFFE * 2 ^ 24 + mac % 2 ^ 24

/-- The factory record (R421): interface 2 is 1000BASE-X. -/
def factoryRecord : RecoveryRec :=
  let b1 := Config.serial.toNat / 256 % 256
  let b0 := Config.serial.toNat % 256
  let ip := 0xA9FE * 65536 + (if b1 = 0 ∨ b1 = 255 then 1 else b1) * 256 + b0
  let d := scalar384 (hkdf (beBytes 8 Config.serial.toNat) (beBytes 32 Config.claimToken.toNat) (ascii "SKZ2 claim client") 64)
  let pub := 4 :: public384 d
  { ifc := 2, mac := factoryMac, ipv4 := [(0, ip)], ipv6 := [(0, 0xFE80 * 2 ^ 112 + eui64 factoryMac)], udpPort := 47310,
    keys := [(0, { alg := 1, pub := pub, digest := sha384B pub })] }

/-- The recovery record in force. -/
def State.recoveryRec (s : State) : RecoveryRec := s.recovery.getD factoryRecord

end Sys2Proof.Machine
end

