-- ==== Sys2Proof/Machine/Library.lean ====
section
/-! DEFINITION. The function library as requests see it (R195 to R197, R504, Table 3.6): which function a record names
for a tenant, whether it may be used, and its cost record. -/

namespace Sys2Proof.Machine

/-- The management functions (Table 3.9). -/
def isMgmt (func : Nat) : Bool := decide (1 ≤ func) && decide (func ≤ 3)

/-- The cost record of a management function (R504). -/
def mgmtCost (func : Nat) : Cost :=
  { lmax := if func = 1 then 1024 else if func = 2 then 0 else 12, span := if func = 1 then 2 else 8 }

/-- The loaded library record of a code for a tenant: custom codes belong to one tenant (R195). -/
def Library.find (l : Library) (tenant func : Nat) : Option FnRec :=
  l.fns.find? (fun r => r.entry.code == func && r.reason == 0 &&
    (if 0x8000 ≤ func then r.entry.tenant == tenant else r.entry.tenant == 0))

/-- The cost record that takes the claims (R205, R207). -/
def FnRec.cost (r : FnRec) : Cost :=
  { core := r.entry.claimCore, bn := r.entry.claimBn, bulk := r.entry.claimBulk, rand := r.entry.claimRand,
    lmax := r.entry.lmax, span := r.span, place := r.placed }

/-- What a record's function code names. -/
inductive Named where
  | unknown
  | notPermitted
  /-- The cost record and the LENGTH limits. -/
  | fn (cost : Cost) (lenMin lenMax : Nat)

/-- The functions of RECOVERY that Port M serves (R423): MGMT_READ and MGMT_WRITE, AUTH_OPEN to AUTH_CLOSE, the
life-cycle functions, TMP_LATCH_CLEAR and the functions of Table 16.6. -/
def recoveryFn (func : Nat) : Bool :=
  func == 1 || func == 2 || (decide (0x60 ≤ func) && decide (func ≤ 0x64)) ||
    (decide (0x70 ≤ func) && decide (func ≤ 0x75)) || func == 0x80 || (decide (0x90 ≤ func) && decide (func ≤ 0x94))

/-- Device functions without a cost record in SERVICE (R377, R404, Tables 16.6 and 17.3). -/
def noCostRecord (func : Nat) : Bool :=
  (decide (0x70 ≤ func) && decide (func ≤ 0x75)) || func == 0x80 || (decide (0x92 ≤ func) && decide (func ≤ 0x94)) ||
    func == 0xA5 || isMemberFn func

/-- L_max of a function that CC0 serves, in bytes (Tables 13.3, 14.7, 16.6, 17.3). -/
def ccLmax (func : Nat) : Nat :=
  match func with
  | 1 => 1024 | 2 => 0 | 3 => 12
  | 0x60 => 240 | 0x63 => 64 | 0x71 => 48 | 0x74 => 2148 | 0x90 => 24 | 0x94 => 8 | 0xA8 => 8 | 0xA9 => 16 | 0xAA => 8
  | _ => 0

def ccNamed (func : Nat) : Named :=
  if isMgmt func then .fn { mgmtCost func with place := 0 } 8 1032
  else .fn { lmax := ccLmax func, span := 1 } 4 8192

/-- A channel of the journal chain: client keys 56 to 63 of T0 (R439). -/
def Channel.isMember (c : Channel) : Bool := decide (c.tenant = 0 ∧ 56 ≤ c.clientKey) || c.member.isSome

/-- The function a code names for a tenant's channel in the device's present state. -/
def State.named (s : State) (c : Channel) (func : Nat) : Named :=
  if isMemberFn func then
    if c.isMember ∧ (s.dev.state = .service ∨ s.dev.state = .standby) then ccNamed func else .notPermitted
  else if c.isMember then .notPermitted
  else if func = 0xC0 ∨ func = 0xC1 then .notPermitted
  else
    match s.dev.state with
    | .recovery => if recoveryFn func then ccNamed func else .notPermitted
    | .standby =>
      if isMgmt func then .fn (mgmtCost func) 8 1032
      else if func = 0xA5 then ccNamed func
      else if noCostRecord func then .notPermitted
      else
        match s.cores.library.find 0 func with
        | none => .unknown
        | some r => if func < 0x100 then .fn r.cost r.entry.lenMin r.entry.lenMax else .notPermitted
    | _ =>
      if isMgmt func then if c.tenant = 0 then .fn (mgmtCost func) 8 1032 else .notPermitted
      else if noCostRecord func then .notPermitted
      else
        match s.cores.library.find c.tenant func with
        | none => .unknown
        | some r =>
          let t := (tabGet ({} : TenantImage) s.image.tenants c.tenant)
          if r.entry.kind = 2 ∧ c.tenant ≠ 0 then .notPermitted
          else if 0x100 ≤ func ∧ func < 0x8000 ∧ ¬ func ∈ t.enabled then .notPermitted
          else if r.placed = 0 then .notPermitted
          else .fn r.cost r.entry.lenMin r.entry.lenMax

/-- A registered client key of a tenant (R269); in RECOVERY T0's come from the recovery record (R423). -/
def State.clientKey (s : State) (t i : Nat) : ClientKey :=
  if s.dev.state = .recovery then (if t = 0 then tabGet {} s.recoveryRec.keys i else {})
  else tabGet {} s.ks.clientKeys (64 * t + i)

end Sys2Proof.Machine
end

