-- ==== Sys2Proof/Machine/Ports.lean ====
section
/-! DEFINITION. The logical ports (chapter 03 up to UDP): link, frames in and out, MACsec and MKA, neighbours, ICMP. -/

namespace Sys2Proof.Machine

/-- The port runs in the device's state: every present port from SERVICE on, Port M alone in RECOVERY (R21, R65). -/
def State.portRuns (s : State) (i : Nat) : Bool :=
  (s.port i).cfg.present && match s.dev.state with
    | .service | .standby => true
    | .recovery => decide (i = 16)
    | .start => decide (12 ≤ s.boot.step) || decide (s.boot.running = some 12)
    | _ => false

/-- Count in a port counter (Table 3.12). -/
def State.portCnt (s : State) (i k n : Nat) : State := s.modPort i (fun p => { p with counters := bump p.counters k n })

/-- Set a sticky bit of PORT_EVENTS. -/
def State.portEvent (s : State) (i b : Nat) : State :=
  s.modPort i (fun p => { p with events := p.events ||| BitVec.ofNat 6 (2 ^ b) })

/-- Per-second counts of a port start again in a new second. -/
def Port.atSecond (p : Port) (sec : Nat) : Port :=
  if p.second = sec then p
  else { p with second := sec, echoes := 0, tagFails := 0, replays := 0, tagRaised := false, replayRaised := false }

/-! ### Own addresses (R60, R61, R433) -/

/-- Service addresses are held by the active only, once it is confirmed (R433, R449). -/
def State.holdsService (s : State) : Bool := !s.paired || (decide (s.dev.state = .service) && s.pair.confirmed)

/-- IPv4 address `j` is this device's to use: listed, not in conflict, and not a service address that another member
holds. -/
def State.own4 (s : State) (i ip : Nat) : Bool :=
  let p := s.port i
  decide (ip ≠ 0) && p.cfg.ipv4.any (fun e => e.2 == ip && tabGet .untested p.addr4 e.1 != .conflict &&
    (s.holdsService || !p.cfg.service4.contains e.1))
def State.own6 (s : State) (i ip : Nat) : Bool :=
  let p := s.port i
  decide (ip ≠ 0) && p.cfg.ipv6.any (fun e => e.2 == ip && tabGet .untested p.addr6 e.1 != .conflict &&
    (s.holdsService || !p.cfg.service6.contains e.1))

/-- Every address that R61 tests has passed without conflict. -/
def Port.allPassed (p : Port) : Bool :=
  p.cfg.ipv4.all (fun e => tabGet .untested p.addr4 e.1 == .ok) &&
    p.cfg.ipv6.all (fun e => p.cfg.service6.contains e.1 || tabGet .untested p.addr6 e.1 == .ok)

/-! ### Sending -/

/-- Bytes of a frame from destination address to FCS that carries `n` bytes of UDP payload. -/
def State.udpFrameLen (s : State) (i : Nat) (a : Source4) (n : Nat) : Nat :=
  max 64 (18 + (if a.vlan.isSome then 4 else 0) + (if (s.port i).cfg.macsec then 32 else 0) +
    (if a.v6 then 40 else 20) + 8 + n)

/-- Put a frame on its way out of port `i`. -/
def State.transmit (s : State) (i : Nat) (f : TxFrame) : State := s.modPort i (fun p => { p with tx := p.tx ++ [f] })

/-- A frame of the status allowance (NACK, ARP, ND, ICMP, PTP): sent while the balance is not negative, else it waits
(R113). `len` is its length with FCS. -/
def State.sendAllowed (s : State) (i len : Nat) (f : TxFrame) : State :=
  if s.allows i then (s.spend i (len + 20)).transmit i f
  else s.modPort i (fun p => { p with waiting := p.waiting ++ [f] })

/-- A status reply of slot `k` waits for the allowance behind what waits on port `i` (R113). -/
def State.keepPlace (s : State) (i k : Nat) : State :=
  s.modPort i (fun p => { p with waiting := p.waiting ++ [{ bytes := [], dst := {}, slots := [k] }] })

/-- Frames waiting for the allowance leave in order while it is not used up, as far as the first status reply that still
waits. -/
def State.drainWaiting (i : Nat) : Nat → State → State
  | 0, s => s
  | n + 1, s =>
    match (s.port i).waiting with
    | [] => s
    | f :: rest =>
      if f.bytes = [] ∧ f.slots.any (fun k => s.adm.deferred.contains k) then s
      else if f.bytes = [] then State.drainWaiting i n (s.modPort i (fun p => { p with waiting := rest }))
      else if s.allows i then
        State.drainWaiting i n (((s.modPort i (fun p => { p with waiting := rest })).spend i
          (s.udpFrameLen i f.dst f.bytes.length + 20)).transmit i f)
      else s

/-- An ARP packet (RFC 826): operation 1 request, 2 reply. -/
def arpPacket (op smac sip tmac tip : Nat) : Bytes :=
  beBytes 2 1 ++ beBytes 2 0x0800 ++ [6, 4] ++ beBytes 2 op ++ beBytes 6 smac ++ beBytes 4 sip ++ beBytes 6 tmac ++
    beBytes 4 tip

/-- A Neighbour Solicitation (135) or Advertisement (136) with its target (RFC 4861). -/
def ndPacket (type target mac : Nat) : Bytes :=
  [BitVec.ofNat 8 type] ++ zeros 7 ++ beBytes 16 target ++ [if type = 136 then 2 else 1, 1] ++ beBytes 6 mac

/-! ### Link (R52, R61) -/

/-- Port code of a speed as events carry it, and LINK_UP's Duplicate Address Detection and gratuitous ARP. -/
def linkUpPort (s : State) (i speed : Nat) : State :=
  let p := s.port i
  let p1 : Port := { p with link := true, pcsLock := true, fecOk := true, speed := speed, events := p.events ||| 1,
                            addr4 := p.cfg.ipv4.map (fun e => (e.1, AddrState.ok)),
                            addr6 := (p.cfg.ipv6.filter (fun e => !p.cfg.service6.contains e.1)).map
                              (fun e => (e.1, AddrState.probing)) }
  let s1 := { s with ports := tabPut {} s.ports i { p1 with ipReady := p1.allPassed } }
  let s2 := p.cfg.ipv4.foldl (fun (s : State) (e : Nat × Nat) =>
    if s.own4 i e.2 then s.sendAllowed i 64 { bytes := arpPacket 1 p.cfg.mac e.2 0 e.2, dst := { mac := 2 ^ 48 - 1 } } else s) s1
  let s3 := (p1.cfg.ipv6.filter (fun e => !p.cfg.service6.contains e.1)).foldl (fun (s : State) (e : Nat × Nat) =>
    s.sendAllowed i 90 { bytes := ndPacket 135 e.2 p.cfg.mac, dst := { mac := 0x3333FF000000 + e.2 % 2 ^ 24, v6 := true } }) s2
  s3.raise evLinkUp (srcPort i) 0 (items [(1, i), (1, speed)])

/-- LINK_UP (R52). A service port runs at the speed of its mode; Port M at the speed it negotiated. -/
def execLinkUp (lport speed : Nat) (s : State) : Host.Outcome State Fault Refusal :=
  let p := s.port lport
  if s.portRuns lport ∧ ¬ p.link then
    .next (linkUpPort s lport (if lport < 16 then p.cfg.mode else if p.cfg.ifc = 3 then speed else 4))
  else .next s

/-- LINK_DOWN (R52). -/
def execLinkDown (lport : Nat) (s : State) : Host.Outcome State Fault Refusal :=
  if (s.port lport).link then
    let s1 := s.modPort lport (fun p =>
      { p with link := false, pcsLock := false, fecOk := false, speed := 7,
               ipReady := false, addr4 := [], addr6 := [], events := p.events ||| 1 })
    .next (s1.raise evLinkDown (srcPort lport) 0 (items [(1, lport)]))
  else .next s

/-- FEC_DEGRADED (R90, Table 3.12): the codewords of the last whole second. -/
def execFecDegraded (lport corrected uncorrected : Nat) (s : State) : Host.Outcome State Fault Refusal :=
  if (s.port lport).link then
    let s1 := (s.portCnt lport 6 corrected).portCnt lport 7 uncorrected
    if 16 < uncorrected then
      if (s.port lport).fecOk then
        .next (((s1.modPort lport (fun p => { p with fecOk := false })).portEvent lport 1).raise evFecDegraded
          (srcPort lport) 0 (items [(1, lport), (4, uncorrected)]))
      else .next s1
    else .next (s1.modPort lport (fun p => { p with fecOk := true }))
  else .next s

/-! ### Reception (R53 to R63) -/

/-- The destination-address filter of R54. -/
def State.dstAccepted (s : State) (i dst : Nat) : Bool :=
  let p := s.port i
  decide (dst = p.cfg.mac) || decide (dst = 2 ^ 48 - 1) ||
    (decide (dst = 0x333300000001) && !p.cfg.ipv6.isEmpty) ||
    p.cfg.ipv6.any (fun e => decide (dst = 0x3333FF000000 + e.2 % 2 ^ 24)) ||
    (p.cfg.ptp && [0x011B19000000, 0x0180C200000E, 0x01005E000181, 0x01005E00006B, 0x333300000181, 0x33330000006B].contains dst) ||
    (p.cfg.macsec && decide (dst = 0x0180C2000003))

/-- A frame passes verification under a live receive SA within the replay window, and the SA after it (R57, R58). -/
def Port.macsecAccept (p : Port) (f : RxFrame) : Option Port :=
  match f.secured with
  | none => none
  | some (sci, an, pn) =>
    match p.rxSas.find? (fun a => a.sci == sci && a.an == an) with
    | none => none
    | some sa =>
      if f.icvOk ∧ sa.nextPn ≤ pn + p.cfg.replayWindow then
        some { p with rxSas := p.rxSas.map (fun a =>
          if a.sci == sci && a.an == an then { a with nextPn := max a.nextPn (pn + 1) } else a) }
      else none

/-- The VLAN tags are ones the port accepts (R59). -/
def Port.vlanAccepted (p : Port) (tags : List (Nat × Nat)) : Bool :=
  match tags with
  | [] => decide (p.cfg.vlan = 0 ∨ p.cfg.vlan = 2)
  | [(tpid, vid)] => decide (tpid = 0x8100 ∧ (p.cfg.vlan = 1 ∨ p.cfg.vlan = 2)) && p.cfg.vlans.contains vid
  | _ => false

/-- The IP and UDP layers of an accepted frame (R60, R63). -/
def rxIp (s : State) (i : Nat) (f : RxFrame) : State :=
  let own := if f.v6 then s.own6 i f.dstIp else s.own4 i f.dstIp
  let ptpGroup := (s.port i).cfg.ptp && (f.udpDst == 319 || f.udpDst == 320)
  if ¬ f.ipOk then s.portCnt i 13 1
  else if f.proto = (if f.v6 then 58 else 1) then s
  else if f.proto ≠ 17 ∨ ¬ (own ∨ ptpGroup) then s.portCnt i 13 1
  else if ¬ (f.udpSumOk ∨ (f.udpZeroSum ∧ ¬ f.v6)) ∨ (f.udpZeroSum ∧ f.v6) then s.portCnt i 13 1
  else if f.udpDst = s.srp.udpPort then
    let src : Source4 := { mac := f.srcMac, ip := f.srcIp, v6 := f.v6, port := f.udpSrc, dstIp := f.dstIp,
                           vlan := f.tags.head?.map (·.2) }
    s.modPort i (fun p => { p with ingress := p.ingress ++ [{ lport := i, src := src, bytes := f.payload }] })
  else if (s.port i).cfg.ptp ∧ (f.udpDst = 319 ∨ f.udpDst = 320) then s.portCnt i 17 1
  else s.portCnt i 16 1

/-- A received frame, up to the port or protocol it belongs to. ARP, ND, ICMP, PTP and MKA frames are handled by their
own commands after this one (log entry 14). -/
def rxFrame (s : State) (i : Nat) (f : RxFrame) : State :=
  let p := s.port i
  if f.len < 64 ∨ 9216 < f.len then s.portCnt i 5 1
  else if ¬ f.fcsOk then s.portCnt i 4 1
  else
    let s := ((s.portCnt i 0 1).portCnt i 1 f.len |>.pmcPort i 0x10 1).pmcPort i 0x12 (f.len / 64)
    let dropped := fun (s : State) => s.pmcPort i 0x14 1
    if f.ethertype = 0x8808 then dropped ((s.portCnt i 10 1).portEvent i 4)
    else if ¬ s.dstAccepted i f.dst then dropped (s.portCnt i 11 1)
    else if f.bufferFull then dropped ((s.portCnt i 12 1).portEvent i 5)
    else if p.cfg.macsec ∧ f.ethertype ≠ 0x888E then
      match p.macsecAccept f with
      | none => dropped (s.portCnt i 8 1)
      | some _ =>
        let s := (s.modPort i (fun p => (p.macsecAccept f).getD p)).portCnt i 9 1
        if ¬ p.vlanAccepted f.tags then dropped (s.portCnt i 11 1)
        else if f.ethertype = 0x0800 ∨ f.ethertype = 0x86DD then rxIp s i { f with v6 := f.ethertype == 0x86DD }
        else if f.ethertype = 0x88F7 ∧ p.cfg.ptp then s.portCnt i 17 1
        else s
    else if ¬ p.vlanAccepted f.tags then dropped (s.portCnt i 11 1)
    else if f.ethertype = 0x0800 ∨ f.ethertype = 0x86DD then rxIp s i { f with v6 := f.ethertype == 0x86DD }
    else if f.ethertype = 0x88F7 ∧ p.cfg.ptp then s.portCnt i 17 1
    else s

/-- FRAME_RECEIVE (R53). A SCRAPPED device in report mode receives nothing (R383). -/
def execFrameReceive (lport : Nat) (f : RxFrame) (s : State) : Host.Outcome State Fault Refusal :=
  if s.portRuns lport ∧ (s.port lport).link ∧ s.lc.state ≠ .scrapped then .next (rxFrame s lport f) else .next s

/-! ### MACsec key agreement (R57, R58) -/

/-- A live peer and a transmit SA exist. -/
def Port.refreshLive (p : Port) : Port := { p with macsecLive := p.txSa.isSome && !p.peers.isEmpty }

/-- Install a SAK: receive SAs of the peer (two SAs of up to four channels) and the transmit SA. -/
def installSak (s : State) (i peer an kn : Nat) (sak : Bytes) : State :=
  let sa : Sa := { sci := peer, an := an, keyNumber := kn, sak := sak }
  let s1 := s.modPort i (fun p =>
    let mine := (p.rxSas.filter (fun a => a.sci == peer && a.an != an)).reverse.take 1
    let others := p.rxSas.filter (fun a => a.sci != peer)
    let others := if 4 ≤ (others.map (·.sci)).eraseDups.length then others.drop 1 else others
    Port.refreshLive { p with rxSas := others ++ mine ++ [sa],
                              txSa := some { sa with sci := p.cfg.mac * 65536 + 1, nextPn := 1 } })
  s1.raise evMacsecSak (srcPort i) 0 (items [(1, i), (4, kn)])

/-- The key-encrypting key of a CAK and its name (IEEE 802.1X-2020; log entry 13). -/
def mkaKek (cak ckn : Bytes) : Bytes :=
  let part := fun (i : Byte) => cmac (aesCipher cak) (i :: ascii "IEEE8021 KEK" ++ [0] ++ padTo 16 ckn ++ beBytes 2 (8 * cak.length))
  (part 1 ++ part 2).take cak.length

/-- AES key unwrap (RFC 3394), from step `t` down: the check value and the words of the key. -/
def keyUnwrapSteps (kek : Bytes) (n : Nat) : Nat → Nat × List Nat → Nat × List Nat
  | 0, q => q
  | t + 1, (a, r) =>
    let b := (aesDecrypt kek (BitVec.ofNat 128 (Nat.xor a (t + 1) * 2 ^ 64 + r.getD (t % n) 0))).toNat
    keyUnwrapSteps kek n t (b / 2 ^ 64, r.set (t % n) (b % 2 ^ 64))

/-- The key, where the check value agrees. -/
def keyUnwrap (kek w : Bytes) : Option Bytes :=
  let n := w.length / 8 - 1
  let (a, r) := keyUnwrapSteps kek n (6 * n) (fld w 0 8, (chunks 8 (w.drop 8)).map beNat)
  if a = 0xA6A6A6A6A6A6A6A6 then some (r.flatMap (beBytes 8)) else none

/-- MKA_FRAME_RECEIVE (R57): CC0 handles an MKA message of a port with a CAK. A peer that proves the CAK becomes live;
a SAK that the key server distributes is unwrapped and installed, and where this device is key server it draws one. -/
def execMkaFrameReceive (lport : Nat) (m : MkaMsg) (s : State) : Host.Outcome State Fault Refusal :=
  let p := s.port lport
  if ¬ (s.portRuns lport ∧ p.link ∧ p.cfg.macsec ∧ p.cak ≠ [] ∧ m.icvOk) then .next s
  else
    let s1 := s.modPort lport (fun p =>
      Port.refreshLive { p with peers := if p.peers.contains m.peer then p.peers else p.peers ++ [m.peer] })
    match m.sak with
    | some (an, kn, wrapped) =>
      match keyUnwrap (mkaKek p.cak p.ckn) wrapped with
      | some sak => .next (installSak s1 lport m.peer an kn sak)
      | none => .next s1
    | none =>
      -- the lower key-server priority value serves; then the device's own SAK is drawn once for a new peer
      if p.cfg.keyPriority < m.priority ∧ p.txSa.isNone then
        let (k, s2) := s1.random 32
        .next (installSak s2 lport m.peer 0 1 k)
      else .next s1

/-- MACSEC_PEER_LOST (R58). -/
def execMacsecPeerLost (lport sci : Nat) (s : State) : Host.Outcome State Fault Refusal :=
  let p := s.port lport
  if p.cfg.macsec ∧ p.peers.contains sci then
    let s1 := s.modPort lport (fun p => { p with peers := p.peers.filter (· != sci) })
    if (s1.port lport).peers.isEmpty ∧ p.macsecLive then
      .next (((s1.modPort lport (fun p => { p with macsecLive := false })).portEvent lport 2).raise evMacsecLost
        (srcPort lport) 0 (items [(1, lport), (8, sci)]))
    else .next s1
  else .next s

/-! ### ARP, ND and ICMP (R61, R62) -/

/-- The port takes part in IP traffic. -/
def State.ipRuns (s : State) (i : Nat) : Bool := s.portRuns i && (s.port i).link && s.lc.state != .scrapped

/-- ARP_REQUEST_RECEIVE (R61). -/
def execArpRequestReceive (lport mac ip target : Nat) (s : State) : Host.Outcome State Fault Refusal :=
  if s.ipRuns lport then
    let s1 := s.portCnt lport 19 1
    if s1.own4 lport target then
      .next (s1.sendAllowed lport 64 { bytes := arpPacket 2 (s.port lport).cfg.mac target mac ip, dst := { mac := mac, ip := ip } })
    else .next s1
  else .next s

/-- NEIGHBOUR_SOLICITATION_RECEIVE (R61). -/
def execNeighbourSolicitationReceive (lport mac ip target : Nat) (s : State) : Host.Outcome State Fault Refusal :=
  if s.ipRuns lport then
    let s1 := s.portCnt lport 19 1
    if s1.own6 lport target then
      .next (s1.sendAllowed lport 90 { bytes := ndPacket 136 target (s.port lport).cfg.mac, dst := { mac := mac, ip := ip, v6 := true } })
    else .next s1
  else .next s

/-- Seconds of device time. -/
def State.deviceSeconds (s : State) : Nat := s.second

/-- Enter a neighbour; the cache holds 256, and the oldest goes. -/
def addNeighbour (s : State) (i ip mac : Nat) : State :=
  s.modPort i (fun p =>
    let rest := p.neighbours.filter (fun n => decide (n.addr ≠ ip))
    let rest := if 256 ≤ rest.length then rest.drop 1 else rest
    { p with neighbours := rest ++ [{ addr := ip, mac := mac, since := s.deviceSeconds }] })

/-- An address conflict: the address is not used, IP_READY stays low, event 0xC5. -/
def addrConflict (s : State) (i ip : Nat) : State :=
  let s1 := s.modPort i (fun p => { p with
    addr4 := p.addr4.map (fun e => if tabGet 0 p.cfg.ipv4 e.1 = ip then (e.1, AddrState.conflict) else e)
    addr6 := p.addr6.map (fun e => if tabGet 0 p.cfg.ipv6 e.1 = ip then (e.1, AddrState.conflict) else e)
    ipReady := false })
  (s1.portEvent i 3).raise evAddrConflict (srcPort i) 0 (items [(1, i), (8, ip % 2 ^ 64)])

/-- ARP_REPLY_RECEIVE (R61): resolves a next hop, or, from another station for an own address, reveals a conflict. -/
def execArpReplyReceive (lport mac ip : Nat) (s : State) : Host.Outcome State Fault Refusal :=
  if s.ipRuns lport then
    let s1 := s.portCnt lport 19 1
    if (s.port lport).cfg.ipv4.any (fun e => e.2 == ip) ∧ mac ≠ (s.port lport).cfg.mac then
      if s.own4 lport ip then .next (addrConflict s1 lport ip) else .next s1
    else .next (addNeighbour s1 lport ip mac)
  else .next s

/-- NEIGHBOUR_ADVERTISEMENT_RECEIVE (R61): resolves a next hop, or conflicts with an address under detection. -/
def execNeighbourAdvertisementReceive (lport mac ip : Nat) (s : State) : Host.Outcome State Fault Refusal :=
  if s.ipRuns lport then
    let s1 := s.portCnt lport 19 1
    if (s.port lport).cfg.ipv6.any (fun e => e.2 == ip) ∧ mac ≠ (s.port lport).cfg.mac then
      if s.own6 lport ip then .next (addrConflict s1 lport ip) else .next s1
    else .next (addNeighbour s1 lport ip mac)
  else .next s

/-- DAD_COMPLETE (R61): address `j` has passed; IP_READY rises once every address has. -/
def execDadComplete (lport j : Nat) (s : State) : Host.Outcome State Fault Refusal :=
  if s.ipRuns lport ∧ tabGet .untested (s.port lport).addr6 j = .probing then
    .next (s.modPort lport (fun p =>
      let p1 := { p with addr6 := tabPut .untested p.addr6 j .ok }
      { p1 with ipReady := p1.allPassed }))
  else .next s

/-- NEIGHBOUR_ENTRY_EXPIRY (R61): an entry lives 300 s. -/
def execNeighbourEntryExpiry (lport ip : Nat) (s : State) : Host.Outcome State Fault Refusal :=
  .next (s.modPort lport (fun p => { p with
    neighbours := p.neighbours.filter (fun n => !(n.addr == ip && decide (n.since + 300 ≤ s.deviceSeconds))) }))

/-- ICMP_ECHO_RECEIVE (R62): answered up to 100 times per second per logical port. -/
def execIcmpEchoReceive (lport : Nat) (src : Source4) (data : Bytes) (s : State) : Host.Outcome State Fault Refusal :=
  let own := if src.v6 then s.own6 lport src.dstIp else s.own4 lport src.dstIp
  if s.ipRuns lport ∧ own then
    let s1 := s.modPort lport (fun p => p.atSecond s.second)
    if (s1.port lport).echoes < 100 then
      let s2 := (s1.modPort lport (fun p => { p with echoes := p.echoes + 1 })).portCnt lport 14 1
      -- echo reply: type 0, or 129 in ICMPv6, with the request's identifier, sequence and data
      let f : TxFrame := { bytes := [if src.v6 then 129 else 0, 0, 0, 0] ++ data, dst := src }
      .next (s2.sendAllowed lport (s.udpFrameLen lport src data.length) f)
    else .next (s1.portCnt lport 15 1)
  else .next s

end Sys2Proof.Machine
end

