-- ==== Sys2Proof/Machine/Srp.lean ====
section
/-! DEFINITION. The Skaez Request Protocol (chapter 03): datagrams, channels, the receive checks, placement of records,
and NACKs. -/

namespace Sys2Proof.Machine

/-! ### Channels (R75, R81) -/

def State.chan (s : State) (c : Nat) : Channel := tabGet {} s.srp.channels c
def State.putChan (s : State) (c : Nat) (x : Channel) : State :=
  { s with srp := { s.srp with channels := tabPut {} s.srp.channels c x } }
def State.modChan (s : State) (c : Nat) (f : Channel → Channel) : State := s.putChan c (f (s.chan c))

def State.srpCnt (s : State) (k n : Nat) : State :=
  { s with srp := { s.srp with counters := bump s.srp.counters k n } }
def State.srpEvent (s : State) (b : Nat) : State :=
  { s with srp := { s.srp with events := s.srp.events ||| BitVec.ofNat 4 (2 ^ b) } }

/-- The SRP engine of a channel on a physical port (R55). -/
def srpEngine (phys c : Nat) : Nat := if phys = 2 then 4 else 2 * phys + c % 2

/-- The channel identifier as the header carries it; on a member channel of which the device is the client, the server's. -/
def chanId (c : Nat) (x : Channel) : Nat :=
  match x.peerId with
  | some i => i
  | none => x.gen * 2 ^ 15 + c

/-- A channel returns to FREE: its keys are cleared, and the generation that its next use takes is one more (R17, R75);
its streams are freed (R319). Event 0xC7 where it was OPEN or CLOSING. -/
def State.freeChan (s : State) (c : Nat) : State :=
  let x := s.chan c
  let s0 := { s with bulk := { s.bulk with streams := s.bulk.streams.filter (fun p => decide (p.2.channel ≠ c)) } }
  let s1 := s0.putChan c { gen := (x.gen + 1) % 2 ^ 17 }
  if x.state = .open ∨ x.state = .closing then
    s1.raise evChannelClosed (srcSrp (srpEngine x.phys c)) x.tenant (items [(4, chanId c x), (2, x.tenant), (1, x.cause)])
  else s1

/-- A channel begins CLOSING (R81). Causes: 1 CLOSE, 2 CHANNEL_EXPIRED, 3 idle, 4 own sequence at 2^48. -/
def State.beginClosing (s : State) (c cause : Nat) : State :=
  let x := s.chan c
  if x.state = .open then s.putChan c { x with state := .closing, cause := cause } else s

/-! ### Datagrams the device sends (R66, R67, R82) -/

/-- The 32-byte header of Table 3.2 with zero record fields. -/
def srpHeader (type : Nat) (close : Bool) (count tenant chan : Nat) (seq : Nat) (rest : Bytes) : Bytes :=
  beBytes 1 (0x20 + type) ++ beBytes 1 (bit close * 128) ++ beBytes 2 (count * 1024 + tenant) ++ beBytes 4 chan ++
    beBytes 8 seq ++ padTo 16 rest

/-- A discarded datagram of a port without link (R82). -/
def State.dropReply (s : State) (lport tenant : Nat) : State :=
  (s.portCnt lport 18 1).raise evReplyDropped (srcPort lport) tenant (items [(1, lport), (2, tenant)])

/-- A datagram the device sends on a channel, under its traffic key, with its next sequence number; at 2^48 the channel
begins CLOSING. `allowed` marks a datagram that draws on the status allowance. -/
def State.sendOn (s : State) (c lport : Nat) (dst : Source4) (type : Nat) (close : Bool) (count : Nat) (rest pt : Bytes)
    (slots : List Nat) (allowed : Bool) : State :=
  let x := s.chan c
  let seq := x.txSeq + 1
  let h := srpHeader type close count x.tenant (chanId c x) seq rest
  let (ct, tag) := gcmSeal (x.d2c.take 32) (slice x.d2c 32 4 ++ beBytes 8 seq) h pt
  let s1 := s.modChan c (fun x => { x with txSeq := seq })
  let s2 := if seq + 1 = 2 ^ 48 then s1.beginClosing c 4 else s1
  let f : TxFrame := { bytes := h ++ ct ++ tag, dst := dst, slots := slots }
  if ¬ (s.port lport).link then s2.dropReply lport x.tenant
  else if allowed then s2.sendAllowed lport (s.udpFrameLen lport dst f.bytes.length) f
  else s2.transmit lport f

/-- The final REP of a CLOSING channel with no reply owed or waiting: COUNT 0, CLOSE, to the last accepted datagram's
addresses; the channel then becomes FREE. -/
def State.closeFinal (s : State) (c : Nat) : State :=
  let x := s.chan c
  let busy := s.sq.slots.any (fun p => p.2.live && p.2.chan == c && p.2.chanGen == x.gen && !p.2.mailbox)
  if x.state = .closing ∧ ¬ busy then
    ((s.sendOn c x.lport x.src 2 true 0 [] [] [] false).srpCnt 13 1).freeChan c
  else s

/-- A NACK (R84): it draws on the status allowance. -/
def State.nack (s : State) (c lport : Nat) (dst : Source4) (reqSeq reason : Nat) : State :=
  let s1 := (s.srpCnt 8 1).pmcSrp (srpEngine (s.chan c).phys c) 0x13 1
  (s1.sendOn c lport dst 8 false 0 [] (beBytes 8 reqSeq ++ beBytes 2 reason ++ zeros 6) [] true).closeFinal c

/-- A NACK under the device handshake key, with the nonce of R79, for a PENDING channel. -/
def State.nackHs (s : State) (c lport : Nat) (dst : Source4) (reqSeq reason : Nat) : State :=
  let x := s.chan c
  let h := srpHeader 8 false 0 x.tenant (chanId c x) 1 []
  let (ct, tag) := gcmSeal x.hsD (zeros 11 ++ [1]) h (beBytes 8 reqSeq ++ beBytes 2 reason ++ zeros 6)
  let f : TxFrame := { bytes := h ++ ct ++ tag, dst := dst }
  let s1 := (s.srpCnt 8 1).pmcSrp (srpEngine x.phys c) 0x13 1
  if ¬ (s.port lport).link then s1.dropReply lport x.tenant
  else s1.sendAllowed lport (s.udpFrameLen lport dst f.bytes.length) f

/-! ### Records (R68, Tables 3.2 and 3.4) -/

/-- A request record. -/
structure Rec where
  queue : Nat
  cls : Nat
  func : Nat
  orderKey : Nat
  patience : Nat
  len : Nat
  aux : Nat
  payload : Bytes

/-- A record header at the start of `h`, and the payload. -/
def recOf (h payload : Bytes) : Rec :=
  { queue := fld h 0 2 / 16, cls := fld h 0 2 / 2 % 8, func := fld h 2 2, orderKey := fld h 4 4, patience := fld h 8 1,
    len := fld h 10 2, aux := fld h 12 4, payload := payload }

/-- `n` bytes rounded up to a multiple of 8. -/
def pad8 (n : Nat) : Nat := ceilDiv n 8 * 8

/-- The payload of the record with header `h`, then `n` more records. The plaintext must be used up exactly. -/
def parseRecs (h : Bytes) : Nat → Bytes → Option (List Rec)
  | 0, p =>
    let len := fld h 10 2
    if p.length = pad8 len then some [recOf h (p.take len)] else none
  | n + 1, p =>
    let len := fld h 10 2
    if p.length < pad8 len + 16 then none
    else
      match parseRecs (slice p (pad8 len) 16) n (p.drop (pad8 len + 16)) with
      | none => none
      | some t => some (recOf h (p.take len) :: t)

/-- The records of a datagram with header `h` and plaintext `p`. -/
def records (count : Nat) (h p : Bytes) : Option (List Rec) :=
  match count with
  | 0 => if p = [] then some [] else none
  | n + 1 => parseRecs (h.drop 16) n p

/-! ### Placement (R71 to R74, R129, R130) -/

/-- The status with which a record is refused at placement, if any: the first that applies in the order of Table 3.6
(log entry 15). `type` is the datagram type. -/
def State.recordStatus (s : State) (x : Channel) (type : Nat) (r : Rec) : Option Nat :=
  let q := s.queue r.queue
  let named := s.named x r.func
  let owned := (if x.tenant = 0 then decide (q.owner = 0) else decide (q.owner = x.tenant)) && r.queue != 1
  let mgmtQueue := decide (type ≠ 6 ∨ r.queue < 8)
  match named with
  | .unknown => some stFunctionUnknown
  | _ =>
    if ¬ (owned ∧ mgmtQueue) then some stQueueNotOwned
    else if ¬ s.queueEnabled r.queue ∧ s.dev.state = .service then some stQueueDisabled
    else
      match named with
      | .unknown => some stFunctionUnknown
      | .notPermitted => some stFunctionNotPermitted
      | .fn _ lo hi =>
        if r.len < lo ∨ hi < r.len ∨ (type ≠ 7 ∧ 8192 < r.len) ∨ (type = 7 ∧ 8960 < r.len) then some stLengthInvalid
        else
          let bulk := decide (0x0800 ≤ r.func ∧ r.func ≤ 0x08FF)
          if (type = 1 ∧ bulk) ∨ (type = 7 ∧ ¬ bulk) ∨ (type ≠ 6 ∧ isMgmt r.func) ∨ (type = 6 ∧ ¬ isMgmt r.func) then
            some stTypeFunctionMismatch
          else none

/-- The cost record of a function that a record may name. -/
def Named.cost : Named → Cost
  | .fn c _ _ => c
  | _ => {}

/-- Request-memory cells of a record (R129). -/
def State.cellsFor (s : State) (x : Channel) (type : Nat) (r : Rec) : Nat :=
  let pay := ceilDiv r.len 256
  match s.recordStatus x type r with
  | some _ => pay
  | none => pay + ceilDiv (s.named x r.func).cost.lmax 256 + (if isGraph r.func then 1 else 0)

/-- The records that can be given a descriptor and cells, in record order (R130). -/
def State.placeable (s : State) (x : Channel) (type : Nat) : List Rec → Nat → Nat → Nat
  | [], _, _ => 0
  | r :: t, slots, cells =>
    let c := cells + s.cellsFor x type r
    let im := tabGet ({} : TenantImage) s.image.tenants x.tenant
    if s.tenantSlots x.tenant + slots + 1 ≤ im.slotQuota ∧ s.tenantCells x.tenant + c ≤ im.cellQuota ∧
        s.slotsUsed + slots + 1 ≤ 65536 ∧ s.cellsUsed + c ≤ 196608
    then 1 + s.placeable x type t (slots + 1) c else 0

/-- Where a record came from. -/
structure Origin where
  chan : Nat
  lport : Nat
  src : Source4
  seq : Nat
  noGather : Bool

/-- Place request slot contents: the lowest free slot, a fresh placement number (R72). -/
def State.placeSlot (s : State) (x : Slot) : Nat × State :=
  let k := s.freeSlot
  let s1 := { s with sq := { s.sq with placed := s.sq.placed + 1 } }
  let y := { x with state := .queued, req := s.sq.placed + 1, arrival := s.folio.now }
  let pred := match s1.predecessor y with
    | some (_, p) => decide (p.commit = none)
    | none => false
  let fl : BitVec 32 := flagBit flagOperands ||| (if pred then 0 else flagBit flagPred)
  let s2 := s1.putSlot k { y with nodes := [(0, { flags := fl })] }
  let low := fun (s : State) => { s with sq := { s.sq with events := s.sq.events |||
    (if s.slotsFree < 1024 then 1 else 0) ||| (if s.cellsFree < 1024 then 2 else 0) } }
  (k, low s2)

/-- Place one record (R73): refused records wait to be answered at the tick that ends their arrival folio. -/
def State.placeRecord (s : State) (o : Origin) (type : Nat) (i : Nat) (r : Rec) : State :=
  let c := s.chan o.chan
  let st := s.recordStatus c type r
  let q := s.queue r.queue
  let x : Slot :=
    { queue := r.queue, cls := r.cls, func := r.func, tenant := c.tenant, orderKey := r.orderKey,
      patience := min r.patience q.ceiling, chan := o.chan, chanGen := c.gen, lport := o.lport, src := o.src,
      reqSeq := o.seq, reqIndex := i, noGather := o.noGather, aux := r.aux, bulk := decide (type = 7),
      payload := r.payload, cells := s.cellsFor c type r, refused := st,
      cost := if st.isSome then {} else (s.named c r.func).cost }
  let s1 := if st.isSome then s.srpCnt 15 1 else s
  (s1.placeSlot x).2

/-- Place every record at one instant, in record order (R72). -/
def State.placeAll (s : State) (o : Origin) (type : Nat) : Nat → List Rec → State
  | _, [] => s
  | i, r :: t => (s.placeRecord o type i r).placeAll o type (i + 1) t

/-! ### The receive checks (R70, R71) -/

/-- The replay window accepts sequence `q`, and the window after it (R71). -/
def Channel.window (x : Channel) (q : Nat) : Option Channel :=
  if q = 0 then none
  else if x.rxHigh < q then
    let moved := if q - x.rxHigh < 1024 then x.rxBits <<< (q - x.rxHigh) else 0
    some { x with rxHigh := q, rxBits := moved ||| 1 }
  else if x.rxHigh - q ≤ 1023 ∧ ¬ x.rxBits.getLsbD (x.rxHigh - q) then
    some { x with rxBits := x.rxBits ||| (1 <<< (x.rxHigh - q)) }
  else none

/-- The tenant's VLAN binding holds for a datagram on a service port (R59). -/
def State.vlanBound (s : State) (t lport : Nat) (vlan : Option Nat) : Bool :=
  match (tabGet ({} : TenantImage) s.image.tenants t).vlan with
  | none => true
  | some v => decide (16 ≤ lport) || vlan == some v

/-- A tag failure, and event 0xC9 above 1,024 in one second (R90). -/
def State.tagFailure (s : State) (lport : Nat) : State :=
  let s1 := (s.srpCnt 5 1).modPort lport (fun p => let p := p.atSecond s.second; { p with tagFails := p.tagFails + 1 })
  let p := s1.port lport
  if 1024 < p.tagFails ∧ ¬ p.tagRaised then
    ((s1.modPort lport (fun p => { p with tagRaised := true })).srpEvent 0).raise evTagFailRate (srcPort lport) 0
      (items [(1, lport), (4, p.tagFails)])
  else s1

/-- A replay refusal, and event 0xCA above 1,024 in one second (R90). -/
def State.replayRefusal (s : State) (lport : Nat) : State :=
  let s1 := (s.srpCnt 6 1).modPort lport (fun p => let p := p.atSecond s.second; { p with replays := p.replays + 1 })
  let p := s1.port lport
  if 1024 < p.replays ∧ ¬ p.replayRaised then
    ((s1.modPort lport (fun p => { p with replayRaised := true })).srpEvent 1).raise evReplayRate (srcPort lport) 0
      (items [(1, lport), (4, p.replays)])
  else s1

/-- The datagram at the head of a port's ingress buffer. -/
def State.head (s : State) (lport : Nat) : Option Dgram := (s.port lport).ingress.head?

def State.popIngress (s : State) (lport : Nat) : State := s.modPort lport (fun p => { p with ingress := p.ingress.drop 1 })

/-- TYPE of a datagram, 0 where it is too short. -/
def dgramType (b : Bytes) : Nat := if b.length < 32 then 0 else fld b 0 1 % 16

/-- The device's own channel that a REP's header names, on the port it came to. -/
def State.ownChannel (s : State) (lport id : Nat) : Option (Nat × Channel) :=
  s.srp.channels.find? (fun p => p.2.member.isSome && p.2.peerId == some id && p.2.phys == physOf lport)

/-- A datagram that a device which is itself a client receives (R439): HS2 for a handshake of its own, REP on a channel of
its own. -/
def State.ownDgram (s : State) (lport : Nat) (b : Bytes) : Bool :=
  match dgramType b with
  | 2 => (s.ownChannel lport (fld b 4 4)).isSome
  | 4 => decide (fld b 8 8 < 16) && (s.chan (32768 + fld b 8 8 % 16)).member.isSome
  | _ => false

/-- The first checks of R70: length, version, a type that a client sends (or what the device itself is owed as a client). -/
def State.headerDrop (s : State) (lport : Nat) (b : Bytes) : Option State :=
  if b.length < 32 then some (s.srpCnt 7 1)
  else if fld b 0 1 / 16 ≠ 2 ∨ (dgramType b ∉ [1, 3, 5, 6, 7] ∧ ¬ s.ownDgram lport b) then some (s.srpCnt 2 1)
  else none

/-- Count a dropped datagram in the engine's performance counters. -/
def State.dropped (s : State) (lport c : Nat) : State := s.pmcSrp (srpEngine (physOf lport) c) 0x12 1

/-- The channel checks of R70 for a datagram `b` of a client, up to the channel's state, port and VLAN. -/
def State.channelDrop (s : State) (d : Dgram) (want : ChanState) : Option State :=
  let b := d.bytes
  let c := fld b 4 4 % 2 ^ 15
  let x := s.chan c
  if x.state = .free ∨ x.gen ≠ fld b 4 4 / 2 ^ 15 ∨ x.state ≠ want then some ((s.srpCnt 3 1).dropped d.lport c)
  else if physOf d.lport ≠ x.phys ∨ ¬ s.vlanBound x.tenant d.lport d.src.vlan then
    some ((s.srpCnt 4 1).dropped d.lport c)
  else none

/-- Open a datagram's payload under a key with its salt (R67). -/
def openDgram (keySalt b : Bytes) : Option Bytes :=
  let body := b.drop 32
  let n := body.length - 16
  gcmOpen (keySalt.take 32) (slice keySalt 32 4 ++ slice b 8 8) (b.take 32) (body.take n) (body.drop n)

/-- After the tag and the window: the checks of R70 that answer with a NACK, then placement (R71), and CLOSE (R81). -/
def acceptDgram (s : State) (d : Dgram) (c : Nat) (pt : Bytes) : State :=
  let b := d.bytes
  let x := s.chan c
  let type := dgramType b
  let seq := fld b 8 8
  let count := fld b 2 2 / 1024
  let close := (fld b 1 1).testBit 7
  let refuse := fun (s : State) (reason : Nat) => s.nack c d.lport d.src seq reason
  if fld b 2 2 % 1024 ≠ x.tenant then
    (refuse s 3).raise evTenantMismatch (srcSrp (srpEngine x.phys c)) x.tenant (items [(4, chanId c x), (2, fld b 2 2 % 1024)])
  else if (type = 6 ∧ x.tenant ≠ 0) ∨ (type = 7 ∧ count ≠ 1) ∨ (type ≠ 7 ∧ (32 < count ∨ (count = 0 ∧ ¬ close))) then
    refuse s 4
  else if 2 ^ 48 ≤ seq then ((refuse s 5).beginClosing c 2).closeFinal c
  else
    match records count b pt with
    | none => refuse s 2
    | some rs =>
      let im := tabGet ({} : TenantImage) s.image.tenants x.tenant
      if s.placeable x type rs 0 0 < rs.length then
        let need := (rs.map (s.cellsFor x type)).sum
        let quota := decide (im.slotQuota < s.tenantSlots x.tenant + rs.length ∨ im.cellQuota < s.tenantCells x.tenant + need)
        let s1 := if quota then
            { s with sq := { s.sq with events := s.sq.events ||| 4, counters := bump s.sq.counters 7 1 } } else s
        ((refuse s1 1).srpEvent 2).raise evSlotsExhausted (srcSrp (srpEngine x.phys c)) x.tenant
          (items [(4, chanId c x), (1, count)])
      else
        let o : Origin := { chan := c, lport := d.lport, src := d.src, seq := seq, noGather := (fld b 1 1).testBit 6 }
        let s1 := (((s.placeAll o type 0 rs).srpCnt 0 1).srpCnt 1 rs.length).modChan c
          (fun x => { x with idle := 0, src := d.src, lport := d.lport })
        let s2 := ((s1.pmcSrp (srpEngine x.phys c) 0x10 1).pmcSrp (srpEngine x.phys c) 0x11 rs.length).pmcMovers
          (0x10 + srpEngine x.phys c) rs.length
        if close then (s2.beginClosing c 1).closeFinal c else s2

/-- The ingress mover of a datagram's engine takes no record while it is withdrawn: its partner serves both engines, and
SRP4's has none, so its datagrams are dropped (R473). -/
def State.moverServes (s : State) (first lport : Nat) : Bool :=
  if physOf lport = 2 then s.unitOk (first + 4)
  else s.unitOk (first + 2 * physOf lport) || s.unitOk (first + 2 * physOf lport + 1)

/-- Requests are taken in the device's state from this tenant's channels on this port (R21). -/
def State.acceptsFrom (s : State) (tenant lport : Nat) : Bool :=
  match s.dev.state with
  | .service => true
  | .standby => decide (tenant = 0)
  | .recovery => decide (tenant = 0 ∧ lport = 16)
  | _ => false

/-- The datagram at the head of a port's ingress buffer fails the first checks of R70. -/
def dropHeader (s : State) (lport : Nat) (b : Bytes) : State :=
  match (s.popIngress lport).headerDrop lport b with
  | some s1 => s1.dropped lport 0
  | none => s

/-- A REQ, MGMT or BULK datagram at the head of a port's ingress buffer. -/
def clientDgram (s : State) (lport type : Nat) : State :=
  match s.head lport with
  | none => s
  | some d =>
    if (s.headerDrop lport d.bytes).isSome then dropHeader s lport d.bytes
    else if dgramType d.bytes ≠ type then s
    else
      let s := s.popIngress lport
      let c := fld d.bytes 4 4 % 2 ^ 15
      if ¬ s.moverServes (srcIngress 0) lport ∨ ¬ s.acceptsFrom (s.chan c).tenant lport then s.dropped lport c
      else
        match s.channelDrop d .open with
        | some s1 => s1
        | none =>
          if d.bytes.length < 48 then (s.srpCnt 7 1).dropped lport c
          else
            match openDgram (s.chan c).c2d d.bytes with
            | none => (s.tagFailure lport).dropped lport c
            | some pt =>
              match (s.chan c).window (fld d.bytes 8 8) with
              | none => (s.replayRefusal lport).dropped lport c
              | some x => acceptDgram (s.putChan c x) d c pt

/-- REQ_DATAGRAM_RECEIVE (R70). -/
def execReqDatagramReceive (lport : Nat) (s : State) : Host.Outcome State Fault Refusal := .next (clientDgram s lport 1)
/-- MGMT_DATAGRAM_RECEIVE (R70, R85). -/
def execMgmtDatagramReceive (lport : Nat) (s : State) : Host.Outcome State Fault Refusal := .next (clientDgram s lport 6)
/-- BULK_DATAGRAM_RECEIVE (R70). -/
def execBulkDatagramReceive (lport : Nat) (s : State) : Host.Outcome State Fault Refusal := .next (clientDgram s lport 7)

/-! ### Handshakes (R76, R77) -/

/-- Channels of a tenant that are not FREE, and PENDING channels. -/
def State.tenantChannels (s : State) (t : Nat) : Nat :=
  (s.srp.channels.filter (fun p => decide (p.2.state ≠ .free ∧ p.2.tenant = t))).length
def State.pendingChannels (s : State) : Nat := (s.srp.channels.filter (fun p => decide (p.2.state = .pending))).length

/-- The lowest FREE channel index (log entry 12). -/
def firstFreeChan : List (Nat × Channel) → Nat → Nat
  | [], k => k
  | (j, x) :: t, k => if j = k ∧ x.state ≠ .free then firstFreeChan t (k + 1) else if j < k then firstFreeChan t k else k

/-- Handshakes this tenant has begun in this device second. -/
def State.hsBegun (s : State) (t : Nat) : Nat := if s.srp.hsSecond = s.second then tabGet 0 s.srp.hsCount t else 0

/-- The channel state accepts a handshake of tenant `t` on a port (R21, R65, R76, R423); none during a drain (R425). -/
def State.acceptsHs (s : State) (t lport : Nat) : Bool :=
  (decide (lport ≠ 16) || decide (t = 0)) && s.acceptsFrom t lport && s.boot.drain.isNone &&
    (decide (s.dev.state ≠ .recovery) || (s.ks.root != 0 && (s.rng.state == .ready || s.rng.state == .degraded)))

/-- The cost record of a handshake function: the library's, or what CC0 needs where it serves the task itself. -/
def State.hsCost (s : State) (func : Nat) : Cost :=
  match s.cores.library.find 0 func with
  | some r => r.cost
  | none => { lmax := if func = 0xC0 then 4688 else 16, span := 1 }

/-- A handshake task on Q1, of the device domain, in its function's minimum class with Q1's patience ceiling (R77), with
`payload`, of which `len` bytes came in the datagram's payload. -/
def State.placeHs (s : State) (c lport : Nat) (src : Source4) (func seq len : Nat) (payload : Bytes) : State :=
  let cost := s.hsCost func
  let x : Slot :=
    { queue := 1, cls := minClass cost.span, func := func, tenant := 0, patience := (s.queue 1).ceiling, chan := c,
      chanGen := (s.chan c).gen, lport := lport, src := src, reqSeq := seq, payload := payload,
      cells := ceilDiv len 256 + ceilDiv cost.lmax 256, cost := cost }
  (s.placeSlot x).2

/-- HS1_RECEIVE (R76, R77): dropped, or a PENDING channel and a task of HS_RESPOND. -/
def execHs1Receive (lport : Nat) (s : State) : Host.Outcome State Fault Refusal :=
  match s.head lport with
  | none => .next s
  | some d =>
    if (s.headerDrop lport d.bytes).isSome then .next (dropHeader s lport d.bytes)
    else if dgramType d.bytes ≠ 3 then .next s
    else
      let s := (s.popIngress lport).srpCnt 9 1
      let b := d.bytes
      let t := fld b 2 2 % 1024
      let idx := fld b (32 + 129) 1
      let alg := fld b (32 + 130) 1
      let key := s.clientKey t (idx % 64)
      let im := tabGet ({} : TenantImage) s.image.tenants t
      let quota := if s.dev.state = .recovery then 4096 else im.channelQuota
      let c := firstFreeChan s.srp.channels 0
      let full := decide (4096 ≤ s.pendingChannels)
      let cost := s.hsCost 0xC0
      if b.length ≠ 32 + 1316 ∨ 512 < t ∨ 63 < idx ∨ quota ≤ s.tenantChannels t ∨ full ∨ im.hsRate ≤ s.hsBegun t ∨
          key.alg = 0 ∨ key.alg ≠ alg ∨ ¬ s.acceptsHs t lport ∨ 32768 ≤ c ∨ 65536 ≤ s.freeSlot ∨
          196608 < s.cellsUsed + ceilDiv b.length 256 + ceilDiv cost.lmax 256 then
        .next ((if full then s.srpEvent 3 else s).srpCnt 10 1)
      else
        let n := s.hsBegun t + 1
        let counts := if s.srp.hsSecond = s.second then s.srp.hsCount else []
        let s1 := { s with srp := { s.srp with hsSecond := s.second, hsCount := tabPut 0 counts t n } }
        let x : Channel := { state := .pending, gen := (s.chan c).gen, phys := physOf lport, authAlg := alg, tenant := t,
                             clientKey := idx, src := d.src, lport := lport, hs1 := b, admitted := some s.folio.now }
        .next ((s1.putChan c x).placeHs c lport d.src 0xC0 (fld b 8 8) 1316 b)

/-- An HS3 is accepted: the ready REP or the NACK of R79 goes to its source (R81), and the channel's idle time starts anew. -/
def State.acceptHs3 (s : State) (lport c : Nat) (src : Source4) : State :=
  ((s.srpCnt 0 1).pmcSrp (srpEngine (s.chan c).phys c) 0x10 1).modChan c (fun x => { x with idle := 0, src := src, lport := lport })

/-- HS3_RECEIVE (R70): the receive checks for a PENDING channel, the tag under the client handshake key, and a task of
HS_FINISH with the client signature as its payload. A refusal is a NACK under the device handshake key (Table 3.3). Dropped: an
HS3 on a channel whose HS_FINISH already waits or runs, or for which there is no request slot (log entry 35). -/
def execHs3Receive (lport : Nat) (s : State) : Host.Outcome State Fault Refusal :=
  match s.head lport with
  | none => .next s
  | some d =>
    if (s.headerDrop lport d.bytes).isSome then .next (dropHeader s lport d.bytes)
    else if dgramType d.bytes ≠ 5 then .next s
    else
      let s := s.popIngress lport
      let c := fld d.bytes 4 4 % 2 ^ 15
      match s.channelDrop d .pending with
      | some s1 => .next s1
      | none =>
        let x := s.chan c
        let body := d.bytes.drop 32
        let n := body.length - 16
        let seq := fld d.bytes 8 8
        if d.bytes.length < 48 then .next ((s.srpCnt 7 1).dropped lport c)
        else
          match if x.hsC = [] then none else gcmOpen x.hsC (zeros 12) (d.bytes.take 32) (body.take n) (body.drop n) with
          | none => .next ((s.tagFailure lport).dropped lport c)
          | some sig =>
            if fld d.bytes 2 2 % 1024 ≠ x.tenant then
              .next ((s.nackHs c lport d.src seq 3).raise evTenantMismatch (srcSrp (srpEngine x.phys c)) x.tenant
                (items [(4, chanId c x), (2, fld d.bytes 2 2 % 1024)]))
            else if fld d.bytes 2 2 / 1024 ≠ 0 then .next (s.nackHs c lport d.src seq 4)
            else if 2 ^ 48 ≤ seq then .next ((s.nackHs c lport d.src seq 5).freeChan c)
            else if s.sq.slots.any (fun p => p.2.live && p.2.func == 0xC1 && p.2.chan == c && p.2.chanGen == x.gen) ∨
                65536 ≤ s.freeSlot ∨ 196608 < s.cellsUsed + ceilDiv body.length 256 + ceilDiv (s.hsCost 0xC1).lmax 256 then .next (s.dropped lport c)
            else
              .next ((s.acceptHs3 lport c d.src).placeHs c lport d.src 0xC1 seq body.length (d.bytes.take 32 ++ sig ++ body))

/-- HANDSHAKE_TIMEOUT (R77): a channel still PENDING when the timeout, counted from the admission of its HS1 (from its arrival
where its task was never admitted), has ended returns to FREE, and event 0xC8 is raised (R90). -/
def execHandshakeTimeout (chan : Nat) (s : State) : Host.Outcome State Fault Refusal :=
  let x := s.chan chan
  match x.state, x.admitted with
  | .pending, some a =>
    if s.srp.hsMs * 1000 ≤ folioDiff s.folio.now a * s.folio.periodUs then
      .next ((s.freeChan chan).srpCnt 12 1 |>.raise evHandshakeFailed (srcSrp (srpEngine x.phys chan)) x.tenant
        (items [(4, chanId chan x), (2, x.tenant)]))
    else .next s
  | _, _ => .next s

/-! ### Closing (R81) -/

/-- CHANNEL_IDLE_TIMEOUT (R81). -/
def execChannelIdleTimeout (chan : Nat) (s : State) : Host.Outcome State Fault Refusal :=
  let x := s.chan chan
  if x.state = .open ∧ s.srp.idleS ≠ 0 ∧ s.srp.idleS * 1000000 ≤ x.idle * s.folio.periodUs then
    .next ((s.beginClosing chan 3).closeFinal chan)
  else .next s

end Sys2Proof.Machine
end

