-- ==== Sys2Proof/Machine/Egress.lean ====
section
/-! DEFINITION. The egress movers (chapter 03): reply records gathered into REPs, stream replies, and the return of
slots when a frame has left. -/

namespace Sys2Proof.Machine

/-- The stamp of a commit point: folio number and commit index (R35). -/
def stampOf (c : Nat × Nat) : Nat := c.1 * 65536 + c.2

/-- A reply record: Table 3.5, and its result padded to a multiple of 8 bytes (R69). -/
def replyRecord (x : Slot) : Bytes :=
  let c := x.commit.getD (0, 0)
  beBytes 8 x.reqSeq ++ beBytes 1 x.reqIndex ++ [0] ++ beBytes 2 x.status ++ beBytes 2 x.result.length ++ zeros 2 ++
    beBytes 8 (stampOf c) ++ padTo (pad8 x.result.length) x.result

/-! ### Streams (R314, R322) -/

def State.stream (s : State) (c : Nat) : Stream := tabGet {} s.bulk.streams c

/-- The context of a stream by its name (R314). -/
def State.streamNamed (s : State) (x : Slot) : Option Nat :=
  (s.bulk.streams.find? (fun p => decide (p.2.state ≠ .free ∧ p.2.channel = x.chan ∧ p.2.queue = x.queue ∧
    p.2.handle = x.orderKey))).map (·.1)

/-- AUX of a stream reply (R322). -/
def State.replyAux (s : State) (x : Slot) : Nat :=
  if x.status = stSegmentOrder then ((s.streamNamed x).map (fun c => (s.stream c).next)).getD x.aux
  else if x.func = 0x0801 ∨ x.func = 0x0804 then 0 else x.aux

/-! ### Reply frames -/

/-- A handshake task: its reply is a datagram of its own (R77). A record that names its function is refused (Table 3.6). -/
def Slot.handshake (x : Slot) : Bool := (x.func == 0xC0 || x.func == 0xC1) && x.refused.isNone

/-- A committed reply that waits for the egress mover: not held for the journal, not in a frame (R83). -/
def Slot.waiting (x : Slot) : Bool :=
  decide (x.state = .sending) && x.commit.isSome && !x.formed && !x.journalHeld && !x.mailbox && !x.handshake

/-- The replies of a channel that wait for release, in stamp order (R83). Stamps compare from the present folio back. -/
def State.waitingReplies (s : State) (c : Nat) : List (Nat × Slot) :=
  sortBy (fun p => let m := p.2.commit.getD (0, 0); (2 ^ 48 - 1 - folioDiff s.folio.now m.1) * 65536 + m.2)
    (s.sq.slots.filter (fun p => p.2.waiting && p.2.chan == c && p.2.chanGen == (s.chan c).gen))

/-- Records after the first that join its REP: the same logical port and addresses, gathering allowed on both, within 32
records and one frame. -/
def gather (s : State) (first : Slot) : List (Nat × Slot) → Nat → Nat → List (Nat × Slot)
  | [], _, _ => []
  | p :: t, n, bytes =>
    let b := bytes + (replyRecord p.2).length
    if n < 32 ∧ p.2.lport = first.lport ∧ p.2.src = first.src ∧ ¬ p.2.noGather ∧
        s.udpFrameLen first.lport first.src (48 + b) ≤ 9216 then p :: gather s first t (n + 1) b
    else []

/-- The egress mover of a channel's engine, or its partner, serves (R473). -/
def State.egressServes (s : State) (lport : Nat) : Bool := s.moverServes (srcEgress 0) lport

/-- Form the next frame of a channel's waiting replies. -/
def formRep (s : State) (c : Nat) : State :=
  match s.waitingReplies c with
  | [] => s
  | (k, x) :: rest =>
    if ¬ s.egressServes x.lport then s
    else
      let mark := fun (s : State) (ks : List Nat) => ks.foldl (fun s k => s.modSlot k (fun x => { x with formed := true })) s
      let discard := fun (s : State) => (s.dropReply x.lport x.tenant).putSlot k {}
      if ¬ (s.port x.lport).link then (discard s).closeFinal c
      else if x.bulk then
        let rest0 := beBytes 2 (x.queue * 16 + x.cls * 2) ++ beBytes 2 x.func ++ beBytes 4 x.orderKey ++ zeros 4 ++
          beBytes 4 (s.replyAux x)
        ((mark s [k]).sendOn c x.lport x.src 7 false 1 rest0 (replyRecord x) [k] false).srpCnt 14 1
      else
        let more := if x.noGather then [] else gather s x rest 1 (replyRecord x).length
        let recs := (k, x) :: more
        let pt := recs.flatMap (fun p => replyRecord p.2)
        let ks := recs.map (·.1)
        ((((mark s ks).sendOn c x.lport x.src 2 false recs.length [] pt ks false).srpCnt 13 1).srpCnt 14 recs.length
          |>.pmcSrp (srpEngine (s.chan c).phys c) 0x14 1).pmcMovers (0x15 + srpEngine (s.chan c).phys c) recs.length

/-- REP_FORM (R83). -/
def execRepForm (chan : Nat) (s : State) : Host.Outcome State Fault Refusal := .next (formRep s chan)

/-- A slot returns to FREE (R132). -/
def State.freeSlotAt (s : State) (k : Nat) : State := (s.putSlot k {}).dropDelay k none |>.dropReady k

/-- REPLY_FRAME_LEFT (R132): the frame at the head of a port's transmitter has left; its slots return to FREE, and a
CLOSING channel without further replies sends its final REP (R81). Nothing but MKA leaves a MACsec port without a
transmit SA (R58), and nothing at all while the egress release is dropped (R399). -/
def execReplyFrameLeft (lport : Nat) (s : State) : Host.Outcome State Fault Refusal :=
  let p := s.port lport
  match p.tx with
  | [] => .next s
  | f :: rest =>
    if ¬ (p.link ∧ s.tmp.egress ∧ (¬ p.cfg.macsec ∨ p.txSa.isSome)) then .next s
    else
      let n := s.udpFrameLen lport f.dst f.bytes.length
      let s1 := s.modPort lport (fun p =>
        { p with tx := rest, txSa := p.txSa.map (fun a => { a with nextPn := a.nextPn + 1 }) })
      let s2 := ((s1.portCnt lport 2 1).portCnt lport 3 n |>.pmcPort lport 0x11 1).pmcPort lport 0x13 (n / 64)
      let chans := (f.slots.map (fun k => (s.slot k).chan)).eraseDups
      let s3 := f.slots.foldl (fun s k => s.freeSlotAt k) s2
      .next (chans.foldl (fun s c => s.closeFinal c) s3)

end Sys2Proof.Machine
end

