-- ==== Sys2Proof/Machine/KeyBlock.lean ====
section
/-! DEFINITION. Key blocks (ANSI X9.143 versions B and D, ISO 20038; log entry 18, PRESUMED): headers, wrapping and
unwrapping, the attributes they carry, and key check values. -/

namespace Sys2Proof.Machine

/-! ### Hexadecimal text -/

def hexDigit (n : Nat) : Byte := BitVec.ofNat 8 (if n < 10 then 0x30 + n else 0x37 + n)

/-- Bytes as upper-case hexadecimal characters. -/
def toHex (b : Bytes) : Bytes := (nibbles b).map hexDigit

def hexValue (c : Byte) : Option Nat :=
  let n := c.toNat
  if 0x30 ≤ n ∧ n ≤ 0x39 then some (n - 0x30)
  else if 0x41 ≤ n ∧ n ≤ 0x46 then some (n - 0x37)
  else if 0x61 ≤ n ∧ n ≤ 0x66 then some (n - 0x57)
  else none

def hexValues : Bytes → Option (List Nat)
  | [] => some []
  | c :: t =>
    match hexValue c, hexValues t with
    | some v, some l => some (v :: l)
    | _, _ => none

/-- Hexadecimal text as bytes; none for a bad character or an odd count. -/
def ofHex (b : Bytes) : Option Bytes :=
  if b.length % 2 = 0 then (hexValues b).map packNibbles else none

def hexNat (b : Bytes) : Option Nat := (hexValues b).map (fun l => l.foldl (fun a d => a * 16 + d) 0)

/-- A decimal field. -/
def decNat (b : Bytes) : Option Nat :=
  if b.all (fun c => decide (0x30 ≤ c.toNat ∧ c.toNat ≤ 0x39)) then some (b.foldl (fun a c => a * 10 + (c.toNat - 0x30)) 0)
  else none

/-- `n` decimal characters. -/
def decText (n v : Nat) : Bytes := ((List.range n).reverse).map (fun i => BitVec.ofNat 8 (0x30 + v / 10 ^ i % 10))

/-! ### Headers -/

/-- A key block header. -/
structure BlockHdr where
  version : Nat
  usage : Nat
  alg : Byte
  mode : Nat
  exportability : Nat
  /-- Optional blocks: identifier and value. -/
  opts : List (Nat × Bytes)
  len : Nat
  deriving DecidableEq, Repr

abbrev verB : Nat := 0x42
abbrev verD : Nat := 0x44
abbrev verE : Nat := 0x45
/-- "9G". -/
abbrev opt9G : Nat := 0x3947
/-- "PB". -/
abbrev optPB : Nat := 0x5042

/-- Length of the optional block at the start of `b`, and of its identifier and length fields; the extended form gives
"00", the number of length characters, and the length. -/
def optLength (b : Bytes) : Option (Nat × Nat) :=
  match hexNat (slice b 2 2) with
  | none => none
  | some 0 =>
    match hexNat (slice b 4 2) with
    | none => none
    | some n =>
      match hexNat (slice b 6 n) with
      | none => none
      | some l => some (l, 6 + n)
  | some l => some (l, 4)

def parseOpts : Nat → Bytes → Option (List (Nat × Bytes) × Nat)
  | 0, _ => some ([], 0)
  | n + 1, b =>
    match optLength b with
    | none => none
    | some (l, h) =>
      if l < h ∨ b.length < l then none
      else
        match parseOpts n (b.drop l) with
        | none => none
        | some (t, k) => some ((fld b 0 2, slice b h (l - h)) :: t, k + l)

/-- The header of a key block; none where it is malformed. -/
def parseHeader (b : Bytes) : Option BlockHdr :=
  match decNat (slice b 1 4), decNat (slice b 12 2) with
  | some len, some n =>
    if b.length < 16 ∨ len ≠ b.length then none
    else
      match parseOpts n (b.drop 16) with
      | none => none
      | some (opts, k) =>
        some { version := fld b 0 1, usage := fld b 5 2, alg := BitVec.ofNat 8 (fld b 7 1), mode := fld b 8 1,
               exportability := fld b 11 1, opts := opts, len := 16 + k }
  | _, _ => none

/-- The generation that "9G" names: four upper-case hexadecimal characters (R254). -/
def BlockHdr.generation (h : BlockHdr) : Option Nat :=
  match h.opts.find? (fun p => p.1 == opt9G) with
  | none => none
  | some p => if p.2.length = 4 ∧ p.2 = ((ofHex p.2).map toHex).getD [] then hexNat p.2 else none

/-! ### Binding method -/

/-- Algorithm indicator and key bytes of the derivation data. -/
def kdfAlg (len : Nat) (tdes : Bool) : Nat :=
  if tdes then (if len < 24 then 0 else 1) else (if len = 16 then 2 else if len = 24 then 3 else 4)

/-- A block encryption or authentication key derived from a key-encryption key by CMAC in counter mode. -/
def blockKey (c : Cipher) (len purpose alg : Nat) : Bytes :=
  ((List.range (ceilDiv len c.size)).flatMap
    (fun i => cmac c (beBytes 1 (i + 1) ++ beBytes 2 purpose ++ [0] ++ beBytes 2 alg ++ beBytes 2 (8 * len)))).take len

/-- The cipher of a block version under a key-encryption key. -/
def blockCipher (version : Nat) (key : Bytes) : Cipher := if version = verB then tdesCipher key else aesCipher key

/-- Encrypt or decrypt the key data of a block; its MAC is the starting value. -/
def blockCrypt (version : Nat) (kek mac data : Bytes) (enc : Bool) : Bytes :=
  let c := blockCipher version kek
  let alg := kdfAlg kek.length (version = verB)
  if version = verE then ctrMode (blockCipher version (blockKey c kek.length 2 alg)) 16 mac data
  else
    let k := blockCipher version (blockKey c kek.length 0 alg)
    if enc then cbcEnc k mac data else cbcDec k mac data

/-- The authenticator over header and clear key data. -/
def blockMac (version : Nat) (kek text : Bytes) : Bytes :=
  let c := blockCipher version kek
  cmac (blockCipher version (blockKey c kek.length 1 (kdfAlg kek.length (version = verB)))) text

/-- The key in a block under a key-encryption key; none where its authenticator fails. -/
def unwrapWith (kek b : Bytes) (h : BlockHdr) : Option Bytes :=
  let n := (blockCipher h.version kek).size
  match ofHex (b.drop h.len) with
  | none => none
  | some body =>
    if body.length < 2 * n ∨ body.length % n ≠ 0 then none
    else
      let ct := body.take (body.length - n)
      let mac := body.drop (body.length - n)
      let pt := blockCrypt h.version kek mac ct false
      let bits := fld pt 0 2
      if blockMac h.version kek (b.take h.len ++ pt) = mac ∧ bits % 8 = 0 ∧ 2 + bits / 8 ≤ pt.length then
        some (slice pt 2 (bits / 8))
      else none

/-- Text of a header with its optional blocks, filled with "PB" to a multiple of the cipher's block. -/
def headerText (h : BlockHdr) (total size : Nat) : Bytes :=
  let opts := h.opts.flatMap (fun p => beBytes 2 p.1 ++ toHex (beBytes 1 (4 + p.2.length)) ++ p.2)
  let pad := (size - opts.length % size) % size
  let padLen := if pad = 0 then 0 else if pad < 4 then pad + size else pad
  let pb := if padLen = 0 then [] else beBytes 2 optPB ++ toHex (beBytes 1 padLen) ++ List.replicate (padLen - 4) 0x30
  let n := h.opts.length + (if padLen = 0 then 0 else 1)
  beBytes 1 h.version ++ decText 4 total ++ beBytes 2 h.usage ++ [h.alg] ++ beBytes 1 h.mode ++ [0x30, 0x30] ++
    beBytes 1 h.exportability ++ decText 2 n ++ [0x30, 0x30] ++ opts ++ pb

/-- Wrap a key under a key-encryption key, with random bytes for the padding. -/
def wrapWith (kek key rnd : Bytes) (h : BlockHdr) : Bytes :=
  let size := (blockCipher h.version kek).size
  let pt := beBytes 2 (8 * key.length) ++ key
  let pt := pt ++ rnd.take ((size - pt.length % size) % size)
  let text := headerText h (((headerText h 0 size).length + 2 * pt.length + 2 * size)) size
  let mac := blockMac h.version kek (text ++ pt)
  text ++ toHex (blockCrypt h.version kek mac pt true) ++ toHex mac

/-! ### Attributes (Tables 8.4, 9.2, 9.3) -/

/-- The block format codes of Table 8.4: 0 version B, 1 version D, 2 ISO 20038. -/
def formatVersion (f : Nat) : Nat := if f = 0 then verB else if f = 1 then verD else verE
def versionFormat (v : Nat) : Option Nat := if v = verB then some 0 else if v = verD then some 1 else if v = verE then some 2 else none

/-- ASCII code of a usage. -/
def usageCode (a : Nat) (d : Nat) : Nat := a * 256 + d

abbrev uB0 : Nat := 0x4230
abbrev uC0 : Nat := 0x4330
abbrev uD0 : Nat := 0x4430
abbrev uD1 : Nat := 0x4431
abbrev uE0 : Nat := 0x4530
abbrev uE1 : Nat := 0x4531
abbrev uE2 : Nat := 0x4532
abbrev uK0 : Nat := 0x4B30
abbrev uK1 : Nat := 0x4B31
abbrev uK2 : Nat := 0x4B32
abbrev uK3 : Nat := 0x4B33
abbrev uM1 : Nat := 0x4D31
abbrev uM3 : Nat := 0x4D33
abbrev uM6 : Nat := 0x4D36
abbrev uM7 : Nat := 0x4D37
abbrev uP0 : Nat := 0x5030
abbrev uS0 : Nat := 0x5330
abbrev uV1 : Nat := 0x5631
abbrev uV2 : Nat := 0x5632

/-- LEVEL of a usage (Table 9.3); none for an unsupported usage. -/
def usageLevel (u : Nat) : Option Nat :=
  if u ∈ [uB0, uK0, uK1, uK2, uK3] then some 3
  else if u ∈ [uP0, uV1, uV2, uM1, uM3, uM6, uM7, uC0, uE0, uE1, uE2, uD0, uD1, uS0] then some 4
  else none

/-- Modes of use: characters of X9.143. -/
abbrev mB : Nat := 0x42
abbrev mC : Nat := 0x43
abbrev mD : Nat := 0x44
abbrev mE : Nat := 0x45
abbrev mG : Nat := 0x47
abbrev mN : Nat := 0x4E
abbrev mS : Nat := 0x53
abbrev mV : Nat := 0x56
abbrev mX : Nat := 0x58

/-- The algorithm code of a symmetric key. ALG 0 marks a TDES key shorter than two keys, which no role accepts (R227). -/
def symAlg (c : Byte) (len : Nat) : Option Nat :=
  if c = 0x54 ∨ c = 0x44 then (if len = 8 then some 0 else if len = 16 then some 1 else if len = 24 then some 2 else none)
  else if c = 0x41 then (if len = 16 then some 3 else if len = 24 then some 4 else if len = 32 then some 5 else none)
  else if c = 0x48 then (if 1 ≤ len ∧ len ≤ 64 then some 6 else none)
  else none

/-- Attributes and raw key of an authenticated block; none where an attribute is not supported. -/
def attrOf (h : BlockHdr) (key : Bytes) : Option (KeyAttr × Bytes) :=
  match usageLevel h.usage with
  | none => none
  | some level =>
    if h.mode ∉ [mB, mC, mD, mE, mG, mN, mS, mV, mX] ∨ h.exportability ∉ [0x45, 0x4E, 0x53] then none
    else
      let base : KeyAttr := { usage := h.usage, mode := h.mode, exportability := h.exportability, level := level }
      match symAlg h.alg key.length with
      | some a => some ({ base with alg := a }, key)
      | none =>
        match Config.readAsym h.alg key with
        | some (a, c, raw) => some ({ base with alg := a, curve := c, isPublic := h.mode == mV }, raw)
        | none => none

/-- The algorithm character of a code of Table 9.2. -/
def algChar (a : Nat) : Byte :=
  if a ≤ 2 then 0x54 else if a ≤ 5 then 0x41 else if a = 6 then 0x48 else if a ≤ 9 then 0x52
  else if a = 16 then 0x45 else if a = 17 then Config.algCharMlKem else Config.algCharMlDsa

/-- The key as a block carries it. -/
def blockKeyData (a : KeyAttr) (raw : Bytes) : Bytes := if a.alg ≤ 6 then raw else Config.writeAsym a.alg a.curve raw

/-- Key bytes that a binding of an algorithm holds, for asymmetric keys as R249's units give them. -/
def bindingBytes (a : KeyAttr) (raw : Bytes) : Nat :=
  match a.alg with
  | 7 => 640
  | 8 => 960
  | 9 => 1280
  | _ => raw.length

/-- Units of a binding of `k` key bytes (R249). -/
def unitsOf (k : Nat) : Nat := ceilDiv (32 + 2 * k) 64

/-- Security strength (Table 8.4a). `pbits` is the size of p for a loaded curve record. -/
def strength (a : KeyAttr) (raw : Bytes) (pbits : Nat) : Nat :=
  match a.alg with
  | 1 => 80
  | 2 => 112
  | 3 => 128
  | 4 => 192
  | 5 => 256
  | 6 => min (8 * raw.length) 256
  | 7 => 112
  | 8 => 128
  | 9 => 152
  | 16 => if a.curve = 1 then 128 else if a.curve = 2 then 192 else if a.curve = 3 then 256 else min (pbits / 2) 256
  | _ => 192

/-- Key check value, left-justified in 6 bytes (R272). -/
def kcvOf (a : KeyAttr) (raw : Bytes) : Bytes :=
  if a.alg ≤ 2 then padTo 6 ((tdesEnc raw (zeros 8)).take 3)
  else if a.alg ≤ 5 then padTo 6 ((cmac (aesCipher raw) (zeros 16)).take 5)
  else if a.alg = 6 then padTo 6 ((hmac256 raw (zeros 16)).take 5)
  else zeros 6

end Sys2Proof.Machine
end

