-- ==== Sys2Proof/Machine/KeyStore.lean ====
section
/-! DEFINITION. The key store (chapter 09): SMK generations, resolution of key references, the cache, use counters,
counter records, and what is sealed and journalled. -/

namespace Sys2Proof.Machine

def State.ksCnt (s : State) (k n : Nat) : State := { s with ks := { s.ks with counters := bump s.ks.counters k n } }
def State.ksEvent (s : State) (b : Nat) : State := { s with ks := { s.ks with events := s.ks.events ||| BitVec.ofNat 5 (2 ^ b) } }

/-! ### Sealing and the journal (R267, R442) -/

/-- A change to what the vault seals. -/
def State.change (s : State) : State :=
  { s with ks := { s.ks with changes := s.ks.changes + 1, oldest := s.ks.oldest.orElse (fun _ => some s.folio.now) } }

/-- A change that the journal carries as a record of kind `kind` (Table 17.5), on the active of a chain. -/
def State.journal (s : State) (kind : Nat) (body : Bytes) : State :=
  let s1 := s.change
  if s.paired ∧ s.dev.state = .service then { s1 with pair := { s1.pair with records := s1.pair.records ++ [(kind, body)] } }
  else s1

/-- KIND of Table 9.2. -/
def kindCode : BindKind → Nat
  | .free => 0
  | .key => 1
  | .counter => 2
  | .retiring => 7

/-- Bytes 32–63 of a counter record (Table 9.5). -/
def counterBytes (c : CounterRec) : Bytes :=
  beBytes 1 c.type ++ beBytes 1 c.psn ++ beBytes 1 c.digits ++ beBytes 1 c.claims.length ++ padTo 10 c.id ++ zeros 2 ++
    beBytes 4 c.s ++ padTo 12 (c.claims.flatMap (fun p => beBytes 4 p.1))

/-- The binding header of a resident binding (Table 9.2). -/
def headerBytes (r : Resident) : Bytes :=
  let a := r.attr
  beBytes 2 (r.tenant * 64 + a.level * 8 + kindCode r.kind) ++ beBytes 1 r.units ++ beBytes 1 a.alg ++ beBytes 2 a.usage ++
    beBytes 1 a.mode ++ beBytes 1 a.exportability ++
    beBytes 1 (a.curve * 16 + 8 + bit a.isPublic * 4 + bit r.useLimited * 2 + bit r.resetExpiry) ++ beBytes 1 r.rootSlot ++
    beBytes 2 r.rootGen ++ beBytes 2 0xFFFF ++ beBytes 2 0 ++ beBytes 4 r.uses ++ beBytes 4 r.limit ++ beBytes 6 r.from_ ++
    beBytes 2 r.slotGen

/-- The body of a RESIDENT journal record: slot, header, shares or counter content. -/
def residentBody (slot : Nat) (r : Resident) : Bytes :=
  beBytes 2 slot ++ headerBytes r ++
    (if r.kind = .counter ∨ (r.kind = .retiring ∧ r.wasCounter) then counterBytes r.record else r.shareA ++ r.shareB)

/-- The binding that a RESIDENT journal record carries. -/
def residentOf (b : Bytes) : Nat × Resident :=
  let h := b.drop 2
  let rest := h.drop 32
  let k := fld h 0 2 % 8
  let n := rest.length / 2
  let counter := decide (k = 2) || (decide (k = 7) && decide (fld h 3 1 = 0))
  let attr : KeyAttr :=
    { alg := fld h 3 1, usage := fld h 4 2, mode := fld h 6 1, exportability := fld h 7 1, curve := fld h 8 1 / 16,
      level := fld h 0 2 / 8 % 8, isPublic := (fld h 8 1).testBit 2 }
  let r : Resident :=
    { kind := if k = 1 then .key else if k = 2 then .counter else if k = 7 then .retiring else .free
      tenant := fld h 0 2 / 64
      units := fld h 2 1
      attr := attr
      shareA := if counter then [] else rest.take n
      shareB := if counter then [] else rest.drop n
      useLimited := (fld h 8 1).testBit 1
      resetExpiry := (fld h 8 1).testBit 0
      rootSlot := fld h 9 1
      rootGen := fld h 10 2
      uses := fld h 16 4
      limit := fld h 20 4
      from_ := fld h 24 6
      slotGen := fld h 30 2
      wasCounter := counter
      record := if counter then
          { type := fld rest 0 1, psn := fld rest 1 1, digits := fld rest 2 1, id := slice rest 4 10, s := fld rest 16 4 }
        else {} }
  (fld b 0 2, r)

/-! ### Generations (R253 to R256, Table 9.4) -/

def State.smkSlot (s : State) (t j : Nat) : SmkSlot := tabGet {} s.ks.smk (8 * t + j)
def State.putSmk (s : State) (t j : Nat) (x : SmkSlot) : State :=
  { s with ks := { s.ks with smk := tabPut {} s.ks.smk (8 * t + j) x } }

/-- The generations open to a request admitted at tick `a`. -/
def SmkSlot.openAt (x : SmkSlot) (a : Nat) : List SmkGen :=
  let made := fun (g : SmkGen) => folioReached a g.from_
  (x.current.toList ++ x.pending.toList).filter made ++
    (x.retiring.filter (fun r => made r.g && !folioReached a r.since)).map (·.g)

/-- The generation used for blocks produced by a request admitted at tick `a`: the newest open one. -/
def SmkSlot.producing (x : SmkSlot) (a : Nat) : Option SmkGen :=
  (x.openAt a).foldl (fun m g => match m with
    | none => some g
    | some h => if h.gen < g.gen then some g else m) none

def SmkGen.key (g : SmkGen) : Bytes := xorBytes g.shareA g.shareB

/-- The generation is RETIRING. -/
def SmkSlot.isRetiring (x : SmkSlot) (gen : Nat) : Bool := x.retiring.any (fun r => r.g.gen == gen)

/-! ### The cache (R261) -/

def unitsUsed (c : List CacheBinding) (t : Nat) : Nat := (c.map (fun b => if b.tenant = t then b.units else 0)).sum

/-- Evict the tenant's least recently resolved bindings until `need` units fit its quota. -/
def evict (quota need t : Nat) : Nat → List CacheBinding → Nat → List CacheBinding × Nat
  | 0, c, n => (c, n)
  | fuel + 1, c, n =>
    if unitsUsed c t + need ≤ quota then (c, n)
    else
      match c.find? (fun b => b.tenant == t) with
      | none => (c, n)
      | some b => evict quota need t fuel (c.erase b) (n + 1)

/-- Cache units of a tenant's bindings that are never evicted: those of its streams while they are open (R309), and of the
sessions of its scope that take components (R366, R367). -/
def State.streamUnits (s : State) (t : Nat) : Nat :=
  (s.bulk.streams.map (fun p => if p.2.tenant = t then p.2.units else 0)).sum +
    (s.dual.sessions.map (fun p => if p.2.scope = t ∧ p.2.ephemeral ≠ [] then unitsOf (48 + p.2.compLen) else 0)).sum

/-- Insert a binding; one larger than the whole quota is not inserted. -/
def cacheInsert (s : State) (b : CacheBinding) : State :=
  let quota := tabGet 0 s.ks.cacheQuota b.tenant - s.streamUnits b.tenant
  if quota < b.units then s
  else
    let (c, n) := evict quota b.units b.tenant (s.ks.cache.length + 1) s.ks.cache 0
    ({ s with ks := { s.ks with cache := c ++ [b], counters := bump s.ks.counters 4 n } }).pmcKs 0x13 n

/-- Erase the cache bindings that satisfy `p`; how many went. -/
def purge (s : State) (p : CacheBinding → Bool) : Nat × State :=
  let gone := (s.ks.cache.filter p).length
  let s1 := { s with ks := { s.ks with cache := s.ks.cache.filter (fun b => !p b), counters := bump s.ks.counters 6 gone } }
  (gone, if gone = 0 then s1 else s1.ksEvent 3)

/-! ### Statuses of the key store -/

/-- Count an answer of KEY_INVALID or KEY_REVOKED; above 1,024 in one second raises 0x68 or 0x69 once (R276). -/
def State.keyAnswer (s : State) (t st : Nat) : State :=
  let fresh := decide (s.ks.rateSecond = s.second)
  let inv := if fresh then s.ks.invalidCount else []
  let rev := if fresh then s.ks.revokedCount else []
  let s0 := { s with ks := { s.ks with rateSecond := s.second, invalidCount := inv, revokedCount := rev } }
  if st = stKeyInvalid then
    let n := tabGet 0 inv t + 1
    let s1 := { s0 with ks := { s0.ks with invalidCount := tabPut 0 inv t n } }
    if n = 1025 then s1.raise evBlockAuthRate srcKeyStore t (items [(2, t), (4, n)]) else s1
  else if st = stKeyRevoked then
    let n := tabGet 0 rev t + 1
    let s1 := { s0 with ks := { s0.ks with revokedCount := tabPut 0 rev t n, counters := bump s0.ks.counters 9 1 } }
    if n = 1025 then s1.raise evRevokedRate srcKeyStore t (items [(2, t), (4, n)]) else s1
  else s

/-! ### Resident slots (R259, R262) -/

def State.resident (s : State) (slot : Nat) : Resident := tabGet {} s.ks.resident slot
def State.putResident (s : State) (slot : Nat) (r : Resident) : State :=
  { s with ks := { s.ks with resident := tabPut {} s.ks.resident slot r } }

def Resident.keyBytes (r : Resident) : Bytes := xorBytes r.shareA r.shareB

/-- A block of uses: the smaller of 256 and ceil(LIMIT / 64) (R262). -/
def useBlock (limit : Nat) : Nat := min 256 (ceilDiv limit 64)

/-- The next block is due when half of the current block has been spent. -/
def Resident.blockDue (r : Resident) : Bool :=
  r.useLimited && !r.resetExpiry && decide (r.reserved < r.limit) &&
    decide (2 * (r.reserved - r.uses) ≤ useBlock r.limit)

/-- The checks of R259 up to the kind, for a task of tenant `t` admitted at tick `a`; the former kind of a retiring slot
counts. Slots below 8,256 are not tenants' (R253). -/
def State.residentCheck (s : State) (t a slot : Nat) (wantCounter : Bool) : Nat :=
  let r := s.resident slot
  if slot < 8256 ∨ r.kind = .free ∨ r.tenant ≠ t then stSlotNotOwned
  else if ¬ folioReached a r.from_ then stSlotNotOwned
  else if r.reloading then stKeyInvalid
  else if r.kind = .retiring ∧ folioReached a r.retiredAt then stKeyRevoked
  else
    let counter := r.kind = .counter || (r.kind = .retiring && r.wasCounter)
    if counter ≠ wantCounter then stSlotKind else stOk

/-- A handle bound from a resident slot. -/
def Resident.handle (r : Resident) (slot : Nat) : Handle :=
  { bound := true, hit := true, attr := r.attr, key := r.keyBytes, tenant := r.tenant, rootSlot := r.rootSlot,
    rootGen := r.rootGen, resident := some slot, parent := .resident slot r.slotGen }

/-- Resolve a resident slot: its checks, and a use spent (R259, R262). -/
def resolveResident (s : State) (t a slot : Nat) : Handle × State :=
  let s := s.ksCnt 7 1
  let st := s.residentCheck t a slot false
  if st ≠ stOk then ({ status := st }, s.keyAnswer t st)
  else
    let r := s.resident slot
    if ¬ r.useLimited then (r.handle slot, s)
    else if r.limit ≤ r.uses then ({ status := stUseLimitReached }, s.ksCnt 8 1)
    else if ¬ r.resetExpiry ∧ r.reserved ≤ r.uses then ({ status := stUseReservationPending }, s.ksEvent 4)
    else
      let r1 := { r with uses := r.uses + 1 }
      let s1 := s.putResident slot r1
      let s2 := if r1.blockDue ∧ ¬ r.blockDue then s1.change else s1
      let s3 := if r1.uses = r1.limit then s2.raise evUseLimitReached srcKeyStore t (items [(2, t), (2, slot)]) else s2
      (r1.handle slot, s3)

/-! ### Key blocks under an SMK (R260) -/

/-- DIGEST of a key block. -/
def blockDigest (b : Bytes) : Bytes := (sha256B b).take 16

/-- The checks of R260 up to the lookup: the status, and the header with its generation. -/
def State.blockCheck (s : State) (t a j : Nat) (b : Bytes) : Nat × Option (BlockHdr × SmkGen) :=
  let x := s.smkSlot t j
  if (x.openAt a).isEmpty then (stSmkEmpty, none)
  else if fld b 0 1 ≠ verD ∧ fld b 0 1 ≠ verE then (stKeyBlockFormat, none)
  else
    match parseHeader b with
    | none => (stKeyInvalid, none)
    | some h =>
      match h.generation with
      | none => (stKeyInvalid, none)
      | some g =>
        match (x.openAt a).find? (fun y => y.gen == g) with
        | none => (stKeyRevoked, none)
        | some y => (stOk, some (h, y))

/-- A handle bound from a cache binding. -/
def CacheBinding.handle (b : CacheBinding) : Handle :=
  { bound := true, hit := true, attr := b.attr, key := xorBytes b.shareA b.shareB, tenant := b.tenant,
    rootSlot := b.rootSlot, rootGen := b.rootGen,
    parent := if b.rootSlot = 0xFF then b.parent else .root b.rootSlot b.rootGen }

/-- Look a block up in the tenant's cache; a hit becomes the most recently resolved. -/
def cacheLookup (s : State) (p : CacheBinding → Bool) : Option CacheBinding × State :=
  let s := (s.ksCnt 0 1).pmcKs 0x10 1
  match s.ks.cache.find? p with
  | none => (none, s)
  | some b =>
    (some b, ({ s with ks := { s.ks with cache := s.ks.cache.erase b ++ [b], counters := bump s.ks.counters 1 1 } }).pmcKs 0x11 1)

/-- The lookup of a block: a bound handle on a hit; on a miss the block waits in the handle for its unwrap. -/
def lookupBlock (s : State) (t a j : Nat) (b : Bytes) : Handle × State :=
  match s.blockCheck t a j b with
  | (st, none) => ({ status := st }, s.keyAnswer t st)
  | (_, some (_, g)) =>
    let d := blockDigest b
    match cacheLookup s (fun c => c.tenant == t && c.rootSlot == j && c.rootGen == g.gen && c.digest == d) with
    | (some c, s1) => (c.handle, s1)
    | (none, s1) => ({ missed := b, missedSlot := j }, s1)

/-- Split a key into two shares with a random mask; share B of a public key is zero (R248, Table 9.2). -/
def State.shares (s : State) (pub : Bool) (k : Bytes) : Bytes × Bytes × State :=
  if pub then (k, zeros k.length, s)
  else
    let (m, s1) := s.random k.length
    (m, xorBytes k m, s1)

/-- Unwrap a block that missed: bind the handle, and insert a copy in the cache unless its generation is RETIRING. -/
def unwrapBlock (s : State) (t a j : Nat) (b : Bytes) : Handle × State :=
  let s := (s.ksCnt 2 1).pmcKs 0x12 1
  let fail := fun (s : State) => (({ status := stKeyInvalid } : Handle), (s.ksCnt 3 1).keyAnswer t stKeyInvalid)
  match s.blockCheck t a j b with
  | (st, none) => ({ status := st }, s.keyAnswer t st)
  | (_, some (h, g)) =>
    match unwrapWith g.key b h with
    | none => fail s
    | some k =>
      match attrOf h k with
      | none => fail s
      | some (attr, raw) =>
        let x := s.smkSlot t j
        let hd : Handle := { bound := true, attr := attr, key := raw, tenant := t, rootSlot := j, rootGen := g.gen,
                             parent := .root j g.gen, underRetiring := x.isRetiring g.gen }
        if x.isRetiring g.gen then (hd, s)
        else
          let (sa, sb, s1) := s.shares attr.isPublic raw
          (hd, cacheInsert s1 { tenant := t, units := unitsOf (bindingBytes attr raw), attr := attr, shareA := sa, shareB := sb,
                                rootSlot := j, rootGen := g.gen, parent := .none, digest := blockDigest b })

/-- A KREF at payload offset `off` (Table 8.2). -/
structure KRef where
  kind : Nat
  smk : Nat
  len : Nat
  at_ : Nat
  deriving DecidableEq, Repr

def krefAt (p : Bytes) (off : Nat) : KRef :=
  { kind := fld p off 1, smk := fld p (off + 1) 1, len := fld p (off + 2) 2, at_ := fld p (off + 4) 4 }

/-- KLOOK's resolution (R259, R260 up to the lookup). A KIND that Table 8.2 does not list binds nothing. -/
def lookupRef (s : State) (t a : Nat) (p : Bytes) (k : KRef) : Handle × State :=
  match k.kind with
  | 1 => resolveResident s t a k.at_
  | 2 => lookupBlock s t a k.smk (slice p k.at_ k.len)
  | _ => ({ status := stFieldInvalid }, s)

/-- A whole resolution, the unwrap of a miss included. -/
def resolveRef (s : State) (t a : Nat) (p : Bytes) (k : KRef) : Handle × State :=
  let (h, s1) := lookupRef s t a p k
  if h.status = stOk ∧ ¬ h.bound then unwrapBlock s1 t a k.smk (slice p k.at_ k.len) else (h, s1)

/-! ### Derived keys (R265) -/

/-- A cached child of a handle's parent with a digest. -/
def lookupChild (s : State) (h : Handle) (digest : Bytes) : Handle × State :=
  if ¬ h.bound then ({}, s)
  else
    match cacheLookup s (fun c => c.tenant == h.tenant && c.rootSlot == 0xFF && c.parent == h.parent && c.digest == digest) with
    | (some c, s1) => (c.handle, s1)
    | (none, s1) => ({}, s1)

/-- Store a child under its parent; under a RETIRING generation nothing is stored. -/
def storeChild (s : State) (parent child : Handle) (digest : Bytes) (level : Nat) : State :=
  let retiring := parent.underRetiring || (match parent.parent with
    | .root j g => (s.smkSlot parent.tenant j).isRetiring g
    | .resident slot gen => decide ((s.resident slot).slotGen ≠ gen)
    | .none => false)
  if ¬ parent.bound ∨ ¬ child.bound ∨ retiring ∨ ¬ (level = 5 ∨ level = 6) then s
  else
    let (sa, sb, s1) := s.shares child.attr.isPublic child.key
    let b : CacheBinding :=
      { tenant := parent.tenant, units := unitsOf (bindingBytes child.attr child.key), attr := { child.attr with level := level },
        shareA := sa, shareB := sb, rootSlot := 0xFF, rootGen := 0, parent := parent.parent, digest := digest }
    cacheInsert (s1.ksCnt 5 1) b

/-! ### Counter records (R263, R264) -/

/-- The value a record compares against: the largest of S and its claims. -/
def CounterRec.top (c : CounterRec) : Nat := (c.claims.map (·.1)).foldl max c.s

/-- Claims in increasing order. -/
def addClaim (l : List (Nat × Nat)) (v req : Nat) : List (Nat × Nat) := insertBy (fun p => p.1) (v, req) l

/-- The advance of R264, one indivisible step: its status, and the state with the claim of request `req`. -/
def advance (s : State) (t a req slot v psn digits : Nat) (id : Bytes) : Nat × State :=
  let s := (s.ksCnt 10 1).pmcKs 0x14 1
  let st := s.residentCheck t a slot true
  if st ≠ stOk then (st, s.keyAnswer t st)
  else
    let r := s.resident slot
    let c := r.record
    if c.psn ≠ psn ∨ c.digits ≠ digits ∨ padTo 10 c.id ≠ padTo 10 id then (stFieldInvalid, s)
    else if v ≤ c.top then (stCounterReplay, s.ksCnt 11 1)
    else if 3 ≤ c.claims.length then (stCounterBusy, s)
    else (stOk, s.putResident slot { r with record := { c with claims := addClaim c.claims v req } })

/-- A task's claims settle: S takes the larger of itself and the claim at the commit point, else the claim is removed. -/
def settleClaims (s : State) (req : Nat) (claims : List (Nat × Nat)) (committed : Bool) : State :=
  claims.foldl (fun s p =>
    let r := s.resident p.1
    let c := r.record
    let c1 := { c with claims := c.claims.filter (fun q => decide (q.2 ≠ req)), s := if committed then max c.s p.2 else c.s }
    let s1 := s.putResident p.1 { r with record := c1 }
    if committed then s1.journal 3 (beBytes 2 p.1 ++ beBytes 4 c1.s) else s1) s

/-! ### Loading a resident slot (R240) -/

/-- Units that a tenant's resident bindings hold, retiring ones included. -/
def State.residentUsed (s : State) (t : Nat) : Nat :=
  (s.ks.resident.map (fun p => if p.2.kind ≠ .free ∧ p.2.tenant = t then p.2.units else 0)).sum

/-- Units `first` to `first + n − 1` are all free. -/
def State.runFree (s : State) (first n : Nat) : Bool :=
  decide (first + n ≤ 65536) &&
    s.ks.resident.all (fun p => p.2.kind == .free || decide (p.1 + p.2.units ≤ first ∨ first + n ≤ p.1))

/-- The lowest-numbered run of `n` free units of the tenant region: at its start, or right after a binding. -/
def State.freeRun (s : State) (n : Nat) : Option Nat :=
  (8256 :: (s.ks.resident.filter (fun p => decide (p.2.kind ≠ .free ∧ 8256 ≤ p.1))).map (fun p => p.1 + p.2.units)).find?
    (fun u => s.runFree u n)

/-- A free run within the tenant's quota; none answers RESIDENT_QUOTA_FULL. -/
def State.residentRoom (s : State) (t n : Nat) : Option Nat :=
  if tabGet 0 s.ks.residentQuota t < s.residentUsed t + n then none else s.freeRun n

end Sys2Proof.Machine
end

