-- ==== Sys2Proof/Machine/Units.lean ====
section
/-! DEFINITION. Detected errors of units (R471, R472). -/

namespace Sys2Proof.Machine

/-- A detected error of `unit` (source code of Table 18.1): event 0xA0, its withdrawal marked for the next tick, and
quarantine in place of a test at the third error within 3,600 s. -/
def State.unitError (s : State) (unit kind : Nat) : State :=
  let old := (tabGet [] s.faults.times unit).filter (fun t => decide (s.second < t + 3600))
  let times := old ++ [s.second]
  let f : Faults := { s.faults with times := tabPut [] s.faults.times unit times }
  let f1 : Faults :=
    if 3 ≤ times.length then { f with toQuarantine := f.toQuarantine ++ [(unit, 1)] }
    else if unit ∈ f.marked ∨ unit ∈ f.withdrawn then f
    else { f with marked := f.marked ++ [unit] }
  { s with faults := f1 }.raise evUnitError unit 0 (items [(1, kind), (1, times.length)])

/-- The running, entered task of a transaction core: its slot number, slot and node. -/
def State.taskOf (s : State) (core : Nat) : Option (Nat × Slot × Nat) :=
  match (tabGet ({} : Core) s.cores.core core).task with
  | none => none
  | some r => if core < 128 ∧ (s.slot r.slot).live ∧ (s.slot r.slot).req = r.req then some (r.slot, s.slot r.slot, r.node) else none

/-- Set or clear a flag of the task that a core runs. -/
def State.taskFlag (s : State) (core i : Nat) (v : Bool) : State :=
  match s.taskOf core with
  | none => s
  | some (k, _, n) => if v then s.setFlag k n i else s.clearFlag k n i

/-- The random number generator serves internal draws (Table 12.4). -/
def State.rngServes (s : State) : Bool := decide (s.rng.state = .ready ∨ s.rng.state = .degraded ∨ s.rng.state = .cOnly)

end Sys2Proof.Machine
end

