-- ==== Sys2Proof/Machine/Bn.lean ====
section
/-! DEFINITION. The big-number engines (chapter 10): handles, banks, operations, aborts, and curve records. -/

namespace Sys2Proof.Machine

/-! ### Operations and their times (Tables 10.3, 10.4) -/

/-- Row of Table 10.4 for p of `b` bits, of a loaded record. -/
def recordRow (b : Nat) : Nat := if b ≤ 256 then 4 else if b ≤ 384 then 5 else if b ≤ 512 then 6 else 7

def isEcOp (op : Nat) : Bool := decide (0x10 ≤ op ∧ op ≤ 0x14)
def isPairedOp (op : Nat) : Bool := decide (5 ≤ op ∧ op ≤ 7)
def opDefined (op : Nat) : Bool := isEcOp op || [1, 2, 3, 5, 6, 7, 0x20, 0x21, 0x22, 0x28, 0x29, 0x2A].contains op

/-- V. -/
def opV (op row : Nat) : Nat :=
  match op with
  | 1 => 512 | 2 => 768 | 3 => 1024 | 5 => 512 | 6 => 768 | 7 => 1024
  | 0x20 => 512 | 0x21 => 1200 | 0x22 => 512 | 0x28 => 512 | 0x29 => 512 | 0x2A => 512
  | _ =>
    match row with
    | 1 => 1600 | 2 => 2400 | 3 => 3200 | 4 => 1600 | 5 => 2400 | 6 => 3200 | _ => 3600

/-- T, of ML_DSA_SIGN for the iterations given. -/
def opT (op row iter : Nat) : Nat :=
  match op with
  | 1 => 19200 | 2 => 43200 | 3 => 76800 | 5 => 640000 | 6 => 1920000 | 7 => 4320000
  | 0x20 => 19200 | 0x21 => 22400 | 0x22 => 28800 | 0x28 => 56000 | 0x29 => 56000 + 23600 * iter | 0x2A => 64000
  | 0x10 | 0x13 =>
    match row with
    | 1 => 88000 | 2 => 224000 | 3 => 528000 | 4 => 120000 | 5 => 288000 | 6 => 560000 | _ => 672000
  | 0x11 =>
    match row with
    | 1 => 176000 | 2 => 448000 | 3 => 1056000 | 4 => 240000 | 5 => 576000 | 6 => 1120000 | _ => 1344000
  | 0x12 =>
    match row with
    | 1 => 80000 | 2 => 208000 | 3 => 496000 | 4 => 112000 | 5 => 272000 | 6 => 528000 | _ => 640000
  | _ => 8000

/-- The charge of an operation. -/
def opCharge (op row : Nat) : Nat := if isPairedOp op then 2 * opT op row 0 else opT op row 16

/-! ### Curves (R287, R300) -/

def State.curve (s : State) (i : Nat) : CurveRec := tabGet {} s.bn.curves i
def State.putCurve (s : State) (i : Nat) (c : CurveRec) : State := { s with bn := { s.bn with curves := tabPut {} s.bn.curves i c } }

def CurveRec.curve (c : CurveRec) : Curve := { p := c.p, a := c.a, b := c.b, gx := c.gx, gy := c.gy, n := c.n, h := c.h }

/-- HANDLE of the record at index `i`. -/
def curveHandle (i : Nat) (c : CurveRec) : Nat := c.gen * 65536 + i

/-- The table record that a HANDLE names for a tenant; built-in handles have generation 0 and name none. -/
def State.curveNamed (s : State) (t h : Nat) : Option Nat :=
  let i := h % 256
  let c := s.curve i
  if h / 256 % 256 = 0 ∧ c.state ≠ .free ∧ c.gen = h / 65536 ∧ h / 65536 ≠ 0 ∧ c.tenant = t then some i else none

/-- The curve and row that CURVE and HANDLE name for a task of tenant `t` admitted at tick `a`, or the status with which
BGO completes at once (R285, R302, R303). -/
def State.curveFor (s : State) (t a code h : Nat) : Except Nat (Curve × Nat) :=
  match code with
  | 1 => .ok (p256, 1)
  | 2 => .ok (p384, 2)
  | 3 => .ok (p521, 3)
  | _ =>
    if h = 1 then .ok (brainpool256, 4)
    else if h = 2 then .ok (brainpool384, 5)
    else if h = 3 then .ok (brainpool512, 6)
    else
      match s.curveNamed t h with
      | none => .error stCurveUnsupported
      | some i =>
        let c := s.curve i
        let deleted : Bool := match c.deletedAt with
          | some d => folioReached a d
          | none => false
        if c.state = .rejected ∨ deleted then .error stCurveUnsupported
        else if c.state = .validating ∨ ¬ folioReached a c.validFrom then .error stCurvePending
        else .ok (c.curve, recordRow c.pbits)

/-! ### Handles, engines and banks (R277 to R284) -/

def State.bnHandle (s : State) (core h : Nat) : BnHandle := tabGet {} (tabGet [] s.cores.bn core) h
def State.putBnHandle (s : State) (core h : Nat) (x : BnHandle) : State :=
  { s with cores := { s.cores with bn := tabMod [] s.cores.bn core (fun t => tabPut {} t h x) } }

def State.engine (s : State) (e : Nat) : BnEngine := tabGet {} s.bn.engines e
def State.modEngine (s : State) (e : Nat) (f : BnEngine → BnEngine) : State :=
  { s with bn := { s.bn with engines := tabMod {} s.bn.engines e f } }
def BnEngine.bank (x : BnEngine) (b : Nat) : Bank := tabGet {} x.banks b
def State.modBank (s : State) (e b : Nat) (f : Bank → Bank) : State :=
  s.modEngine e (fun x => { x with banks := tabMod {} x.banks b f })

def State.bnCnt (s : State) (e k n : Nat) : State := s.modEngine e (fun x => { x with counters := bump x.counters k n })
def State.bnEvent (s : State) (b : Nat) : State := { s with bn := { s.bn with events := s.bn.events ||| BitVec.ofNat 5 (2 ^ b) } }

/-- An engine is ready (R280). -/
def State.engineReady (s : State) (e : Nat) : Bool :=
  s.unitOk (srcBn e) && s.districtUp (districtOfBn e) && !(s.engine e).withdrawn && !(s.engine e).marked

/-- The engine that BOPEN assigns (R280), other than `not`. -/
def State.pickEngine (s : State) (not : Option Nat) : Option Nat :=
  let free := (List.range 64).filter (fun e => s.engineReady e && (s.engine e).owner.isNone && not != some e)
  match free.find? (fun e => (s.engine e).background.isNone) with
  | some e => some e
  | none => free.head?

/-- A clean bank, or failing that one that is clearing. -/
def BnEngine.pickBank (x : BnEngine) : Nat :=
  match (List.range 4).find? (fun b => decide ((x.bank b).state = .clean)) with
  | some b => b
  | none => ((List.range 4).find? (fun b => decide ((x.bank b).state = .clearing))).getD 0

/-- Give handle `h` of a core an engine, or open it REFUSED. -/
def openHandle (s : State) (core h tenant : Nat) (x : BnHandle) (not : Option Nat) : State :=
  match s.pickEngine not with
  | none =>
    let s1 := s.putBnHandle core h { x with state := .open, refused := true }
    ({ s1 with bn := { s1.bn with refusedThisTick := s1.bn.refusedThisTick + 1 } }).bnEvent 1
  | some e =>
    let b := (s.engine e).pickBank
    let s1 := s.putBnHandle core h { x with state := .open, engine := e, bank := b }
    let s2 := s1.modBank e b (fun _ => { state := .fgOpen })
    (s2.modEngine e (fun y => { y with owner := some (core, h), tenant := tenant, iter := 0, cycles := 0 })).busyDistrict (districtOfBn e)

/-- BOPEN (R280, R282, R283); none is a protection fault of kind SUBMISSION. -/
def bopenOp (s : State) (core h value : Nat) : Option State :=
  match s.taskOf core with
  | none => some s
  | some (_, x, _) =>
    let op := value % 256
    let cv := bitsOf value 15 8
    let paired := isPairedOp op
    if (s.bnHandle core h).state ≠ .free ∨ ¬ opDefined op ∨ (isEcOp op ∧ (cv = 0 ∨ 4 < cv)) ∨ (¬ isEcOp op ∧ cv ≠ 0) ∨
        (paired ∧ (h % 2 = 1 ∨ (s.bnHandle core (h + 1)).state ≠ .free)) then none
    else
      let n : BnHandle := { op := op, curve := cv, curveHandle := if cv = 4 then bitsOf value 63 32 else 0, paired := paired }
      let s1 := openHandle s core h x.tenant n none
      if paired then
        let first := s1.bnHandle core h
        some (openHandle s1 core (h + 1) x.tenant { n with odd := true } (if first.refused then none else some first.engine))
      else some s1

/-- BPTR. -/
def bptrOp (s : State) (core h value : Nat) : Option State :=
  match s.taskOf core with
  | none => some s
  | some _ =>
    let x := s.bnHandle core h
    if x.state ≠ .open ∧ x.state ≠ .done then none
    else some (s.putBnHandle core h { x with ptr := value % 8192 / 16 * 16 })

/-- The curve of a handle, for the areas of its elements: that of its tenant's record even where BGO would refuse it. -/
def State.handleCurve (s : State) (core : Nat) (x : BnHandle) : Option (Curve × Nat) :=
  match s.taskOf core with
  | none => none
  | some (_, sl, _) =>
    match s.curveFor sl.tenant sl.admitTick x.curve x.curveHandle with
    | .ok r => some r
    | .error _ =>
      match s.curveNamed sl.tenant x.curveHandle with
      | some i => some ((s.curve i).curve, recordRow (s.curve i).pbits)
      | none => none

/-- L of an RSA operation in bytes. -/
def rsaLen (op : Nat) : Nat := if op % 4 = 1 then 256 else if op % 4 = 2 then 384 else 512

/-- The areas that BIN writes and BOUT reads for an OP (Table 10.5), `n` bytes for an elliptic-curve element. -/
def binAreas (op n : Nat) : List (Nat × Nat) :=
  match op with
  | 1 | 2 | 3 => [(0, rsaLen op), (0x200, rsaLen op)]
  | 5 | 6 | 7 => [(0x200, rsaLen op)]
  | 0x10 => [(0, n)]
  | 0x11 => [(0, n), (0x80, n), (0x100, n), (0x180, n), (0x200, n)]
  | 0x12 | 0x14 => [(0x80, n), (0x100, n)]
  | 0x21 => [(0, 1184)]
  | 0x22 => [(0x800, 1088)]
  | 0x29 => [(0, 0x1200)]
  | 0x2A => [(0, 1952), (0x800, 3309), (0x1500, 0x900)]
  | _ => []
def boutAreas (op n : Nat) : List (Nat × Nat) :=
  match op with
  | 1 | 2 | 3 | 5 | 6 | 7 => [(0x400, rsaLen op)]
  | 0x10 => [(0x200, n), (0x280, n)]
  | 0x11 => [(0x300, 8)]
  | 0x12 => [(0x300, n)]
  | 0x13 => [(0x80, n), (0x100, n), (0x380, n)]
  | 0x20 => [(0, 1184), (0x1000, 64)]
  | 0x21 => [(0x800, 1088), (0x1000, 32)]
  | 0x22 => [(0x1000, 32)]
  | 0x28 => [(0, 1952), (0x1000, 32)]
  | 0x29 => [(0x1200, 3309)]
  | 0x2A => [(0x1E00, 8)]
  | _ => []

def inAreas (l : List (Nat × Nat)) (a : Nat) : Bool := l.any (fun p => decide (p.1 ≤ a ∧ a < p.1 + p.2))

/-- Bytes of an elliptic-curve element of the handle's curve. -/
def State.elemSize (s : State) (core : Nat) (x : BnHandle) : Nat :=
  if isEcOp x.op then ((s.handleCurve core x).map (fun p => p.1.size)).getD 128 else 0

/-- Write the bytes of `b` that lie in `areas` from address `a` on. -/
def writeAreas (areas : List (Nat × Nat)) (m : List (Nat × Byte)) (a : Nat) : Bytes → List (Nat × Byte)
  | [] => m
  | x :: t => writeAreas areas (if inAreas areas a then tabPut 0 m a x else m) (a + 1) t

/-- BIN (R284); writes to a REFUSED handle are dropped. -/
def binOp (s : State) (core h : Nat) (value : Word128) : Option State :=
  match s.taskOf core with
  | none => some s
  | some _ =>
    let x := s.bnHandle core h
    if x.state ≠ .open then none
    else
      let s1 := s.putBnHandle core h { x with ptr := (x.ptr + 16) % 8192 }
      if x.refused then some s1
      else
        let areas := if x.odd then [] else binAreas x.op (s.elemSize core x)
        some (s1.modBank x.engine x.bank (fun k => { k with mem := writeAreas areas k.mem x.ptr (bytes128 value) }))

/-- BOUT: the 16 bytes at the pointer, zero unless the handle is DONE with OK and inside its areas (R284, R289). -/
def boutOp (s : State) (core h : Nat) : Word128 × State :=
  let x := s.bnHandle core h
  if x.state = .free then (0, s)
  else
    let s1 := s.putBnHandle core h { x with ptr := (x.ptr + 16) % 8192 }
    if x.state ≠ .done ∨ x.status ≠ stOk ∨ x.odd ∨ x.refused then (0, s1)
    else
      let m := ((s.engine x.engine).bank x.bank).mem
      let areas := boutAreas x.op (s.elemSize core x)
      (word128 ((List.range 16).map (fun i => if inAreas areas (x.ptr + i) then tabGet 0 m (x.ptr + i) else 0)), s1)

/-- BSTAT (Table 10.1). -/
def bstatOf (x : BnHandle) : Nat :=
  let st := match x.state with
    | .free => 0 | .open => 1 | .running => 2 | .done => 3
  x.status * 2 ^ 48 + st * 2 ^ 44 + x.engine % 64 * 2 ^ 32 + x.iterations % 256 * 2 ^ 24 + x.cycles % 2 ^ 23

/-! ### Start and completion (R285, R289 to R291) -/

/-- The job of handle `h` ends with a status: DONE, with its flag set. -/
def finishHandle (s : State) (core h st : Nat) : State :=
  let x := s.bnHandle core h
  let s1 := s.putBnHandle core h { x with state := .done, status := st, outcome := none, abortStatus := none }
  s1.taskFlag core (flagBnDone h) true

/-- BGO (R283, R285); `declared` is the declared amount of the submission site, where the core passes one. -/
def bgoOp (s : State) (core h value : Nat) (declared : Option Nat) : Option State :=
  match s.taskOf core with
  | none => some s
  | some (_, sl, _) =>
    let x := s.bnHandle core h
    let cv := if isEcOp x.op then s.curveFor sl.tenant sl.admitTick x.curve x.curveHandle else .ok (p256, 0)
    let row := match cv with
      | .ok (_, r) => r
      | .error _ => ((s.handleCurve core x).map (·.2)).getD 7
    let overDeclared : Bool := match declared with
      | some d => decide (d < opCharge x.op row)
      | none => false
    if x.state ≠ .open ∨ x.odd ∨ overDeclared then none
    else
      let key := tabGet ({} : Handle) (tabGet [] s.cores.handles core) (value % 4)
      let use := value.testBit 2 && key.bound
      let y := { x with state := .running, hasKey := use, keyAttr := if use then key.attr else {},
                        mlen := bitsOf value 47 32, ctxlen := bitsOf value 55 48, e := bitsOf value 63 32 }
      let s1 := (s.putBnHandle core h y).taskFlag core (flagBnDone h) false
      let s2 := if x.paired then
          (s1.putBnHandle core (h + 1) { s1.bnHandle core (h + 1) with state := .running }).taskFlag core (flagBnDone (h + 1)) false
        else s1
      let odd := s2.bnHandle core (h + 1)
      let finish := fun (s : State) (st : Nat) =>
        let s := finishHandle s core h st
        if x.paired then finishHandle s core (h + 1) st else s
      if x.refused ∨ (x.paired ∧ odd.refused) then some (finish s2 stEngineUnavailable)
      else
        match cv with
        | .error st => some (finish s2 st)
        | .ok _ =>
          let waits := (s.engine x.engine).sliceRunning || (x.paired && (s.engine odd.engine).sliceRunning)
          let s3 := s2.putBnHandle core h { y with started := !waits }
          let s4 := s3.modBank x.engine x.bank (fun k => { k with key := if use then key.key else [] })
          some (((s4.bnCnt x.engine 0 1).pmcBn x.engine 0x10 1).busyDistrict (districtOfBn x.engine))

/-! ### Aborts and release (R286, R296, R297) -/

/-- Clear a bank: 512 cycles, after which it holds zeros only. -/
def clearBank (s : State) (e b : Nat) : State := s.modBank e b (fun _ => { state := .clearing })

/-- An engine without an open handle: its suspended background context runs again (R292), and a marked engine whose
handle is gone is ready for its test (R296). -/
def freeEngine (s : State) (e : Nat) : State :=
  s.modEngine e (fun x => { x with owner := none, sliceRunning := x.background.isSome })

/-- The two halves of a pair, or the handle alone. -/
def halves (x : BnHandle) (h : Nat) : List Nat := if x.paired then (if x.odd then [h - 1, h] else [h, h + 1]) else [h]

/-- Abort the running job of handle `h`, to become DONE with `st` when its bank is clear (R297). -/
def abortJob (s : State) (core h st : Nat) : State :=
  (halves (s.bnHandle core h) h).foldl (fun s g =>
    let y := s.bnHandle core g
    if y.state ≠ .running then s
    else
      let s1 := s.putBnHandle core g { y with abortStatus := some st, outcome := none, started := false }
      ((clearBank s1 y.engine y.bank).bnCnt y.engine 4 1).pmcBn y.engine 0x13 1) s

/-- Release handle `h`: its bank clears and its engine is free. -/
def releaseOne (s : State) (core h : Nat) : State :=
  let x := s.bnHandle core h
  if x.state = .free then s
  else if x.refused then s.putBnHandle core h {}
  else freeEngine (clearBank (s.putBnHandle core h {}) x.engine x.bank) x.engine

/-- BREL (R282): aborts a RUNNING job first. -/
def brelOp (s : State) (core h : Nat) : State :=
  let x := s.bnHandle core h
  let s1 := if x.state = .running then abortJob s core h stAborted else s
  (if x.state = .running then halves x h else [h]).foldl (fun s g => releaseOne s core g) s1

/-- BABORT: no effect on a FREE or DONE handle. -/
def babortOp (s : State) (core h : Nat) : State :=
  if (s.bnHandle core h).state = .running ∧ (s.bnHandle core h).abortStatus = none then abortJob s core h stAborted else s

/-- The task of a core ends: each of its handles is released (R286). -/
def endBnHandles (s : State) (core : Nat) : State :=
  let s1 := (List.range 4).foldl (fun s h =>
    if (s.bnHandle core h).state = .running then abortJob s core h stAborted else s) s
  (List.range 4).foldl (fun s h => releaseOne s core h) s1

/-! ### Validation and operations (R287, R294 to R296) -/

/-- What an operation works on: its bank, the key it names, its curve. -/
structure BnJob where
  x : BnHandle
  mem : List (Nat × Byte)
  key : Bytes
  curve : Curve

def BnJob.num (j : BnJob) (a n : Nat) : Nat := beNat (memRead j.mem a n)
def BnJob.el (j : BnJob) (a : Nat) : Nat := j.num a j.curve.size

/-- The key handle is bound with a key of the operation's algorithm and curve. -/
def BnJob.keyFits (j : BnJob) : Bool :=
  j.x.hasKey && match j.x.op with
    | 5 => j.x.keyAttr.alg == 7
    | 6 => j.x.keyAttr.alg == 8
    | 7 => j.x.keyAttr.alg == 9
    | 0x22 => j.x.keyAttr.alg == 17 && j.key.length == 64
    | 0x29 => j.x.keyAttr.alg == 18 && j.key.length == 32
    | _ => j.x.keyAttr.alg == 16 && j.x.keyAttr.curve == j.x.curve && !j.x.keyAttr.isPublic

/-- An ML-KEM encapsulation key holds a coefficient of 3,329 or more: 768 coefficients of 12 bits, low bits first. -/
def ekUnreduced (ek : Bytes) : Bool :=
  (List.range 384).any (fun i =>
    let a := fld ek (3 * i) 1
    let b := fld ek (3 * i + 1) 1
    let c := fld ek (3 * i + 2) 1
    decide (3329 ≤ a + b % 16 * 256 ∨ 3329 ≤ b / 16 + c * 16))

/-- The checks of Table 10.6 in order: the status of the first that fails, or OK. -/
def bnValidate (j : BnJob) : Nat :=
  let c := j.curve
  let l := rsaLen j.x.op
  let qx := j.el 0x80
  let qy := j.el 0x100
  let d := beNat j.key
  let pointCheck := fun (pre : Nat) =>
    if pre ≠ stOk then pre
    else if qx = 0 ∧ qy = 0 then stInputZero
    else if c.p ≤ qx ∨ c.p ≤ qy then stInputNotReduced
    else if ¬ c.has qx qy then stPointNotOnCurve
    else stOk
  match j.x.op with
  | 1 | 2 | 3 =>
    let n := j.num 0 l
    let v := j.num 0x200 l
    if n % 2 = 0 ∨ ¬ n.testBit (8 * l - 1) ∨ (j.x.e ≠ 3 ∧ j.x.e ≠ 65537) then stParameterInvalid
    else if v = 0 then stInputZero else if n ≤ v then stInputNotReduced else stOk
  | 5 | 6 | 7 =>
    let v := j.num 0x200 l
    if ¬ j.keyFits then stParameterInvalid
    else if v = 0 then stInputZero else if (rsaKeyOf j.key).n ≤ v then stInputNotReduced else stOk
  | 0x10 =>
    if ¬ j.keyFits then stParameterInvalid
    else if d = 0 then stInputZero else if c.n ≤ d then stInputNotReduced else stOk
  | 0x11 =>
    let r := j.el 0x180
    let t := j.el 0x200
    if r = 0 ∨ t = 0 ∨ (qx = 0 ∧ qy = 0) then stInputZero
    else if c.p ≤ qx ∨ c.p ≤ qy ∨ c.n ≤ r ∨ c.n ≤ t then stInputNotReduced
    else if ¬ c.has qx qy then stPointNotOnCurve else stOk
  | 0x12 =>
    if ¬ j.keyFits then stParameterInvalid
    else if (qx = 0 ∧ qy = 0) ∨ d = 0 then stInputZero
    else if c.p ≤ qx ∨ c.p ≤ qy ∨ c.n ≤ d then stInputNotReduced
    else if ¬ c.has qx qy then stPointNotOnCurve else stOk
  | 0x14 => pointCheck stOk
  | 0x21 => if ekUnreduced (memRead j.mem 0 1152) then stInputNotReduced else stOk
  | 0x22 => if j.keyFits then stOk else stParameterInvalid
  | 0x29 => if ¬ j.keyFits ∨ 4096 < j.x.mlen ∨ 4351 < j.x.ctxlen + j.x.mlen then stParameterInvalid else stOk
  | 0x2A => if 2048 < j.x.mlen then stParameterInvalid else stOk
  | _ => stOk

/-- A scalar from 1 to n − 1 by extra random bits (FIPS 186-5). -/
def scalarOf (c : Curve) (rnd : Bytes) : Nat := beNat rnd % (c.n - 1) + 1

/-- What a validated operation gives: a status, what it writes into the bank, the code of a failed invariant, and the
ML-DSA iterations it needs. -/
structure BnResult where
  status : Nat := stOk
  out : List (Nat × Bytes) := []
  invariant : Nat := 0
  need : Nat := 0

def failInvariant (code : Nat) : BnResult := { status := stInvariantFailed, invariant := code }

/-- The 8-byte MATCH word. -/
def matchWord (b : Bool) : Bytes := beBytes 8 (bit b)

/-- The computation of a validated job, with the random bytes it draws. -/
def bnCompute (j : BnJob) (rnd : Bytes) : BnResult :=
  let c := j.curve
  let n := c.size
  let l := rsaLen j.x.op
  let v := j.num 0x200 l
  match j.x.op with
  | 1 | 2 | 3 => { out := [(0x400, beBytes l (powMod v j.x.e (j.num 0 l)))] }
  | 5 | 6 | 7 =>
    let k := rsaKeyOf j.key
    let y := k.crt v
    if powMod y 65537 k.n = v ∨ powMod y 3 k.n = v then { out := [(0x400, beBytes l y)] } else failInvariant 1
  | 0x10 =>
    let (r, t) := ecdsaSignInt c (beNat j.key) (j.el 0) (scalarOf c rnd)
    { out := [(0x200, beBytes n r), (0x280, beBytes n t)] }
  | 0x11 => { out := [(0x300, matchWord (ecdsaVerifyInt c (j.el 0x80) (j.el 0x100) (j.el 0) (j.el 0x180) (j.el 0x200)))] }
  | 0x12 =>
    match c.mul (c.h * beNat j.key) (some (j.el 0x80, j.el 0x100)) with
    | none => if 1 < c.h then { status := stInputZero } else failInvariant 3
    | some (x, y) => if c.has x y then { out := [(0x300, beBytes n x)] } else failInvariant 3
  | 0x13 =>
    let d := scalarOf c rnd
    match c.mul d c.base with
    | none => failInvariant 2
    | some (x, y) =>
      if c.has x y then { out := [(0x80, beBytes n x), (0x100, beBytes n y), (0x380, beBytes n d)] } else failInvariant 2
  | 0x20 => { out := [(0, padTo 1184 (mlKemPublic (rnd.take 64))), (0x1000, rnd.take 64)] }
  | 0x21 =>
    let (ct, ss) := mlKemEncaps (memRead j.mem 0 1184) (rnd.take 32)
    { out := [(0x800, padTo 1088 ct), (0x1000, padTo 32 ss)] }
  | 0x22 => { out := [(0x1000, padTo 32 (mlKemDecaps j.key (memRead j.mem 0x800 1088)))] }
  | 0x28 => { out := [(0, padTo 1952 (mlDsaPublic (rnd.take 32))), (0x1000, rnd.take 32)] }
  | 0x29 =>
    let ctx := memRead j.mem 0 j.x.ctxlen
    let msg := memRead j.mem j.x.ctxlen j.x.mlen
    let need := mlDsaIterations j.key ctx msg (rnd.take 32)
    if 128 < need then { failInvariant 5 with need := 128 }
    else { out := [(0x1200, padTo 3309 (mlDsaSign j.key ctx msg (rnd.take 32)))], need := max 1 need }
  | 0x2A =>
    let ok := mlDsaVerify (memRead j.mem 0 1952) (memRead j.mem 0x1500 j.x.ctxlen)
      (memRead j.mem (0x1500 + j.x.ctxlen) j.x.mlen) (memRead j.mem 0x800 3309)
    { out := [(0x1E00, matchWord ok)] }
  | _ => {}

/-- The job uses a private key or draws random data (R293). -/
def opUsesRandom (op : Nat) : Bool := [5, 6, 7, 0x10, 0x12, 0x13, 0x20, 0x21, 0x22, 0x28, 0x29].contains op

/-- Random bytes of a job. -/
def randomNeed (j : BnJob) : Nat :=
  if j.x.op = 0x10 ∨ j.x.op = 0x13 then j.curve.size + 8
  else if j.x.op = 0x20 then 64 else if j.x.op = 0x21 ∨ j.x.op = 0x28 ∨ j.x.op = 0x29 then 32 else 0

/-- The started, unfinished job of the open handle on engine `e`. -/
def State.jobOn (s : State) (e : Nat) : Option (Nat × Nat × BnJob) :=
  match (s.engine e).owner with
  | none => none
  | some (core, h) =>
    let x := s.bnHandle core h
    if x.state = .running ∧ x.started ∧ ¬ x.odd ∧ x.outcome = none ∧ x.abortStatus = none ∧ x.engine = e then
      let b := (s.engine e).bank x.bank
      let c := ((s.handleCurve core x).map (·.1)).getD p256
      some (core, h, { x := x, mem := b.mem, key := b.key, curve := c })
    else none

/-- Run the operation of engine `e`, one of `ops`: validation, then the computation; the result waits in the bank for
the cycle of its completion. -/
def runOp (ops : List Nat) (e : Nat) (s : State) : State :=
  match s.jobOn e with
  | none => s
  | some (core, h, j) =>
    if ¬ ops.contains j.x.op then s
    else
      let v := bnValidate j
      if s.rng.state = .failed ∧ opUsesRandom j.x.op then
        s.putBnHandle core h { j.x with outcome := some stRandomUnavailable, refusedInput := true }
      else if v ≠ stOk then s.putBnHandle core h { j.x with outcome := some v, refusedInput := true }
      else
        let (rnd, s0) := s.random (randomNeed j)
        let s1 := { s0 with rng := { s0.rng with counters := bump s0.rng.counters 4 (ceilDiv (randomNeed j) 16) } }
        let r := bnCompute j rnd
        let s2 := s1.putBnHandle core h { j.x with outcome := some r.status, need := r.need, invariant := r.invariant,
                                                   iterations := min 16 r.need }
        s2.modBank e j.x.bank (fun k => { k with mem := r.out.foldl (fun m p => memWrite m p.1 p.2) k.mem })

/-! ### ML-DSA iterations (R299) -/

/-- Core cycles from now to the miss point of a request (R114), at the resolution of delay ticks. -/
def State.toMissPoint (s : State) (x : Slot) : Int :=
  let folios := folioDiff x.deadline s.folio.now + 1
  let send := ceilDiv ((s.costEgress x - 20) * 8 * 1600) (max 1 (s.rateM x.lport))
  (folios * s.cycles : Nat) - (s.folio.delayTick * (25 * s.folio.periodUs) : Nat) - 2000 - (send : Nat)

/-- Draw `d` of the `left` cycles of the folio's overrun reserve; event 0x84 where it runs out (R117, R299). -/
def drawReserve (s : State) (d left : Nat) : State :=
  let s1 := { s with bn := { s.bn with drawn := s.bn.drawn + d }, adm := { s.adm with counters := bump s.adm.counters 11 d } }
  if d = left then
    { s1 with adm := { s1.adm with events := s1.adm.events ||| 4 } }.raise evReserveEmpty srcAdmission 0
      (items [(8, s.folio.now), (2, tabGet 0 s.adm.retries s.folio.now)])
  else s1

/-- A RETRY for want of reserve or time. -/
def countRetry (s : State) : State :=
  ({ s with adm := { s.adm with retries := tabMod 0 s.adm.retries s.folio.now (· + 1),
                                counters := bump s.adm.counters 10 1 } }).bnEvent 2

/-- ML-DSA iteration beyond the 16th: it begins with a reserve draw, or the job is aborted with RETRY. -/
def mlDsaIterationOp (s : State) (e : Nat) : State :=
  match (s.engine e).owner with
  | none => s
  | some (core, h) =>
    let x := s.bnHandle core h
    match s.taskOf core with
    | none => s
    | some (_, sl, _) =>
      if x.state ≠ .running ∨ x.op ≠ 0x29 ∨ x.outcome = none ∨ x.refusedInput ∨ x.need ≤ x.iterations then s
      else
        let left := s.reserveLeft s.folio.now - s.bn.drawn
        if left < 3200 ∨ s.toMissPoint sl < 23600 + 12800 then
          abortJob (countRetry s) core h stRetry
        else
          let d := min left 23600
          drawReserve (((s.putBnHandle core h { x with iterations := x.iterations + 1 }).bnCnt e 7 1).pmcBn e 0x14 1) d left

/-! ### Completion -/

/-- The row of a handle's curve. -/
def State.handleRow (s : State) (core : Nat) (x : BnHandle) : Nat := ((s.handleCurve core x).map (·.2)).getD 7

/-- Engine cycles of a completed job. -/
def State.jobCycles (s : State) (core : Nat) (x : BnHandle) : Nat :=
  let row := s.handleRow core x
  if x.refusedInput then opV x.op row else opT x.op row x.iterations

/-- Complete one half with its status: BN_FAULT, counters, the bank done. -/
def completeHalf (s : State) (core h st cyc inv iter : Nat) (refused : Bool) : State :=
  let x := s.bnHandle core h
  let e := x.engine
  let note := fun (y : BnEngine) =>
    if st = stOk then y else { y with faultStatus := st, faultOp := x.op, faultInv := inv }
  let s1 := s.modEngine e (fun y => note { y with iter := iter, cycles := cyc })
  let s2 := s1.modBank e x.bank (fun k => { k with state := .fgDone, key := [], mem := if st = stOk then k.mem else [] })
  let s3 := (s2.bnCnt e 1 cyc).pmcBn e 0x11 cyc
  let s4 := if refused then s3.bnCnt e 3 1 else s3
  let s5 := if st = stInvariantFailed then
      ((s4.bnCnt e 5 1).modEngine e (fun y => { y with marked := true })).unitError (srcBn e) 5
    else s4
  finishHandle (s5.putBnHandle core h { x with cycles := cyc, iterations := iter }) core h st

/-- BN_JOB_COMPLETE (R290): the computed outcome of the job on engine `e` is released, for both halves of a pair. -/
def bnCompleteOp (s : State) (e : Nat) : State :=
  match (s.engine e).owner with
  | none => s
  | some (core, h) =>
    let x := s.bnHandle core h
    match x.outcome with
    | none => s
    | some st =>
      if x.state ≠ .running ∨ x.abortStatus.isSome ∨ (x.op = 0x29 ∧ ¬ x.refusedInput ∧ x.iterations < x.need) then s
      else
        let cyc := s.jobCycles core x
        let s0 := if st = stInvariantFailed then s.bnEvent 0 else s
        (halves x h).foldl (fun s g => completeHalf s core g st cyc x.invariant x.iterations x.refusedInput) s0

/-- A bank has finished clearing: it is clean, and an aborted handle that holds it becomes DONE (R297). -/
def bankClearOp (s : State) (e b : Nat) : State :=
  if ((s.engine e).bank b).state ≠ .clearing then s
  else
    let s1 := s.modBank e b (fun _ => {})
    match (s.engine e).owner with
    | none => s1
    | some (core, h) =>
      let x := s.bnHandle core h
      match x.abortStatus with
      | some st => if x.engine = e ∧ x.bank = b ∧ x.state = .running then finishHandle s1 core h st else s1
      | none => s1

/-- The generator enters FAILED: every job in progress that needs it is aborted (R293). -/
def stopRandomJobs (s : State) : State :=
  let jobs := (List.range 64).filterMap (fun e => (s.engine e).owner)
  let (s1, any) := jobs.foldl (fun (acc : State × Bool) p =>
    let x := acc.1.bnHandle p.1 p.2
    if x.state = .running ∧ x.abortStatus = none ∧ opUsesRandom x.op then (abortJob acc.1 p.1 p.2 stRandomUnavailable, true)
    else acc) (s, false)
  if any then s1.bnEvent 3 else s1

/-! ### Background validations (R292, R302) -/

/-- Start the validation at the head of the queue, when none runs, on a ready engine without an open handle. -/
def startValidation (s : State) : State :=
  if s.bn.engines.any (fun p => p.2.background.isSome) then s
  else
    match s.bn.queue with
    | [] => s
    | r :: _ =>
      match (List.range 64).find? (fun e => s.engineReady e && (s.engine e).owner.isNone) with
      | none => s
      | some e =>
        let b := (s.engine e).pickBank
        ((s.modBank e b (fun _ => { state := .background })).modEngine e
          (fun x => { x with background := some (r, b), sliceRunning := true })).busyDistrict (districtOfBn e)

/-- BN_SLICE_END (R292): the context is suspended when a handle is open, else it continues; a waiting job then starts. -/
def sliceEndOp (s : State) (e progress : Nat) : State :=
  let x := s.engine e
  match x.background with
  | none => s
  | some (r, _) =>
    if ¬ x.sliceRunning then s
    else
      let s1 := s.putCurve r { s.curve r with progress := min 100 progress }
      let s2 := s1.bnCnt e 2 3200 |>.pmcBn e 0x12 3200
      match x.owner with
      | none => s2
      | some (core, h) =>
        let s3 := (s2.modEngine e (fun y => { y with sliceRunning := false })).bnCnt e 6 1
        -- a pair starts once neither of its engines runs a slice
        let main := if (s3.bnHandle core h).odd then h - 1 else h
        let y := s3.bnHandle core main
        let other := s3.bnHandle core (main + 1)
        let busy := (s3.engine y.engine).sliceRunning || (y.paired && (s3.engine other.engine).sliceRunning)
        if y.state = .running ∧ ¬ busy then s3.putBnHandle core main { y with started := true } else s3

/-- The first check of Table 10.9 that fails, 0 when all pass. -/
def curveCheck (c : CurveRec) (bases : List Nat) : Nat :=
  let v := c.curve
  let d : Int := (c.p : Int) + 1 - c.h * c.n
  if ¬ (Nat.log2 c.p + 1 = c.pbits ∧ c.p % 2 = 1 ∧ millerRabin c.p bases) then 1
  else if ¬ (c.a < c.p ∧ c.b < c.p) then 2
  else if (4 * c.a * c.a * c.a + 27 * c.b * c.b) % c.p = 0 then 3
  else if ¬ (c.gx < c.p ∧ c.gy < c.p ∧ ¬ (c.gx = 0 ∧ c.gy = 0) ∧ v.has c.gx c.gy) then 4
  else if ¬ (millerRabin c.n bases ∧ v.mul c.n v.base = none) then 5
  else if ¬ (d * d ≤ 4 * c.p) then 6
  else if c.n = c.p then 7
  else if (List.range 100).any (fun k => decide (powMod c.p (k + 1) c.n = 1)) then 8
  else 0

/-- `n` numbers of 72 random bytes. -/
def State.bases (s : State) : Nat → List Nat × State
  | 0 => ([], s)
  | n + 1 =>
    let (b, s1) := s.random 72
    let (l, s2) := State.bases s1 n
    (beNat b :: l, s2)

/-- End the background context of engine `e`: its bank clears and the next validation starts. -/
def endBackground (s : State) (e b : Nat) : State :=
  startValidation ((clearBank s e b).modEngine e (fun x => { x with background := none, sliceRunning := false }))

/-- CURVE_VALIDATION_COMPLETE (R302). -/
def validationOp (s : State) (e : Nat) : State :=
  match (s.engine e).background with
  | none => s
  | some (r, b) =>
    if ¬ (s.engine e).sliceRunning then s
    else
      let (bs, s1) := s.bases 80
      let c := s1.curve r
      let k := curveCheck c bs
      let c1 : CurveRec := if k = 0 then { c with passed := true, progress := 100 } else { c with state := .rejected, check := k }
      let s2 := s1.putCurve r c1
      let s3 := { s2 with bn := { s2.bn with queue := s2.bn.queue.filter (· != r) } }
      endBackground (if k = 0 then s3 else s3.bnEvent 4) e b

end Sys2Proof.Machine
end

