-- ==== Sys2Proof/Machine/Bulk.lean ====
section
/-! DEFINITION. The bulk cipher engines (chapter 11): streams, the checks of a submission, jobs and the modes. -/

namespace Sys2Proof.Machine

def State.bulkCnt (s : State) (k n : Nat) : State := { s with bulk := { s.bulk with counters := bump s.bulk.counters k n } }
def State.bulkEvent (s : State) (b : Nat) : State :=
  { s with bulk := { s.bulk with events := s.bulk.events ||| BitVec.ofNat 4 (2 ^ b) } }

def State.putStream (s : State) (c : Nat) (x : Stream) : State :=
  { s with bulk := { s.bulk with streams := tabPut {} s.bulk.streams c x } }

/-! ### Modes (Table 11.1) -/

/-- Weight of a mode per byte (R325). -/
def modeWeight (m : Nat) : Nat := if m = 0 then 0 else if m = 6 then 26 else 1

/-- The cipher of a side. -/
def StreamSide.cipher (x : StreamSide) : Cipher := if x.mode = 6 then tdesCipher x.key else aesCipher x.key

/-- One XTS block with its tweak (IEEE 1619). -/
def xtsBlock (key tweak b : Bytes) (enc : Bool) : Bytes :=
  let k := key.take 16
  xorBytes tweak ((if enc then aesEnc k else aesDec k) (xorBytes tweak b))

/-- The tweak times alpha: little-endian doubling in GF(2^128). -/
def xtsDouble (t : Bytes) : Bytes :=
  let v := beNat t.reverse
  (beBytes 16 (Nat.xor (v * 2 % 2 ^ 128) (if v.testBit 127 then 0x87 else 0))).reverse

def xtsBlocks (key : Bytes) (enc : Bool) : Bytes → List Bytes → Bytes
  | _, [] => []
  | tw, b :: t => xtsBlock key tw b enc ++ xtsBlocks key enc (xtsDouble tw) t

/-- Data units numbered from `n`. -/
def xtsUnits (key : Bytes) (enc : Bool) : Nat → List Bytes → Bytes
  | _, [] => []
  | n, u :: t =>
    xtsBlocks key enc (aesEnc (key.drop 16) (beBytes 16 n).reverse) (chunks 16 u) ++ xtsUnits key enc (n + 1) t

/-- Counter block after `k` more blocks. -/
def ctrAfter (n k : Nat) (b : Bytes) : Bytes :=
  let head := b.take (b.length - n)
  head ++ beBytes n ((beNat (b.drop (b.length - n)) + k) % 256 ^ n)

/-- Bytes of a data unit. -/
def duBytes (d : Nat) : Nat := if d = 1 then 512 else 4096

/-- Absorb blocks into a CMAC state: 16 bytes of state, then the last block, which waits for what follows. -/
def cmacAbsorb (c : Cipher) (chain data : Bytes) : Bytes :=
  let all := chunks 16 (chain.drop 16 ++ data)
  let st := (all.dropLast).foldl (fun x b => c.enc (xorBytes x b)) (chain.take 16)
  st ++ all.getLast?.getD []

/-- The MAC of a CMAC state. -/
def cmacFinish (c : Cipher) (chain : Bytes) : Bytes :=
  let k1 := cmacDouble (c.enc (zeros 16))
  let last := chain.drop 16
  let m := if last.length = 16 then xorBytes last k1 else xorBytes (padTo 16 (last ++ [0x80])) (cmacDouble k1)
  c.enc (xorBytes (chain.take 16) m)

/-- The chaining state of a side when its stream opens; AAD is absorbed into GHASH. -/
def openChain (mode : Nat) (key iv aad : Bytes) (tweak : Nat) : Bytes :=
  match mode with
  | 1 => iv
  | 2 => iv
  | 3 => bytes128 (ghash (aesEncrypt key 0) (chunks 16 aad)) ++ (iv.take 12 ++ [0, 0, 0, 2])
  | 4 => beBytes 8 tweak
  | 5 => zeros 16
  | 6 => iv.take 8
  | _ => []

/-- Pass data through a side: its output, and the side after it. -/
def StreamSide.pass (x : StreamSide) (du : Nat) (enc : Bool) (data : Bytes) : Bytes × StreamSide :=
  let c := x.cipher
  let n := c.size
  let grow := fun (chain : Bytes) => { x with chain := chain, done := x.done + data.length }
  match x.mode with
  | 1 | 6 =>
    let out := if enc then cbcEnc c x.chain data else cbcDec c x.chain data
    let ct := if enc then out else data
    (out, grow (if data = [] then x.chain else ct.drop (ct.length - n)))
  | 2 => (ctrMode c 16 x.chain data, grow (ctrAfter 16 (ceilDiv data.length 16) x.chain))
  | 3 =>
    let out := ctrMode c 4 (x.chain.drop 16) data
    let ct := if enc then out else data
    let h := aesEncrypt x.key 0
    let y := (chunks 16 ct).foldl (fun y b => gmul (y ^^^ word128 (padTo 16 b)) h) (word128 x.chain)
    (out, grow (bytes128 y ++ ctrAfter 4 (ceilDiv data.length 16) (x.chain.drop 16)))
  | 4 => (xtsUnits x.key enc (beNat x.chain) (chunks (duBytes du) data),
      grow (beBytes 8 (beNat x.chain + ceilDiv data.length (duBytes du))))
  | 5 => ([], grow (cmacAbsorb c x.chain data))
  | _ => (data, x)

/-- The tag of a side after its last data (modes 3 and 5). -/
def StreamSide.tag (x : StreamSide) (aadLen tagLen : Nat) : Bytes :=
  match x.mode with
  | 3 =>
    let h := aesEncrypt x.key 0
    let y := gmul (word128 x.chain ^^^ word128 (beBytes 8 (8 * aadLen) ++ beBytes 8 (8 * x.done))) h
    (bytes128 (y ^^^ aesEncrypt x.key (word128 (gcmJ0 x.key (x.iv.take 12))))).take tagLen
  | 5 => (cmacFinish x.cipher x.chain).take tagLen
  | _ => []

/-! ### Stream open (R309, R313, R314) -/

/-- The fields of a STREAM_OPEN payload (Table 11.2). -/
structure OpenFields where
  modeIn : Nat
  modeOut : Nat
  tagLen : Nat
  duSize : Nat
  ivIn : Bytes
  ivOut : Bytes
  tweak : Nat
  aadLen : Nat
  aad : Bytes

def openFields (p : Bytes) : OpenFields :=
  { modeIn := fld p 20 1, modeOut := fld p 21 1, tagLen := fld p 22 1, duSize := fld p 23 1, ivIn := padTo 16 (slice p 24 16),
    ivOut := padTo 16 (slice p 40 16), tweak := fld p 56 8, aadLen := fld p 64 2, aad := slice p 68 (fld p 64 2) }

def OpenFields.uses (f : OpenFields) (m : Nat) : Bool := f.modeIn == m || f.modeOut == m

/-- Key1 and Key2 of an XTS key are equal. -/
def xtsEqual (mode : Nat) (key : Bytes) : Bool := mode == 4 && key.take 16 == slice key 16 16

/-- R313. -/
def modeInvalid (f : OpenFields) (kin kout : Bytes) : Bool :=
  (f.modeIn == 0 && f.modeOut == 0) || (f.uses 5 && f.modeIn != 0 && f.modeOut != 0) ||
    (if f.uses 3 then decide (f.tagLen < 12 ∨ 16 < f.tagLen) else if f.uses 5 then decide (f.tagLen < 4 ∨ 16 < f.tagLen)
      else f.tagLen != 0) ||
    (if f.uses 4 then f.duSize != 1 && f.duSize != 2 else f.duSize != 0) ||
    decide (256 < f.aadLen) || (!f.uses 3 && f.aadLen != 0) || xtsEqual f.modeIn kin || xtsEqual f.modeOut kout

/-- A context that holds a stream, or that an accepted open has taken. -/
def Stream.taken (x : Stream) : Bool := decide (x.state ≠ .free ∨ x.units ≠ 0)

/-- Contexts that a tenant's streams have taken. -/
def State.streamsOf (s : State) (t : Nat) : Nat := (s.bulk.streams.filter (fun p => p.2.taken && p.2.tenant == t)).length

/-- The lowest free context (log entry 12). -/
def State.freeContext (s : State) : Option Nat :=
  (List.range 4096).find? (fun c => !(s.stream c).taken)

/-- The checks of R314 on an open in order, and MODE_INVALID of R313. -/
def State.openStatus (s : State) (x : Slot) (f : OpenFields) (kin kout : Bytes) : Nat :=
  let quota := (tabGet ({} : TenantImage) s.image.tenants x.tenant).streamQuota
  if (s.queue x.queue).mode ≠ 2 ∨ x.orderKey = 0 then stStreamQueueMode
  else if s.bulk.streams.any (fun p => decide (p.2.state ≠ .free ∧ p.2.channel = x.chan ∧ p.2.handle = x.orderKey)) ||
      s.bulk.jobs.any (fun j => decide (j.op = .openOp ∧ j.slot ≠ 65536 ∧ (s.slot j.slot).chan = x.chan ∧
        (s.slot j.slot).orderKey = x.orderKey)) then stStreamExists
  else if modeInvalid f kin kout then stModeInvalid
  else if quota ≤ s.streamsOf x.tenant ∨ s.freeContext = none then stStreamLimit
  else stOk

/-- A side of a new stream. -/
def openSide (mode : Nat) (h : Handle) (iv aad : Bytes) (tweak : Nat) : StreamSide :=
  { mode := mode, attr := h.attr, key := h.key, iv := iv, chain := openChain mode h.key iv aad tweak,
    rootSlot := h.rootSlot, rootGen := h.rootGen,
    resident := match h.parent with
      | .resident slot gen => some (slot, gen)
      | _ => none }

/-- Cache units of a stream binding: the keys of its sides and their subkeys (R309). -/
def streamBindingUnits (f : OpenFields) (kin kout : Bytes) : Nat :=
  let sub := fun (m : Nat) => if m = 3 then 16 else if m = 5 then 32 else 0
  unitsOf (kin.length + kout.length + sub f.modeIn + sub f.modeOut)

/-! ### Submission (R315, R320) -/

/-- Data of a segment or final. -/
def bulkData (op : BulkOp) (p : Bytes) : Bytes := if op = .final then p.drop 20 else p.drop 4

/-- The data length breaks Table 11.1 or 11.2. -/
def dataLengthBad (st : Stream) (op : BulkOp) (n : Nat) : Bool :=
  let bad := fun (m : Nat) =>
    match m with
    | 1 => n % 16 != 0
    | 4 => n % duBytes st.duSize != 0
    | 6 => n % 8 != 0
    | 2 | 3 | 5 => op != .final && n % 16 != 0
    | _ => false
  decide ((if op = .final then 8928 else 8944) < n) || bad st.sideIn.mode || bad st.sideOut.mode

/-- Admitted at or after the tick at which the stream's key retired. -/
def Stream.revokedFor (st : Stream) (x : Slot) : Bool :=
  match st.revokedAt with
  | some f => folioReached x.admitTick f
  | none => false

/-- The checks of R315 and R324 on a segment, final or abort of slot contents `x`. -/
def State.segmentStatus (s : State) (x : Slot) (op : BulkOp) : Nat :=
  match s.streamNamed x with
  | none => stStreamUnknown
  | some c =>
    let st := s.stream c
    let n := (bulkData op x.payload).length
    let tdes := decide (st.sideIn.mode = 6 ∨ st.sideOut.mode = 6)
    let gcmFull := fun (y : StreamSide) => decide (y.mode = 3 ∧ 2 ^ 36 - 32 < y.done + n)
    if op = .abort then stOk
    else if st.state = .failed then stStreamFailed
    else if tdes ≠ decide (x.func = 0x0812 ∨ x.func = 0x0813) then stModeInvalid
    else if x.aux ≠ st.next then stSegmentOrder
    else if dataLengthBad st op n then stSegmentLength
    else if gcmFull st.sideIn ∨ gcmFull st.sideOut ∨ 0xFFFFFFFF ≤ st.next then stStreamExhausted
    else if st.revokedFor x then stKeyRevoked
    -- TAG is zero when no input side verifies (R317)
    else if op = .final ∧ st.sideIn.mode ≠ 3 ∧ st.sideIn.mode ≠ 5 ∧ ¬ allZero (slice x.payload 4 16) then stFieldInvalid
    else stOk

/-- OP of BKSUB. -/
def bulkOpOf (op : Nat) : Option BulkOp :=
  match op with
  | 1 => some .openOp
  | 2 => some .segment
  | 3 => some .final
  | 4 => some .abort
  | _ => none

/-- Statuses that leave a mark in the window. -/
def State.noteBulk (s : State) (st : Nat) : State :=
  if st = stSegmentOrder then s.bulkCnt 4 1 else if st = stStreamLimit then s.bulkEvent 1 else s

/-- A key retired under an open stream: it becomes FAILED (R324). -/
def failStream (s : State) (c : Nat) : State :=
  let st := s.stream c
  if st.state ≠ .open then s
  else
    ((s.putStream c { st with state := .failed }).bulkEvent 2).raise evStreamFailed srcNone st.tenant
      (items [(2, c), (2, stKeyRevoked)])

/-- Accept a job of slot `k`. -/
def acceptJob (s : State) (k : Nat) (op : BulkOp) (context : Nat) (rekey : Bool) : State :=
  let x := s.slot k
  let j : BulkJob :=
    { slot := k, op := op, context := context, deadline := folioAdd x.start (x.cost.span - 1), order := s.bulk.accepted,
      data := bulkData op x.payload, tag := if op = .final then slice x.payload 4 16 else [], rekey := rekey }
  { s with bulk := { s.bulk with jobs := s.bulk.jobs ++ [j], accepted := s.bulk.accepted + 1 } }

/-- The engines' answer to a submission of the task of slot `k` (R320): its status, with the job accepted where OK. -/
def bulkAnswer (s : State) (k : Nat) (op : BulkOp) (kin kout : Handle) : Nat × State :=
  let x := s.slot k
  if op = .openOp then
    let f := openFields x.payload
    let kout1 : Handle := if f.modeOut = 0 then {} else kout
    let kin1 : Handle := if f.modeIn = 0 then {} else kin
    let st := s.openStatus x f kin1.key kout1.key
    if st ≠ stOk then (st, s.noteBulk st)
    else
      let units := streamBindingUnits f kin1.key kout1.key
      let quota := tabGet 0 s.ks.cacheQuota x.tenant
      if quota < s.streamUnits x.tenant + units then (stStreamCacheFull, s)
      else
        let c := s.freeContext.getD 0
        let (cache, n) := evict (quota - s.streamUnits x.tenant) units x.tenant (s.ks.cache.length + 1) s.ks.cache 0
        let s1 := { s with ks := { s.ks with cache := cache, counters := bump s.ks.counters 4 n } }
        -- the context is taken, and its stream is OPEN once the open's job completes with OK
        let st : Stream :=
          { tenant := x.tenant, channel := x.chan, queue := x.queue, handle := x.orderKey, tagLen := f.tagLen, duSize := f.duSize,
            aad := f.aad, units := units, sideIn := openSide f.modeIn kin1 f.ivIn f.aad f.tweak,
            sideOut := openSide f.modeOut kout1 f.ivOut f.aad f.tweak }
        (stOk, acceptJob (s1.putStream c st) k op c (f.modeIn != 0 && f.modeOut != 0))
  else
    let st := s.segmentStatus x op
    let c := (s.streamNamed x).getD 0
    if st ≠ stOk then
      let s1 := s.noteBulk st
      (st, if st = stKeyRevoked then failStream s1 c else s1)
    else (stOk, acceptJob s k op c ((s.stream c).sideIn.mode != 0 && (s.stream c).sideOut.mode != 0))

/-! ### Jobs (R316, R317, R323 to R326) -/

/-- An engine that runs no job and can take one. -/
def State.bulkReady (s : State) (e : Nat) : Bool :=
  s.unitOk (srcBk e) && s.districtUp (districtOfBk e) && !s.bulk.jobs.any (fun j => j.running && j.engines.contains e)

/-- Weighted bytes of a job. -/
def State.jobBytes (s : State) (j : BulkJob) : Nat :=
  let st := s.stream j.context
  j.data.length * (modeWeight st.sideIn.mode + modeWeight st.sideOut.mode)

/-- The next job to start: earliest deadline first, then acceptance order; deadlines compare from the present folio. -/
def State.nextJob (s : State) : Option BulkJob :=
  minBy (fun j => folioDiff j.deadline (folioDiff s.folio.now 1024) * 2 ^ 64 + j.order) (s.bulk.jobs.filter (fun j => !j.running))

def replaceJob (l : List BulkJob) (j : BulkJob) : List BulkJob := l.map (fun i => if i.order = j.order then j else i)

/-- Start the next job on the lowest ready engines, one, or two for a re-key (log entry 12). -/
def startJob (s : State) : State :=
  match s.nextJob with
  | none => s
  | some j =>
    let es := ((List.range 16).filter s.bulkReady).take (if j.rekey then 2 else 1)
    if es.length < (if j.rekey then 2 else 1) then s
    else
      let s1 := { s with bulk := { s.bulk with jobs := replaceJob s.bulk.jobs { j with running := true, engines := es } } }
      es.foldl (fun s e => s.busyDistrict (districtOfBk e)) s1

/-- What a completed job answers, and the state with the stream's context as the job leaves it. -/
def finishJob (s : State) (j : BulkJob) : Outcome × State :=
  let st := s.stream j.context
  let drop := fun (s : State) => s.putStream j.context {}
  match j.op with
  | .openOp =>
    ({ status := stOk, result := [] }, (s.putStream j.context { st with state := .open, next := 1 }).bulkCnt 3 1)
  | .abort => ({ status := stOk, result := [] }, drop s)
  | .segment =>
    let (mid, i) := st.sideIn.pass st.duSize false j.data
    let (out, o) := st.sideOut.pass st.duSize true mid
    ({ status := stOk, result := out }, s.putStream j.context { st with sideIn := i, sideOut := o, next := st.next + 1 })
  | .final =>
    let (mid, i) := st.sideIn.pass st.duSize false j.data
    let (out, o) := st.sideOut.pass st.duSize true mid
    let aad := st.aad.length
    let verifies := decide (i.mode = 3 ∨ i.mode = 5)
    if verifies ∧ i.tag aad st.tagLen ≠ j.tag.take st.tagLen then
      ({ status := stTagMismatch, result := [] }, ((drop s).bulkEvent 0).bulkCnt 5 1)
    else ({ status := stOk, result := out ++ o.tag aad st.tagLen }, drop s)

/-- Remove a job. A context taken by an open that did not complete is free again. -/
def removeJob (s : State) (j : BulkJob) : State :=
  let s1 := { s with bulk := { s.bulk with jobs := s.bulk.jobs.filter (fun i => decide (i.order ≠ j.order)) } }
  if j.op = .openOp ∧ (s1.stream j.context).state = .free then s1.putStream j.context {} else s1

/-- The job of a slot. -/
def State.jobOf (s : State) (k : Nat) : Option BulkJob := s.bulk.jobs.find? (fun j => j.slot == k)

/-- Withdraw the job of a slot (R321, R326): its stream is left as it was. -/
def withdrawJob (s : State) (k : Nat) : State :=
  match s.jobOf k with
  | none => s
  | some j => (removeJob s j).bulkCnt 7 1

/-- A job counted at its completion. -/
def countJob (s : State) (j : BulkJob) : State :=
  let w := s.jobBytes j
  let s1 := (s.bulkCnt 0 1).bulkCnt 1 w
  let s2 := if j.rekey then s1.bulkCnt 2 1 else s1
  j.engines.foldl (fun s e => ((s.pmcBk e 0x10 1).pmcBk e 0x11 (w / 16)).pmcBk e 0x12 (bit j.rekey)) s2

/-- A detected error of engine `e` stops its job, which runs once more from its unchanged context when it can complete by
its miss point; otherwise the answer of the slot is DEADLINE_SHED (R326). The job takes at most `ceil(1.6 n) + 64`
cycles. -/
def rerunJob (s : State) (e : Nat) : State × Option Nat :=
  match s.bulk.jobs.find? (fun j => j.running && j.engines.contains e) with
  | none => (s, none)
  | some j =>
    let st := s.stream j.context
    let tdes := decide (st.sideIn.mode = 6 ∨ st.sideOut.mode = 6)
    let need := (if tdes then ceilDiv (16 * j.data.length) 10 else ceilDiv j.data.length 16) + 64
    if ¬ j.rerun ∧ (need : Int) ≤ s.toMissPoint (s.slot j.slot) then
      let j1 : BulkJob := { j with running := false, engines := [], rerun := true }
      let s1 := { s with bulk := { s.bulk with jobs := replaceJob s.bulk.jobs j1 } }
      (((s1.bulkEvent 3).bulkCnt 6 1).raise evBkRerun (srcBk e) st.tenant (items [(2, j.context)]), none)
    else (removeJob s j, some j.slot)

end Sys2Proof.Machine
end

