-- ==== Sys2Proof/Machine/Rng.lean ====
section
/-! DEFINITION. Random number generation (chapter 12): health tests, conditioning, seeds and instances, the states of
Table 12.4, forced reseeds and draws. -/

namespace Sys2Proof.Machine

def State.rngCnt (s : State) (k n : Nat) : State := { s with rng := { s.rng with counters := bump s.rng.counters k n } }
def State.rngEvent (s : State) (b : Nat) : State := { s with rng := { s.rng with events := s.rng.events ||| BitVec.ofNat 5 (2 ^ b) } }

def State.source (s : State) (k : Nat) : Source := tabGet {} s.rng.sources k
def State.putSource (s : State) (k : Nat) (x : Source) : State := { s with rng := { s.rng with sources := tabPut {} s.rng.sources k x } }
def State.drbg (s : State) (i : Nat) : Drbg := tabGet {} s.rng.drbgs i
def State.putDrbg (s : State) (i : Nat) (x : Drbg) : State := { s with rng := { s.rng with drbgs := tabPut {} s.rng.drbgs i x } }
def State.setRng (s : State) (r : RngState) : State := { s with rng := { s.rng with state := r } }

/-- Device time in microseconds, at the resolution of the tick. -/
def State.micros (s : State) : Nat := s.folio.ticks * s.folio.periodUs

/-! ### Health tests (R329, R330) -/

/-- RCT and APT cutoffs of Table 12.2. -/
def rctCutoff (k : Nat) : Nat := if k = 0 then 81 else if k = 1 then 51 else 135
def aptCutoff (k : Nat) : Nat := if k = 0 then 828 else if k = 1 then 701 else 921

/-- The samples of a window, first sample in the most significant bit of the first byte. -/
def sampleBits (b : Bytes) : List Bool := b.flatMap (fun x => (List.range 8).map (fun i => x.getLsbD (7 - i)))

/-- The run length and value after a sample. -/
def rctStep (r : Nat × Bool) (x : Bool) : Nat × Bool := if r.1 ≠ 0 ∧ r.2 = x then (r.1 + 1, x) else (1, x)

/-- A run reaches the cutoff. -/
def rctFails (cut : Nat) : Nat × Bool → List Bool → Bool
  | _, [] => false
  | r, x :: t => let r1 := rctStep r x; decide (cut ≤ r1.1) || rctFails cut r1 t

/-- Times the window's first sample occurs in it. -/
def aptCount (b : List Bool) : Nat := (b.filter (fun x => some x == b.head?)).length

/-- The source's health is HEALTHY. -/
def State.healthy (s : State) (k : Nat) : Bool := decide ((s.source k).health = .healthy)

/-- The generator has been through its start-up. -/
def State.rngUp (s : State) : Bool :=
  match s.rng.state with
  | .ready | .degraded | .cOnly => true
  | _ => false

/-! ### States (R343 to R346) -/

/-- A forced reseed begins from source `k`: all output stops. -/
def beginForced (s : State) (k : Nat) : State :=
  let mark := fun (s : State) i => let d := s.drbg i
    if d.state = .running then s.putDrbg i { d with state := .reseeding } else s
  (List.range 8).foldl mark { s with rng := { s.rng with forced := some k } }

/-- RAND capacity is lost (R118). -/
def randLost (s : State) (amount : Nat) : State := s.capacityLost 3 srcRng amount

/-- The active source changes to `k` (event 0x46). -/
def changeActive (s : State) (k discarded : Nat) : State :=
  ({ s with rng := { s.rng with active := k } }).raise evActiveChanged srcRng 0 (items [(1, s.rng.active), (1, k), (1, discarded)])

/-- FAILED (R346): instances stop, their states and both pools are cleared; jobs in progress follow R293, and mask refresh
stops. -/
def rngFail (s : State) (last : Nat) : State :=
  let cap := s.capRand
  let cleared := fun (p : Nat × Drbg) => (p.1, ({ p.2 with state := .none, seed := [] } : Drbg))
  let r : Rng := { s.rng with state := .failed, poolInt := 0, poolTen := 0, forced := none, refilling := false, active := 3 }
  let s1 := { s with rng := { r with drbgs := s.rng.drbgs.map cleared } }
  let s2 := s1.raise evRngFailed srcRng 0 (items [(1, last)])
  let s3 := stopRandomJobs s2
  let s4 := if s3.ks.refresh then
      ({ s3 with ks := { s3.ks with refresh := false } }).raise evMaskRefreshStopped srcKeyStore 0 [] else s3
  if cap = 0 then s4 else randLost s4 cap

/-- C_ONLY (R345): a forced reseed from C, the tenant pool cleared. -/
def rngCOnly (s : State) (discarded : Nat) : State :=
  let cap := s.capRand
  let s1 := changeActive s 2 discarded
  let s2 := { s1 with rng := { s1.rng with state := .cOnly, poolTen := 0, refilling := false } }
  let s3 := beginForced (s2.raise evRngCOnly srcRng 0 []) 2
  if cap = 0 then s3 else randLost s3 cap

/-- Source `k` is no longer HEALTHY, with `discarded` seeds lost: the state follows Table 12.4. -/
def sourceLost (s : State) (k discarded : Nat) : State :=
  if ¬ s.rngUp then s
  else if k = 2 then (if s.rng.state = .cOnly then rngFail s 2 else s)
  else
    let other := 1 - k
    if s.rng.state = .cOnly then s
    else if ¬ s.healthy other then (if s.healthy 2 then rngCOnly s discarded else rngFail s k)
    else
      let s1 := if s.rng.active = k then beginForced (changeActive s other discarded) other else s
      if s1.rng.state = .degraded then s1 else (s1.setRng .degraded).raise evRngDegraded srcRng 0 (items [(1, other)])

/-- A source has requalified (R330): it returns as the standby, or in C_ONLY becomes active. -/
def sourceBack (s : State) (k : Nat) : State :=
  let s1 := s.raise evSourceHealthy srcRng 0 (items [(1, k)])
  if k = 2 then s1
  else
    match s1.rng.state with
    | .cOnly =>
      let s2 := beginForced (changeActive s1 k 0) k
      let s3 := { s2 with rng := { s2.rng with state := .degraded, refilling := true } }
      s3.raise evRngDegraded srcRng 0 (items [(1, k)])
    | .degraded => s1.setRng .ready
    | _ => s1

/-- A health test of source `k` fails (R330): test 1 RCT or 2 APT, with its run length or count. -/
def sourceFails (s : State) (k test value : Nat) : State :=
  let x := s.source k
  let startTest := decide (x.health = .startTest) || (decide (x.health = .requalifying) && x.requal == 0)
  let times := x.failTimes.filter (fun t => decide (s.second < t + 3600)) ++ [s.second]
  let quar := decide (3 ≤ times.length)
  let was := decide (x.health = .healthy)
  let y : Source :=
    { x with health := if quar then .quarantined else .requalifying, lastTest := test, failTimes := times, requal := 0,
             blocks := [], half := none, seeds := [], ownSeed := none, run := 0 }
  let s1 := ((s.putSource k y).rngEvent 0).rngCnt 7 1
  let s2 := if startTest then s1.raise evSourceStartFail srcRng 0 (items [(1, k), (1, test)])
    else s1.raise (if test = 1 then evSourceRctFail else evSourceAptFail) srcRng 0 (items [(1, k), (2, value)])
  let s3 := if quar then s2.raise evSourceQuarantined srcRng 0 (items [(1, k)]) else s2
  if was then sourceLost s3 k x.seeds.length else s3

/-! ### Conditioning and seeds (R332) -/

/-- Seeds a source's buffer holds. -/
def seedRoom (k : Nat) : Nat := if k = 2 then 2 else 8

/-- A released block: of window `n` and its samples. -/
def releasedBlock (k n : Nat) (samples : Bytes) : Bytes := (sha384B (beBytes 1 (0x41 + k) ++ beBytes 8 n ++ samples)).take 32

/-- Put a released block into the source: two make a seed. C's second seed is reserved for the security die's own
draws. -/
def Source.release (x : Source) (k : Nat) (b : Bytes) : Source :=
  match x.blocks with
  | [] => { x with blocks := [b] }
  | a :: _ =>
    let seed := a ++ b
    if k = 2 then
      (if x.ownSeed = none then { x with blocks := [], ownSeed := some seed }
       else if x.seeds = [] then { x with blocks := [], seeds := [seed] } else { x with blocks := [] })
    else { x with blocks := [], seeds := if x.seeds.length < seedRoom k then x.seeds ++ [seed] else x.seeds }

/-- Condition a passed window: one window of A or B, two consecutive ones of C. -/
def Source.condition (x : Source) (k n : Nat) (samples : Bytes) : Source :=
  if k ≠ 2 then x.release k (releasedBlock k n samples)
  else
    match x.half with
    | none => { x with half := some samples }
    | some h => ({ x with half := none }).release 2 (releasedBlock 2 (n - 1) (h ++ samples))

/-- A window of source `k` ends with the given samples, 128 bytes (R329, R330). -/
def windowEnd (s : State) (k : Nat) (samples : Bytes) : State :=
  let x := s.source k
  let b := sampleBits samples
  if k > 2 ∨ samples.length ≠ 128 ∨ x.health = .notStarted ∨ x.health = .quarantined then s
  else
    let n := x.windows
    let s0 := s.putSource k { x with windows := n + 1 }
    if rctFails (rctCutoff k) (x.run, x.runBit) b then sourceFails s0 k 1 (rctCutoff k)
    else if aptCutoff k ≤ aptCount b then sourceFails s0 k 2 (aptCount b)
    else
      let r := b.foldl rctStep (x.run, x.runBit)
      let y : Source := { x with windows := n + 1, passed := min 0xFFFFFFFF (x.passed + 1), run := r.1, runBit := r.2 }
      match x.health with
      | .requalifying =>
        if x.requal + 1 = 65 then sourceBack (s.putSource k { y with health := .healthy, requal := 0 }) k
        else s.putSource k { y with requal := x.requal + 1 }
      | _ => s.putSource k (({ y with health := .healthy }).condition k n samples)

/-- SOURCE_WINDOW_END (R329). -/
def execSourceWindowEnd (source : Nat) (samples : Bytes) (s : State) : Host.Outcome State Fault Refusal :=
  .next (windowEnd s source samples)

/-- SOURCE_TEST_FAILURE (R330): a test fails in the cycle in which it is detected. -/
def execSourceTestFailure (source test value : Nat) (s : State) : Host.Outcome State Fault Refusal :=
  let h := (s.source source).health
  if source ≤ 2 ∧ (test = 1 ∨ test = 2) ∧ h ≠ .notStarted ∧ h ≠ .quarantined then .next (sourceFails s source test value)
  else .next s

/-- Q1.15 of a ratio, toward zero, saturating (R331). -/
def q15 (num : Int) (den : Nat) : BitVec 16 := BitVec.ofInt 16 (max (-32767) (min 32767 ((num * 32768).tdiv den)))

/-- SOURCE_ESTIMATE (R331): `ones` of 2^20 samples, and the eight lagged sums. -/
def execSourceEstimate (source ones : Nat) (sums : List Int) (s : State) : Host.Outcome State Fault Refusal :=
  let x := s.source source
  if 2 < source ∨ x.health = .notStarted ∨ x.health = .quarantined then .next s
  else
    let bias := BitVec.ofInt 16 (((ones : Int) - 2 ^ 19).tdiv 16)
    let corr := (List.range 8).map (fun k => (k + 1, q15 (sums.getD k 0) (2 ^ 20 - (k + 1))))
    let s1 := s.putSource source { x with bias := bias, corr := corr.foldl (fun t p => tabPut 0 t p.1 p.2) x.corr }
    let top := tabGet 0 s.image.rngThresholds source
    match ((0, bias) :: corr).find? (fun p => decide (top < p.2.toInt.natAbs)) with
    | none => .next s1
    | some p =>
      if top = 0 ∨ x.alertSecond = some s.second then .next s1
      else
        let s2 := s1.putSource source { s1.source source with alertSecond := some s.second }
        .next ((s2.rngEvent 3).raise evEstimateAlert srcRng 0 (items [(1, source), (1, p.1), (2, p.2.toNat)]))

/-! ### Instances (R333 to R335, R348) -/

/-- What an instance is instantiated from: seed, nonce and personalisation string (R333). -/
def instantiation (s : State) (i : Nat) (seed : Bytes) : Bytes :=
  seed ++ (beBytes 6 s.folio.now ++ beBytes 1 i ++ zeros 9) ++
    (beBytes 8 Config.serial.toNat ++ beBytes 1 i ++ beBytes 3 s.recorder.cycles ++ padTo 32 s.rng.pers)

/-- Take the oldest seed of a source. -/
def State.takeSeed (s : State) (k : Nat) : Option (Bytes × State) :=
  match (s.source k).seeds with
  | [] => none
  | x :: t => some (x, s.putSource k { s.source k with seeds := t })

/-- Instance `i` reseeds from a seed of source `k`. -/
def reseed (s : State) (i k : Nat) (seed : Bytes) : State :=
  let d := s.drbg i
  let d1 : Drbg := { d with state := .running, source := k, reseeds := (d.reseeds + 1) % 2 ^ 16, seed := seed, lastReseed := s.micros }
  ((s.putDrbg i d1).rngCnt 0 1).pmcRng 0x13 1

/-- DRBG_SCHEDULED_RESEED (R334): at 128 µs from the last, from the active source; in C_ONLY one instance in turn whenever
C has a seed. With the buffer empty it waits. -/
def execDrbgScheduledReseed (instance_ : Nat) (s : State) : Host.Outcome State Fault Refusal :=
  let d := s.drbg instance_
  let due := decide (d.lastReseed + 128 ≤ s.micros) || decide (s.rng.state = .cOnly)
  if 8 ≤ instance_ ∨ ¬ s.rngUp ∨ s.rng.forced.isSome ∨ d.state ≠ .running ∨ ¬ due then .next s
  else
    match s.takeSeed s.rng.active with
    | none => .next s
    | some (seed, s1) => .next (reseed s1 instance_ s.rng.active seed)

/-- FORCED_RESEED_COMPLETE (R335): each instance from its own seed of the source, all of them from one seed of C. -/
def execForcedReseedComplete (cycles : Nat) (s : State) : Host.Outcome State Fault Refusal :=
  match s.rng.forced with
  | none => .next s
  | some k =>
    let is := (List.range 8).filter (fun i => decide ((s.drbg i).state = .reseeding))
    let seeds := (s.source k).seeds
    if seeds.length < (if k = 2 then 1 else is.length) then .next s
    else
      let seedFor := fun (i : Nat) => if k = 2 then seeds.headD [] ++ beBytes 1 i else seeds.getD (is.idxOf i) []
      let s1 := s.putSource k { s.source k with seeds := seeds.drop (if k = 2 then 1 else is.length) }
      let s2 := is.foldl (fun s i => reseed s i k (seedFor i)) { s1 with rng := { s1.rng with forced := none } }
      .next (((s2.rngEvent 1).rngCnt 1 1).raise evForcedReseed srcRng 0 (items [(1, k), (2, cycles)]))

/-- A forced reseed by command (R335). -/
def commandReseed (s : State) (chan : Nat) : State :=
  if s.rng.state = .ready ∨ s.rng.state = .degraded then
    (beginForced s s.rng.active).raise evReseedCommanded srcRng 0 (items [(4, chan)])
  else s

/-- RNG_CTRL_RESEED (R335). -/
def execRngCtrlReseed (chan : Nat) (s : State) : Host.Outcome State Fault Refusal :=
  .next (if s.managed then commandReseed s chan else s)

/-- TENANT_POOL_FULL (R345): after the forced reseed that ended C_ONLY, the refilled pool lets RAND capacity count again
from the next tick. -/
def execTenantPoolFull (s : State) : Host.Outcome State Fault Refusal :=
  if s.rng.refilling ∧ s.rng.forced = none ∧ (s.rng.state = .ready ∨ s.rng.state = .degraded) then
    .next { s with rng := { s.rng with poolTen := s.rng.poolSize, refillDone := true } }
  else .next s

/-- DRBG_INSTANCE_ERROR (R348). -/
def execDrbgInstanceError (instance_ : Nat) (s : State) : Host.Outcome State Fault Refusal :=
  let d := s.drbg instance_
  if 8 ≤ instance_ ∨ (d.state ≠ .running ∧ d.state ≠ .reseeding) then .next s
  else
    let times := d.faultTimes.filter (fun t => decide (s.second < t + 3600)) ++ [s.second]
    let quar := decide (2 ≤ times.length)
    let cap := s.capRand
    let s1 := (s.putDrbg instance_ { d with state := .withdrawn, seed := [], faultTimes := times, quarantined := quar }).rngEvent 4
    let s2 := s1.raise evInstanceFault srcRng 0 (items [(1, instance_), (1, bit quar)])
    .next (if s2.capRand < cap then randLost s2 (cap - s2.capRand) else s2)

/-- DRBG_INSTANCE_RETURN (R348): after its known-answer test, from a fresh seed of the active source; it counts from the
next tick. -/
def execDrbgInstanceReturn (instance_ : Nat) (katOk : Bool) (s : State) : Host.Outcome State Fault Refusal :=
  let d := s.drbg instance_
  if 8 ≤ instance_ ∨ d.state ≠ .withdrawn ∨ d.quarantined ∨ ¬ s.rngUp then .next s
  else if ¬ katOk then .next (s.raise evDrbgKatFail srcRng 0 (items [(1, instance_)]))
  else
    match s.takeSeed s.rng.active with
    | none => .next s
    | some (seed, s1) =>
      let d1 : Drbg := { d with state := if s.rng.forced.isSome then .reseeding else .running, source := s.rng.active,
                                seed := instantiation s1 instance_ seed, lastReseed := s.micros, returned := true }
      .next (s1.putDrbg instance_ d1)

/-! ### Draws (R337 to R340, R342, R345, R346) -/

def State.randPort (s : State) (core : Nat) : RandPort := tabGet {} s.cores.rand core
def State.putRandPort (s : State) (core : Nat) (x : RandPort) : State :=
  { s with cores := { s.cores with rand := tabPut {} s.cores.rand core x } }

/-- Take `n` blocks from a pool. -/
def drawBlocks (s : State) (tenant : Bool) (n : Nat) : Bytes × State :=
  let (b, s1) := s.random (16 * n)
  let r := s1.rng
  let r1 : Rng := if tenant then { r with poolTen := r.poolTen - n } else { r with poolInt := r.poolInt - n }
  let s2 := { s1 with rng := r1 }
  (b, ((s2.rngCnt (if tenant then 3 else 2) n).pmcRng (if tenant then 0x12 else 0x11) n).pmcRng 0x10 n)

/-- The status of a draw. -/
def State.drawStatus (s : State) (tenant : Bool) : Nat :=
  if ¬ s.rng.ready then stRandomNotReady
  else
    match s.rng.state with
    | .ready | .degraded => stOk
    | .cOnly => if tenant then stRandomUnavailable else stOk
    | _ => stRandomUnavailable

/-- A refused draw is counted (Table 12.6); event 0x4F for tenant draws, at most once per second. -/
def refuseDraw (s : State) (tenant : Option Nat) (st : Nat) : State :=
  let s1 := s.rngCnt 6 1
  if st ≠ stRandomUnavailable then s1
  else
    let s2 := s1.rngEvent 2
    match tenant with
    | none => s2
    | some t =>
      let n := s.rng.drawsRefused + 1
      if s.rng.drawRefusedSecond = some s.second then { s2 with rng := { s2.rng with drawsRefused := n } }
      else
        ({ s2 with rng := { s2.rng with drawsRefused := 0, drawRefusedSecond := some s.second } }).raise evTenantDrawRefused
          srcRng t (items [(2, t), (4, n)])

/-- RREQ of the task of a core; none is a protection fault of kind SUBMISSION (R340). -/
def rreqOp (s : State) (core value : Nat) : Option State :=
  match s.taskOf core with
  | none => some s
  | some _ =>
    let n := value % 16
    if n = 0 ∨ 8 < n ∨ (s.randPort core).draw.isSome then none
    else some ((s.putRandPort core { s.randPort core with draw := some (false, n, 0) }).taskFlag core flagRandomReady false)

/-- The function lies in the 0x09xx group, which may draw tenant blocks. -/
def drawsTenant (func : Nat) : Bool := func / 256 == 9

/-- Bytes of a slot's result window. -/
def Slot.windowSize (x : Slot) : Nat := ceilDiv x.cost.lmax 256 * 256

/-- RTEN of the task of a core (R340). -/
def rtenOp (s : State) (core value : Nat) : Option State :=
  match s.taskOf core with
  | none => some s
  | some (_, x, _) =>
    let n := value % 512
    let off := bitsOf value 31 16
    if n = 0 ∨ 256 < n ∨ off % 16 ≠ 0 ∨ x.windowSize < off + 16 * n ∨ ¬ drawsTenant x.func ∨ (s.randPort core).draw.isSome then none
    else some ((s.putRandPort core { s.randPort core with draw := some (true, n, off) }).taskFlag core flagRandomReady false)

/-- The draw of a core delivers its blocks or its status (R339). -/
def completeDraw (s : State) (core : Nat) : State :=
  let p := s.randPort core
  match p.draw, s.taskOf core with
  | some (tenant, n, off), some (k, x, _) =>
    let st := s.drawStatus tenant
    let s1 :=
      if st ≠ stOk then
        refuseDraw (s.putRandPort core { p with status := st, delivered := 0, draw := none }) (if tenant then some x.tenant else none) st
      else
        let (b, s2) := drawBlocks s tenant n
        let rb := if tenant then p.rbuf
          else (List.range n).foldl (fun t i => tabPut 0 t i (word128 (b.drop (16 * i)))) []
        let s3 := s2.putRandPort core { p with status := stOk, delivered := n, draw := none, rbuf := rb }
        if tenant then s3.modSlot k (fun x => { x with window := memWrite x.window off b }) else s3
    s1.taskFlag core flagRandomReady true
  | _, _ => s

/-- RANDOM_DRAW_COMPLETE (R339). -/
def execRandomDrawComplete (core : Nat) (s : State) : Host.Outcome State Fault Refusal := .next (completeDraw s core)

/-- A read of RNG_RANDOM: 32 fresh bits from the internal pool, or the status of its refusal (R342, R345, R346). -/
def readRandom (s : State) : Except Nat (Word32 × State) :=
  let st := if ¬ s.rng.ready then stRandomNotReady
    else if s.rng.state = .ready ∨ s.rng.state = .degraded then stOk else stRandomUnavailable
  if st ≠ stOk then .error st
  else
    let (b, s1) := drawBlocks s false 1
    .ok (BitVec.ofNat 32 (fld b 0 4), s1)

/-- RNG_RANDOM_READ (R342). -/
def execRngRandomRead (chan word : Nat) (s : State) : Host.Outcome State Fault Refusal :=
  if ¬ s.managed ∨ 16 ≤ word ∨ ((s.chan (chan % 2 ^ 15)).state = .open ∧ (s.chan (chan % 2 ^ 15)).tenant ≠ 0) then .next s
  else
    match readRandom s with
    | .error st => .next (refuseDraw s none st)
    | .ok (w, s1) => .next { s1 with readBack := w }

/-- The tick's part: the pools are filled from what the generator put out in the folio that ends (R336 to R338), and
capacity returns (R345, R348). -/
def tickRng (s : State) : State :=
  let r := s.rng
  let runs := s.rngUp && r.forced.isNone && (List.range 8).any (fun i => decide ((s.drbg i).state = .running))
  let back := fun (p : Nat × Drbg) => (p.1, ({ p.2 with returned := false } : Drbg))
  let r1 : Rng := { r with drbgs := r.drbgs.map back, refilling := r.refilling && !r.refillDone, refillDone := false }
  let r2 : Rng := if runs then
      { r1 with poolInt := 4096, poolTen := if r.state = .cOnly ∨ (r.refilling ∧ ¬ r.refillDone) then r.poolTen else r.poolSize }
    else r1
  let s1 := { s with rng := r2 }
  if s.capRand < s1.capRand then
    s1.raise evCapacityRestored srcAdmission 0 (items [(1, 3), (1, srcRng)])
  else s1

end Sys2Proof.Machine
end

