-- ==== Sys2Proof/Machine/Power.lean ====
section
/-! DEFINITION. Power districts (R110, R281, R474 to R477) and the public halves of the device's keys. -/

namespace Sys2Proof.Machine

/-! ### Public keys -/

/-- SHA-384 of the identity public key (DEV_IDHASH); zero in BLANK and TEST. -/
def State.idHash (s : State) : Bytes :=
  if s.lc.state = .blank ∨ s.lc.state = .test ∨ s.ks.idk = [] then zeros 48 else sha384B (4 :: public384 s.ks.idk)

/-! ### Status pins (R22, Table 1.8) -/

/-- READY, ALARM_N and ROLE as the device drives them; none in SLEEP, where the pins are not driven. -/
def State.statusPins (s : State) : Option (Bool × Bool × Bool) :=
  match s.dev.state with
  | .reset | .start => some (false, !s.tmp.latch, false)
  | .service => some (true, true, true)
  | .standby => some (true, true, false)
  | .recovery => if s.lc.state = .scrapped then some (false, false, true) else some (false, !s.tmp.latch, false)
  | .tampered => some (false, false, false)
  | .sleep => none

/-! ### Units and districts (R16) -/

/-- Source codes of the units of a district. -/
def districtUnits (d : Nat) : List Nat :=
  if d < 16 then (List.range 8).map (fun i => srcTc (8 * d + i))
  else if d < 20 then (List.range 16).map (fun i => srcBn (16 * (d - 16) + i))
  else (List.range 4).map (fun i => srcBk (4 * (d - 20) + i))

/-- The district of a unit, if it lies in one. -/
def unitDistrict (u : Nat) : Option Nat :=
  if 0x80 ≤ u ∧ u ≤ 0xFF then some (districtOfTc (u - 0x80))
  else if 0x40 ≤ u ∧ u ≤ 0x7F then some (districtOfBn (u - 0x40))
  else if 0x2C ≤ u ∧ u ≤ 0x3B then some (districtOfBk (u - 0x2C))
  else none

def State.district (s : State) (d : Nat) : District := tabGet {} s.pwr.districts d
def State.putDistrict (s : State) (d : Nat) (x : District) : State :=
  { s with pwr := { s.pwr with districts := tabPut {} s.pwr.districts d x } }

/-- Code of Table 18.7. -/
def DistrictState.code : DistrictState → Nat
  | .active => 0
  | .gated => 1
  | .retain => 2
  | .off => 3

def districtOfCode (n : Nat) : DistrictState := if n = 0 then .active else if n = 1 then .gated else if n = 2 then .retain else .off

/-- Wake tolerance of queue `q` (PWR_Q_TOL) and the districts it is mapped to. -/
def State.queueTol (s : State) (q : Nat) : Nat := s.inEffect (0xE05000 + 4 * q)
def State.queueMap (s : State) (q : Nat) : Nat := tabGet 0 s.pwr.qMap q

/-- The smallest tolerance among the enabled queues mapped to a district (R476). -/
def State.districtTol (s : State) (d : Nat) : Nat :=
  ((s.pwr.qMap.filter (fun p => p.2.testBit d && s.queueEnabled p.1)).map (fun p => s.queueTol p.1)).foldl min 0xFFFF

/-- Code of the permitted state (R476); 0xFFFF is no limit. -/
def State.permitted (s : State) (d : Nat) : Nat :=
  let t := s.districtTol d
  if t = 0 then 0 else if t < 40 then 1 else if t < 1500 then 2 else 3

/-- Engines of big-number district 16 + g that are present and not quarantined. -/
def State.bnPresent (s : State) (g : Nat) : Nat := s.unitsHeld (srcBn (16 * g)) 16

/-- R281: the lowest big-number districts that together hold at least C engines are kept ACTIVE. -/
def State.heldBn (s : State) (d : Nat) : Bool :=
  decide (16 ≤ d ∧ d < 20) &&
    decide (((List.range (d - 16)).map s.bnPresent).sum < s.cores.library.concurrency)

/-- R474: a unit withdrawn for a test keeps its district ACTIVE. -/
def State.heldTest (s : State) (d : Nat) : Bool := (districtUnits d).any (fun u => decide (u ∈ s.faults.withdrawn))

def State.heldActive (s : State) (d : Nat) : Bool := s.heldBn d || s.heldTest d

end Sys2Proof.Machine
end

