-- ==== Sys2Proof/Machine/Regs1.lean ====
section
/-! DEFINITION. What the management registers of the DEV, FOLIO, PORT, SRP, ADM and SQ windows read (chapters 01 to 05).
Each function takes a byte offset in its window, a multiple of 4, and answers the register's value; a reserved address
reads 0 (R86). -/

namespace Sys2Proof.Machine

/-- Upper and lower halves of a 64-bit value. -/
def hi32 (v : Nat) : Nat := v / 2 ^ 32 % 2 ^ 32
def lo32 (v : Nat) : Nat := v % 2 ^ 32

/-- Word `w` of a byte string, four bytes, the first most significant. -/
def wordAt (b : Bytes) (w : Nat) : Nat := fld b (4 * w) 4

/-- Counter pages: offset `o` in a page of `n` counters holds HI(k) at 8k and LO(k) after it; the HI register's value and
the LO register's capture are read elsewhere. -/
def cntIndex (o n : Nat) : Option Nat := if o < 8 * n ∧ o % 8 = 0 then some (o / 8) else none

/-- Device-state code (Table 1.6). -/
def DevState.code : DevState → Nat
  | .reset => 0
  | .start => 1
  | .service => 2
  | .standby => 3
  | .recovery => 4
  | .tampered => 5
  | .sleep => 6

/-- The per-channel copy of a selector register (R87, SEL registers). -/
def State.selector (s : State) (chan addr : Nat) : Nat := tabGet 0 (s.chan chan).sel addr

/-! ### DEV (chapters 01, 16) -/

def State.devStateReg (s : State) : Nat :=
  bit s.paired * 2 ^ 8 + bit s.rng.ready * 2 ^ 7 + bit s.lc.dbg.active * 2 ^ 6 + bit s.tmp.latch * 2 ^ 5 +
    bit (s.dev.state == .service) * 2 ^ 4 + s.dev.state.code

/-- A capture time: cycles [31:8] and operating seconds. -/
def timeHi (seconds cycles : Nat) : Nat := cycles % 2 ^ 24 * 256 + seconds / 2 ^ 32 % 256

def readDev (s : State) (o : Nat) : Nat :=
  if 0x10 ≤ o ∧ o ≤ 0x3C then wordAt s.idHash ((o - 0x10) / 4)
  else
    let c := s.boot.cause
    match o with
    | 0x00 => 0x1A3200B0
    | 0x04 => hi32 Config.serial.toNat
    | 0x08 => lo32 Config.serial.toNat
    | 0x40 => s.devStateReg
    | 0x44 => hi32 s.dev.entryFolio
    | 0x48 => lo32 s.dev.entryFolio
    | 0x4C => s.unitsHeld 0x08 4 * 2 ^ 24 + s.unitsHeld 0x2C 16 * 2 ^ 16 + s.unitsHeld 0x40 64 * 2 ^ 8 + s.unitsHeld 0x80 128
    | 0x100 => c.reason * 2 ^ 28 + c.step * 2 ^ 24 + c.attempt * 2 ^ 16 + c.cause
    | 0x104 => lo32 c.data
    | 0x108 => timeHi c.seconds c.cycles
    | 0x10C => lo32 c.seconds
    | 0x110 => s.boot.attempts
    | _ => 0

/-! ### FOLIO (chapter 02) -/

def SyncState.code : SyncState → Nat
  | .free => 0
  | .acquire => 1
  | .locked => 2
  | .holdover => 3
  | .unaligned => 4

def SyncMode.code : SyncMode → Nat
  | .free => 0
  | .ptp => 1
  | .ptpPps => 2

def GroupState.code : GroupState → Nat
  | .clean => 0
  | .dirty => 1
  | .armed => 2

def State.group (s : State) (g : Nat) : Group := tabGet {} s.folio.groups g
def State.putGroup (s : State) (g : Nat) (x : Group) : State :=
  { s with folio := { s.folio with groups := tabPut {} s.folio.groups g x } }

def readFolio (s : State) (o : Nat) : Nat :=
  let f := s.folio
  if 0x100 ≤ o ∧ o < 0x500 then
    let g := s.group ((o - 0x100) / 0x10)
    match o % 0x10 with
    | 0x0 => min 0xFFFF g.writes * 2 ^ 16 + bit g.lastRefused * 4 + g.state.code
    | 0x4 => hi32 g.folio
    | 0x8 => lo32 g.folio
    | _ => 0
  else
    match o with
    | 0x00 => 1600 * f.periodUs * 2 ^ 8 + f.periodUs
    | 0x0C => bit f.stepped * 2 ^ 12 + f.ptpPort * 2 ^ 8 + f.sync.code * 2 ^ 4 + f.mode.code
    | 0x10 => if f.sync = .free then 0 else twos 32 f.offset
    | 0x14 => 0x10 * 2 ^ 8 + twos 8 f.slewLast
    | 0x18 => min 0xFFFFFFFF f.sinceSync
    | _ => 0

/-! ### PORT (chapter 03) -/

def readPort (s : State) (o : Nat) : Nat :=
  let i := o / 0x200
  let r := o % 0x200
  let p := s.port i
  let c := p.cfg
  if 16 < i then 0
  else if 0x20 ≤ r ∧ r < 0x30 then tabGet 0 c.ipv4 ((r - 0x20) / 4) % 2 ^ 32
  else if 0x40 ≤ r ∧ r < 0x80 then tabGet 0 c.ipv6 ((r - 0x40) / 16) / 2 ^ (32 * (3 - r / 4 % 4)) % 2 ^ 32
  else
    match r with
    | 0x00 => bit c.present * 2 ^ 31 + physOf i * 2 ^ 26 + (if i = 16 then 0 else c.mode) * 2 ^ 24 + c.ifc * 2 ^ 16 +
        bit c.macsec * 2 ^ 15 + c.vlan * 2 ^ 13 + bit c.ptp * 2 ^ 12
    | 0x04 => p.speed * 2 ^ 5 + bit p.ipReady * 2 ^ 4 + bit p.macsecLive * 2 ^ 3 + bit p.fecOk * 4 + bit p.pcsLock * 2 + bit p.link
    | 0x08 => p.events.toNat
    | 0x0C => c.mac / 2 ^ 32
    | 0x10 => lo32 c.mac
    | _ => 0

/-! ### SRP (chapter 03) -/

def ChanState.code : ChanState → Nat
  | .free => 0
  | .pending => 1
  | .open => 2
  | .closing => 3

/-- Channels OPEN or CLOSING. -/
def State.openChannels (s : State) : Nat :=
  (s.srp.channels.filter (fun p => decide (p.2.state = .open ∨ p.2.state = .closing))).length

def readSrp (s : State) (chan o : Nat) : Nat :=
  let x := s.chan (s.selector chan 0x30010)
  if 0x1000 ≤ o ∧ o ≤ 0x1800 then
    let t := (o - 0x1000) / 4
    (tabGet ({} : TenantImage) s.image.tenants t).channelQuota * 2 ^ 16 + s.tenantChannels t
  else if 0x2000 ≤ o ∧ o ≤ 0x2800 then (tabGet ({} : TenantImage) s.image.tenants ((o - 0x2000) / 4)).hsRate
  else
    match o with
    | 0x00 => 2 * 2 ^ 24 + s.srp.udpPort
    | 0x04 => s.srp.idleS * 2 ^ 16 + s.srp.hsMs
    | 0x08 => s.pendingChannels * 2 ^ 16 + s.openChannels
    | 0x0C => s.srp.events.toNat
    | 0x10 => s.selector chan 0x30010
    | 0x14 => x.state.code * 2 ^ 30 + x.phys * 2 ^ 28 + x.authAlg * 2 ^ 26 + x.tenant * 2 ^ 16 + x.clientKey
    | 0x18 => x.gen
    | 0x2C => min 0xFFFFFFFF x.idle
    | _ => 0

/-! ### ADM (chapter 04) -/

/-- Admission runs: the capacities are in force. -/
def State.admRuns (s : State) : Bool :=
  match s.dev.state with
  | .service | .standby => true
  | _ => false

/-- CORE, BN, BULK or RAND charges held in the present folio. -/
def State.chargedNow (s : State) (c : Nat) : Nat :=
  let f := s.folio.now
  match c with
  | 0 => ((List.range 16).map (fun b => s.charged (.core b) f)).sum
  | 1 => s.charged .bn f
  | 2 => s.charged .bulk f
  | _ => s.charged .rand f

/-- The cost record that ADM_COST_SEL names, and whether the named tenant may use the function. -/
def State.costSelected (s : State) (sel : Nat) : Option Cost × Bool :=
  let t := sel % 2 ^ 10
  let func := sel / 2 ^ 16
  if isMgmt func then (some (mgmtCost func), t == 0)
  else
    match s.cores.library.find t func with
    | none => (none, false)
    | some r =>
      let im := tabGet ({} : TenantImage) s.image.tenants t
      let std := decide (0x100 ≤ func ∧ func < 0x8000)
      (some r.cost, decide (r.placed ≠ 0) && (decide (r.entry.kind ≠ 2) || t == 0) && (!std || decide (func ∈ im.enabled)))

def readAdm (s : State) (chan o : Nat) : Nat :=
  let f := s.folio.now
  let (cost, valid) := s.costSelected (s.selector chan 0x40200)
  let k := cost.getD {}
  if 0x1000 ≤ o then s.inEffect (0x40000 + o)
  else if 0x40 ≤ o ∧ o < 0x80 then (if s.admRuns then s.capCore false ((o - 0x40) / 4) f else 0)
  else if 0x80 ≤ o ∧ o ≤ 0xC0 then (if s.admRuns then s.capEg ((o - 0x80) / 4) else 0)
  else if 0xD0 ≤ o ∧ o ≤ 0xDC then s.chargedNow ((o - 0xD0) / 4)
  else if 0x04 ≤ o ∧ o ≤ 0x24 ∧ ¬ s.admRuns then 0
  else
    match o with
    | 0x00 => s.admA
    | 0x04 => 128 * s.perCore
    | 0x08 => ((List.range 16).map (fun b => s.capCore false b f)).sum
    | 0x0C => s.nomBn
    | 0x10 => s.capBn false f
    | 0x14 => s.reserveLeft f
    | 0x18 => s.nomBulk
    | 0x1C => s.capBulk false f
    | 0x20 => s.nomRand
    | 0x24 => s.capRand
    | 0xE4 => s.adm.examined * 2 ^ 16 + s.adm.admitted
    | 0xE8 => min 0xFFFF s.adm.undecided * 2 ^ 16 + min 0xFFFF s.adm.owed
    | 0xEC => s.adm.events.toNat
    | 0x200 => s.selector chan 0x40200
    | 0x204 => k.core
    | 0x208 => k.bn
    | 0x20C => k.bulk
    | 0x210 => k.rand
    | 0x214 => k.lmax
    | 0x218 => bit valid * 2 ^ 31 + (if cost.isSome then minClass k.span else 0) * 2 ^ 16 + k.span
    | 0x21C => k.place
    | _ => 0

/-! ### SQ (chapter 05) -/

def SlotState.code : SlotState → Nat
  | .free => 0
  | .queued => 1
  | .admitted => 2
  | .ready => 3
  | .running => 4
  | .held => 5
  | .sending => 6

def readSq (s : State) (chan o : Nat) : Nat :=
  let x := s.slot (s.selector chan 0x50200)
  if 0x10 ≤ o ∧ o < 0x30 then (tabGet [] s.sq.ready ((o - 0x10) / 4)).length
  else if 0x30 ≤ o ∧ o < 0x40 then (tabGet [] s.sq.delays ((o - 0x30) / 4)).length
  else if 0x1000 ≤ o ∧ o < 0x3010 then
    let t := (o - 0x1000) / 16
    let im := tabGet ({} : TenantImage) s.image.tenants t
    match o % 16 with
    | 0x0 => im.slotQuota
    | 0x4 => s.tenantSlots t
    | 0x8 => im.cellQuota
    | _ => s.tenantCells t
  else if 0x4000 ≤ o ∧ o < 0x8000 then
    let q := s.queue ((o - 0x4000) / 4)
    q.owner * 2 ^ 22 + q.priority * 2 ^ 19 + q.mode * 2 ^ 17 + q.ceiling * 2 ^ 8
  else if 0x8000 ≤ o ∧ o < 0x8200 then s.inEffect (0x50000 + o)
  else if 0x9000 ≤ o ∧ o < 0xD000 then
    (s.sq.slots.filter (fun p => p.2.undecided && p.2.queue == (o - 0x9000) / 4 && !p.2.mailbox)).length
  else
    match o with
    | 0x00 => 0x10000804
    | 0x04 => s.slotsFree
    | 0x08 => s.cellsFree
    | 0x40 => s.sq.takers.length
    | 0x44 => s.sq.events.toNat
    | 0x200 => s.selector chan 0x50200
    | 0x204 => x.state.code * 2 ^ 29 + (if x.live then (s.queue x.queue).priority else 0) * 2 ^ 26 + x.tenant * 2 ^ 16 + x.queue
    | 0x208 => (x.node 0).flags.toNat
    | 0x20C => (x.node 0).mask.toNat
    | 0x210 => lo32 (if x.state = .queued then x.arrival else x.start)
    | _ => 0

end Sys2Proof.Machine
end

