-- ==== Sys2Proof/Machine/Regs2.lean ====
section
/-! DEFINITION. What the management registers of the TC, MPU, KS, BN, BK and RNG windows read (chapters 07, 09 to 12). -/

namespace Sys2Proof.Machine

/-! ### TC (chapter 07) -/

def State.core (s : State) (c : Nat) : Core := tabGet {} s.cores.core c
def State.putCore (s : State) (c : Nat) (x : Core) : State :=
  { s with cores := { s.cores with core := tabPut {} s.cores.core c x } }
def State.modCore (s : State) (c : Nat) (f : Core → Core) : State := s.putCore c (f (s.core c))

def State.mpu (s : State) (u : Nat) : Mpu := tabGet {} s.cores.mpu u
def State.modMpu (s : State) (u : Nat) (f : Mpu → Mpu) : State :=
  { s with cores := { s.cores with mpu := tabMod {} s.cores.mpu u f } }

/-- CSTATE. -/
def State.cstate (s : State) (c : Nat) : Nat :=
  let x := s.core c
  if s.quarantined (srcTc c) then 6
  else if s.withdrawn (srcTc c) then 5
  else if x.stall = .halted then 4
  else if x.task.isSome then 2
  else if x.stall = .take ∨ x.stall = .square then 1
  else 0

/-- The library entry that TC_LIB_SEL names, loaded or refused. -/
def State.libSelected (s : State) (sel : Nat) : Option FnRec :=
  let func := sel / 2 ^ 16
  s.cores.library.fns.find? (fun r => r.entry.code == func && (if 0x8000 ≤ func then r.entry.tenant == sel % 2 ^ 10 else r.entry.tenant == 0))

def readTc (s : State) (chan o : Nat) : Nat :=
  if 0x80000 ≤ o then
    let r := o - 0x80000
    let l := s.cores.library
    if 0x40 ≤ r ∧ r < 0x80 then tabGet 0 l.dispatch ((r - 0x40) / 4)
    else if 0x100 ≤ r ∧ r < 0x500 then (if r % 0x40 < 0x30 then wordAt (tabGet [] l.hashes ((r - 0x100) / 0x40)) (r % 0x40 / 4) else 0)
    else
      let f := s.libSelected (s.selector chan 0x180004)
      match r with
      | 0x00 => (l.fns.filter (fun f => f.reason == 0)).length * 2 ^ 16 + (l.fns.filter (fun f => f.reason != 0)).length
      | 0x04 => s.selector chan 0x180004
      | 0x08 =>
        match f with
        | none => 0
        | some f => (if f.reason = 0 then 1 else 2) * 2 ^ 30 + f.reason * 2 ^ 24 + f.jf * 2 ^ 16 + f.placed
      | 0x0C => lo32 ((f.map (·.proved)).getD 0)
      | 0x10 => lo32 ((f.map (·.entry.claimCore)).getD 0)
      | _ => 0
  else
    let c := o / 0x1000
    let x := s.core c
    let word := if x.task.isSome then x.taskWord.toNat else 0
    match o % 0x1000 with
    | 0x00 => s.cstate c * 2 ^ 25 + bit x.ctl.guarded * 2 ^ 24 + bit (x.task.isSome && x.privileged) * 2 ^ 23 +
        bit x.ctl.btestPass * 2 ^ 22 + x.lastTenant.getD 0 * 2 ^ 10
    | 0x04 => hi32 word
    | 0x08 => lo32 word
    | 0x0C => lo32 x.budget
    | 0x10 => x.fault.status * 2 ^ 16 + x.fault.cause * 2 ^ 12 + x.fault.kind * 2 ^ 8
    | 0x14 => lo32 x.fault.pc
    | 0x18 => lo32 x.fault.addr
    | _ => 0

/-! ### MPU (chapter 07) -/

def Space.code : Space → Nat
  | .data => 0
  | .io => 1
  | .bit => 2

/-- Register `r` (0 BASE, 4 LIMIT, 8 ATTR) of a segment or window. -/
def regionWord (x : Region) (r : Nat) : Nat :=
  match r with
  | 0 => lo32 x.base
  | 4 => lo32 x.limit
  | 8 => bit x.valid * 2 ^ 31 + x.space.code * 2 ^ 4 + bit x.w * 2 + bit x.r
  | _ => 0

/-- KIND and MASTER of a unit (Table 7.7). -/
def mpuId (u : Nat) : Nat :=
  if u < 128 then u
  else if u < 132 then 2 ^ 24 + (u - 128)
  else if u < 137 then 2 * 2 ^ 24 + (u - 132)
  else if u < 142 then 3 * 2 ^ 24 + (u - 137)
  else if u < 158 then 4 * 2 ^ 24 + (u - 142)
  else 5 * 2 ^ 24

def readMpu (s : State) (o : Nat) : Nat :=
  let u := o / 0x400
  let x := s.mpu u
  let r := o % 0x400
  if 158 < u then 0
  else if 0x40 ≤ r ∧ r < 0x140 then regionWord (tabGet {} x.segments ((r - 0x40) / 16)) (r % 16)
  else if 0x140 ≤ r ∧ r < 0x1C0 then regionWord (tabGet {} x.windows ((r - 0x140) / 16)) (r % 16)
  else
    match r with
    | 0x000 => mpuId u
    | 0x004 => x.tenant * 2 ^ 22 + bit x.privileged * 2 ^ 21 + (x.segments.filter (·.2.valid)).length * 2 ^ 16 +
        ((List.range 8).map (fun j => if (tabGet ({} : Region) x.windows j).valid then 2 ^ j else 0)).sum
    | 0x200 => bit x.faulted * 2 ^ 31 + x.faultKind * 2 ^ 8 + x.faultSpace * 2 ^ 6 + bit x.faultWrite * 2 ^ 5
    | 0x204 => lo32 x.faultAddr
    | 0x208 => if u = 158 then bit s.cores.mpuDenied * 2 + bit s.cores.mpuLockedHit else 0
    | 0x20C => if u = 158 then lo32 s.cores.mpuDbgAddr else 0
    | 0x210 => min 0xFFFFFFFF x.faults
    | _ => 0

/-! ### KS (chapter 09) -/

/-- Cache units in use: bindings and stream bindings, of one tenant or of all. -/
def State.cacheUsed (s : State) (t : Nat) : Nat := unitsUsed s.ks.cache t + s.streamUnits t
def State.cacheAll (s : State) : Nat :=
  (s.ks.cache.map (·.units)).sum + (s.bulk.streams.map (·.2.units)).sum

/-- Free units of the quota region. -/
def State.residentFree (s : State) : Nat :=
  65536 - 8256 - (s.ks.resident.map (fun p => if 8256 ≤ p.1 ∧ p.2.kind ≠ .free then p.2.units else 0)).sum

/-- KS_SMK. -/
def smkWord (x : SmkSlot) : Nat :=
  let st := match x.current with
    | none => 0
    | some _ => if x.pending.isSome then 2 else if x.retiring.isEmpty then 1 else 3
  st * 2 ^ 30 + bit (!x.retiring.isEmpty) * 2 ^ 29 + (x.current.map (·.gen)).getD 0

def readKs (s : State) (chan o : Nat) : Nat :=
  let sel := s.selector chan 0x300040
  let r := s.resident sel
  let counter := decide (r.kind = .counter) || (decide (r.kind = .retiring) && r.wasCounter)
  if 0x10000 ≤ o then
    let k := o - 0x10000
    let x := tabGet ({} : SmkSlot) s.ks.smk (k / 8)
    if 0x8040 ≤ k then 0 else if k % 8 = 0 then smkWord x else (x.pending.map (·.gen)).getD 0
  else if 0x4000 ≤ o ∧ o < 0xA000 then
    let c := tabGet [] s.ks.certs ((o - 0x4000) / 0x2000)
    wordAt c ((o - 0x4000) % 0x2000 / 4)
  else if 0x1000 ≤ o ∧ o < 0x3010 then
    let t := (o - 0x1000) / 16
    match o % 16 with
    | 0x0 => tabGet 0 s.ks.residentQuota t * 2 ^ 16 + s.residentUsed t % 2 ^ 16
    | 0x4 => tabGet 0 s.ks.cacheQuota t
    | 0x8 => s.cacheUsed t
    | _ => ((List.range 32).map (fun i => if (tabGet ({} : ClientKey) s.ks.clientKeys (64 * t + i)).alg ≠ 0 then 2 ^ i else 0)).sum
  else if 0x300 ≤ o ∧ o < 0x330 then wordAt s.ks.attestId ((o - 0x300) / 4)
  else
    match o with
    | 0x00 => bit s.ks.refresh * 2 ^ 5 + bit s.ks.unsealed * 2 ^ 4 + s.ks.root
    | 0x04 => 131072 - s.cacheAll
    | 0x08 => s.residentFree
    | 0x0C => min 0xFFFFFFFF s.ks.passes
    | 0x10 => s.ks.events.toNat
    | 0x40 => sel
    | 0x44 => kindCode r.kind * 2 ^ 29 + r.attr.level * 2 ^ 26 + r.tenant * 2 ^ 16 + r.slotGen
    | 0x48 => if counter then r.record.s else r.uses
    | 0x4C => if counter then 0 else r.limit
    | 0x400 => (tabGet [] s.ks.certs 0).length
    | 0x404 => (tabGet [] s.ks.certs 1).length
    | 0x408 => (tabGet [] s.ks.certs 2).length
    | _ => 0

/-! ### BN (chapter 10) -/

def BankState.code : BankState → Nat
  | .clean => 0
  | .fgOpen => 1
  | .fgDone => 2
  | .background => 3
  | .clearing => 4

def CurveState.code : CurveState → Nat
  | .free => 0
  | .validating => 1
  | .valid => 2
  | .rejected => 3

/-- ESTATE. -/
def State.bnEstate (s : State) (e : Nat) : Nat :=
  let x := s.engine e
  if s.quarantined (srcBn e) then 4
  else if s.withdrawn (srcBn e) ∨ x.withdrawn then 3
  else if ¬ s.districtUp (districtOfBn e) then 5
  else
    let running : Bool := match x.owner with
      | some (c, h) => decide ((s.bnHandle c h).state = .running)
      | none => false
    if x.sliceRunning then 2 else if running then 1 else 0

/-- OP and ROW name an operation (BN_OP_VALID). -/
def opRowValid (op row : Nat) : Bool := opDefined op && (if isEcOp op then decide (1 ≤ row ∧ row ≤ 7) else decide (row = 0))

def readBn (s : State) (chan o : Nat) : Nat :=
  if o < 0x40000 then
    let e := o / 0x1000
    let x := s.engine e
    match o % 0x1000 with
    | 0x00 =>
      match x.owner with
      | none => s.bnEstate e * 2 ^ 29
      | some (c, h) =>
        let y := s.bnHandle c h
        s.bnEstate e * 2 ^ 29 + 2 ^ 28 + y.bank * 2 ^ 26 + x.tenant * 2 ^ 16 + c * 2 ^ 9 + bit y.paired * 2 ^ 8 + y.op
    | 0x04 => ((List.range 4).map (fun b => (x.bank b).state.code * 16 ^ b)).sum
    | 0x08 => x.iter % 256 * 2 ^ 24 + x.cycles % 2 ^ 23
    | 0x0C => x.faultStatus * 2 ^ 16 + x.faultOp * 2 ^ 8 + x.faultInv * 2 ^ 4
    | _ => 0
  else
    let r := o - 0x40000
    let sel := s.selector chan 0x440020
    let op := sel % 256
    let row := sel / 256
    if 0x1000 ≤ r ∧ r < 0x1400 then
      let c := s.curve ((r - 0x1000) / 4)
      c.state.code * 2 ^ 30 + c.check * 2 ^ 26 + c.tenant * 2 ^ 16 + c.gen
    else if 0x1400 ≤ r ∧ r < 0x1800 then
      let c := s.curve ((r - 0x1400) / 4)
      c.progress * 2 ^ 24 + c.h * 2 ^ 16 + c.pbits
    else if 0x2000 ≤ r ∧ r ≤ 0x2800 then
      let t := (r - 0x2000) / 4
      (tabGet ({} : TenantImage) s.image.tenants t).curveQuota * 2 ^ 16 +
        (s.bn.curves.filter (fun p => decide (p.2.state ≠ .free ∧ p.2.tenant = t))).length
    else
      match r with
      | 0x00 => 0x40040C80
      | 0x04 => s.cores.library.concurrency * 2 ^ 24 + ((List.range 64).filter s.engineReady).length * 2 ^ 16 +
          (s.bn.engines.filter (·.2.owner.isSome)).length * 2 ^ 8 + (s.bn.engines.filter (·.2.background.isSome)).length
      | 0x08 => lo32 s.bn.lastDrawn
      | 0x0C => s.bn.events.toNat
      | 0x20 => sel
      | 0x24 => if opRowValid op row then opT op row 128 else 0
      | 0x28 => if opRowValid op row then 2 ^ 31 + opV op row else 0
      | 0x2C => if opRowValid op row then opCharge op row else 0
      | _ => 0

/-! ### BK (chapter 11) -/

def StreamState.code : StreamState → Nat
  | .free => 0
  | .open => 1
  | .failed => 2

/-- BK_ENG(e). -/
def State.bkWord (s : State) (e : Nat) : Nat :=
  if s.quarantined (srcBk e) then 4 * 2 ^ 29
  else if s.withdrawn (srcBk e) then 3 * 2 ^ 29
  else if ¬ s.districtUp (districtOfBk e) then 5 * 2 ^ 29
  else
    match s.bulk.jobs.find? (fun j => j.running && j.engines.contains e) with
    | none => 0
    | some j =>
      let other := if j.rekey then (j.engines.find? (· != e)).getD 0 else 0
      (if j.rekey then 2 else 1) * 2 ^ 29 + other * 2 ^ 25 + (s.stream j.context).tenant * 2 ^ 12 + j.context

def readBk (s : State) (chan o : Nat) : Nat :=
  let st := s.stream (s.selector chan 0x500400)
  if 0x100 ≤ o ∧ o < 0x140 then s.bkWord ((o - 0x100) / 4)
  else if 0x1000 ≤ o ∧ o ≤ 0x1800 then
    let t := (o - 0x1000) / 4
    (tabGet ({} : TenantImage) s.image.tenants t).streamQuota * 2 ^ 16 + s.streamsOf t
  else
    match o with
    | 0x00 => 0x10001000
    | 0x04 => (s.bulk.streams.filter (fun p => decide (p.2.state ≠ .free))).length * 2 ^ 16 + ((List.range 16).filter s.bulkReady).length
    | 0x08 => s.bulk.events.toNat
    | 0x400 => s.selector chan 0x500400
    | 0x404 => st.state.code * 2 ^ 30 + st.sideIn.mode * 2 ^ 27 + st.sideOut.mode * 2 ^ 24 + st.tenant * 2 ^ 12 + st.queue
    | 0x408 => if st.state = .free then 0 else st.next
    | _ => 0

/-! ### RNG (chapter 12) -/

def RngState.code : RngState → Nat
  | .off => 0
  | .startup => 1
  | .ready => 2
  | .degraded => 3
  | .cOnly => 4
  | .failed => 5

def SourceHealth.code : SourceHealth → Nat
  | .notStarted => 0
  | .startTest => 1
  | .healthy => 2
  | .requalifying => 3
  | .quarantined => 4

def DrbgState.code : DrbgState → Nat
  | .none => 0
  | .running => 1
  | .reseeding => 2
  | .withdrawn => 3

def readRng (s : State) (o : Nat) : Nat :=
  let r := s.rng
  if 0x20 ≤ o ∧ o < 0x40 then wordAt r.pers ((o - 0x20) / 4)
  else if 0x100 ≤ o ∧ o < 0x1C0 then
    let k := (o - 0x100) / 0x40
    let x := s.source k
    let b := o % 0x40
    if 0x10 ≤ b ∧ b < 0x30 then (tabGet 0 x.corr ((b - 0x10) / 4 + 1)).toNat
    else
      match b with
      | 0x00 => x.health.code * 2 ^ 29 + bit (r.active == k) * 2 ^ 28 + x.lastTest * 2 ^ 16 +
          min 0xFF (x.failTimes.filter (fun t => decide (s.second < t + 3600))).length
      | 0x04 => aptCutoff k * 2 ^ 16 + rctCutoff k
      | 0x08 => x.passed
      | 0x0C => x.bias.toNat
      | _ => 0
  else if 0x200 ≤ o ∧ o < 0x220 then
    let d := s.drbg ((o - 0x200) / 4)
    d.state.code * 2 ^ 30 + d.source * 2 ^ 28 + d.reseeds
  else
    match o with
    | 0x00 => bit r.ready * 2 ^ 7 + r.state.code * 2 ^ 4 + r.active * 4
    | 0x08 => r.events.toNat
    | 0x0C => r.poolInt
    | 0x10 => r.poolTen
    | 0x14 => r.poolSize
    | 0x18 => r.poolSpan
    | _ => 0

end Sys2Proof.Machine
end

