-- ==== Sys2Proof/Machine/Regs3.lean ====
section
/-! DEFINITION. What the management registers of the DC, LC, TMP, BOOT, PAIR, REC, PMC and PWR windows read (chapters 13
to 18), the split counters, and every register by its address. -/

namespace Sys2Proof.Machine

/-! ### DC (chapter 13) -/

def SessionState.code : SessionState → Nat
  | .free => 0
  | .open => 1
  | .granted => 2
  | .inUse => 3
  | .spent => 4
  | .expired => 5
  | .closed => 6

def CardState.code : CardState → Nat
  | .free => 0
  | .active => 1
  | .warned => 2
  | .exhausted => 3
  | .revoked => 4

def State.session (s : State) (i : Nat) : Session := tabGet {} s.dual.sessions i
def State.putSession (s : State) (i : Nat) (x : Session) : State :=
  { s with dual := { s.dual with sessions := tabPut {} s.dual.sessions i x } }
def State.card (s : State) (i : Nat) : Card := tabGet {} s.dual.cards i
def State.putCard (s : State) (i : Nat) (x : Card) : State := { s with dual := { s.dual with cards := tabPut {} s.dual.cards i x } }

/-- Signatures counted that are in effect now. -/
def State.countedNow (s : State) (x : Session) : List Counted :=
  x.counted.filter (fun c => match c.effectAt with
    | some f => folioReached s.folio.now f
    | none => false)

/-- ACTIVE and WARNED cards of a role in a scope. -/
def State.usableCards (s : State) (scope role : Nat) : Nat :=
  (s.dual.cards.filter (fun p => (p.2.state == .active || p.2.state == .warned) && p.2.scope == scope && p.2.role == role)).length

def State.quorum (s : State) (scope role : Nat) : Nat := tabGet 0 s.dual.quorums (4 * scope + role)

def readDc (s : State) (chan o : Nat) : Nat :=
  let x := s.session (s.selector chan 0x700040)
  let c := s.card (s.selector chan 0x700050)
  if 0x1000 ≤ o ∧ o < 0x3010 then
    let t := (o - 0x1000) / 16
    let r := o / 4 % 4
    s.usableCards t r * 2 ^ 8 + s.quorum t r
  else if 0x10 ≤ o ∧ o < 0x18 then
    let i := tabGet ({} : CardIface) s.dual.ifaces ((o - 0x10) / 4)
    bit i.exchange.isSome * 2 ^ 8 + bit i.classA * 2 + bit i.present
  else
    match o with
    | 0x00 => 0x1000FF08
    | 0x04 => (s.dual.cards.filter (fun p => decide (p.2.state ≠ .free))).length * 2 ^ 16 +
        (s.dual.sessions.filter (fun p => decide (p.2.state = .open ∨ p.2.state = .granted ∨ p.2.state = .inUse))).length
    | 0x08 => s.dual.lifeMax
    | 0x0C => s.dual.events.toNat
    | 0x40 => s.selector chan 0x700040
    | 0x44 => x.state.code * 2 ^ 29 + x.role * 2 ^ 27 + x.m * 2 ^ 23 + (s.countedNow x).length * 2 ^ 19 + x.scope
    | 0x48 => hi32 x.expires
    | 0x4C => lo32 x.expires
    | 0x50 => s.selector chan 0x700050
    | 0x54 => c.state.code * 2 ^ 29 + c.role * 2 ^ 27 + c.scope
    | 0x58 => lo32 c.usesLeft
    | 0x5C => hi32 c.serial
    | 0x60 => lo32 c.serial
    | _ => 0

/-! ### LC (chapter 14) -/

def LcState.code : LcState → Nat
  | .blank => 0
  | .test => 1
  | .provisioned => 2
  | .deployed => 3
  | .returned => 4
  | .scrapped => 5
  | .invalid => 15

/-- Stripes programmed in both copies: the eight bytes of a copy in order, the first erased one ends the count. -/
def stripes (w : Word64) : Nat := ((List.range 8).takeWhile (fun k => (w.toNat >>> (8 * k)) % 256 != 0xFF)).length

def readLc (s : State) (o : Nat) : Nat :=
  let l := s.lc
  let i := l.intents.getLast?
  let d := l.dbg
  match o with
  | 0x00 => min (stripes l.word0) (stripes l.word1) * 2 ^ 20 + bit (l.word0 == l.word1) * 2 ^ 16 + l.cause * 2 ^ 8 + l.state.code
  | 0x04 => hi32 l.word0.toNat
  | 0x08 => lo32 l.word0.toNat
  | 0x0C => hi32 l.word1.toNat
  | 0x10 => lo32 l.word1.toNat
  | 0x14 =>
    match i with
    | none => 0
    | some r => r.source * 2 ^ 28 + r.target * 2 ^ 24 + r.stripe * 2 ^ 20 + r.slot * 2 ^ 16 + bit r.quorum * 2 ^ 8 +
        (if r.complete then 2 else if r.abandoned then 3 else if r.valid then 1 else 0)
  | 0x18 => d.startsLeft % 256 * 2 ^ 24 + d.grantState % 16 * 2 ^ 20 + bit d.challenge.isSome * 4 + bit d.armed * 2 + bit d.active
  | 0x1C => ((List.range 9).map (fun k => if tabGet [] l.digests k ≠ [] then 2 ^ k else 0)).sum
  | 0x20 => l.lastStatus * 2 ^ 16 + l.lastFunction % 256 * 2 ^ 8 + bit l.lastMailbox
  | _ => 0

/-! ### TMP (chapter 15) -/

/-- Sensors whose response is fixed: TMP_ACTION reads 1 for them (Table 15.1). -/
def fixedSensors : BitVec 29 :=
  BitVec.ofNat 29 (((List.range 29).map (fun c => if c ≤ 3 ∨ (14 ≤ c ∧ c ≤ 22) ∨ c = 28 then 2 ^ c else 0)).sum)

def readTmp (s : State) (o : Nat) : Nat :=
  let t := s.tmp
  let c : Capture := t.first.getD { sensor := 0, data := 0, devState := 0, step := 0, seconds := 0, cycles := 0, folio := 0, erase := false }
  if 0x30 ≤ o ∧ o < 0x44 then (tabGet 0 t.temps ((o - 0x30) / 4)).toNat
  else
    match o with
    | 0x00 => bit t.latch * 2 ^ 31 + t.sensor % 32 * 2 ^ 8 + min 0xFF t.later
    | 0x04 => (t.action ||| fixedSensors).toNat
    | 0x08 => t.active.toNat
    | 0x0C => t.alerts.toNat
    | 0x10 => ((List.range 8).map (fun k => tabGet 0 t.filter k % 4 * 4 ^ k)).sum * 2 ^ 16 + t.level.toNat * 2 ^ 8
    | 0x14 => c.devState * 2 ^ 28 + c.step * 2 ^ 24 + c.sensor % 32 * 2 ^ 16 + c.data.toNat
    | 0x18 => timeHi c.seconds c.cycles
    | 0x1C => lo32 c.seconds
    | 0x20 => lo32 t.erases
    | _ => 0

/-! ### BOOT (chapter 16) -/

def readBoot (s : State) (o : Nat) : Nat :=
  let b := s.boot
  if 0x10 ≤ o ∧ o < 0x44 then lo32 (tabGet 0 b.stepMs ((o - 0x10) / 4 + 1))
  else if 0x80 ≤ o ∧ o < 0xB0 then wordAt b.imgHash ((o - 0x80) / 4)
  else
    match o with
    | 0x00 => bit b.vaultMark * 2 ^ 10 + bit (b.load.state == 2) * 2 ^ 9 + bit b.drain.isSome * 2 ^ 8 + b.step
    | 0x50 => lo32 b.imgLen
    | 0x54 => hi32 b.imgNumber
    | 0x58 => lo32 b.imgNumber
    | 0x5C => b.imgK * 2 ^ 28 + b.imgN * 2 ^ 24 + bit b.imgRecorded * 2 ^ 8 + b.imgSigned.toNat
    | 0x60 => hi32 b.rollback
    | 0x64 => lo32 b.rollback
    | 0xC0 => b.load.state * 2 ^ 30 + bit b.load.failed * 2 ^ 29 + b.load.cause * 2 ^ 16 + b.load.percent
    | _ => 0

/-! ### PAIR (chapter 17) -/

def State.member (s : State) (j : Nat) : Member := tabGet {} s.pair.members j
def State.putMember (s : State) (j : Nat) (m : Member) : State :=
  { s with pair := { s.pair with members := tabPut {} s.pair.members j m } }

/-- The member slot at a position. -/
def State.slotAt (s : State) (pos : Nat) : Option Nat :=
  (s.pair.members.find? (fun p => p.2.state != 0 && p.2.position == pos)).map (·.1)

def State.position (s : State) : Nat := (s.member s.pair.slot).position

/-- COND of PAIR_STATE. -/
def State.pairCond (s : State) : Nat :=
  if ¬ s.paired then 0
  else if s.position = 0 then
    if ¬ s.pair.confirmed then 2
    else
      match s.slotAt 1 with
      | some j => if (s.member j).state = 2 then 3 else 1
      | none => 1
  else if (s.member s.pair.slot).state = 1 then 4 else 5

def readPair (s : State) (o : Nat) : Nat :=
  let p := s.pair
  if 0x100 ≤ o ∧ o < 0x180 then
    let j := (o - 0x100) / 16
    let m := s.member j
    match o % 16 with
    | 0x0 => hi32 m.serial
    | 0x4 => lo32 m.serial
    | 0x8 => m.state * 2 ^ 30 + m.position * 2 ^ 27 + bit (m.state != 0 && j != p.slot && m.silentA == 0) * 2 ^ 26 +
        bit (m.state != 0 && j != p.slot && m.silentB == 0) * 2 ^ 25
    | _ => if m.state = 0 ∨ j = p.slot then 0 else min 0xFFFFFFFF (if m.held ≤ p.held then p.held - m.held else 0)
  else
    match o with
    | 0x00 => s.position * 2 ^ 17 + p.slot * 2 ^ 14 + p.count * 2 ^ 10 + s.pairCond
    | 0x04 => lo32 p.epoch
    | 0x08 => p.horizon * 2 ^ 24 + p.hop * 2 ^ 16 + p.budget
    | 0x14 => min 0xFFFF p.ackSilence * 2 ^ 16 + min 0xFFFF p.aheadSilence
    | 0x18 => p.events.toNat
    | _ => 0

/-! ### REC, PMC, PWR (chapter 18) -/

/-- The window records: `INDEX + r` of the tail or the front matter (R466). -/
def State.windowRecord (s : State) (front : Bool) (i : Nat) : Option Record :=
  ((if front then s.recorder.front else s.recorder.tail).find? (fun p => p.1 == i)).map (·.2)

def readRec (s : State) (chan o : Nat) : Nat :=
  let x := s.recorder
  let front := (s.selector chan 0xC00010).testBit 31
  let first := s.selector chan 0xC00014
  if 0x40 ≤ o ∧ o < 0x60 then
    let w := (o - 0x40) / 4
    ((List.range 32).map (fun j => if policyBit x.policy (32 * w + j) then 2 ^ j else 0)).sum
  else if 0x100 ≤ o ∧ o < 0x200 then
    match s.windowRecord front (first + (o - 0x100) / 0x20) with
    | none => 0
    | some r => wordAt (recordBytes r) (o % 0x20 / 4)
  else
    match o with
    | 0x00 => x.frontCount * 2 ^ 21 + x.bucket * 2 ^ 11 + min 0x7FF x.offered.length
    | 0x04 => lo32 x.next
    | 0x08 => lo32 x.oldest
    | 0x0C => min 0xFFFFFFFF (suppressedSum x)
    | 0x10 => s.selector chan 0xC00010
    | 0x14 => first
    | 0x18 => ((List.range 8).map (fun r => if (s.windowRecord front (first + r)).isSome then 2 ^ r else 0)).sum
    | _ => 0

def readPmc (s : State) (o : Nat) : Nat :=
  let p := s.pmc
  if 0x80 ≤ o ∧ o < 0x100 then
    ((List.range 32).map (fun j => if tabGet false p.ovf (32 * ((o - 0x80) / 4) + j) then 2 ^ j else 0)).sum
  else if 0x1000 ≤ o ∧ o < 0x2000 then tabGet 0 p.select ((o - 0x1000) / 4)
  else if 0x2000 ≤ o ∧ o < 0x3000 then tabGet 0 p.live ((o - 0x2000) / 4)
  else if 0x3000 ≤ o ∧ o < 0x4000 then tabGet 0 (if p.latest then p.page1 else p.page0) ((o - 0x3000) / 4)
  else
    match o with
    | 0x00 => 0x04000002
    | 0x08 => p.interval
    | 0x0C => p.seq * 2 ^ 16 + p.cause
    | 0x10 => hi32 p.pageFolio
    | 0x14 => lo32 p.pageFolio
    | _ => 0

def readPwr (s : State) (o : Nat) : Nat :=
  if o < 0x60 then
    let d := o / 4
    let x := s.district d
    x.state.code * 2 ^ 30 + s.permitted d * 2 ^ 28 + bit x.waking * 2 ^ 27 + bit (s.heldActive d) * 2 ^ 26 + min 0xFFFF x.idle
  else if 0x80 ≤ o ∧ o < 0xE0 then s.districtTol ((o - 0x80) / 4)
  else if 0x100 ≤ o ∧ o < 0x160 then
    let x := s.district ((o - 0x100) / 4)
    lo32 (if x.state = .active ∧ ¬ x.waking then s.folio.now else x.ready)
  else if 0x1000 ≤ o ∧ o < 0x5000 then s.queueMap ((o - 0x1000) / 4)
  else if 0x5000 ≤ o ∧ o < 0x9000 then s.queueTol ((o - 0x5000) / 4)
  else
    match o with
    | 0x200 => s.pwr.idleHold
    | 0x204 => s.pwr.thermal * 2 ^ 30 + twos 16 s.pwr.warmAt
    | 0x208 => s.pwr.tmax.toNat
    | _ => 0

/-! ### Registers by address -/

/-- A register that neither captures nor draws: window of `addr`, and offset in it. -/
def readPlain (s : State) (chan addr : Nat) : Nat :=
  if addr < 0x10000 then readDev s addr
  else if addr < 0x20000 then readFolio s (addr - 0x10000)
  else if addr < 0x30000 then readPort s (addr - 0x20000)
  else if addr < 0x40000 then readSrp s chan (addr - 0x30000)
  else if addr < 0x50000 then readAdm s chan (addr - 0x40000)
  else if addr < 0x60000 then readSq s chan (addr - 0x50000)
  else if addr < 0x100000 then 0
  else if addr < 0x200000 then readTc s chan (addr - 0x100000)
  else if addr < 0x300000 then readMpu s (addr - 0x200000)
  else if addr < 0x400000 then readKs s chan (addr - 0x300000)
  else if addr < 0x500000 then readBn s chan (addr - 0x400000)
  else if addr < 0x600000 then readBk s chan (addr - 0x500000)
  else if addr < 0x700000 then readRng s (addr - 0x600000)
  else if addr < 0x800000 then readDc s chan (addr - 0x700000)
  else if addr < 0x900000 then readLc s (addr - 0x800000)
  else if addr < 0xA00000 then readTmp s (addr - 0x900000)
  else if addr < 0xB00000 then readBoot s (addr - 0xA00000)
  else if addr < 0xC00000 then readPair s (addr - 0xB00000)
  else if addr < 0xD00000 then readRec s chan (addr - 0xC00000)
  else if addr < 0xE00000 then readPmc s (addr - 0xD00000)
  else readPwr s (addr - 0xE00000)

/-- The counters of a window: its base, how many, and their table. -/
def counterPage (s : State) (addr : Nat) : Option (List (Nat × Nat) × Nat) :=
  let page := fun (base n : Nat) (t : List (Nat × Nat)) =>
    if base ≤ addr ∧ addr < base + 8 * n then some (t, (addr - base) / 8) else none
  if 0x20000 ≤ addr ∧ addr < 0x22200 then
    page (0x20100 + 0x200 * ((addr - 0x20000) / 0x200)) 24 (s.port ((addr - 0x20000) / 0x200)).counters
  else if 0x100000 ≤ addr ∧ addr < 0x180000 then
    page (0x100100 + 0x1000 * ((addr - 0x100000) / 0x1000)) 8 (s.core ((addr - 0x100000) / 0x1000)).counters
  else if 0x400000 ≤ addr ∧ addr < 0x440000 then
    page (0x400100 + 0x1000 * ((addr - 0x400000) / 0x1000)) 8 (s.engine ((addr - 0x400000) / 0x1000)).counters
  else
    [(0x30100, 16, s.srp.counters), (0x40100, 16, s.adm.counters), (0x50100, 8, s.sq.counters), (0x300100, 12, s.ks.counters),
     (0x500200, 8, s.bulk.counters), (0x600400, 8, s.rng.counters), (0x700100, 4, s.dual.counters), (0x900100, 4, s.tmp.counters),
     (0xA00100, 4, s.boot.counters), (0xB00200, 8, s.pair.counters), (0xC00200, 4, s.recorder.counters),
     (0xE00300, 4, s.pwr.counters)].findSome? (fun p => page p.1 p.2.1 p.2.2)

/-- The 64-bit value of which `addr` is the HI or the LO half, where a read of HI captures the lower half (R87), and the
address of HI. -/
def splitValue (s : State) (chan addr : Nat) : Option (Nat × Nat) :=
  match counterPage s addr with
  | some (t, k) => some (tabGet 0 t k, addr / 8 * 8)
  | none =>
    let x := s.chan (s.selector chan 0x30010)
    if addr = 0x10004 ∨ addr = 0x10008 then some (s.folio.now, 0x10004)
    else if addr = 0x3001C ∨ addr = 0x30020 then some (x.rxHigh, 0x3001C)
    else if addr = 0x30024 ∨ addr = 0x30028 then some (x.txSeq, 0x30024)
    else if addr = 0x300014 ∨ addr = 0x300018 then some (s.vault.seq, 0x300014)
    else if addr = 0xB0000C ∨ addr = 0xB00010 then some (s.pair.held, 0xB0000C)
    else none

/-- Set a per-channel register: a selector, or a capture under its LO address. -/
def State.setSelector (s : State) (chan addr v : Nat) : State :=
  s.modChan chan (fun x => { x with sel := tabPut 0 x.sel addr v })

/-- Read the register at `addr` on a channel: its value, and the state with what the read captures (R86, R87). RNG_RANDOM
is read by `readRandom`. -/
def regRead (s : State) (chan addr : Nat) : Nat × State :=
  match splitValue s chan addr with
  | none => (readPlain s chan addr, s)
  | some (v, hi) => if addr = hi then (hi32 v, s.setSelector chan (hi + 4) (lo32 v)) else (s.selector chan addr, s)

/-- HI_REGISTER_READ (R87): on an open device-domain channel, of a split HI register. -/
def execHiRegisterRead (chan addr : Nat) (s : State) : Host.Outcome State Fault Refusal :=
  let c := chan % 2 ^ 15
  match splitValue s c addr with
  | none => .next s
  | some (v, hi) =>
    if s.managed ∧ addr = hi ∧ (s.chan c).state = .open ∧ (s.chan c).tenant = 0 then
      .next { s.setSelector c (hi + 4) (lo32 v) with readBack := BitVec.ofNat 32 (hi32 v) }
    else .next s

/-! ### Writes -/

/-- Field masks of the selector registers (RW). -/
def selectorMask (addr : Nat) : Option Nat :=
  match addr with
  | 0x30010 => some 0x7FFF
  | 0x40200 => some 0xFFFF03FF
  | 0x50200 => some 0xFFFF
  | 0x180004 => some 0xFFFF03FF
  | 0x300040 => some 0xFFFF
  | 0x440020 => some 0xFFFF
  | 0x500400 => some 0xFFF
  | 0x700040 => some 0xFFF
  | 0x700050 => some 0xFFF
  | 0xC00010 => some 0x80000000
  | 0xC00014 => some 0xFFFFFFFF
  | _ => none

/-- The commit group and field mask of an ST register (R45). -/
def stagedField (addr : Nat) : Option (Nat × Nat) :=
  if 0x41000 ≤ addr ∧ addr ≤ 0x41800 then some (3, 1)
  else if (0x42000 ≤ addr ∧ addr ≤ 0x42800) ∨ (0x43000 ≤ addr ∧ addr ≤ 0x43800) ∨ (0x44000 ≤ addr ∧ addr ≤ 0x44800) ∨
      (0x45000 ≤ addr ∧ addr ≤ 0x45800) ∨ (0x47000 ≤ addr ∧ addr < 0x4F040) then some (1, 0xFFFFFFFF)
  else if 0x46000 ≤ addr ∧ addr ≤ 0x46800 then some (1, 0xFFFF)
  else if 0x58000 ≤ addr ∧ addr < 0x58200 then some (2, 0xFFFFFFFF)
  else if 0xE05000 ≤ addr ∧ addr < 0xE09000 then some (4, 0xFFFF)
  else none

/-- Clear the bits of `v` that are 1 in `w` (W1C). -/
def w1c {n : Nat} (v : BitVec n) (w : Nat) : BitVec n := v &&& ~~~ BitVec.ofNat n w

/-- Write one register (R86): selectors, PMC_INTERVAL and PMC_SEL, W1C fields, RNG_CTRL and PMC_CTRL, and staged fields
into their group's staged copy. Reserved addresses and read-only fields ignore the write. -/
def regWrite (s : State) (chan addr w : Nat) : State :=
  match selectorMask addr with
  | some m => s.setSelector chan addr (Nat.land w m)
  | none =>
    match stagedField addr with
    | some (g, m) =>
      let x := s.group g
      let staged := tabInsert x.staged addr (Nat.land w m)
      s.putGroup g { x with state := .dirty, writes := min 0xFFFF (x.writes + 1), staged := staged }
    | none =>
      if 0xD01000 ≤ addr ∧ addr < 0xD02000 then pmcSelect s ((addr - 0xD01000) / 4) w
      else if 0xD00080 ≤ addr ∧ addr < 0xD00100 then
        let first := 32 * ((addr - 0xD00080) / 4)
        { s with pmc := { s.pmc with ovf := s.pmc.ovf.filter (fun p => !(decide (first ≤ p.1 ∧ p.1 < first + 32) && w.testBit (p.1 - first))) } }
      else if 0x20000 ≤ addr ∧ addr < 0x22200 ∧ addr % 0x200 = 8 then
        s.modPort ((addr - 0x20000) / 0x200) (fun p => { p with events := w1c p.events w })
      else if 0x200000 ≤ addr ∧ addr < 0x200000 + 0x400 * 159 ∧ addr % 0x400 = 0x200 then
        s.modMpu ((addr - 0x200000) / 0x400) (fun u => { u with faulted := u.faulted && !w.testBit 31 })
      else
        match addr with
        | 0x3000C => { s with srp := { s.srp with events := w1c s.srp.events w } }
        | 0x400EC => { s with adm := { s.adm with events := w1c s.adm.events w } }
        | 0x50044 => { s with sq := { s.sq with events := w1c s.sq.events w } }
        | 0x227A08 =>
          { s with cores := { s.cores with mpuDenied := s.cores.mpuDenied && !w.testBit 1,
                                           mpuLockedHit := s.cores.mpuLockedHit && !w.testBit 0 } }
        | 0x300010 => { s with ks := { s.ks with events := w1c s.ks.events w } }
        | 0x44000C => { s with bn := { s.bn with events := w1c s.bn.events w } }
        | 0x500008 => { s with bulk := { s.bulk with events := w1c s.bulk.events w } }
        | 0x600004 => if w.testBit 0 then commandReseed s (chanId chan (s.chan chan)) else s
        | 0x600008 => { s with rng := { s.rng with events := w1c s.rng.events w } }
        | 0x70000C => { s with dual := { s.dual with events := w1c s.dual.events w } }
        | 0x90000C => { s with tmp := { s.tmp with alerts := w1c s.tmp.alerts w } }
        | 0xB00018 => { s with pair := { s.pair with events := w1c s.pair.events w } }
        | 0xD00004 => if w.testBit 0 then { s with pmc := { s.pmc with snapAsked := true } } else s
        | 0xD00008 => { s with pmc := { s.pmc with interval := w % 2 ^ 16 } }
        | _ => s

/-- Write words in increasing address order. -/
def regWrites (s : State) (chan addr : Nat) : List Nat → State
  | [] => s
  | w :: t => regWrites (regWrite s chan addr w) chan (addr + 4) t

/-- An address that holds no register and is not reserved: from 0x00F0_0000 upwards (R86). -/
def undefinedAddr (addr : Nat) : Bool := decide (0xF00000 ≤ addr)

end Sys2Proof.Machine
end

