-- ==== Sys2Proof/Machine/Fn.lean ====
section
/-! DEFINITION. Functions as the tasks of request slots compute them (R225, R226, R228): a computation over the state that
ends with a result and effects, or stops with a status. What it changed on the way, such as a spent use, stays changed. -/

namespace Sys2Proof.Machine

/-- What a function gives: its result, what its commit point brings about, and its status. -/
structure FnRes where
  result : Bytes := []
  effects : List Effect := []
  status : Nat := stOk

/-- A step of a function. -/
abbrev Fn (α : Type) := ExceptT Nat (StateM State) α

namespace Fn

/-- Go on only where `c` holds; else the status is `st`. -/
def need (c : Bool) (st : Nat) : Fn Unit := if c then pure () else throw st

/-- Go on only with status OK. -/
def ok (st : Nat) : Fn Unit := need (st == stOk) st

/-- The state, a field of it, and a change. -/
def st {α : Type} (f : State → α) : Fn α := do return f (← get)
def change (f : State → State) : Fn Unit := modify f

/-- A change that answers something. -/
def act {α : Type} (f : State → α × State) : Fn α := do
  let s ← get
  let r := f s
  set r.2
  return r.1

/-- The value of an option; `e` where there is none. -/
def get! {α : Type} (o : Option α) (e : Nat) : Fn α :=
  match o with
  | some a => pure a
  | none => throw e

/-- `n` random bytes. -/
def random (n : Nat) : Fn Bytes := act (fun s => s.random n)

/-- Done, with a result. -/
def done (result : Bytes) (effects : List Effect := []) : Fn FnRes := pure { result := result, effects := effects }

end Fn

/-- Run a function: what it gives, and the state after it. -/
def runFnOn (f : Fn FnRes) (s : State) : FnRes × State :=
  match (f.run.run s : Except Nat FnRes × State) with
  | (.ok r, s1) => (r, s1)
  | (.error st, s1) => ({ status := st }, s1)

/-- The prologue (R225): LAYOUT 1, OPTIONS within `mask`, reserved bytes zero. -/
def prologueOk (p : Bytes) (mask : Nat) : Bool :=
  decide (4 ≤ p.length ∧ fld p 0 1 = 1 ∧ fld p 2 2 = 0) && decide (Nat.land (fld p 1 1) (255 - mask) = 0)

/-- Every byte of `len` from `off` is zero. -/
def zeroAt (p : Bytes) (off len : Nat) : Bool := allZero (slice p off len)

/-- A payload without inline blocks whose fields end at `len`, with a prologue of no options and the given reserved
fields zero. -/
def layoutOk (p : Bytes) (len : Nat) (reserved : List (Nat × Nat)) : Bool :=
  decide (p.length = len) && prologueOk p 0 && reserved.all (fun r => zeroAt p r.1 r.2)

end Sys2Proof.Machine
end

