-- ==== Sys2Proof/Machine/Dual.lean ====
section
/-! DEFINITION. Dual control (chapter 13): the registry, sessions, signatures and components, and what takes effect at a
tick. -/

namespace Sys2Proof.Machine

def State.dcCnt (s : State) (k n : Nat) : State := { s with dual := { s.dual with counters := bump s.dual.counters k n } }
def State.dcEvent (s : State) (b : Nat) : State := { s with dual := { s.dual with events := s.dual.events ||| BitVec.ofNat 4 (2 ^ b) } }

/-! ### The registry (R351, R352, R362, R363) -/

/-- The sync state gives PTP time. -/
def State.synced (s : State) : Bool := decide (s.folio.sync = .acquire ∨ s.folio.sync = .locked ∨ s.folio.sync = .holdover)

/-- Registry time in seconds (R363). -/
def State.registryTime (s : State) : Nat :=
  if s.synced then s.folio.now * s.folio.periodUs / 1000000
  else s.dual.timeWritten + (s.recorder.seconds - s.dual.timeAt)

/-- The registry is written: the time goes with it while it is known. -/
def State.writeRegistry (s : State) : State :=
  if s.synced then { s with dual := { s.dual with timeWritten := s.registryTime, timeAt := s.recorder.seconds } } else s

/-- The 128 bytes of a registry entry (Table 13.2). -/
def cardBytes (c : Card) : Bytes :=
  beBytes 8 c.serial ++ beBytes 2 c.scope ++ beBytes 1 c.role ++ beBytes 1 c.state.code ++ beBytes 4 c.usesLeft ++
    beBytes 8 c.notBefore ++ beBytes 8 c.notAfter ++ padTo 96 c.pub

/-- The entry of a serial, and of a serial in a scope. -/
def State.cardOf (s : State) (serial : Nat) : Option Nat :=
  (s.dual.cards.find? (fun p => p.2.state != .free && p.2.serial == serial)).map (·.1)
def State.cardIn (s : State) (scope serial : Nat) : Option Nat :=
  (s.dual.cards.find? (fun p => p.2.state != .free && p.2.serial == serial && p.2.scope == scope)).map (·.1)

/-- Change an entry; the change is journalled (Table 17.5, kind 6). -/
def State.setCard (s : State) (i : Nat) (c : Card) : State := ((s.putCard i c).writeRegistry).journal 6 (cardBytes c)

/-- A card becomes EXHAUSTED, or WARNED (R363). -/
def exhaustCard (s : State) (i : Nat) : State :=
  let c := s.card i
  let s1 := s.setCard i { c with state := .exhausted }
  (s1.dcEvent 2).raise evCardExhausted srcSecurity c.scope (items [(8, c.serial), (1, s1.usableCards c.scope c.role)])

def warnCard (s : State) (i : Nat) : State :=
  let c := s.card i
  ((s.setCard i { c with state := .warned }).dcEvent 1).raise evCardWarned srcSecurity c.scope (items [(8, c.serial), (4, c.usesLeft)])

/-- 90 % of the way from NOT_BEFORE to NOT_AFTER has passed. -/
def Card.late (c : Card) (time : Nat) : Bool := decide (9 * (c.notAfter - c.notBefore) < 10 * (time - c.notBefore))

/-- The state of an entry that its uses and the registry time call for. -/
def judgeCard (s : State) (i : Nat) : State :=
  let c := s.card i
  let t := s.registryTime
  if c.state ≠ .active ∧ c.state ≠ .warned then s
  else if c.usesLeft = 0 ∨ c.notAfter < t then exhaustCard s i
  else if c.state = .active ∧ (c.usesLeft ≤ 20000 ∨ c.late t) then warnCard s i
  else s

/-- Spend one use of a card. -/
def useCard (s : State) (i : Nat) : State :=
  let c := s.card i
  judgeCard (s.setCard i { c with usesLeft := c.usesLeft - 1 }) i

/-- Give a withdrawn use back. -/
def restoreUse (s : State) (serial : Nat) : State :=
  match s.cardOf serial with
  | none => s
  | some i => s.setCard i { s.card i with usesLeft := (s.card i).usesLeft + 1 }

/-- The lowest FREE registry entry. -/
def State.freeCard (s : State) : Option Nat := (List.range 4096).find? (fun i => decide ((s.card i).state = .free))

/-- Registered cards of a scope. -/
def State.scopeCards (s : State) (scope : Nat) : Nat :=
  (s.dual.cards.filter (fun p => p.2.state != .free && p.2.scope == scope)).length

/-- CARD_REGISTER takes effect. -/
def registerCard (s : State) (c : Card) : State :=
  match s.freeCard with
  | none => s
  | some i => (s.setCard i c).raise evCardRegistered srcSecurity c.scope (items [(8, c.serial), (2, c.scope), (1, c.role)])

/-- M lies in the range of a role (R352). -/
def quorumRange (role m : Nat) : Bool := decide (m ≤ 8 ∧ (if role ≤ 1 then 2 ≤ m else 1 ≤ m))

/-! ### Sessions (R355 to R361) -/

/-- SESSION of index `i`: generation and index. -/
def sessionId (i : Nat) (x : Session) : Nat := x.gen * 256 + i

/-- The session that an identifier names for a sender's tenant, of any scope where `any`. -/
def State.sessionNamed (s : State) (t id : Nat) (any : Bool) : Option Nat :=
  let i := id % 256
  let x := s.session i
  if x.state ≠ .free ∧ id / 256 = x.gen ∧ id / 256 ≠ 0 ∧ (any ∨ x.scope = t) then some i else none

/-- Erase a session's accumulated components and its private key. -/
def Session.erase (x : Session) : Session :=
  { x with ephemeral := [], counted := x.counted.map (fun c => { c with component := [], kcv := [] }) }

/-- A session ends in state `st`. -/
def endSession (s : State) (i : Nat) (st : SessionState) : State :=
  let n := s.dual.ended + 1
  let s1 := { s with dual := { s.dual with ended := n } }
  s1.putSession i { (s1.session i).erase with state := st, endedAt := n }

/-- EXPIRED (R360). -/
def expireSession (s : State) (i : Nat) : State :=
  let x := s.session i
  ((endSession s i .expired).dcCnt 3 1).raise evSessionExpired srcSecurity x.scope
    (items [(4, sessionId i x), (1, (s.countedNow x).length)])

/-- The tick that begins E has come. -/
def State.pastE (x : Session) (a : Nat) : Bool := folioReached a x.expires

/-- A row of Table 13.1: command, role, components (16 to 32 stands for a key length), and whether its scope is the
device's alone. The scope named in a card command is checked by the command. -/
def tableRows : List (Nat × Nat × Nat × Bool) :=
  [(0x41, 0, 0, false), (0x42, 0, 0, false), (0x41, 1, 32, false), (0x42, 1, 32, false), (0x43, 0, 0, false), (0x44, 0, 0, false),
   (0x45, 0, 0, false), (0x47, 0, 0, false), (0x69, 1, 16, false), (0x69, 1, 24, false), (0x69, 1, 32, false), (0x68, 1, 32, true),
   (0x65, 0, 0, false), (0x66, 0, 0, false), (0x67, 0, 0, false), (0x91, 3, 0, true), (0x70, 0, 0, true), (0x72, 0, 0, true),
   (0x80, 0, 0, true), (0xA1, 0, 0, true), (0xA2, 0, 0, true), (0xA3, 0, 0, true), (0xA4, 0, 0, true), (0xA5, 0, 0, true),
   (0xA6, 0, 0, true)]

/-- COMMAND, ROLE and COMPLEN name a row that a tenant may open. -/
def rowNamed (tenant command role compLen : Nat) : Bool :=
  tableRows.any (fun r => r.1 == command && r.2.1 == role && r.2.2.1 == compLen && (!r.2.2.2 || tenant == 0))

/-- Sessions that tasks have promised and not yet committed. -/
def State.pendingSessions (s : State) : List (Nat × Session) :=
  s.sq.slots.flatMap (fun p => p.2.effects.filterMap (fun e => match e with
    | .sessionOpen i x => some (i, x)
    | _ => none))

/-- Sessions that count towards the limits, those promised included. -/
def State.sessionsOpen (s : State) (scope : Option Nat) : Nat :=
  (s.dual.sessions.filter (fun p => (p.2.state == .open || p.2.state == .granted || p.2.state == .inUse) &&
    (scope == none || scope == some p.2.scope))).length +
    (s.pendingSessions.filter (fun p => scope == none || scope == some p.2.scope)).length

/-- The index AUTH_OPEN takes: the lowest FREE one, else that of the session that ended earliest. -/
def State.pickSession (s : State) : Option Nat :=
  let fresh := fun (i : Nat) => s.pendingSessions.all (fun p => p.1 != i)
  match (List.range 256).find? (fun i => decide ((s.session i).state = .free) && fresh i) with
  | some i => some i
  | none =>
    (minBy (fun p => p.2.endedAt) (s.dual.sessions.filter (fun p =>
      (p.2.state == .expired || p.2.state == .spent || p.2.state == .closed) && fresh p.1))).map (·.1)

/-- AUTH_OPEN commits (R355). -/
def openSession (s : State) (i : Nat) (x : Session) : State :=
  let y := { x with state := .open, expires := folioAdd s.folio.now x.expires }
  (s.putSession i y).raise evSessionOpened srcSecurity y.scope (items [(4, sessionId i y), (2, y.scope), (2, y.command)])

/-- AUTH_CLOSE commits (R360). -/
def closeSession (s : State) (i : Nat) : State :=
  let x := s.session i
  if x.state = .open ∨ x.state = .granted then
    (endSession s i .closed).raise evSessionClosed srcSecurity x.scope (items [(4, sessionId i x)])
  else s

/-- The check of R359 by the task of slot contents `x`: the session that AUTH names, with the command's code, the digest
of the payload with its AUTH field (at `authOff`) zero, and the row that the payload selects. -/
def authStatus (s : State) (x : Slot) (command role compLen auth authOff : Nat) : Nat × Option Nat :=
  match s.sessionNamed x.tenant auth false with
  | none => (stAuthRequired, none)
  | some i =>
    let y := s.session i
    let digest := sha384B (x.payload.take authOff ++ zeros 4 ++ x.payload.drop (authOff + 4))
    if State.pastE y x.admitTick ∨ y.state = .expired then (stAuthExpired, none)
    else if y.state = .spent ∨ y.state = .closed then (stAuthSpent, none)
    else if y.state = .open then (stQuorumNotMet, none)
    else if y.state = .inUse then (stAuthInUse, none)
    else if y.command ≠ command ∨ y.pdigest ≠ digest ∨ y.role ≠ role ∨ y.compLen ≠ compLen then (stAuthMismatch, none)
    else (stOk, some i)

/-- The task of slot `k` takes its session IN_USE. -/
def takeSession (s : State) (k i : Nat) : State :=
  (s.putSession i { s.session i with state := .inUse }).modSlot k (fun x => { x with session := some i })

/-- A command's task commits: SPENT where its status is OK, else GRANTED again or EXPIRED (R359). -/
def settleSession (s : State) (i : Nat) (ok : Bool) : State :=
  let x := s.session i
  if x.state ≠ .inUse then s
  else if ok then
    ((endSession s i .spent).dcCnt 2 1).raise evSessionSpent srcSecurity x.scope (items [(4, sessionId i x), (2, x.command)])
  else if State.pastE x s.folio.now then expireSession (s.putSession i { x with state := .granted }) i
  else s.putSession i { x with state := .granted }

/-! ### Signatures and components (R357, R358, R366, R367) -/

/-- What a card signs. -/
def signedValue (i : Nat) (x : Session) (serial : Nat) (cmsg : Bytes) : Bytes :=
  sha384B (ascii "SKZ2 auth" ++ beBytes 8 serial ++ beBytes 4 (sessionId i x) ++ x.challenge ++ beBytes 2 x.scope ++
    beBytes 2 x.command ++ x.pdigest ++ (if x.compLen = 0 then zeros 48 else sha384B cmsg))

/-- ECDSA P-384 over a SHA-384 value: point X then Y, r then s. -/
def verify384 (pub digest sig : Bytes) : Bool :=
  let qx := fld pub 0 48
  let qy := fld pub 48 48
  decide (qx < p384.p ∧ qy < p384.p) && p384.has qx qy && decide (pub.length = 96 ∧ sig.length = 96) &&
    ecdsaVerifyInt p384 qx qy (beNat digest) (fld sig 0 48) (fld sig 48 48)

/-- The component a card's message carries: none where its point or tag fails or it is zero (R366). -/
def componentOf (i : Nat) (x : Session) (serial : Nat) (cmsg : Bytes) : Option Bytes :=
  let qx := fld cmsg 1 48
  let qy := fld cmsg 49 48
  if cmsg.length ≠ 97 + x.compLen + 16 ∨ fld cmsg 0 1 ≠ 4 ∨ p384.p ≤ qx ∨ p384.p ≤ qy ∨ ¬ p384.has qx qy ∨ (qx = 0 ∧ qy = 0) then none
  else
    match p384.mul (beNat x.ephemeral) (some (qx, qy)) with
    | none => none
    | some (z, _) =>
      let k := hkdf x.challenge (beBytes 48 z) (ascii "SKZ2 comp" ++ beBytes 8 serial) 32
      match gcmOpen k (zeros 12) (beBytes 4 (sessionId i x) ++ beBytes 8 serial) (slice cmsg 97 x.compLen) (slice cmsg (97 + x.compLen) 16) with
      | none => none
      | some c => if allZero c then none else some c

/-- KCV of a component: of the key algorithm its length and command select (R272, R367). -/
def componentKcv (c : Bytes) : Bytes :=
  kcvOf { alg := if c.length = 16 then 3 else if c.length = 24 then 4 else 5 } c

/-- The checks of R358 in order for session `i`, none where the sender names none: the status, and what a good signature
counts: the card's entry and its component. -/
def signatureStatus (s : State) (i : Option Nat) (a serial : Nat) (sig cmsg : Bytes) : Nat × Option (Nat × Bytes) :=
  match i with
  | none => (stAuthRequired, none)
  | some i =>
    let x := s.session i
    if (x.state ≠ .open ∧ x.state ≠ .granted) ∨ State.pastE x a then (stAuthExpired, none)
    else
      match s.cardIn x.scope serial with
      | none => (stCardUnknown, none)
      | some e =>
        let c := s.card e
        if c.role ≠ x.role then (stCardRole, none)
        else if c.state = .revoked then (stCardRevoked, none)
        else if c.state = .exhausted ∨ c.notAfter < s.registryTime then (stCardExhausted, none)
        else if x.counted.any (fun y => y.serial == serial) then (stCardDuplicate, none)
        else if ¬ verify384 c.pub (signedValue i x serial cmsg) sig then (stSignatureInvalid, none)
        else if x.compLen = 0 then (stOk, some (e, []))
        else
          match componentOf i x serial cmsg with
          | none => (stComponentInvalid, none)
          | some k => (stOk, some (e, k))

/-- Count a signature in session `i`; `effectAt` where it is already known. -/
def countSignature (s : State) (i serial entry : Nat) (component : Bytes) (slot effectAt : Option Nat) : State :=
  let x := s.session i
  let c : Counted := { serial := serial, effectAt := effectAt, component := component,
                       kcv := if component = [] then [] else componentKcv component, slot := slot }
  useCard (s.putSession i { x with counted := x.counted ++ [c] }) entry

/-- A refused signature. -/
def refuseSignature (s : State) (t id serial st : Nat) : State :=
  ((s.dcEvent 0).dcCnt 1 1).raise evSignatureRefused srcSecurity t (items [(4, id), (8, serial), (2, st)])

/-- The OK reply of the AUTH_SIGN of slot `k` commits: its signature takes effect at the next tick. -/
def commitSignature (s : State) (i k : Nat) : State :=
  let x := s.session i
  let f := folioAdd s.folio.now 1
  let mark := fun (c : Counted) => if c.slot = some k then { c with effectAt := some f, slot := none } else c
  s.putSession i { x with counted := x.counted.map mark }

/-- The task of slot `k` commits another status: its count is withdrawn, and the use given back (R358). -/
def withdrawSignature (s : State) (k : Nat) : State :=
  s.dual.sessions.foldl (fun s p =>
    match p.2.counted.find? (fun c => c.slot == some k) with
    | none => s
    | some c =>
      let x := s.session p.1
      restoreUse (s.putSession p.1 { x with counted := x.counted.filter (fun d => d.slot != some k) }) c.serial) s

/-- The components of the first M counted signatures in effect, XORed (R367). -/
def State.assembled (s : State) (x : Session) : Bytes :=
  (((s.countedNow x).take x.m).map (·.component)).foldl (fun a c => if a = [] then c else xorBytes a c) []

/-! ### At a tick -/

/-- Signatures that take effect at this tick (R358). -/
def tickSignatures (s : State) : State :=
  s.dual.sessions.foldl (fun s p =>
    let i := p.1
    let x := s.session i
    if x.state ≠ .open ∧ x.state ≠ .granted then s
    else
      let fresh := x.counted.filter (fun c => c.effectAt == some s.folio.now)
      let before := (s.countedNow x).length - fresh.length
      let (s1, _) := fresh.foldl (fun (acc : State × Nat) c =>
        ((acc.1.dcCnt 0 1).raise evSignatureCounted srcSecurity x.scope (items [(4, sessionId i x), (8, c.serial), (1, acc.2 + 1)]),
          acc.2 + 1)) (s, before)
      if x.state = .open ∧ x.m ≤ (s.countedNow x).length ∧ ¬ fresh.isEmpty then
        (s1.putSession i { x with state := .granted }).raise evSessionGranted srcSecurity x.scope (items [(4, sessionId i x)])
      else s1) s

/-- CARD_REVOKE takes effect (R361). -/
def revokeCard (s : State) (serial : Nat) : State :=
  match s.cardOf serial with
  | none => s
  | some e =>
    let c := s.card e
    let hit := s.dual.sessions.filter (fun p => (p.2.state == .open || p.2.state == .granted) && p.2.counted.any (fun y => y.serial == serial))
    let s1 := s.setCard e { c with state := .revoked }
    let s2 := hit.foldl (fun s p =>
      let x := s.session p.1
      let y := { x with counted := x.counted.filter (fun d => d.serial != serial) }
      s.putSession p.1 { y with state := if (s.countedNow y).length < y.m then .open else y.state }) s1
    s2.raise evCardRevoked srcSecurity c.scope (items [(8, serial), (1, hit.length)])

/-- A REVOKED entry becomes FREE. -/
def freeRevoked (s : State) (serial : Nat) : State :=
  match s.cardOf serial with
  | none => s
  | some e => if (s.card e).state = .revoked then (s.putCard e {}).writeRegistry.journal 6 (cardBytes { s.card e with state := .free }) else s

/-- QUORUM_SET takes effect. -/
def setQuorum (s : State) (scope role m : Nat) : State :=
  let s1 := { s with dual := { s.dual with quorums := tabPut 0 s.dual.quorums (4 * scope + role) m } }
  ((s1.writeRegistry).journal 6 (beBytes 2 scope ++ beBytes 1 role ++ beBytes 1 m)).raise evQuorumChanged srcSecurity scope
    (items [(2, scope), (1, role), (1, m)])

/-- Every session ends, its components erased, and every exchange stops (R361). -/
def clearSessions (s : State) : State :=
  let stop := fun (p : Nat × CardIface) => (p.1, ({ p.2 with exchange := none, powered := false } : CardIface))
  { s with dual := { s.dual with sessions := [], ifaces := s.dual.ifaces.map stop, ended := 0 } }

/-! ### Commands of the security die (R360, R363, R364) -/

/-- SESSION_EXPIRY (R360). -/
def execSessionExpiry (index : Nat) (s : State) : Host.Outcome State Fault Refusal :=
  let x := s.session index
  if (x.state = .open ∨ x.state = .granted) ∧ State.pastE x s.folio.now then .next (expireSession s index) else .next s

/-- CARD_VALIDITY_CHANGE (R363). -/
def execCardValidityChange (entry : Nat) (s : State) : Host.Outcome State Fault Refusal := .next (judgeCard s entry)

def State.iface (s : State) (i : Nat) : CardIface := tabGet {} s.dual.ifaces i
def State.putIface (s : State) (i : Nat) (x : CardIface) : State :=
  { s with dual := { s.dual with ifaces := tabPut {} s.dual.ifaces i x } }

/-- An exchange ends: CARDx_PWREN falls, and LOCAL_STATUS of its session is kept. -/
def endExchange (s : State) (i st : Nat) : State :=
  let f := s.iface i
  let s1 := s.putIface i { f with exchange := none, powered := false }
  match f.exchange with
  | none => s1
  | some id => if sessionId (id % 256) (s1.session (id % 256)) = id then
      s1.putSession (id % 256) { s1.session (id % 256) with localStatus := st } else s1

/-- CARD_EXCHANGE_COMPLETE (R358, R364): the security die verifies the local card's signature and component; a good one is
counted from the first tick after. -/
def execCardExchangeComplete (iface serial : Nat) (sig cmsg : Bytes) (s : State) : Host.Outcome State Fault Refusal :=
  match (s.iface iface).exchange with
  | none => .next s
  | some id =>
    let x := s.session (id % 256)
    let i := if sessionId (id % 256) x = id ∧ x.state ≠ .free then some (id % 256) else none
    match signatureStatus s i s.folio.now serial sig cmsg with
    | (st, none) => .next (refuseSignature (endExchange s iface st) x.scope id serial st)
    | (_, some (e, comp)) =>
      .next (countSignature (endExchange s iface stOk) (id % 256) serial e comp none (some (folioAdd s.folio.now 1)))

/-- CARD_EXCHANGE_TIMEOUT (R364). -/
def execCardExchangeTimeout (iface : Nat) (lost : Bool) (s : State) : Host.Outcome State Fault Refusal :=
  match (s.iface iface).exchange with
  | none => .next s
  | some _ =>
    let st := if lost then stCardAbsent else stCardTimeout
    .next (((endExchange s iface st).dcEvent 3).raise evIfaceFault srcSecurity 0 (items [(1, iface), (2, st)]))

/-- CARD_PRESENCE_CHANGE (R364, R371): the interfaces run while the main rails are present. -/
def execCardPresenceChange (iface : Nat) (present classA : Bool) (s : State) : Host.Outcome State Fault Refusal :=
  let f := s.iface iface
  if ¬ s.dev.mainRails ∨ 2 ≤ iface ∨ f.present = present then .next s
  else
    .next ((s.putIface iface { f with present := present, classA := present && classA }).raise evCardPresence srcSecurity 0
      (items [(1, iface), (1, bit present)]))

end Sys2Proof.Machine
end

