-- ==== Sys2Proof/Machine/Tamper.lean ====
section
/-! DEFINITION. Tamper detection and response (chapter 15): sensors, alerts, the erase response, and the moments at which
the compute die is held in reset. -/

namespace Sys2Proof.Machine

/-! ### The compute die in reset (R17, R252, R395, Table 15.3) -/

/-- What the compute die holds is cleared, and every register that compute-die reset resets reads its reset value. The
security die's flash, its battery-backed RAM and both NVMs keep what they hold. -/
def State.computeReset (s : State) : State :=
  let d := { s.dev with gutterKeyed := false, gutterKey := [], gutterTx := 0, gutterRx := 0 }
  let dual := { s.dual with sessions := [], events := 0, counters := [], ifaces := s.dual.ifaces.map (fun p => (p.1, ({ p.2 with exchange := none, powered := false } : CardIface))), ended := 0 }
  let lc := { s.lc with dbg := { s.lc.dbg with challenge := none, active := false }, lastStatus := 0, lastFunction := 0,
                        lastMailbox := false, inProgress := false, mailboxReply := none,
                        debugLockedSecond := none, debugLockedCount := 0, debugDeniedSecond := none, debugDeniedCount := 0 }
  let tmp := { s.tmp with alerts := 0, temps := [], counters := [], runs := [], alertSeconds := [], alertCounts := [],
                          latchedSecond := none, rootFormed := false }
  let boot := { s.boot with step := 0, stepMs := [], running := none, load := {}, drain := none, env := {} }
  let vault := { s.vault with seq := 0 }
  { s with dev := d, folio := {}, ports := [], srp := {}, adm := {}, sq := {}, cores := {}, ks := {}, vault := vault, bn := {},
           bulk := {}, rng := { draws := s.rng.draws }, dual := dual, lc := lc, tmp := tmp, boot := boot, image := {}, pair := {},
           pmc := {}, pwr := {}, faults := {}, recorder := { s.recorder with counters := [] } }

/-- The battery-backed RAM is cleared: the tamper key share, the presence word and the vault chain record (R252, R397). -/
def State.clearBattery (s : State) : State :=
  { s with tmp := { s.tmp with share := [], presence := false }, vault := { s.vault with heldSeq := 0, heldChain := [] } }

/-! ### Detections (R397 to R402) -/

def State.tmpCnt (s : State) (k n : Nat) : State := { s with tmp := { s.tmp with counters := bump s.tmp.counters k n } }

/-- Seconds for the once-per-second events of the tamper sensors: device time while a folio runs, else operating seconds. -/
def State.tamperSecond (s : State) : Nat := if s.folioRuns then s.second else 2 ^ 40 + s.recorder.seconds

/-- The START step in progress, 0 outside START. -/
def State.startStep (s : State) : Nat := if s.dev.state = .start then s.boot.running.getD 0 else 0

/-- The capture of a detection now (R398). -/
def State.capture (s : State) (sensor : Nat) (data : BitVec 16) (erase : Bool) : Capture :=
  { sensor := sensor, data := data, devState := s.dev.state.code, step := s.startStep, seconds := s.recorder.seconds,
    cycles := s.recorder.cycles, folio := if s.folioRuns then s.folio.now % 2 ^ 16 else 0, erase := erase }

/-- Keep a capture; beyond eight it is counted in LATER alone (R398). -/
def keepCapture (t : Tamper) (c : Capture) : Tamper :=
  if t.captures.length < 8 then { t with captures := t.captures ++ [c] } else { t with later := min 0xFF (t.later + 1) }

/-- An erase response begins (R397, Table 15.4). In SLEEP the security die acts alone. Records offered and not yet written
are lost, with the suppressed counts (R465). -/
def eraseResponse (s : State) (sensor : Nat) (data : BitVec 16) : State :=
  let c := s.capture sensor data true
  let t := { keepCapture s.tmp c with latch := true, sensor := sensor, first := some c, erases := s.tmp.erases + 1,
                                      rootFormed := false }
  let s0 := { s with tmp := t, recorder := { s.recorder with offered := [], suppressed := [] } }
  let s1 := (s0.tmpCnt 2 1).clearBattery
  if s.dev.state = .sleep then s1
  else
    let s2 := s1.computeReset
    { s2 with tmp := { s2.tmp with egress := false }, dev := { s2.dev with state := .tampered, entryFolio := s.folio.now } }

/-- A detection while the latch is set (R402). -/
def detectLatched (s : State) (sensor : Nat) (data : BitVec 16) : State :=
  let t := s.tmp
  let t1 := keepCapture { t with later := min 0xFF (t.later + 1) } (s.capture sensor data true)
  let fresh := t.latchedSecond ≠ some s.tamperSecond
  let s1 := ({ s with tmp := { t1 with latchedSecond := some s.tamperSecond } }.tmpCnt 2 1).clearBattery
  let s2 := if fresh then s1.raise evTamperWhileLatched srcSecurity 0 (items [(1, sensor), (1, t1.later)]) else s1
  if s.dev.state = .sleep then s2
  else
    let s3 := s2.computeReset
    { s3 with tmp := { s3.tmp with egress := false, latchedSecond := s2.tmp.latchedSecond },
              dev := { s3.dev with state := .tampered, entryFolio := s.folio.now } }

/-- A detection by an alerting sensor (R400). -/
def alert (s : State) (sensor : Nat) (data : BitVec 16) : State :=
  let t := s.tmp
  let n := tabGet 0 t.alertCounts sensor + 1
  let t1 := { t with alerts := t.alerts ||| BitVec.ofNat 29 (2 ^ sensor) }
  let s1 := { s with tmp := t1 }.tmpCnt 1 1
  if s.dev.state = .sleep then { s1 with tmp := keepCapture s1.tmp (s.capture sensor data false) }
  else if tabGet 0 t.alertSeconds sensor = s.tamperSecond + 1 then
    { s1 with tmp := { s1.tmp with alertCounts := tabPut 0 t.alertCounts sensor n } }
  else
    { s1 with tmp := { s1.tmp with alertCounts := tabPut 0 t.alertCounts sensor 0,
                                   alertSeconds := tabPut 0 t.alertSeconds sensor (s.tamperSecond + 1) } }.raise
      evTamperAlert srcSecurity 0 (items [(1, sensor), (2, data.toNat), (4, n)])

/-- The sensor takes the erase response: fixed, or configured so (R392, R393). -/
def State.erases (s : State) (sensor : Nat) : Bool := (s.tmp.action ||| fixedSensors).getLsbD sensor

/-- A detection (R392). -/
def detect (s : State) (sensor : Nat) (data : BitVec 16) : State :=
  if s.erases sensor then (if s.tmp.latch then detectLatched s sensor data else eraseResponse s sensor data)
  else alert s sensor data

/-- A sensor's condition holds now, or does not (TMP_ACTIVE). -/
def setActive (s : State) (sensor : Nat) (v : Bool) : State :=
  let b : BitVec 29 := BitVec.ofNat 29 (2 ^ sensor)
  { s with tmp := { s.tmp with active := if v then s.tmp.active ||| b else s.tmp.active &&& ~~~ b } }

def State.activeSensor (s : State) (sensor : Nat) : Bool := s.tmp.active.getLsbD sensor

/-- The condition of a sensor is judged: it detects at the moment it begins to hold. -/
def judge (s : State) (sensor : Nat) (holds : Bool) (data : BitVec 16) : State :=
  let s1 := setActive s sensor holds
  if holds ∧ ¬ s.activeSensor sensor then detect s1 sensor data else s1

/-! ### Commands of the sensors (R392, R394) -/

/-- The security die watches: VSEC is present. -/
def State.watches (s : State) : Bool := s.dev.vsec

/-- COVER_MESH_PATROL (R394): one failed comparison is a detection. -/
def execCoverMeshPatrol (diff0 diff1 diff2 diff3 : BitVec 64) (s : State) : Host.Outcome State Fault Refusal :=
  if ¬ s.watches then .next s
  else
    let nets := [(0, diff0), (1, diff1), (2, diff2), (3, diff3)]
    let s1 := nets.foldl (fun s p => setActive s p.1 (p.2 != 0)) (s.tmpCnt 0 1)
    .next ((nets.filter (fun p => p.2 != 0)).foldl (fun s p => detect s p.1 (BitVec.ofNat 16 p.1)) s1)

/-- ENC_MESH_PATROL (R394). -/
def execEncMeshPatrol (k : Nat) (diff : BitVec 64) (s : State) : Host.Outcome State Fault Refusal :=
  if ¬ s.watches ∨ 2 ≤ k then .next s
  else
    let s1 := setActive (s.tmpCnt 0 1) (4 + k) (diff != 0)
    .next (if diff != 0 then detect s1 (4 + k) (BitVec.ofNat 16 k) else s1)

/-- Samples of a FILTER code (R393). -/
def filterSamples (f : Nat) : Nat := if f = 0 then 1 else if f = 1 then 2 else if f = 2 then 4 else 16

/-- SWITCH_SAMPLE (R392): detected at the FILTER-th consecutive sample at the active level. -/
def execSwitchSample (k : Nat) (high : Bool) (s : State) : Host.Outcome State Fault Refusal :=
  if ¬ s.watches ∨ 8 ≤ k then .next s
  else
    let n := filterSamples (tabGet 0 s.tmp.filter k % 4)
    let run := if high = s.tmp.level.getLsbD k then min n (tabGet 0 s.tmp.runs k + 1) else 0
    let s1 := { s with tmp := { s.tmp with runs := tabPut 0 s.tmp.runs k run } }
    let s2 := if 0 < run ∧ run < n then s1.tmpCnt 3 1 else s1
    .next (judge s2 (6 + k) (run = n) (BitVec.ofNat 16 k))

/-- VMON_EXCURSION (R392, Table 15.2): rails 0 VDD_CORE, 1 VDD_SRAM, 2 VDD_SDA, 3 VDDH_SD, 4 VDDIO armed while PWRGOOD is
high, and 5 VSEC always; VSEC below its minimum destroys the battery-backed RAM (R19). -/
def execVmonExcursion (rail : Nat) (above : Bool) (s : State) : Host.Outcome State Fault Refusal :=
  if rail = 5 then .next (detect s 19 (BitVec.ofNat 16 (bit above)))
  else if rail < 5 ∧ s.watches ∧ s.dev.pwrGood ∧ s.dev.mainRails then
    .next (detect s (14 + rail) (BitVec.ofNat 16 (bit above)))
  else .next s

/-- SUPPLY_GLITCH (R392): 0 VDD_CORE, watched while the main rails are present, 1 VSEC. -/
def execSupplyGlitch (which : Nat) (s : State) : Host.Outcome State Fault Refusal :=
  if s.watches ∧ (which = 1 ∨ (which = 0 ∧ s.dev.mainRails)) then .next (detect s 20 (BitVec.ofNat 16 which)) else .next s

/-- The clock sensors are armed: from START step 6 until the compute die is next held in reset (R392). -/
def State.clocksArmed (s : State) : Bool := s.watches && s.dev.mainRails && s.folioRuns

/-- CLOCK_FREQ (R392): REFCLK_SYS (0) outside 95 to 105 MHz, the core clock (1) outside 1.52 to 1.68 GHz. -/
def execClockFreq (which khz : Nat) (s : State) : Host.Outcome State Fault Refusal :=
  let out : Bool := if which = 0 then decide (khz < 95000 ∨ 105000 < khz) else decide (which = 1 ∧ (khz < 1520000 ∨ 1680000 < khz))
  if s.clocksArmed ∧ out then .next (detect s 21 (BitVec.ofNat 16 which)) else .next s

/-- CLOCK_GLITCH (R392). -/
def execClockGlitch (which : Nat) (s : State) : Host.Outcome State Fault Refusal :=
  if s.clocksArmed ∧ which < 2 then .next (detect s 22 (BitVec.ofNat 16 which)) else .next s

/-- LIGHT, LASER and EM (R392). -/
def execLight (detector : Nat) (present : Bool) (s : State) : Host.Outcome State Fault Refusal :=
  if s.watches then .next (judge s 25 present (BitVec.ofNat 16 detector)) else .next s
def execLaser (detector : Nat) (present : Bool) (s : State) : Host.Outcome State Fault Refusal :=
  if s.watches then .next (judge s 26 present (BitVec.ofNat 16 detector)) else .next s
def execEm (detector : Nat) (present : Bool) (s : State) : Host.Outcome State Fault Refusal :=
  if s.watches then .next (judge s 27 present (BitVec.ofNat 16 detector)) else .next s

/-- TEMP_READING (R392, R478): the five sensors, TEMP_LOW and TEMP_HIGH, and the thermal state. Without the main rails only
the security die's is read. -/
def execTempReading (t0 t1 t2 t3 t4 : BitVec 16) (s : State) : Host.Outcome State Fault Refusal :=
  if ¬ s.watches then .next s
  else
    let all := if s.dev.mainRails then [t0, t1, t2, t3, t4] else [t0]
    let r := all.map (fun t => t.toInt)
    let first := fun (p : Int → Bool) => r.findIdx p
    let low := fun (t : Int) => decide (t < -800)
    let high := fun (t : Int) => decide (2640 < t)
    let temps := (List.range all.length).foldl (fun m k => tabPut 0 m k (all.getD k 0)) s.tmp.temps
    let s1 := { s with tmp := { s.tmp with temps := temps } }
    let s2 := if s.dev.mainRails then thermalUpdate s1 r else s1
    let s3 := judge s2 23 (r.any low) (BitVec.ofNat 16 (first low))
    .next (judge s3 24 (r.any high) (BitVec.ofNat 16 (first high)))

/-- CRYSTAL_STOP (R492): the always-on domain changes to its internal oscillator; no detection. -/
def execCrystalStop (s : State) : Host.Outcome State Fault Refusal :=
  if s.watches then .next { s with tmp := { s.tmp with internalOsc := true } } else .next s

/-- The record of a capture. -/
def captureRecord (c : Capture) : Record :=
  { seconds := c.seconds, cycles := c.cycles, folio := c.folio, code := if c.erase then evTamperErase else evTamperAlert,
    source := srcSecurity, tenant := 0,
    data := padTo 16 (if c.erase then items [(1, c.sensor), (2, c.data.toNat), (1, c.devState), (1, c.step)]
      else items [(1, c.sensor), (2, c.data.toNat), (4, 1)]) }

/-- TAMPER_RECORD_WRITE (R397 step 7, R398, R400, R465): the oldest capture is taken; that of the response becomes the
event 0x00 record, whether or not a token is present. In SLEEP it waits for the next start. -/
def execTamperRecordWrite (s : State) : Host.Outcome State Fault Refusal :=
  match s.tmp.captures with
  | [] => .next s
  | c :: rest =>
    if s.dev.state = .sleep then .next s
    else
      let s1 := { s with tmp := { s.tmp with captures := rest } }
      let s2 := { s1 with recorder := { s1.recorder with bucket := s1.recorder.bucket - 1 } }
      if ¬ c.erase then .next { s1 with recorder := offer s1.recorder (captureRecord c) }
      else if s.tmp.first = some c then .next (writeRecord s2 (captureRecord c))
      else .next s1

/-! ### Power (R18, R19, R395) -/

/-- RESET_ASSERTED (R18, R395): a falling PWRGOOD or RESET_N strobes the compute-die clear and moves the device to RESET,
from any state but SLEEP. -/
def execResetAsserted (pin : ResetPin) (s : State) : Host.Outcome State Fault Refusal :=
  let d := match pin with
    | .pwrGood => { s.dev with pwrGood := false }
    | .resetN => { s.dev with resetN := false }
  let rec_ := if pin = .pwrGood then { s.recorder with coldStart := true } else s.recorder
  let s0 := { s with dev := d, recorder := rec_ }
  if s.dev.state = .sleep then .next s0
  else
    let s1 := s0.computeReset
    .next { s1 with dev := { s1.dev with state := .reset, entryFolio := 0 }, boot := { s1.boot with restart := none, running := none } }

/-- MAIN_RAILS_REMOVED (R18, R395, R461): with VSEC present the device goes to SLEEP, the counts stored; without it PWRGOOD
falls, and the counts are not. -/
def execMainRailsRemoved (s : State) : Host.Outcome State Fault Refusal :=
  if s.dev.state = .sleep then .next { s with dev := { s.dev with mainRails := false, pwrGood := false, vidValid := false } }
  else if ¬ s.dev.vsec then
    let s1 := s.computeReset
    .next { s1 with dev := { s1.dev with state := .reset, mainRails := false, pwrGood := false, vidValid := false, entryFolio := 0 },
                    boot := { s1.boot with restart := none, running := none },
                    recorder := { s1.recorder with coldStart := true, sleepEntryStored := false } }
  else
    let s1 := s.computeReset
    .next { s1 with dev := { s1.dev with state := .sleep, mainRails := false, pwrGood := false, vidValid := false, entryFolio := 0 },
                    boot := { s1.boot with restart := none, running := none },
                    recorder := { storeSeconds s1.recorder with coldStart := true, sleepEntryStored := true } }

/-- MAIN_RAILS_PRESENT (R18): the main rails and PWRGOOD return, and a device in SLEEP moves to RESET. -/
def execMainRailsPresent (s : State) : Host.Outcome State Fault Refusal :=
  let d := { s.dev with mainRails := true, pwrGood := true, vidValid := true }
  if s.dev.state = .sleep then .next { s with dev := { d with state := .reset, entryFolio := 0 } } else .next { s with dev := d }

/-- VSEC_APPLIED (R19): VSEC rises from absence; the battery-backed RAM is zero, its presence word missing. -/
def execVsecApplied (s : State) : Host.Outcome State Fault Refusal :=
  .next ({ s with dev := { s.dev with vsec := true } }).clearBattery

/-- VID_VALID (R486): VDDIO is up with VSEC present, and the voltage code is driven. -/
def execVidValid (s : State) : Host.Outcome State Fault Refusal :=
  if s.dev.vsec then .next { s with dev := { s.dev with vidValid := true } } else .next s

/-! ### The gutter link (R13, R14) -/

/-- The link keys of a start (R13): the key towards the compute die, then the key towards the security die. -/
def gutterKeys (nonce : Bytes) : Bytes := hkdf nonce (beBytes 32 Config.packageSecret.toNat) (ascii "SKZ2 gutter") 64

/-- GUTTER_FRAME_RECEIVE (R14): `frame` is ciphertext and tag under the key for its direction, with the count as nonce. A
failed tag, or a count other than the next expected one of that direction, discards the frame and is a fixed erase
detection. -/
def execGutterFrameReceive (toCompute : Bool) (count : Nat) (frame : Bytes) (s : State) : Host.Outcome State Fault Refusal :=
  if ¬ s.dev.gutterKeyed then .next s
  else
    let body := frame.take (frame.length - 16)
    let tag := frame.drop (frame.length - 16)
    let key := slice s.dev.gutterKey (if toCompute then 0 else 32) 32
    let want := if toCompute then s.dev.gutterTx else s.dev.gutterRx
    if 16 ≤ frame.length ∧ count = want ∧ (gcmOpen key (beBytes 12 count) [] body tag).isSome then
      .next { s with dev := if toCompute then { s.dev with gutterTx := want + 1 } else { s.dev with gutterRx := want + 1 } }
    else .next (detect s 28 (BitVec.ofNat 16 (bit toCompute)))

end Sys2Proof.Machine
end

