-- ==== Sys2Proof/Machine/Life.lean ====
section
/-! DEFINITION. Life cycle and debug authorisation (chapter 14): state words, transitions, the functions of Table 14.7, the
JTAG instructions, and report mode. -/

namespace Sys2Proof.Machine

/-! ### State words (R374, R375, Table 14.2) -/

abbrev stripePattern : Nat := 0x96

/-- Stripe `k` of a copy. -/
def stripe (w : Word64) (k : Nat) : Nat := w.toNat / 256 ^ k % 256

/-- A copy with the lowest `n` stripes programmed. -/
def codeword (n : Nat) : Word64 :=
  BitVec.ofNat 64 (((List.range 8).map (fun k => (if k < n then stripePattern else 0xFF) * 256 ^ k)).sum)

/-- The state of a codeword with `n` stripes, stripe 7 apart. -/
def stateOfStripes (n : Nat) : LcState :=
  match n with
  | 0 => .blank
  | 1 => .test
  | 2 => .provisioned
  | 3 | 5 | 7 => .deployed
  | _ => .returned

/-- The stripes of a word of Table 14.2. -/
def codewordStripes (w : Word64) : Option Nat := (List.range 8).find? (fun n => codeword n == w)

/-- An intent that is live, or was abandoned (R378). -/
def Intent.live (i : Intent) : Bool := i.valid && !i.complete && !i.abandoned
/-- ABANDONED is programmed (R381). -/
def Intent.abandon (i : Intent) : Intent := if i.live then { i with abandoned := true } else i
def Lc.liveIntent (l : Lc) : Option Intent := l.intents.find? (·.live)

/-- The decode of R375, with LC_STATE.CAUSE. -/
def decodeState (l : Lc) : LcState × Nat :=
  if stripe l.word0 7 = stripePattern ∧ stripe l.word1 7 = stripePattern then (.scrapped, 0)
  else if l.liveIntent.isSome then (.invalid, 3)
  else if l.intents.any (·.abandoned) then (.invalid, 4)
  else
    match codewordStripes l.word0, codewordStripes l.word1 with
    | some n, some m => if n = m then (stateOfStripes n, 0) else (.invalid, 1)
    | _, _ => (.invalid, 2)

/-- Program stripe `k` of a copy to the pattern: bits turn from 1 to 0 only. -/
def programStripe (w : Word64) (k : Nat) : Word64 := w &&& ~~~ (BitVec.ofNat 64 ((0xFF - stripePattern) * 256 ^ k))

/-- The stripe has a bit at 0 where the pattern has 1 (R381). -/
def stripeDamaged (w : Word64) (k : Nat) : Bool := decide (Nat.land (stripe w k) stripePattern ≠ stripePattern)

/-! ### Transitions (Table 14.3) -/

/-- The row from a state with `n` stripes to a target code: its stripe, its digest slot and whether it needs a quorum. The
stripe 8 stands for one that is already used. -/
def transitionRow (st : LcState) (n target : Nat) : Option (Nat × Nat × Bool) :=
  if target = 5 then some (7, 7, decide (st = .deployed))
  else
    match st, target with
    | .blank, 1 => some (0, 0, false)
    | .test, 2 => some (1, 1, false)
    | .provisioned, 3 => some (2, 2, false)
    | .deployed, 4 => some (if n < 7 then n else 8, n, true)
    | .returned, 3 => some (n, n, false)
    | _, _ => none

/-- The debug record is voided (R385). Causes: 0 end, 1 exhausted, 2 transition, 3 mismatch. -/
def voidDebug (s : State) (cause : Nat) : State :=
  if s.lc.dbg.armed then
    { s with lc := { s.lc with dbg := { s.lc.dbg with armed := false, startsLeft := 0, grantState := 0 } } }.raise evDebugEnded
      srcSecurity 0 (items [(1, cause)])
  else s

/-- A transition erases the tail, whose numbering starts again (R463). -/
def eraseTail (s : State) : State :=
  { s with recorder := { s.recorder with tail := [], tailChain := [], next := 0, oldest := 0, offered := [] } }

/-- The card registry is erased, with the recorded owner set and rollback number (R417). -/
def eraseRegistry (s : State) : State :=
  { s with dual := { s.dual with cards := [], quorums := [], timeWritten := 0, timeAt := 0, written := false },
           boot := { s.boot with rollback := 0, ownerSet := none } }

/-- A new tamper key share from source C, and the presence word. -/
def drawShare (s : State) : State :=
  let (b, s1) := s.random 64
  { s1 with tmp := { s1.tmp with share := b, presence := true } }

/-- The wipes of a row, in table order; each may be repeated (R380). -/
def transitionWipes (s : State) (i : Intent) : State :=
  let s1 := voidDebug s 2
  match i.target with
  | 2 => eraseTail s1
  | 3 =>
    let s2 := if i.source = 2 then eraseTail s1 else s1
    let s3 := drawShare s2
    { s3 with boot := { s3.boot with vaultMark := true } }
  | 4 =>
    let s2 := { s1 with tmp := { s1.tmp with share := [] }, vault := { s1.vault with heldSeq := 0, heldChain := [] } }
    clearSessions (eraseRegistry s2)
  | 5 =>
    let s2 := clearSessions (eraseRegistry (eraseTail s1.clearBattery))
    let r := { s2.recorder with frontCount := 0, front := [], frontChain := [], storedSeconds := 0, storedCycles := 0 }
    { s2 with recorder := r, lc := { s2.lc with digests := [], certs := [] }, recovery := some {},
              boot := { s2.boot with attempts := 0, counters := [], cause := {} } }
  | _ => s1

/-- LC_TRANSITION_EXECUTE (R379 steps 2 to 5): the wipes, the stripe in both copies, the digest, COMPLETE, the restart. -/
def execLcTransitionExecute (s : State) : Host.Outcome State Fault Refusal :=
  match s.lc.liveIntent with
  | none => .next s
  | some i =>
    if ¬ s.lc.inProgress ∨ s.dev.state ≠ .recovery then .next s
    else
      let done := decide (stripe s.lc.word0 i.stripe = stripePattern ∧ stripe s.lc.word1 i.stripe = stripePattern)
      let s1 := if done then s else transitionWipes s i
      let l := s1.lc
      let close := fun (r : Intent) => if r.live then { r with complete := true } else r
      let l1 := { l with word0 := programStripe l.word0 i.stripe, word1 := programStripe l.word1 i.stripe,
                         digests := tabPut [] l.digests i.slot [], intents := l.intents.map close }
      let s2 := { s1 with lc := l1 }.raise evLcTransitionDone srcSecurity 0 (items [(1, i.target), (1, i.stripe)])
      let s3 := if i.target = 3 then { s2 with recorder := { s2.recorder with everDeployed := true } } else s2
      .next ({ s3 with boot := { s3.boot with attempts := 0 } }.computeReset.askRestart .start)

/-! ### Functions (R377, R384, R385, R388) -/

/-- The function of a life-cycle slot ended with `st`: LC_LAST. -/
def lcLast (s : State) (x : Slot) (st : Nat) : State :=
  { s with lc := { s.lc with lastStatus := st, lastFunction := x.func % 256, lastMailbox := x.mailbox } }

/-- A function, and what the device does where it is refused. -/
def Fn.orRefuse (f : Fn FnRes) (g : Nat → State → State) : Fn FnRes :=
  tryCatch f (fun e => do Fn.change (g e); throw e)

/-- A life-cycle function leaves its status in LC_LAST. -/
def lcFn (x : Slot) (f : Fn FnRes) : Fn FnRes :=
  Fn.orRefuse (do let r ← f; Fn.change (fun s => lcLast s x stOk); return r) (fun e s => lcLast s x e)

/-- The checks of R359 in a function of slot `k`: the session is taken. -/
def Fn.auth (k : Nat) (x : Slot) (command role compLen authOff : Nat) : Fn Nat := do
  let r ← Fn.st (fun s => authStatus s x command role compLen (fld x.payload authOff 4) authOff)
  Fn.ok r.1
  let i ← Fn.get! r.2 stAuthRequired
  Fn.change (fun s => takeSession s k i)
  return i

/-- The device's three public keys, as the certificates certify them. -/
def State.devicePublic (s : State) : List Bytes :=
  [[4] ++ public384 s.ks.idk, [4] ++ public384 s.ks.akEc, mlDsaPublic s.ks.akPq]

/-- The three certificates are loaded and match (Table 14.3). -/
def State.certsMatch (s : State) : Bool :=
  (List.range 3).all (fun i => Config.certifiedKey (tabGet [] s.lc.certs i) == some (s.devicePublic.getD i []))

/-- LC_TRANSITION (R377, R380, R381). -/
def lcTransitionFn (k : Nat) (x : Slot) : Fn FnRes :=
  let p := x.payload
  let target := fld p 4 1
  let auth := fld p 8 4
  let token := slice p 12 32
  let body : Fn FnRes := do
    Fn.need (layoutOk p 44 [(5, 3)]) stFieldInvalid
    let s ← get
    let l := s.lc
    let n := min (stripes l.word0) (stripes l.word1)
    let row := transitionRow l.state n target
    Fn.need (!(x.mailbox && l.state != .invalid && (row.map (·.2.2)).getD false)) stLcPath
    Fn.need (!l.inProgress) stLcBusy
    match (if l.state = .invalid then l.liveIntent else none) with
    | some i =>
      Fn.need (target == i.target) stLcIntentPending
      Fn.need (auth == 0) stFieldInvalid
      Fn.need (tabGet [] l.digests i.slot == sha384B token) stLcTokenInvalid
      match [(0, l.word0), (1, l.word1)].find? (fun c => stripeDamaged c.2 i.stripe) with
      | some c =>
        Fn.change (fun s =>
          { s with lc := { s.lc with intents := s.lc.intents.map Intent.abandon } }.raise
            evLcWordDamaged srcSecurity 0 (items [(1, c.1), (1, i.stripe), (1, stripe c.2 i.stripe)]))
        throw stLcWordDamaged
      | none =>
        Fn.change (fun s => s.raise evLcResumed srcSecurity 0 (items [(1, i.target), (1, i.stripe)]))
        Fn.done [] [.lcTransition]
    | none =>
      let r ← Fn.get! row stLcTransitionNotAllowed
      Fn.need (r.1 < 8 && !(r.1 == 7 && stripe l.word0 7 == stripePattern)) stLcExhausted
      let slot := if target = 5 then (if tabGet [] l.digests 7 = sha384B token then 7 else 8) else r.2.1
      if r.2.2 then
        let _ ← Fn.auth k x 0x70 0 0 8
      else Fn.need (auth == 0) stFieldInvalid
      Fn.need (target != 2 || s.certsMatch) stLcCertMissing
      Fn.need (tabGet [] l.digests slot == sha384B token) stLcTokenInvalid
      let i : Intent := { source := l.state.code, target := target, stripe := r.1, slot := slot, quorum := r.2.2, valid := false }
      Fn.change (fun s => { s with lc := { s.lc with intents := s.lc.intents ++ [i] } })
      Fn.done [] [.lcTransition]
  lcFn x (Fn.orRefuse body (fun e s => s.raise evLcTransitionRefused srcSecurity 0 (items [(1, target), (2, e)])))

/-- VALID is durable: the reply leaves, and the transition is in progress (R379 step 1). -/
def beginTransition (s : State) : State :=
  let fresh := s.lc.intents.find? (fun r => !r.valid)
  let s1 := { s with lc := { s.lc with intents := s.lc.intents.map (fun r => { r with valid := true }), inProgress := true } }
  match fresh with
  | none => s1
  | some i => s1.raise evLcTransitionBegun srcSecurity 0 (items [(1, i.source), (1, i.target), (1, i.slot)])

/-- LC_DEBUG_CHALLENGE (R384). -/
def lcDebugChallengeFn (x : Slot) : Fn FnRes := lcFn x do
  Fn.need (layoutOk x.payload 8 [(4, 4)]) stFieldInvalid
  let l ← Fn.st (·.lc)
  Fn.need (l.state != .invalid && l.state != .scrapped) stDebugNotPermitted
  let nonce ← Fn.random 32
  Fn.change (fun s => { s with lc := { s.lc with dbg := { s.lc.dbg with challenge := some nonce } } }.raise evDebugChallenge
    srcSecurity 0 (items [(1, l.state.code)]))
  Fn.done (nonce ++ beBytes 8 Config.serial.toNat ++ beBytes 1 l.state.code ++ zeros 7)

/-- LC_DEBUG_AUTH (R384). -/
def lcDebugAuthFn (k : Nat) (x : Slot) : Fn FnRes :=
  let p := x.payload
  let starts := fld p 4 1
  let body : Fn FnRes := do
    Fn.need (layoutOk p 3417 [(5, 3)] && decide (1 ≤ starts ∧ starts ≤ 16)) stFieldInvalid
    let l ← Fn.st (·.lc)
    let quorum := l.state == .deployed
    Fn.need (quorum || fld p 8 4 == 0) stFieldInvalid
    Fn.need (!(quorum && x.mailbox)) stLcPath
    Fn.need (l.state != .invalid && l.state != .scrapped) stDebugNotPermitted
    let nonce ← Fn.get! l.dbg.challenge stDebugNoChallenge
    Fn.change (fun s => { s with lc := { s.lc with dbg := { s.lc.dbg with challenge := none } } })
    if quorum then
      let _ ← Fn.auth k x 0x72 0 0 8
    let g := sha384B (ascii "SKZ2 debug" ++ beBytes 8 Config.serial.toNat ++ beBytes 1 l.state.code ++ nonce ++ beBytes 1 starts)
    Fn.need (verify384 Config.debugKeyEc g (slice p 12 96) && mlDsaVerify Config.debugKeyPq [] g (slice p 108 3309))
      stDebugSignatureInvalid
    Fn.done [] [.debugArm starts l.state.code quorum]
  lcFn x (Fn.orRefuse body (fun e s => s.raise evDebugRefused srcSecurity 0 (items [(2, e)])))

/-- LC_DEBUG_AUTH commits OK. -/
def armDebug (s : State) (starts grantState : Nat) (quorum : Bool) : State :=
  { s with lc := { s.lc with dbg := { s.lc.dbg with armed := true, startsLeft := starts, grantState := grantState } } }.raise
    evDebugArmed srcSecurity 0 (items [(1, starts), (1, bit quorum)])

/-- LC_DEBUG_END (R385). -/
def lcDebugEndFn (x : Slot) : Fn FnRes := lcFn x do
  Fn.need (layoutOk x.payload 8 [(4, 4)]) stFieldInvalid
  Fn.done [] [.debugEnd]

/-- LC_IDENTITY (R388). -/
def lcIdentityFn (x : Slot) : Fn FnRes := lcFn x do
  Fn.need (layoutOk x.payload 8 [(4, 4)]) stFieldInvalid
  let s ← get
  Fn.need (x.mailbox && s.lc.state == .test) stLcPath
  Fn.done (padTo 97 (s.devicePublic.getD 0 []) ++ padTo 97 (s.devicePublic.getD 1 []) ++ zeros 2 ++ padTo 1952 (s.devicePublic.getD 2 []))

/-- LC_CERT_LOAD (R388). -/
def lcCertLoadFn (x : Slot) : Fn FnRes := lcFn x do
  let p := x.payload
  let len := fld p 6 2
  Fn.need (layoutOk p (8 + len) [(5, 1)] && decide (fld p 4 1 ≤ 2 ∧ len ≤ 8188)) stFieldInvalid
  Fn.need (x.mailbox && (← Fn.st (·.lc.state)) == .test) stLcPath
  Fn.done [] [.certLoad (fld p 4 1) (p.drop 8)]

/-- LC_CERT_LOAD commits OK. -/
def loadCert (s : State) (index : Nat) (cert : Bytes) : State :=
  { s with lc := { s.lc with certs := tabPut [] s.lc.certs index cert } }.raise evCertLoaded srcSecurity 0
    (items [(1, index), (2, cert.length)])

/-! ### JTAG (R382, R386, R387) -/

/-- The TAP answers instructions other than BYPASS. -/
def State.tapOpen (s : State) : Bool := s.lc.state != .scrapped

def State.setTap (s : State) (f : Tap → Tap) : State := { s with lc := { s.lc with tap := f s.lc.tap } }

/-- EXTEST: the pins are driven from the boundary register. -/
def execExtest (s : State) : Host.Outcome State Fault Refusal :=
  .next (s.setTap (fun t => if s.tapOpen then { t with instr := .extest, pinsFromBoundary := true, pinsHighZ := false }
    else { t with instr := .bypass, pinsFromBoundary := false, pinsHighZ := false }))

/-- SAMPLE/PRELOAD: the pins are captured and the boundary register loaded; the pins follow the core. The values shifted
out are the captured `pins`. -/
def execSamplePreload (pins preload : Bytes) (s : State) : Host.Outcome State Fault Refusal :=
  .next (s.setTap (fun t => if s.tapOpen then
      { t with instr := .samplePreload, boundary := if preload = [] then pins else preload, pinsFromBoundary := false, pinsHighZ := false }
    else { t with instr := .bypass }))

/-- IDCODE selects the identification register, 0x1320_0001. -/
def execIdcode (s : State) : Host.Outcome State Fault Refusal :=
  .next (s.setTap (fun t => { t with instr := if s.tapOpen then .idcode else .bypass, pinsFromBoundary := false, pinsHighZ := false }))

/-- CLAMP: the pins hold the boundary register's values, and the bypass register is selected. -/
def execClamp (s : State) : Host.Outcome State Fault Refusal :=
  .next (s.setTap (fun t => if s.tapOpen then { t with instr := .clamp, pinsFromBoundary := true, pinsHighZ := false }
    else { t with instr := .bypass }))

/-- HIGHZ: the pins float, and the bypass register is selected. -/
def execHighz (s : State) : Host.Outcome State Fault Refusal :=
  .next (s.setTap (fun t => if s.tapOpen then { t with instr := .highz, pinsFromBoundary := false, pinsHighZ := true }
    else { t with instr := .bypass }))

/-- BYPASS. -/
def execBypass (s : State) : Host.Outcome State Fault Refusal :=
  .next (s.setTap (fun t => { t with instr := .bypass, pinsFromBoundary := false, pinsHighZ := false }))

/-- TAP_RESET: Test-Logic-Reset selects IDCODE; a SCRAPPED device's TAP behaves as BYPASS. -/
def execTapReset (s : State) : Host.Outcome State Fault Refusal :=
  .next (s.setTap (fun t => { t with instr := if s.tapOpen then .idcode else .bypass, pinsFromBoundary := false, pinsHighZ := false }))

/-- The functions that the mailbox brings to CC0 in RECOVERY; TMP_LATCH_CLEAR is answered TMP_PATH (R377, R404, R423). -/
def mailboxFn (func : Nat) : Bool := (decide (0x70 ≤ func) && decide (func ≤ 0x75)) || func == 0x80 || func == 0x90

/-- LC_MAILBOX (R377, R387): the message becomes a request for CC0. -/
def execLcMailbox (function : Nat) (payload : Bytes) (s : State) : Host.Outcome State Fault Refusal :=
  if ¬ s.tapOpen then .next (s.setTap (fun t => { t with instr := .bypass }))
  else
    let s1 := s.setTap (fun t => { t with instr := .mailbox, pinsFromBoundary := false, pinsHighZ := false })
    if s.dev.state ≠ .recovery then .next s1
    else if ¬ mailboxFn function then .next { s1 with lc := { s1.lc with mailboxReply := some (stFunctionNotPermitted, []) } }
    else
      .next ({ s1 with lc := { s1.lc with mailboxReply := none } }.placeSlot
        { queue := 0, func := function, mailbox := true, payload := payload, cells := ceilDiv payload.length 256 }).2

/-- REPORT_FRAME (R383): once a second a SCRAPPED device in RECOVERY broadcasts its serial number on Port M. -/
def execReportFrame (s : State) : Host.Outcome State Fault Refusal :=
  if s.lc.state = .scrapped ∧ s.dev.state = .recovery then
    let serial := Config.serial.toNat
    let frame := beBytes 6 (2 ^ 48 - 1) ++ beBytes 6 (0x020000 * 2 ^ 24 + serial % 2 ^ 24) ++ beBytes 2 0x88B5 ++
      padTo 46 (ascii "SKZ2" ++ [5] ++ beBytes 8 serial)
    .next (s.transmit 16 { bytes := frame, dst := {} })
  else .next s

end Sys2Proof.Machine
end

