-- ==== Sys2Proof/Machine/Boot.lean ====
section
/-! DEFINITION. The configuration image and its checks (R415 to R420), the start-attempt counter, RECOVERY, and the functions
of chapter 16 and of the tamper latch. -/

namespace Sys2Proof

/-- The values that an image's sections carry, or the cause data of a value that breaks its section's encoding. The byte
encodings of the sections are not in the spec (log entry 9). -/
opaque Config.readImage : Bytes → Except Nat Machine.Image

namespace Machine

/-! ### Layout (R415, Table 16.2) -/

abbrev maxImage : Nat := 50331648

/-- A directory entry. -/
structure DirEntry where
  type : Nat
  off : Nat
  len : Nat

/-- The directory of an image. -/
def directory (b : Bytes) : List DirEntry :=
  (List.range (fld b 6 2)).map (fun i => let o := 64 + 16 * i; { type := fld b o 2, off := fld b (o + 4) 4, len := fld b (o + 8) 4 })

/-- Offset of the first field of the header that breaks R415. -/
def headerFault (b : Bytes) : Option Nat :=
  if fld b 0 4 ≠ 0x534B5A49 then some 0
  else if fld b 4 2 ≠ 1 then some 4
  else if fld b 6 2 ≠ 9 ∧ fld b 6 2 ≠ 10 then some 6
  else if fld b 8 4 < 64 + 16 * fld b 6 2 ∨ maxImage < fld b 8 4 + fld b 12 4 then some 8
  else if fld b 12 4 < 4 ∨ (fld b 12 4 - 4) % 3408 ≠ 0 then some 12
  else (List.range 30).map (34 + ·) |>.find? (fun i => fld b i 1 ≠ 0)

/-- Offset of the first directory entry that breaks R415: a multiple of 64, inside the image, no overlap, types 1 to 9 each
once and 10 at most once. -/
def directoryFault (b : Bytes) : Option Nat :=
  let d := directory b
  let n := fld b 8 4
  let bad := fun (i : Nat) (e : DirEntry) =>
    decide (e.off % 64 ≠ 0 ∨ e.off < 64 + 16 * d.length ∨ n < e.off + e.len ∨ e.type < 1 ∨ 10 < e.type) ||
      (d.take i).any (fun f => f.type == e.type || (decide (f.off < e.off + e.len) && decide (e.off < f.off + f.len)))
  (List.range d.length).find? (fun i => (d[i]?.map (bad i)).getD false) |>.map (64 + 16 * ·)

/-- A section's bytes. -/
def sectionOf (b : Bytes) (type : Nat) : Bytes :=
  match (directory b).find? (fun e => e.type == type) with
  | none => []
  | some e => slice b e.off e.len

/-- The image hash. -/
def imageHash (b : Bytes) : Bytes := sha384B (b.take (fld b 8 4))

/-! ### Signatures (R417, R418) -/

/-- The signers of a set whose entries' signatures both verify: bit j for signer j. -/
def signedBy (set : OwnerSet) (b : Bytes) : Nat :=
  let sig := b.drop (fld b 8 4)
  let m := sha384B (ascii "SKZ2 image" ++ imageHash b)
  let good := fun (i : Nat) =>
    let e := slice sig (4 + 3408 * i) 3408
    match set.signers[fld e 0 1]? with
    | none => none
    | some k => if verify384 k.ec m (slice e 3 96) && mlDsaVerify k.pq [] m (slice e 99 3309) then some (fld e 0 1) else none
  (((List.range (fld sig 0 1)).filterMap good).eraseDups.map (fun j => 2 ^ j)).sum

/-- Number of signers in a mask. -/
def signerCount (m : Nat) : Nat := ((List.range 8).filter (fun j => m.testBit j)).length

/-! ### Values (R416: rules that chapters lay on the image) -/

/-- Sum of a tenant quota over T0 to T512. -/
def quotaSum (g : Image) (f : TenantImage → Nat) : Nat := (g.tenants.map (fun p => f p.2)).sum

/-- Cards of a list in one scope and role. -/
def cardsIn (l : List Card) (scope role : Nat) : Nat := (l.filter (fun c => decide (c.scope = scope ∧ c.role = role))).length

/-- First cards and quorums of one scope meet R351 and R352. -/
def scopeCardsOk (scope : Nat) (cards : List Card) (quorums : List (Nat × Nat)) : Bool :=
  decide (cards.length ≤ 32) && cards.all (fun c => c.scope == scope && decide (c.role < 4)) &&
    (List.range 4).all (fun r =>
      let m := tabGet 0 quorums r
      let n := cardsIn cards scope r
      decide ((if r < 2 then 2 else 1) ≤ m ∧ m ≤ 8) && (decide (n = 0) || decide (m ≤ n)))

/-- The section type of the first rule of a chapter that a value of the image breaks. -/
def valueFault (g : Image) : Option Nat :=
  let tenant := fun (t : Nat) => tabGet ({} : TenantImage) g.tenants t
  let serials := ((g.cards ++ g.tenants.flatMap (fun p => p.2.cards)).map (·.serial))
  let hs := fun (code : Nat) => g.functions.any (fun f => f.code == code && f.tenant == 0) && tabGet 0 g.placement code != 0
  if ¬ scopeCardsOk 0 g.cards g.quorums then some 1
  else if g.ports.any (fun p => 16 < p.1 ∨ 64 < p.2.vlans.length) then some 2
  else if 2000000 < g.acquireUs ∨ g.periodUs = 0 then some 3
  else if g.tenants.any (fun p => 512 < p.1) ∨ 65535 < quotaSum g (·.slotQuota) ∨ 196608 < quotaSum g (·.cellQuota) ∨
      (tenant 0).slotQuota < 256 ∨ (tenant 0).cellQuota < 768 ∨ 32768 < quotaSum g (·.channelQuota) ∨
      131072 < quotaSum g (·.cacheQuota) ∨ 57280 < quotaSum g (·.residentQuota) ∨ 4096 < quotaSum g (·.streamQuota) ∨
      256 < quotaSum g (·.curveQuota) ∨ g.tenants.any (fun p => p.1 ≠ 0 ∧ ¬ scopeCardsOk p.1 p.2.cards p.2.quorums) ∨
      4096 < serials.length ∨ serials.eraseDups.length ≠ serials.length ∨
      ((tenant 0).clientKeys.any (fun p => 56 ≤ p.1)) then some 4
  else if g.queues.any (fun p => 4096 ≤ p.1 ∨ 512 < p.2.owner ∨ 7 < p.2.priority ∨ 2 < p.2.mode) then some 5
  else if ¬ (hs 0xC0 ∧ hs 0xC1) then some 7
  else if g.horizon < 1 ∨ 16 < g.horizon ∨ g.hop < 1 ∨ 60 < g.hop ∨ g.budget < 4096 ∨ 65535 < g.budget ∨ 16 < g.peers.length ∨
      7 < g.memberA ∨ g.memberB < 8 ∨ 15 < g.memberB then some 9
  else none

/-! ### Offline approvals (R354) -/

/-- Valid approvals of distinct ACTIVE or WARNED SO cards of a scope over a digest. -/
def State.approvals (s : State) (scope : Nat) (digest : Bytes) (sigs : List (Nat × Bytes)) : Nat :=
  let good := fun (p : Nat × Bytes) =>
    match s.cardIn scope p.1 with
    | none => false
    | some e =>
      let c := s.card e
      let m := sha384B (ascii "SKZ2 auth" ++ beBytes 8 p.1 ++ zeros 4 ++ zeros 32 ++ beBytes 2 scope ++ zeros 2 ++ digest ++ zeros 48)
      decide (c.role = 0) && (c.state == .active || c.state == .warned) && verify384 c.pub m p.2
  ((sigs.filter good).map (·.1)).eraseDups.length

/-- The approval of a target that the image carries. -/
def Image.approvalOf (g : Image) (target : Nat) : List (Nat × Bytes) :=
  match g.approvals.find? (fun a => a.target == target) with
  | some a => a.sigs
  | none => []

/-! ### The check of step 8 (R416) -/

/-- Cause codes (Table 16.5). -/
abbrev causeImageRead : Nat := 0x0A
abbrev causeImageFormat : Nat := 0x0B
abbrev causeBrosyn : Nat := 0x0C
abbrev causeOwner : Nat := 0x0D
abbrev causeRollback : Nat := 0x0E
abbrev causeDevice : Nat := 0x0F
abbrev causeInconsistent : Nat := 0x10
abbrev causeApproval : Nat := 0x11

/-- What an accepted image gives. -/
structure Accepted where
  image : Image
  set : OwnerSet
  recorded : Bool
  signed : Nat

/-- Every check of R416 after the first, on the bytes of an image: what it gives, or the cause and its data. -/
def imageCheck (s : State) (b : Bytes) : Except (Nat × Nat) Accepted :=
  let serial := Config.serial.toNat
  let deployed := s.lc.state == .deployed
  match headerFault b with
  | some o => .error (causeImageFormat, o)
  | none =>
    match directoryFault b with
    | some o => .error (causeImageFormat, o)
    | none =>
      if (fld b 16 8 ≠ 0 ∧ fld b 16 8 ≠ serial) ∨ ¬ (fld b 32 2).testBit s.lc.state.code then
        .error (causeDevice, lo32 (fld b 16 8))
      else if b.length < fld b 8 4 + fld b 12 4 then .error (causeImageFormat, b.length)
      else
        match Config.readImage b with
        | .error d => .error (causeInconsistent, d)
        | .ok g =>
          let own := g.ownerSet.getD { k := 0, signers := [] }
          let set := if deployed then s.boot.ownerSet.getD own else own
          let m := signedBy set b
          if signerCount m < set.k ∨ set.k = 0 then .error (causeOwner, signerCount m)
          else if deployed ∧ fld b 24 8 < s.boot.rollback then .error (causeRollback, lo32 (fld b 24 8))
          else
            let (ec, pq) := Config.librarySignatures b
            if ¬ ec then .error (causeBrosyn, 1)
            else if ¬ pq then .error (causeBrosyn, 2)
            else
              match valueFault g with
              | some t => .error (causeInconsistent, t * 2 ^ 28 + (Config.sectionOffset t b).toNat)
              | none =>
                let n := s.approvals 0 (sha384B (sectionOf b 4)) (g.approvalOf 0)
                let written := s.dual.cards ≠ []
                if deployed ∧ written ∧ n < s.quorum 0 0 then .error (causeApproval, n)
                else .ok { image := g, set := set, recorded := deployed && s.boot.ownerSet.isSome, signed := m }

/-! ### RECOVERY (R413, R423, R424) -/

/-- Enter RECOVERY for a reason of Table 16.4: the counter is at least 3, the reason is added to the cause record, Port M
comes from the recovery record, and event 0x33 is raised. -/
def enterRecovery (s : State) (reason : Nat) : State :=
  let c := { s.boot.cause with reason := reason }
  let b := { s.boot with cause := c, attempts := max 3 s.boot.attempts, counters := bump s.boot.counters 2 1, running := none,
                         drain := none }
  let r := s.recoveryRec
  let m : PortImage := { present := true, mode := 0, ifc := r.ifc, mac := r.mac, ipv4 := r.ipv4, ipv6 := r.ipv6 }
  let s1 := { s with boot := b, srp := { s.srp with udpPort := r.udpPort } }
  let s2 := s1.modPort 16 (fun p => { p with cfg := m, addr4 := r.ipv4.map (fun a => (a.1, AddrState.ok)),
                                             addr6 := r.ipv6.map (fun a => (a.1, AddrState.probing)) })
  (s2.enter .recovery).raise evRecoveryEntered srcSecurity 0 (items [(1, reason), (1, c.cause)])

/-! ### Functions (Table 16.6) -/

/-- RECOVERY_STATUS (R424). -/
def recoveryStatusFn (x : Slot) : Fn FnRes := do
  Fn.need (layoutOk x.payload 8 [(4, 4)]) stFieldInvalid
  let c ← Fn.st (·.boot.cause)
  Fn.done (beBytes 1 c.reason ++ beBytes 1 c.cause ++ beBytes 1 c.step ++ beBytes 1 c.attempt ++ beBytes 4 c.data ++
    beBytes 5 c.seconds ++ beBytes 3 c.cycles ++ zeros 8)

/-- DEV_RESTART (R425). -/
def devRestartFn (k : Nat) (x : Slot) : Fn FnRes := do
  let p := x.payload
  let target := fld p 4 1
  Fn.need (layoutOk p 12 [(5, 3)]) stFieldInvalid
  let s ← get
  let recovery := s.dev.state == .recovery
  Fn.need (decide (target ≤ 1) && (!recovery || target == 0)) stBootState
  Fn.need (!recovery || fld p 8 4 == 0) stFieldInvalid
  Fn.need (s.boot.drain.isNone && s.boot.load.state != 2 && !s.lc.inProgress) stBootBusy
  let note : Effect := .eventOnCommit evRestartCommanded srcSecurity 0 (items [(1, target), (4, chanId x.chan (s.chan x.chan))])
  if recovery then Fn.done [] [note, .restartNow false]
  else
    let _ ← Fn.auth k x 0x91 3 0 8
    Fn.done [] [note, .arm (.drainBegin (target == 1))]

/-- IMAGE_LOAD_BEGIN (R426). -/
def imageLoadBeginFn (x : Slot) : Fn FnRes := do
  let p := x.payload
  Fn.need (layoutOk p 60 [(8, 4)]) stFieldInvalid
  Fn.need (decide (fld p 4 4 ≤ maxImage)) stImageTooLarge
  Fn.change (fun s => { s with boot := { s.boot with load := { s.boot.load with
    state := 1, percent := 0, len := fld p 4 4, digest := slice p 12 48, mem := [], cells := [] } } })
  Fn.done []

/-- IMAGE_LOAD_DATA (R426). -/
def imageLoadDataFn (x : Slot) : Fn FnRes := do
  let p := x.payload
  let off := fld p 4 4
  let n := fld p 8 2
  Fn.need (layoutOk p (12 + n) [(10, 2)] && decide (n ≤ 7936)) stFieldInvalid
  let l ← Fn.st (·.boot.load)
  Fn.need (l.state == 1) stImageNoLoad
  Fn.need (decide (off % 256 = 0 ∧ off + n ≤ l.len ∧ (n % 256 = 0 ∨ off + n = l.len))) stImageRange
  let cells := (List.range (ceilDiv n 256)).map (off / 256 + ·)
  Fn.change (fun s => { s with boot := { s.boot with load := { l with
    mem := memWrite l.mem off (p.drop 12), cells := (l.cells ++ cells).eraseDups } } })
  Fn.done []

/-- IMAGE_LOAD_END (R426). -/
def imageLoadEndFn (x : Slot) : Fn FnRes := do
  Fn.need (layoutOk x.payload 8 [(4, 4)]) stFieldInvalid
  let s ← get
  let l := s.boot.load
  Fn.need (l.state == 1) stImageNoLoad
  Fn.need (decide (ceilDiv l.len 256 ≤ l.cells.length)) stImageIncomplete
  let b := memRead l.mem 0 l.len
  Fn.need (sha384B b == l.digest) stImageDigest
  match imageCheck s b with
  | .ok _ => Fn.done [] [.imageWrite]
  | .error (c, _) =>
    Fn.change (fun s => { s with boot := { s.boot with load := { s.boot.load with cause := c } } }.raise evImageRefused srcCc0 0 (items [(1, c)]))
    return { result := beBytes 1 c ++ zeros 7, status := stImageRefused }
where srcCc0 : Nat := srcCc 0

/-- The write to XSPI0 begins: the NVM is erased, then written (R426). -/
def beginImageWrite (s : State) : State :=
  { s with boot := { s.boot with nvm0 := [], load := { s.boot.load with state := 2, failed := false, percent := 0 } } }

/-- IMAGE_WRITE_COMPLETE (R426): the image is in the NVM, or the write failed with an XSPI0 status. -/
def execImageWriteComplete (error : Option Nat) (s : State) : Host.Outcome State Fault Refusal :=
  let l := s.boot.load
  if l.state ≠ 2 then .next s
  else
    match error with
    | none =>
      let b := { s.boot with nvm0 := l.mem, counters := bump s.boot.counters 3 1, load := { l with state := 3, percent := 100 } }
      .next ({ s with boot := b }.raise evImageWritten (srcCc 0) 0 (items [(8, beNat (memRead l.mem 24 8))]))
    | some e =>
      .next ({ s with boot := { s.boot with load := { l with state := 0, failed := true } } }.raise evImageWriteFailed (srcCc 0) 0
        (items [(1, e)]))

/-- The restart that a command of RECOVERY asks for: the counter is cleared (R413). -/
def restartFromRecovery (s : State) : State :=
  { s with boot := { s.boot with attempts := 0 } }.computeReset.askRestart .start

/-- A drain begins at its tick (R425). -/
def beginDrain (s : State) (r : Restart) : State := { s with boot := { s.boot with drain := some (s.folio.now, r) } }

/-! ### The tamper latch (R404, R405) -/

/-- A sensor whose action is erase is active. -/
def State.eraseActive (s : State) : Bool := s.tmp.active &&& (s.tmp.action ||| fixedSensors) != 0

/-- TMP_LATCH_CLEAR (R404). -/
def tmpLatchClearFn (k : Nat) (x : Slot) : Fn FnRes :=
  let body : Fn FnRes := do
    Fn.need (layoutOk x.payload 12 [(8, 4)]) stFieldInvalid
    Fn.need (!x.mailbox && x.tenant == 0 && x.lport == 16) stTmpPath
    Fn.need (← Fn.st (·.tmp.latch)) stTmpLatchNotSet
    let _ ← Fn.auth k x 0x80 0 0 4
    Fn.need (!(← Fn.st State.eraseActive)) stTmpSensorActive
    Fn.done [] [.latchClear (fld x.payload 4 4)]
  Fn.orRefuse body (fun e s => s.raise evLatchClearRefused srcSecurity 0 (items [(2, e)]))

/-- The latch is cleared at the commit point (R405). -/
def clearLatch (s : State) (session : Nat) : State :=
  let s1 := { s with tmp := { s.tmp with latch := false, later := 0 }, boot := { s.boot with vaultMark := true } }
  let s2 := if s.lc.state = .deployed then drawShare s1 else s1
  restartFromRecovery (s2.raise evLatchCleared srcSecurity 0 (items [(4, session), (1, s.lc.state.code)]))

end Machine

end Sys2Proof
end

