-- ==== Sys2Proof/Machine/Isa.lean ====
section
/-! DEFINITION. The instruction set of chapter 06: bundles and their encoding, the function units, and what one bundle
does to its core. Protection faults and the effects of I/O ports are added by the files that follow. -/

namespace Sys2Proof.Machine

/-! ### Encoding (R156 to R158) -/

/-- The source of a move (Table 6.4); an immediate is already extended to 64 bits (R153). -/
inductive Src where
  | g (n : Nat)
  | w (n : Nat)
  | port (group p : Nat)
  | imm (v : Word64)
  deriving DecidableEq, Repr

/-- One slot of a bundle (Table 6.2). -/
structure Move where
  group : Nat
  inv : Bool
  pred : Nat
  dest : Nat
  src : Src
  deriving DecidableEq, Repr

/-- The source is no immediate (R201). -/
def Src.computed : Src → Bool
  | .imm _ => false
  | _ => true

/-- Instruction space is 128 KiB on every core kind (Table 6.1). -/
abbrev imemWords : Nat := 32768

/-- Output ports of a group. -/
def outPorts (group : Nat) : Nat :=
  match group with
  | 1 => 2 | 5 => 4 | 6 => 3 | 7 => 2 | _ => 1

/-- The unit ports of a group (Tables 6.9 to 6.13d). -/
def portListed (group d : Nat) : Bool :=
  match group with
  | 0 => decide (d ≤ 0x0F ∨ (0x40 ≤ d ∧ d ≤ 0x7F))
  | 1 => decide (d ≤ 5 ∨ (8 ≤ d ∧ d ≤ 0x0C) ∨ d = 0x10 ∨ d = 0x11)
  | 2 => decide (d ≤ 4)
  | 3 => decide (d ≤ 7 ∨ (0x11 ≤ d ∧ d ≤ 0x17))
  | 4 => decide (d ≤ 7)
  | 5 => decide (d ≤ 7)
  | 6 => decide (d ≤ 0x12)
  | _ => decide (d ≤ 0x0A ∨ d = 0x10 ∨ d = 0x11 ∨ (0x18 ≤ d ∧ d ≤ 0x1D))

/-- A destination within its group (Table 6.5). -/
def destListed (group d : Nat) : Bool :=
  if d < 0xC0 then portListed group d else decide (d < 0xF0)

/-- The source field, with the long immediate word after it; none for a reserved value. -/
def decodeSrc (src : Nat) (long : Word32) : Option Src :=
  match src / 2 ^ 14 with
  | 0 =>
    if bitsOf src 13 6 ≠ 0 then none
    else if src.testBit 5 then (if src % 32 < 16 then some (.w (src % 32)) else none)
    else some (.g (src % 32))
  | 1 =>
    if bitsOf src 13 11 ≠ 0 then none
    else if src % 256 < outPorts (bitsOf src 10 8) then some (.port (bitsOf src 10 8) (src % 256)) else none
  | 2 => some (.imm ((BitVec.ofNat 14 src).signExtend 64))
  | _ =>
    if bitsOf src 13 1 ≠ 0 then none
    else some (.imm (if src.testBit 0 then long.zeroExtend 64 else long.signExtend 64))

/-- The source kind takes a long immediate word. -/
def isLong (w : Word32) : Bool := decide (bitsOf w.toNat 15 14 = 3)

/-- The slot word `w`, with the word after it. -/
def decodeSlot (w long : Word32) : Option Move :=
  let v := w.toNat
  let group := bitsOf v 30 28
  let dest := bitsOf v 23 16
  match decodeSrc (v % 65536) long with
  | none => none
  | some src =>
    if destListed group dest then
      some { group := group, inv := v.testBit 27, pred := bitsOf v 26 24, dest := dest, src := src }
    else none

/-- Slots from instruction word index `k`: groups strictly above `low`, at most `fuel` slots, the last with STOP set.
The moves, and the index of the word after the bundle; none for ILLEGAL_BUNDLE (R156). -/
def decodeSlots (word : Nat → Word32) : Nat → Nat → Nat → Option (List Move × Nat)
  | 0, _, _ => none
  | fuel + 1, k, low =>
    let w := word k
    let next := if isLong w then k + 2 else k + 1
    if imemWords < next then none
    else
      match decodeSlot w (word (k + 1)) with
      | none => none
      | some m =>
        if m.group < low then none
        else if w.getLsbD 31 then some ([m], next)
        else
          match decodeSlots word fuel next (m.group + 1) with
          | none => none
          | some (ms, n) => some (m :: ms, n)

/-- The bundle at byte address `pc`, and the address of the bundle that follows it. -/
def decodeBundle (word : Nat → Word32) (pc : Nat) : Option (List Move × Nat) :=
  match decodeSlots word 8 (pc / 4) 0 with
  | none => none
  | some (ms, n) => some (ms, 4 * n)

/-! ### Registers and local bits (R153, R161, R162) -/

def Core.getG (c : Core) (n : Nat) : Word64 := tabGet 0 c.g n
def Core.getW (c : Core) (n : Nat) : Word128 := tabGet 0 c.w n
def Core.putG (c : Core) (n : Nat) (v : Word64) : Core := { c with g := tabPut 0 c.g n v }
def Core.putW (c : Core) (n : Nat) (v : Word128) : Core := { c with w := tabPut 0 c.w n v }

/-- Local bit `a`, the mirror of the task's flags included (Table 6.6). -/
def Core.localBit (c : Core) (mirror : BitVec 32) (a : Nat) : Bool :=
  if a = 0 then true else if 32 ≤ a ∧ a < 64 then mirror.getLsbD (a - 32) else tabGet false c.bits a

/-- Write local bit `a`: bit 0 and the mirror drop writes (R173). -/
def Core.putBit (c : Core) (a : Nat) (v : Bool) : Core :=
  if a = 0 ∨ (32 ≤ a ∧ a < 64) then c else { c with bits := tabPut false c.bits a v }

/-- The guard of a slot (R159); predicate p is local bit p, and p0 is true. -/
def Core.guard (c : Core) (m : Move) : Bool := xor (c.localBit 0 m.pred) m.inv

/-- The STATUS and LREM ports of CTL (R181). `kind`: 0 transaction, 1 control, 2 security. -/
def Core.status (c : Core) (kind : Nat) : Nat :=
  bit c.ctl.guarded + 2 * bit c.ctl.btestPass + 4 * bit c.ctl.modeRefused + 8 * c.ctl.loops.length + 64 * kind

/-- The value of an output port as its unit holds it. -/
def Core.outPort (c : Core) (kind group p : Nat) : Word128 :=
  match group, p with
  | 0, _ => c.alu.res.zeroExtend 128
  | 1, 0 => c.lsu.ld
  | 1, _ => c.lsu.sc.zeroExtend 128
  | 2, _ => c.iou.ior
  | 3, _ => c.bitu.res.zeroExtend 128
  | 4, _ => c.sym.out
  | 5, 0 => c.hash.dig0
  | 5, 1 => c.hash.dig1
  | 5, 2 => c.hash.dig2
  | 5, _ => c.hash.dig3
  | 6, 0 => c.pin.out
  | 6, 1 => c.pin.out2
  | 6, _ => c.pin.ok
  | _, 0 => BitVec.ofNat 128 (c.status kind)
  | _, _ => BitVec.ofNat 128 ((c.ctl.loops.head?.map (·.remaining)).getD 0)

/-- A result reaches its output port. -/
def Core.deliver (c : Core) (r : Result) : Core :=
  let v := r.value
  match r.port with
  | .aluRes => { c with alu := { c.alu with res := v.truncate 64 } }
  | .lsuLd => { c with lsu := { c.lsu with ld := v } }
  | .lsuSc => { c with lsu := { c.lsu with sc := v.truncate 64 } }
  | .iouIor => { c with iou := { c.iou with ior := v } }
  | .bitRes => { c with bitu := { c.bitu with res := v.truncate 64 } }
  | .symOut => { c with sym := { c.sym with out := v } }
  | .dig0 => { c with hash := { c.hash with dig0 := v } }
  | .dig1 => { c with hash := { c.hash with dig1 := v } }
  | .dig2 => { c with hash := { c.hash with dig2 := v } }
  | .dig3 => { c with hash := { c.hash with dig3 := v } }
  | .pinOut => { c with pin := { c.pin with out := v } }
  | .pinOut2 => { c with pin := { c.pin with out2 := v } }
  | .pinOk => { c with pin := { c.pin with ok := v } }

/-- Results readable at cycle `t` are on their ports (R154), in the order of their cycles. -/
def Core.mature (c : Core) (t : Nat) : Core :=
  let due := sortBy (fun r => r.ready) (c.results.filter (fun r => decide (r.ready ≤ t)))
  due.foldl Core.deliver { c with results := c.results.filter (fun r => decide (t < r.ready)) }

/-- A result on its way. -/
def Core.later (c : Core) (port : OutPort) (ready : Nat) (v : Word128) : Core :=
  { c with results := c.results ++ [{ ready := ready, port := port, value := v }] }

/-- The value of a source. -/
def Core.value (c : Core) (kind : Nat) : Src → Word128
  | .g n => (c.getG n).zeroExtend 128
  | .w n => c.getW n
  | .port gr p => c.outPort kind gr p
  | .imm v => v.zeroExtend 128

/-! ### G0: ALU (R168) -/

/-- Conditions 0 to 7 of CMP: EQ, NE, LTU, LT, GEU, GE, TZ, TNZ. -/
def aluCond (c : Nat) (a b : Word64) : Bool :=
  match c with
  | 0 => a == b
  | 1 => a != b
  | 2 => a.ult b
  | 3 => a.slt b
  | 4 => !a.ult b
  | 5 => !a.slt b
  | 6 => a &&& b == 0
  | _ => a &&& b != 0

/-- RES of an ALU trigger (Table 6.9). -/
def aluOp (d : Nat) (a b : Word64) : Word64 :=
  let n := b.toNat % 64
  match d with
  | 0x01 => a + b
  | 0x02 => a - b
  | 0x03 => a &&& b
  | 0x04 => a ||| b
  | 0x05 => a ^^^ b
  | 0x06 => a &&& ~~~ b
  | 0x07 => a <<< n
  | 0x08 => a >>> n
  | 0x09 => a.sshiftRight n
  | 0x0A => a.rotateRight n
  | 0x0B => BitVec.ofNat 64 ((a.toNat % 2 ^ 32) * (b.toNat % 2 ^ 32))
  | 0x0C => if a.ult b then a else b
  | 0x0D => if a.ult b then b else a
  | 0x0E => word64 (bytes64 b).reverse
  | 0x0F => b
  | _ => if aluCond ((d - 0x40) / 8) a b then 1 else 0

/-! ### G4: SYM (R175, R176) -/

/-- The cipher of a key set, its key from K0 and K1 (Table 6.13a), and its latency (Table 6.8). -/
def symKey (k : KeyType) (k0 k1 : Word128) : Bytes :=
  match k with
  | .aes128 => bytes128 k0
  | .aes192 => bytes128 k0 ++ (bytes128 k1).take 8
  | .aes256 => bytes128 k0 ++ bytes128 k1
  | .tdes2 => bytes128 k0
  | .tdes3 => bytes128 k0 ++ (bytes128 k1).take 8

def symLatency : KeyType → Nat
  | .aes128 => 11
  | .aes192 => 13
  | .aes256 => 15
  | _ => 49

def KeyType.isTdes : KeyType → Bool
  | .tdes2 | .tdes3 => true
  | _ => false

/-- One block through the key set, forward or backward; TDES blocks occupy the low 64 bits. -/
def symBlock (k : KeyType) (k0 k1 : Word128) (enc : Bool) (b : Word128) : Word128 :=
  let key := symKey k k0 k1
  if k.isTdes then
    let x := beBytes 8 (b.toNat % 2 ^ 64)
    BitVec.ofNat 128 (beNat (if enc then tdesEnc key x else tdesDec key x))
  else word128 (if enc then aesEnc key (bytes128 b) else aesDec key (bytes128 b))

/-- OUT of a block trigger. With no key set since the last clear the spec states no value: `free` (log entry 6). -/
def symOut (u : SymUnit) (d : Nat) (b free : Word128) : Word128 :=
  match u.key with
  | none => free
  | some (k, k0, k1) =>
    let low := fun (v : Word128) => if k.isTdes then v &&& (2 ^ 64 - 1) else v
    match d with
    | 0x04 => symBlock k k0 k1 true b
    | 0x05 => symBlock k k0 k1 false b
    | 0x06 => symBlock k k0 k1 true (low (b ^^^ u.xin))
    | _ => low (symBlock k k0 k1 false b ^^^ u.xin)

/-- The key type of KSET's value. -/
def keyTypeOf (b : Nat) : Option KeyType :=
  match b % 8 with
  | 0 => some .aes128
  | 1 => some .aes192
  | 2 => some .aes256
  | 3 => some .tdes2
  | 4 => some .tdes3
  | _ => none

/-! ### G5: HASH (R177, R178) -/

def hashAlgOf (b : Nat) : Option HashAlg :=
  match b % 16 with
  | 0 => some .sha256
  | 1 => some .sha384
  | 2 => some .sha512
  | 3 => some .sha3
  | 4 => some .hmac256
  | 5 => some .cmac128
  | 6 => some .cmac256
  | _ => none

/-- Block size in bytes, compression latency and FINAL latency of an algorithm (Table 6.8). FINAL of CMAC is one CMAC
block (DEDUCED: the table gives no other). -/
def hashBlock : HashAlg → Nat
  | .sha256 | .hmac256 => 64
  | .sha384 | .sha512 => 128
  | .sha3 => 136
  | _ => 16
def hashLatency : HashAlg → Nat
  | .sha256 | .hmac256 => 65
  | .sha384 | .sha512 => 81
  | .sha3 => 25
  | .cmac128 => 11
  | .cmac256 => 15
def finalLatency : HashAlg → Nat
  | .sha256 => 130
  | .sha384 | .sha512 => 162
  | .sha3 => 25
  | .hmac256 => 195
  | .cmac128 => 11
  | .cmac256 => 15

/-- The digest or MAC of a message. -/
def hashResult (alg : HashAlg) (key msg : Bytes) : Bytes :=
  match alg with
  | .sha256 => sha256B msg
  | .sha384 => sha384B msg
  | .sha512 => sha512B msg
  | .sha3 => sha3_256B msg
  | .hmac256 => hmac256 key msg
  | _ => cmac (aesCipher key) msg

/-- The key that INIT takes from HK0 to HK3. -/
def initKey (u : HashUnit) (alg : HashAlg) (b : Nat) : Bytes :=
  let hk := bytes128 u.hk0 ++ bytes128 u.hk1 ++ bytes128 u.hk2 ++ bytes128 u.hk3
  match alg with
  | .hmac256 => hk.take (bitsOf b 14 8)
  | .cmac128 => hk.take 16
  | .cmac256 => hk.take 32
  | _ => []

/-- Compressions that start by cycle `t`: one whenever none runs and a block is full. -/
def HashUnit.run (u : HashUnit) (t : Nat) : Nat → HashUnit
  | 0 => u
  | fuel + 1 =>
    if hashBlock u.alg ≤ u.waiting ∧ u.busyUntil ≤ t then
      HashUnit.run { u with waiting := u.waiting - hashBlock u.alg, busyUntil := u.busyUntil + hashLatency u.alg } t fuel
    else u

/-- Append 16 bytes at cycle `t`; a compression starts when a block becomes full and none runs. -/
def HashUnit.absorb (u : HashUnit) (t : Nat) (b : Word128) : HashUnit :=
  let u1 := u.run t 4
  let u2 := { u1 with msg := u1.msg ++ bytes128 b, waiting := u1.waiting + 16 }
  if hashBlock u2.alg ≤ u2.waiting ∧ u2.busyUntil ≤ t then
    { u2 with waiting := u2.waiting - hashBlock u2.alg, busyUntil := t + hashLatency u2.alg }
  else u2

/-- The cycle until which an ABSORB issued at `t` stalls (R178). -/
def HashUnit.absorbAt (u : HashUnit) (t : Nat) : Nat :=
  let u1 := u.run t 4
  if hashBlock u1.alg ≤ u1.waiting ∧ t < u1.busyUntil then u1.busyUntil else t

/-! ### G6: PIN (R179, R180) -/

/-- Digits `hi` … of a number of `n` nibbles, first digit first. -/
def digitsOf (n v : Nat) : List Nat := ((List.range n).reverse).map (fun i => v / 16 ^ i % 16)

/-- The number that nibbles spell, first digit first. -/
def ofDigits (l : List Nat) : Nat := l.foldl (fun a d => a * 16 + d) 0

def decimal (l : List Nat) : Bool := l.all (fun d => decide (d ≤ 9))

/-- N and the digits of a PIN field (R179), and whether they are valid. -/
def pinField (v : Nat) : Nat × List Nat × Bool :=
  let n := bitsOf v 51 48
  let ds := (digitsOf 12 v).take n
  (n, ds, decide (4 ≤ n ∧ n ≤ 12) && decimal ds)

/-- A PIN field with VALID set. -/
def mkPinField (ds : List Nat) : Nat := 2 ^ 63 + ds.length * 2 ^ 48 + ofDigits (ds ++ List.replicate (12 - ds.length) 0)

/-- The digits of a PAN operand, and whether they are valid. -/
def panDigits (v : Nat) : List Nat × Bool :=
  let n := bitsOf v 127 120
  let ds := (digitsOf 19 v).drop (19 - n)
  (ds, decide (12 ≤ n ∧ n ≤ 19) && decimal ds)

/-- The PAN part of formats 0 and 3 (ISO 9564-1): the rightmost twelve digits without the check digit. -/
def panPart (ds : List Nat) : Nat :=
  let d := ds.dropLast
  ofDigits (d.drop (d.length - 12))

/-- The format 4 PAN field: the digit count above 12, the digits, zeros to 32 nibbles. -/
def panField4 (ds : List Nat) : Nat := ofDigits ((ds.length - 12) :: ds ++ List.replicate (31 - ds.length) 0)

/-- A clear PIN block of 16 nibbles: the control nibble, N, the digits, and for each further place its fill. -/
def clearBlock (control : Nat) (ds : List Nat) (fill : Nat → Nat) : Nat :=
  ofDigits ([control, ds.length] ++ ds ++ ((List.range (14 - ds.length)).map (fun i => fill (2 + ds.length + i))))

/-- Nibble `i` of FILL, the first at the top: the fill at place i of a block (log entry 17). -/
def fillNibble (fill i : Nat) : Nat := (digitsOf 16 fill).getD i 0

/-- The PIN digits of a clear block of 16 nibbles, when the control nibble, N, the digits and the fill match. -/
def openBlock (control v : Nat) (fillOk : Nat → Bool) : Option (List Nat) :=
  let ds := digitsOf 16 v
  let n := ds.getD 1 0
  let pin := (ds.drop 2).take n
  if ds.getD 0 0 = control ∧ 4 ≤ n ∧ n ≤ 12 ∧ decimal pin ∧ (ds.drop (2 + n)).all fillOk then some pin else none

/-- The Luhn check digit of digits without their check digit. -/
def luhnDigit (ds : List Nat) : Nat :=
  let step := fun (acc : Nat × Bool) (d : Nat) =>
    let v := if acc.2 then (if 9 < 2 * d then 2 * d - 9 else 2 * d) else d
    (acc.1 + v, !acc.2)
  (10 - (ds.reverse.foldl step (0, true)).1 % 10) % 10

/-- Nibbles of B from 0 to 9 in order, then those from A to F less ten, the first sixteen (EXTRACT). -/
def extractDigits (l : List Nat) : List Nat :=
  (l.filter (fun d => decide (d ≤ 9)) ++ (l.filter (fun d => decide (9 < d))).map (· - 10)).take 16

/-- Decimal digits of a number, `n` of them, first digit first. -/
def decDigits (n v : Nat) : List Nat := ((List.range n).reverse).map (fun i => v / 10 ^ i % 10)

/-- OUT, OUT2 of a PIN operation whose inputs are valid; none where OK is 0 (Table 6.13c). -/
def pinOp (u : PinUnit) (d : Nat) (b : Word128) : Option (Nat × Nat) :=
  let v := b.toNat
  let lo := v % 2 ^ 64
  let (_, pin, pinOk) := pinField lo
  let (pan, panOk) := panDigits u.pan.toNat
  let f := u.fill.toNat
  let field := fun (o : Option (List Nat)) => o.map (fun ds => (mkPinField ds, 0))
  match d with
  | 0x04 => if pinOk && panOk then some (Nat.xor (clearBlock 0 pin (fun _ => 15)) (panPart pan), 0) else none
  | 0x05 => if pinOk then some (clearBlock 1 pin (fillNibble f), 0) else none
  | 0x06 =>
    if pinOk && panOk then some (Nat.xor (clearBlock 3 pin (fun i => 10 + fillNibble f i % 6)) (panPart pan), 0) else none
  | 0x07 => if pinOk && panOk then some (clearBlock 4 pin (fun _ => 10) * 2 ^ 64 + f, panField4 pan) else none
  | 0x08 => if panOk then field (openBlock 0 (Nat.xor lo (panPart pan)) (fun x => x == 15)) else none
  | 0x09 => field (openBlock 1 lo (fun _ => true))
  | 0x0A => if panOk then field (openBlock 3 (Nat.xor lo (panPart pan)) (fun x => decide (10 ≤ x))) else none
  | 0x0B => field (openBlock 4 (v / 2 ^ 64) (fun x => x == 10))
  | 0x0C =>
    let t := digitsOf 16 u.dtab.toNat
    if decimal t then some (ofDigits ((digitsOf 16 lo).map (fun h => t.getD h 0)), 0) else none
  | 0x0D => some (ofDigits (extractDigits (digitsOf 32 v)), 0)
  | 0x0E | 0x0F =>
    let a := digitsOf 16 u.da.toNat
    let x := digitsOf 16 lo
    if decimal a && decimal x then
      some (ofDigits (List.zipWith (fun p q => if d = 0x0E then (p + q) % 10 else (p + 10 - q) % 10) a x), 0)
    else none
  | 0x10 =>
    let (ds, ok) := panDigits v
    if ok then
      let c := luhnDigit ds.dropLast
      some (c + (if ds.getLast? = some c then 16 else 0), 0)
    else none
  | 0x11 =>
    let r := ofDigits (decDigits 20 lo)
    some (r % 2 ^ 128, r / 2 ^ 128)
  | _ =>
    let x := digitsOf 16 lo
    if decimal x then some (x.foldl (fun a q => a * 10 + q) 0, 0) else none

end Sys2Proof.Machine
end

