-- ==== Sys2Proof/Machine/Bundle.lean ====
section
/-! DEFINITION. What one bundle does to its core (chapter 06), and the protection check of one address (chapter 07). -/

namespace Sys2Proof.Machine

/-! ### Protection of one address (R210, R211, Table 7.9) -/

def Region.has (r : Region) (sp : Space) (a : Nat) : Bool := r.valid && r.space == sp && decide (r.base ≤ a ∧ a ≤ r.limit)

/-- A region lacks the needed permission. -/
def Region.lacks (r : Region) (write : Bool) : Bool := if write then !r.w else !r.r

/-- The fault kind of an access to one address, if any: 1 NO_MATCH, 2 DOUBLE_HIT, 3 PERMISSION. Every part of R211 lies
in the same segments and windows, so the parts of an access are its addresses, grouped. -/
def protect (segments windows : List (Nat × Region)) (priv : Bool) (sp : Space) (write : Bool) (a : Nat) : Option Nat :=
  let judge := fun (r : Region) => if r.lacks write then some 3 else none
  match windows.find? (fun p => p.2.has sp a) with
  | some p => judge p.2
  | none =>
    match segments.filter (fun p => p.2.has sp a) with
    | [p] => judge p.2
    | [] =>
      if priv then (if sp = .data ∧ 0x100000 ≤ a ∧ a ≤ 0x11FFFF ∧ ¬ write then none else some 3) else some 1
    | _ => some 2

/-- The first refused address of `n` from `a`, with its fault kind. -/
def firstRefused (check : Nat → Option Nat) (a : Nat) : Nat → Option (Nat × Nat)
  | 0 => none
  | n + 1 =>
    match check a with
    | some k => some (k, a)
    | none => firstRefused check (a + 1) n

/-! ### Issue -/

/-- What a bundle sees besides its core. -/
structure IssueEnv where
  /-- 0 transaction, 1 control, 2 security core (Table 6.1). -/
  kind : Nat
  /-- A task runs: it has been entered. -/
  tasked : Bool
  /-- The task word that TAKE returned may be entered. -/
  mayEnter : Bool
  flags : BitVec 32
  word : Nat → Word32
  check : Space → Bool → Nat → Option Nat
  windows : List (Nat × Region)
  /-- Bytes for values the spec does not state (log entry 6). -/
  free : Bytes

/-- A fault found in the issue cycle: its kind, address, space, and whether the access was a write. -/
structure FaultAt where
  kind : Nat
  addr : Nat
  space : Space
  write : Bool
  deriving DecidableEq, Repr

/-- What the moves of a bundle have done so far. -/
structure Acc where
  c : Core
  next : Nat
  /-- Cycles to the issue of the next bundle. -/
  after : Nat := 1
  /-- A jump has been taken. -/
  jumped : Bool := false
  illegal : Bool := false
  fault : Option FaultAt := none
  /-- A free value was used. -/
  drew : Bool := false
  /-- The value moved to ENTER. -/
  enter : Option Word64 := none
  /-- The bundle reaches the I/O space of a control or security core. -/
  firmwareIo : Bool := false

def Acc.bad (a : Acc) : Acc := { a with illegal := true }

/-- A jump to `t` (R181, R182): loops whose body does not contain it end. -/
def Acc.jump (a : Acc) (t : Nat) : Acc :=
  if t % 4 ≠ 0 ∨ 4 * imemWords ≤ t then a.bad
  else
    let keep := a.c.ctl.loops.filter (fun l => decide (l.first ≤ t ∧ t ≤ l.last))
    { a with next := t, after := 3, jumped := true, c := { a.c with ctl := { a.c.ctl with loops := keep } } }

/-- Bytes of local data memory; addresses beyond it are absent. -/
def localRead (c : Core) (a n : Nat) : Bytes :=
  (List.range n).map (fun i => if a + i < 0x10000 then tabGet 0 c.dmem (a + i) else 0)

/-- Bytes of `b` from address `a` on whose addresses `ok` permits, into local data memory. -/
def localWrite (c : Core) (ok : Nat → Bool) (a : Nat) : Bytes → Core
  | [] => c
  | x :: t =>
    let c1 := if ok a ∧ a < 0x10000 then { c with dmem := tabPut 0 c.dmem a x } else c
    localWrite c1 ok (a + 1) t

/-- The bytes moved by LSU trigger `d`. -/
def lsuBytes (d : Nat) : Nat :=
  match d with
  | 0x01 | 0x08 => 1
  | 0x02 | 0x09 => 2
  | 0x03 | 0x0A => 4
  | 0x05 | 0x0C => 16
  | _ => 8

/-- An LSU trigger on local data memory: performed in the issue cycle (R167, R170). -/
def lsuLocal (env : IssueEnv) (c0 : Core) (t d a : Nat) (acc : Acc) : Acc :=
  let n := lsuBytes d
  let write := decide ((8 ≤ d ∧ d ≤ 0x0C) ∨ d = 0x11)
  let chk := env.check .data write
  let fault := (firstRefused chk a n).map (fun p => ({ kind := p.1, addr := p.2, space := .data, write := write } : FaultAt))
  let acc := { acc with fault := acc.fault.orElse (fun _ => fault) }
  if write then
    let c1 := localWrite acc.c (fun x => (chk x).isNone) a (beBytes n c0.lsu.sd.toNat)
    if d = 0x11 then { acc with c := { c1.later .lsuSc (t + 6) 0 with reservation := none } } else { acc with c := c1 }
  else
    let raw := localRead c0 a n
    let v := (List.range n).map (fun i => if (chk (a + i)).isNone then raw.getD i 0 else 0)
    let c1 := acc.c.later .lsuLd (t + 2) (BitVec.ofNat 128 (beNat v))
    if d = 0x10 then { acc with c := { c1 with reservation := none } } else { acc with c := c1 }

/-- Queue an access for its own cycle. -/
def Acc.queue (a : Acc) (env : IssueEnv) (due ready addr pc : Nat) (computed : Bool) (op : AccessOp) : Acc :=
  let x : Access := { due := due, ready := ready, addr := addr, op := op, pc := pc, computed := computed, windows := env.windows }
  { a with c := { a.c with accesses := a.c.accesses ++ [x] } }

/-- G1 (R169). -/
def moveLsu (env : IssueEnv) (pc t : Nat) (c0 : Core) (m : Move) (v : Word128) (acc : Acc) : Acc :=
  let a := v.toNat % 2 ^ 32
  if m.dest = 0 then { acc with c := { acc.c with lsu := { acc.c.lsu with sd := v } } }
  else if a < 0x10000 ∨ env.kind = 1 then lsuLocal env c0 t m.dest a acc
  else
    let n := lsuBytes m.dest
    acc.queue env (t + 3) (t + 6) a pc m.src.computed
      (if m.dest = 0x10 then .loadReserved
       else if m.dest = 0x11 then .storeConditional (c0.lsu.sd.truncate 64)
       else if 8 ≤ m.dest then .store n c0.lsu.sd else .load n)

/-- An I/O address lies in the request-memory window. -/
def inWindow (a : Nat) : Bool := decide (0x4000 ≤ a ∧ a < 0x8000)

/-- G2 (R171): every trigger is performed four cycles later. TAKE and DONE stall from their issue. -/
def moveIou (env : IssueEnv) (pc t : Nat) (c0 : Core) (m : Move) (v : Word128) (acc : Acc) : Acc :=
  let a := v.toNat % 2 ^ 16
  let write := decide (3 ≤ m.dest)
  if m.dest = 0 then { acc with c := { acc.c with iou := { acc.c.iou with iod := v } } }
  else if env.kind ≠ 0 then { acc with firmwareIo := true }
  else if ¬ inWindow a ∧ a % 8 ≠ 0 then acc.bad
  else if write ∧ (a = 0 ∨ a = 0x20) ∧ ¬ c0.ctl.guarded then acc.bad
  else
    let n := if m.dest = 1 ∨ m.dest = 3 then 8 else 16
    let acc1 := acc.queue env (t + 4) (t + 8) a pc m.src.computed
      (if write then .ioWrite n c0.iou.iod else .ioRead n)
    if write ∧ (a = 0 ∨ a = 0x20) then { acc1 with c := { acc1.c with stall := .square } } else acc1

/-- The local bits `a` … as a 64-bit value, lowest address in bit 0. -/
def localBits64 (c : Core) (flags : BitVec 32) (ok : Nat → Bool) (a : Nat) : Nat :=
  ((List.range 64).map (fun i => if ok (a + i) ∧ c.localBit flags (a + i) then 2 ^ i else 0)).sum

def putBits64 (c : Core) (ok : Nat → Bool) (a v : Nat) : Core :=
  (List.range 64).foldl (fun c i => if ok (a + i) then c.putBit (a + i) (v.testBit i) else c) c

/-- A BIT trigger on local bits (R173). -/
def bitLocal (env : IssueEnv) (c0 : Core) (t d a : Nat) (acc : Acc) : Acc :=
  let write := decide (2 ≤ d ∧ d ≤ 5 ∨ d = 7)
  let n := if d = 6 ∨ d = 7 then 64 else 1
  let chk := env.check .bit write
  let ok := fun x => (chk x).isNone
  let fault := (firstRefused chk a n).map (fun p => ({ kind := p.1, addr := p.2, space := .bit, write := write } : FaultAt))
  let acc := { acc with fault := acc.fault.orElse (fun _ => fault) }
  let old := ok a && c0.localBit env.flags a
  let put := fun (c : Core) (v : Bool) => if ok a then c.putBit a v else c
  match d with
  | 0x01 => { acc with c := acc.c.later .bitRes (t + 1) (if old then 1 else 0) }
  | 0x02 => { acc with c := put acc.c true }
  | 0x03 => { acc with c := put acc.c false }
  | 0x04 => { acc with c := put acc.c (c0.bitu.bv.getLsbD 0) }
  | 0x05 => { acc with c := (put acc.c true).later .bitRes (t + 1) (if old then 1 else 0) }
  | 0x06 => { acc with c := acc.c.later .bitRes (t + 1) (BitVec.ofNat 128 (localBits64 c0 env.flags ok a)) }
  | 0x07 => { acc with c := putBits64 acc.c ok a c0.bitu.bv.toNat }
  | _ => { acc with c := acc.c.putBit (d - 0x10) old }

/-- G3 (R173). -/
def moveBit (env : IssueEnv) (pc t : Nat) (c0 : Core) (m : Move) (v : Word128) (acc : Acc) : Acc :=
  let a := v.toNat
  if m.dest = 0 then { acc with c := { acc.c with bitu := { acc.c.bitu with bv := v.truncate 64 } } }
  else if (m.dest = 6 ∨ m.dest = 7) ∧ a % 64 ≠ 0 then acc.bad
  else if 0x11 ≤ m.dest ∧ (0xFFFF < a ∨ ¬ c0.ctl.guarded) then acc.bad
  else if a < 0x10000 then bitLocal env c0 t m.dest a acc
  else
    acc.queue env (t + 3) (t + 6) a pc m.src.computed
      (match m.dest with
       | 0x01 => .bitRead
       | 0x02 => .bitWrite true
       | 0x03 => .bitWrite false
       | 0x04 => .bitWrite (c0.bitu.bv.getLsbD 0)
       | 0x05 => .bitTas
       | 0x06 => .bitRead64
       | _ => .bitWrite64 c0.bitu.bv)

/-- G0 (R168). -/
def moveAlu (t : Nat) (c0 : Core) (m : Move) (v : Word128) (acc : Acc) : Acc :=
  let b : Word64 := v.truncate 64
  if m.dest = 0 then { acc with c := { acc.c with alu := { acc.c.alu with a := b } } }
  else
    let p := if 0x40 ≤ m.dest then (m.dest - 0x40) % 8 else 0
    if p ≠ 0 ∧ ¬ c0.ctl.guarded then acc.bad
    else
      let r := aluOp m.dest c0.alu.a b
      let c1 := acc.c.later .aluRes (t + 1) (r.zeroExtend 128)
      { acc with c := if p = 0 then c1 else c1.putBit p (r != 0) }

/-- The cycle of the last SYM result on its way: results reach OUT in trigger order (R176). -/
def lastSym (c : Core) : Nat := ((c.results.filter (fun r => decide (r.port = .symOut))).map (·.ready)).foldl max 0

/-- G4 (R175). -/
def moveSym (env : IssueEnv) (t : Nat) (c0 : Core) (m : Move) (v : Word128) (acc : Acc) : Acc :=
  let u := acc.c.sym
  let put := fun (u : SymUnit) => { acc with c := { acc.c with sym := u } }
  match m.dest with
  | 0 => put { u with k0 := v }
  | 1 => put { u with k1 := v }
  | 2 => put { u with xin := v }
  | 3 =>
    match keyTypeOf v.toNat with
    | none => acc.bad
    | some k => put { u with key := some (k, c0.sym.k0, c0.sym.k1), ksetUntil := t + 2 }
  | d =>
    let k := (c0.sym.key.map (·.1)).getD .aes128
    let out := symOut c0.sym d v (word128 env.free)
    let acc1 := { acc with c := acc.c.later .symOut (max (t + symLatency k) (lastSym c0)) out,
                           drew := acc.drew || c0.sym.key.isNone }
    if k.isTdes then { acc1 with c := { acc1.c with sym := { acc1.c.sym with tdesUntil := t + 49 } } } else acc1

/-- The four digest ports at cycle `ready`. -/
def digest (c : Core) (ready : Nat) (d : Bytes) : Core :=
  let b := padTo 64 d
  (((c.later .dig0 ready (word128 b)).later .dig1 ready (word128 (b.drop 16))).later .dig2 ready
    (word128 (b.drop 32))).later .dig3 ready (word128 (b.drop 48))

/-- G5 (R177, R178). A FINAL with no INIT since the last clear has no stated value. -/
def moveHash (env : IssueEnv) (t : Nat) (c0 : Core) (m : Move) (v : Word128) (acc : Acc) : Acc :=
  let u := acc.c.hash
  let put := fun (u : HashUnit) => { acc with c := { acc.c with hash := u } }
  match m.dest with
  | 0 => put { u with hk0 := v }
  | 1 => put { u with hk1 := v }
  | 2 => put { u with hk2 := v }
  | 3 => put { u with hk3 := v }
  | 4 =>
    match hashAlgOf v.toNat with
    | none => acc.bad
    | some alg =>
      if alg = .hmac256 ∧ 64 < bitsOf v.toNat 14 8 then acc.bad
      else put { u with alg := alg, phase := .open, key := initKey c0.hash alg v.toNat, msg := [], waiting := 0, busyUntil := t }
  | 5 => if u.phase = .done then acc.bad else put (u.absorb t v)
  | 6 => put { u with hd := v }
  | _ =>
    if u.phase = .done then acc.bad
    else
      let msg := u.msg ++ (bytes128 c0.hash.hd).take (v.toNat % 16)
      let d := if u.phase = .idle then env.free else hashResult u.alg u.key msg
      let acc1 := put { u with phase := .done, msg := [] }
      { acc1 with c := digest acc1.c (t + finalLatency u.alg) d, drew := acc.drew || u.phase == .idle }

/-- G6 (R179, R180). -/
def movePin (t : Nat) (c0 : Core) (m : Move) (v : Word128) (acc : Acc) : Acc :=
  let u := acc.c.pin
  let put := fun (u : PinUnit) => { acc with c := { acc.c with pin := u } }
  match m.dest with
  | 0 => put { u with pan := v }
  | 1 => put { u with dtab := v.truncate 64 }
  | 2 => put { u with fill := v.truncate 64 }
  | 3 => put { u with da := v.truncate 64 }
  | d =>
    let r := t + (if d = 0x07 ∨ d = 0x0B then 4 else 2)
    let (o, o2, ok) := match pinOp c0.pin d v with
      | some (a, b) => (a, b, 1)
      | none => (0, 0, 0)
    { acc with c := ((acc.c.later .pinOut r (BitVec.ofNat 128 o)).later .pinOut2 r (BitVec.ofNat 128 o2)).later .pinOk r
                      (BitVec.ofNat 128 ok) }

/-- LOOP with last bundle at `b` (R182). -/
def startLoop (env : IssueEnv) (next b : Nat) (acc : Acc) : Acc :=
  let l := acc.c.ctl.loops
  let inside : Bool := match l.head? with
    | none => true
    | some f => decide (f.first ≤ b ∧ b ≤ f.last)
  if b < next ∨ ¬ inside ∨ 4 ≤ l.length then acc.bad
  else if acc.c.ctl.lcnt = 0 then
    match decodeBundle env.word b with
    | none => acc.bad
    | some (_, after) => acc.jump after
  else
    let f : LoopFrame := { first := next, last := b, remaining := acc.c.ctl.lcnt - 1 }
    { acc with c := { acc.c with ctl := { acc.c.ctl with loops := f :: l } } }

/-- G7 (R181 to R185). -/
def moveCtl (env : IssueEnv) (pc next : Nat) (c0 : Core) (m : Move) (v : Word128) (acc : Acc) : Acc :=
  let u := acc.c.ctl
  let b : Word64 := v.truncate 64
  let put := fun (u : CtlUnit) => { acc with c := { acc.c with ctl := u } }
  let indirect := m.src.computed && decide (env.kind = 0)
  match m.dest with
  | 0x00 => if indirect then acc.bad else acc.jump b.toNat
  | 0x01 =>
    let t : Int := pc + 4 * b.toInt
    if indirect ∨ t < 0 then acc.bad else acc.jump t.toNat
  | 0x02 => put { u with lcnt := b.toNat % 65536 }
  | 0x03 => startLoop env next b.toNat acc
  | 0x04 => if ¬ c0.ctl.guarded then acc.bad else put { u with wb := b.toNat % 2 ^ 32 }
  | 0x05 => if ¬ c0.ctl.guarded then acc.bad else acc
  | 0x06 =>
    if b.getLsbD 0 then
      if u.btestPass then put { u with guarded := true } else put { u with modeRefused := true }
    else if env.tasked then acc.bad else put { u with guarded := false }
  | 0x07 => if ¬ c0.ctl.guarded ∨ env.tasked ∨ ¬ env.mayEnter ∨ b ≠ c0.taskWord then acc.bad else { acc with enter := some b }
  | 0x08 => { acc with c := { acc.c with stall := .halted } }
  | 0x09 => if c0.ctl.guarded then acc.bad else { acc with c := { acc.c with stall := .btest } }
  | 0x0A => { acc with after := max 1 (b.toNat % 65536) }
  | 0x10 => if c0.ctl.guarded then acc.bad else put { u with cba := b }
  | 0x11 => if c0.ctl.guarded then acc.bad else put { u with cbt := b.toNat }
  | d =>
    if c0.ctl.guarded then acc.bad
    else if aluCond (d - 0x18) c0.ctl.cba b then acc.jump c0.ctl.cbt else acc

/-- One move with a true guard. Registers and ports are read from `c0`, the core before the bundle's writes. -/
def applyMove (env : IssueEnv) (pc t next : Nat) (c0 : Core) (acc : Acc) (m : Move) : Acc :=
  if acc.illegal ∨ ¬ c0.guard m then acc
  else
    let v := c0.value env.kind m.src
    if 0xE0 ≤ m.dest then { acc with c := acc.c.putW (m.dest - 0xE0) v }
    else if 0xC0 ≤ m.dest then { acc with c := acc.c.putG (m.dest - 0xC0) (v.truncate 64) }
    else
      match m.group with
      | 0 => moveAlu t c0 m v acc
      | 1 => moveLsu env pc t c0 m v acc
      | 2 => moveIou env pc t c0 m v acc
      | 3 => moveBit env pc t c0 m v acc
      | 4 => moveSym env t c0 m v acc
      | 5 => moveHash env t c0 m v acc
      | 6 => movePin t c0 m v acc
      | _ => moveCtl env pc next c0 m v acc

/-! ### Stalls (R165), whatever the guards (R160) -/

/-- The cycle in which the moves of a bundle that comes to issue at `t` take effect, WAITF apart. -/
def stallTo (c : Core) (ms : List Move) (t : Nat) : Nat :=
  let sym := ms.any (fun m => m.group == 4 && decide (3 ≤ m.dest ∧ m.dest ≤ 7))
  let block := ms.any (fun m => m.group == 4 && decide (4 ≤ m.dest ∧ m.dest ≤ 7))
  let abs := ms.any (fun m => m.group == 5 && m.dest == 5)
  let t1 := if sym then max t c.sym.tdesUntil else t
  let t2 := if block then max t1 c.sym.ksetUntil else t1
  if abs then c.hash.absorbAt t2 else t2

/-- The mask of a WAITF in the bundle. -/
def waitMask (c : Core) (kind : Nat) (ms : List Move) : Option (BitVec 32) :=
  (ms.find? (fun m => m.group == 7 && m.dest == 5)).map (fun m => (c.value kind m.src).truncate 32)

/-- Loops whose last bundle has been reached go back to their first bundle, or end (R182). -/
def loopBack (pc next : Nat) : List LoopFrame → List LoopFrame × Nat
  | [] => ([], next)
  | f :: t =>
    if f.last ≠ pc then (f :: t, next)
    else if f.remaining = 0 then loopBack pc next t
    else ({ f with remaining := f.remaining - 1 } :: t, f.first)

/-- Pass `n` core cycles: the budget of an entered task counts down (R187). -/
def Core.pass (c : Core) (n : Nat) : Core := { c with time := c.time + n, budget := c.budget - n }

/-- Why a bundle could not issue. -/
inductive IssueResult where
  | ok (a : Acc)
  | illegalBundle
  | illegalMove
  /-- Waits at a WAITF whose mask the flags do not satisfy. -/
  | waiting (mask : BitVec 32)

/-- Issue the bundle at the pc of `c0`, its stalls over, at cycle `c0.time`. -/
def issue (env : IssueEnv) (c0 : Core) (ms : List Move) (next : Nat) : IssueResult :=
  let pc := c0.pc
  let t := c0.time
  let c := c0.mature t
  let plainGuard := !c.ctl.guarded && ms.any (fun m => m.inv || decide (m.pred ≠ 0))
  if plainGuard then .illegalBundle
  else
    let mask := if c.ctl.guarded then waitMask c env.kind ms else none
    let waits := match mask with
      | some k => env.flags &&& k != k
      | none => false
    if waits then .waiting (mask.getD 0)
    else
      let a := ms.foldl (applyMove env pc t next c) { c := c, next := next }
      if a.illegal then .illegalMove
      else
        let (l, n) := if a.jumped then (a.c.ctl.loops, a.next) else loopBack pc a.next a.c.ctl.loops
        .ok { a with c := { a.c with pc := n, ctl := { a.c.ctl with loops := l } }.pass a.after, next := n }

end Sys2Proof.Machine
end

