-- ==== Sys2Proof/Machine/Resolve.lean ====
section
/-! DEFINITION. What the functions of chapters 08 and 09 share (R225 to R228): the layout with its inline blocks, key
references and their roles, random data, signatures, and the key blocks they produce. -/

namespace Sys2Proof.Machine

/-! ### Layout (R225, R226) -/

/-- The fields of a KREF lie in their ranges; `inline_` and `resident` say which KINDs are allowed. -/
def KRef.fieldsOk (k : KRef) (resident inline_ : Bool) : Bool :=
  match k.kind with
  | 1 => resident && k.smk == 0 && k.len == 0
  | 2 => inline_ && decide (k.smk ≤ 7)
  | _ => false

/-- Blocks sorted by offset fill the payload from `pos` to its end, without gap or overlap. -/
def tiles : Nat → Nat → List (Nat × Nat) → Bool
  | pos, stop, [] => pos == stop
  | pos, stop, (o, n) :: t => o == pos && tiles (pos + n) stop t

/-- Inline blocks lie after the last field and end exactly at LENGTH (R226). -/
def blocksOk (p : Bytes) (stop : Nat) (ks : List KRef) : Bool :=
  let blocks := (ks.filter (fun k => k.kind == 2)).map (fun k => (k.at_, k.len))
  tiles stop p.length (sortBy (fun b => b.1 * 65536 + b.2) blocks)

/-- A layout whose fields end at `stop`: prologue, reserved fields, key references and their inline blocks. -/
def payloadOk (p : Bytes) (stop : Nat) (reserved : List (Nat × Nat)) (krefs : List Nat) : Bool :=
  decide (stop ≤ p.length) && prologueOk p 0 && reserved.all (fun r => zeroAt p r.1 r.2) &&
    krefs.all (fun o => (krefAt p o).fieldsOk true true) && blocksOk p stop (krefs.map (krefAt p))

/-! ### Roles (R227, Table 8.3) -/

/-- What a role takes: usages, modes besides N, and algorithms. -/
structure Role where
  usages : List Nat
  modes : List Nat
  algs : List Nat

def Role.fits (r : Role) (a : KeyAttr) : Bool :=
  r.usages.contains a.usage && (r.modes.contains a.mode || a.mode == mN) && r.algs.contains a.alg

/-- Resolve the KREF at payload offset `off` for a role. -/
def Fn.resolve (x : Slot) (off : Nat) (role : Handle → Bool) : Fn Handle := do
  let h ← Fn.act (fun s => resolveRef s x.tenant x.admitTick x.payload (krefAt x.payload off))
  Fn.ok h.status
  Fn.need (h.bound && h.attr.alg != 0 && role h) stUsageDenied
  return h

/-- Resolve for a role of Table 8.3. -/
def Fn.resolveRole (x : Slot) (off : Nat) (r : Role) : Fn Handle := Fn.resolve x off (fun h => r.fits h.attr)

/-! ### Random data (R342, R346) -/

/-- `n` bytes from the internal pool, or the status of its refusal. -/
def Fn.draw (n : Nat) : Fn Bytes := do
  let st ← Fn.st (fun s => s.drawStatus false)
  Fn.ok st
  Fn.random n

/-! ### Key blocks (R254, R272, Table 8.2) -/

/-- KBOUT: KBLEN, KCV, and the block. -/
def kbOut (a : KeyAttr) (raw block : Bytes) : Bytes := beBytes 2 block.length ++ kcvOf a raw ++ block

/-- Wrap a key in a block of a format under a key-encryption key; `gen` goes into "9G" under an SMK. -/
def Fn.wrap (kek : Bytes) (format : Nat) (a : KeyAttr) (raw : Bytes) (gen : Option Nat) (most : Nat) : Fn Bytes := do
  Fn.need (decide (format ≤ 2) && (format != 0 || decide (a.alg ≤ 2))) stKeyBlockFormat
  let rnd ← Fn.draw 16
  let opts : List (Nat × Bytes) := match gen with
    | some g => [(opt9G, toHex (beBytes 2 g))]
    | none => []
  let h : BlockHdr := { version := formatVersion format, usage := a.usage, alg := algChar a.alg, mode := a.mode,
                        exportability := a.exportability, opts := opts, len := 0 }
  let b := wrapWith kek (blockKeyData a raw) rnd h
  Fn.need (decide (b.length ≤ most)) stKeyBlockFormat
  return kbOut a raw b

/-- The producing generation of an SMK slot for a task (Table 9.4), or SMK_EMPTY. -/
def Fn.producing (x : Slot) (j : Nat) : Fn SmkGen := do
  let g ← Fn.st (fun s => (s.smkSlot x.tenant j).producing x.admitTick)
  Fn.get! g stSmkEmpty

/-- A block under an SMK: version B is refused. -/
def Fn.wrapSmk (g : SmkGen) (format : Nat) (a : KeyAttr) (raw : Bytes) (most : Nat) : Fn Bytes := do
  Fn.need (format != 0) stKeyBlockFormat
  Fn.wrap g.key format a raw (some g.gen) most

/-! ### Signatures of the device (R289, R299) -/

/-- ML-DSA iterations beyond the 16th draw on the overrun reserve, one after another (R117, R299). -/
def reserveDraws : Nat → State → Option State
  | 0, s => some s
  | n + 1, s =>
    let left := s.reserveLeft s.folio.now - s.bn.drawn
    if left < 3200 then none
    else reserveDraws n (drawReserve s (min left 23600) left)

/-- An ML-DSA-65 signature in hedged mode (R244, R299). -/
def Fn.mlDsaSign (seed ctx msg : Bytes) : Fn Bytes := do
  let rnd ← Fn.draw 32
  let need := mlDsaIterations seed ctx msg rnd
  Fn.need (decide (need ≤ 128)) stInvariantFailed
  let s ← get
  match reserveDraws (need - 16) s with
  | some s1 => set s1
  | none =>
    Fn.change countRetry
    throw stRetry
  return padTo 3309 (Machine.mlDsaSign seed ctx msg rnd)

/-- An ECDSA signature, r then s, of a digest cut to the length of n (R243). -/
def Fn.ecdsaSign (c : Curve) (d : Nat) (digest : Bytes) : Fn Bytes := do
  let rnd ← Fn.draw (c.size + 8)
  let nbits := Nat.log2 c.n + 1
  let e := if nbits < 8 * digest.length then beNat digest / 2 ^ (8 * digest.length - nbits) else beNat digest
  let (r, t) := ecdsaSignInt c d e (scalarOf c rnd)
  let n := ceilDiv nbits 8
  return beBytes n r ++ beBytes n t

/-! ### Resident runs (R240) -/

/-- The loads that tasks have promised and not yet committed. -/
def State.pendingLoads (s : State) : List (Nat × Resident) :=
  s.sq.slots.flatMap (fun p => p.2.effects.filterMap (fun e => match e with
    | .loadResident u r => some (u, r)
    | _ => none))

/-- The run that a load takes, those promised to other tasks counted. -/
def Fn.residentRun (t n : Nat) : Fn Nat := do
  let u ← Fn.st (fun s => (s.pendingLoads.foldl (fun s p => s.putResident p.1 p.2) s).residentRoom t n)
  Fn.get! u stResidentQuotaFull

/-- A load takes effect at its commit point: FROM is the folio after it, and SLOT_GEN goes on (R240, R257). -/
def loadResident (s : State) (unit : Nat) (r : Resident) : State :=
  let r1 : Resident := { r with from_ := folioAdd s.folio.now 1, slotGen := (s.resident unit).slotGen }
  let s1 := s.putResident unit r1
  if r.resetExpiry then s1 else s1.journal 1 (residentBody unit r1)

end Sys2Proof.Machine
end

