-- ==== Sys2Proof/Machine/KeyTick.lean ====
section
/-! DEFINITION. The key store at the tick (R255 to R258, R505): generations and resident slots that change, what they erase,
and the vault's batches, the mask refresh and key-SRAM errors (R251, R252, R267). -/

namespace Sys2Proof

/-- The expansion of a random block to a mask difference of a given length, which the spec does not lay down (R251). -/
opaque Config.expandMask : Bytes → Nat → Bytes

namespace Machine

/-! ### Slot states (R255, Table 9.4) -/

/-- A generation retires at tick `f`. -/
def SmkSlot.retire (x : SmkSlot) (g : Option SmkGen) (f : Nat) : SmkSlot :=
  { x with retiring := x.retiring ++ (g.toList.map (fun g => { g := g, since := f })) }

/-- SMK slot `j` of tenant `t` after an effect that applies at tick `f`. -/
def smkAfter (t j f : Nat) (x : SmkSlot) (e : TickEffect) : SmkSlot :=
  match e with
  | .smkCreate t' j' g => if t' = t ∧ j' = j then { x with current := some { g with from_ := f }, lastGen := g.gen } else x
  | .smkBegin t' j' g => if t' = t ∧ j' = j then { x with pending := some { g with from_ := f }, lastGen := g.gen } else x
  | .smkComplete t' j' =>
    if t' = t ∧ j' = j then { x.retire x.current f with current := x.pending, pending := none } else x
  | .smkAbort t' j' => if t' = t ∧ j' = j then { x.retire x.pending f with pending := none } else x
  | .smkInvalidate t' j' =>
    if t' = t ∧ j' = j then { (x.retire x.current f).retire x.pending f with current := none, pending := none } else x
  | _ => x

/-- The slot as every effect already armed for it will leave it (R505). -/
def State.smkArmed (s : State) (t j : Nat) : SmkSlot :=
  (s.folio.effects.map (·.effect)).foldl (smkAfter t j (folioAdd s.folio.now 1)) (s.smkSlot t j)

/-- Arm an effect for the task of slot `k`, whose commit point is still to come (R505). -/
def Fn.armNow (k : Nat) (e : TickEffect) : Fn Unit :=
  Fn.change (fun s => { s with folio := { s.folio with effects := s.folio.effects ++ [{ folio := none, slot := some k, effect := e }] } })

/-! ### Bindings that a retirement erases (R256, R257, R324) -/

/-- The binding descends from a generation. -/
def CacheBinding.underGen (b : CacheBinding) (t j gen : Nat) : Bool :=
  b.tenant == t && ((b.rootSlot == j && b.rootGen == gen) || b.parent == .root j gen)

/-- The streams of a tenant whose keys satisfy `p` take no more segments from this tick on. -/
def revokeStreams (s : State) (t : Nat) (p : StreamSide → Bool) : State :=
  let hit := fun (x : Stream) => decide (x.state ≠ .free ∧ x.tenant = t ∧ x.revokedAt = none) && (p x.sideIn || p x.sideOut)
  let mark := fun (q : Nat × Stream) => (q.1, if hit q.2 then ({ q.2 with revokedAt := some s.folio.now } : Stream) else q.2)
  { s with bulk := { s.bulk with streams := s.bulk.streams.map mark } }

/-- Generation `gen` becomes RETIRING: the cache bindings under it are erased. -/
def retireGen (s : State) (t j gen : Nat) : Nat × State :=
  let (n, s1) := purge s (fun b => b.underGen t j gen)
  (n, revokeStreams s1 t (fun y => y.key != [] && y.rootSlot == j && y.rootGen == gen))

/-- The body of an SMK journal record: tenant, slot, generation, change, shares. -/
def smkBody (t j change : Nat) (g : Option SmkGen) : Bytes :=
  beBytes 2 t ++ beBytes 1 j ++ beBytes 2 ((g.map (·.gen)).getD 0) ++ beBytes 1 change ++
    ((g.map (fun g => g.shareA ++ g.shareB)).getD [])

/-- An SMK effect at its tick (R255, R256): the slot changes, what retires is purged, and the change is journalled. -/
def applySmk (s : State) (e : TickEffect) : State :=
  let f := s.folio.now
  let put := fun (t j : Nat) => s.putSmk t j (smkAfter t j f (s.smkSlot t j) e)
  match e with
  | .smkCreate t j g =>
    ((put t j).journal 4 (smkBody t j 1 (some g))).raise evSmkCreated srcKeyStore t (items [(2, t), (1, j), (2, g.gen)])
  | .smkBegin t j g =>
    ((put t j).journal 4 (smkBody t j 2 (some g))).raise evSmkRotationBegun srcKeyStore t (items [(2, t), (1, j), (2, g.gen)])
  | .smkComplete t j =>
    let x := s.smkSlot t j
    let old := (x.current.map (·.gen)).getD 0
    let (n, s1) := retireGen (put t j) t j old
    (s1.journal 4 (smkBody t j 3 x.pending)).raise evSmkRotated srcKeyStore t
      (items [(2, t), (1, j), (2, (x.pending.map (·.gen)).getD 0), (4, n)])
  | .smkAbort t j =>
    let g := ((s.smkSlot t j).pending.map (·.gen)).getD 0
    let (_, s1) := retireGen (put t j) t j g
    (s1.journal 4 (smkBody t j 4 none)).raise evSmkRotationAborted srcKeyStore t (items [(2, t), (1, j), (2, g)])
  | .smkInvalidate t j =>
    let x := s.smkSlot t j
    let s1 := ((x.current.toList ++ x.pending.toList).map (·.gen)).foldl (fun s g => (retireGen s t j g).2) (put t j)
    (s1.journal 4 (smkBody t j 5 none)).raise evSmkInvalidated srcKeyStore t (items [(2, t), (1, j)])
  | _ => s

/-- KEY_DELETE_RESIDENT takes effect (R257). -/
def retireResident (s : State) (slot : Nat) : State :=
  let r := s.resident slot
  if r.kind = .free ∨ r.kind = .retiring then s
  else
    let r1 : Resident := { r with kind := .retiring, retiredAt := s.folio.now, wasCounter := r.kind == .counter,
                                  slotGen := (r.slotGen + 1) % 65536 }
    let (_, s1) := purge (s.putResident slot r1) (fun b => b.parent == .resident slot r.slotGen)
    let s2 := revokeStreams s1 r.tenant (fun y => y.resident == some (slot, r.slotGen))
    let s3 := if r.resetExpiry then s2 else s2.journal 1 (residentBody slot r1)
    s3.raise evResidentDeleted srcKeyStore r.tenant (items [(2, r.tenant), (2, slot), (2, r1.slotGen)])

/-- CLIENT_KEY_SET takes effect (R269). -/
def setClientKey (s : State) (t index : Nat) (k : ClientKey) : State :=
  let s1 := { s with ks := { s.ks with clientKeys := tabPut {} s.ks.clientKeys (64 * t + index) k } }
  (s1.journal 5 (beBytes 2 t ++ beBytes 1 index ++ beBytes 1 k.alg ++ k.pub)).raise evClientKeyChanged srcKeyStore t
    (items [(2, t), (1, index), (1, k.alg)])

/-! ### Erasure of what has retired (R256 step 4, R303, R324) -/

/-- A task admitted before tick `f` still holds a request slot. -/
def State.olderTask (s : State) (f : Nat) : Bool :=
  s.sq.slots.any (fun p => p.2.wasAdmitted && !folioReached p.2.admitTick f)

/-- Generations, resident slots, stream bindings and curve records whose last user has gone. -/
def eraseRetired (s : State) : State :=
  let s1 := s.ks.smk.foldl (fun s p =>
    let x := tabGet ({} : SmkSlot) s.ks.smk p.1
    let gone := x.retiring.filter (fun r => !s.olderTask r.since)
    if gone.isEmpty then s
    else
      let t := p.1 / 8
      let s1 := s.putSmk t (p.1 % 8) { x with retiring := x.retiring.filter (fun r => s.olderTask r.since) }
      gone.foldl (fun s _ => s.raise evResidentErased srcKeyStore t (items [(2, t), (2, p.1 % 8)])) s1) s
  let s2 := s1.ks.resident.foldl (fun s p =>
    if p.2.kind = .retiring ∧ ¬ s.olderTask p.2.retiredAt then
      (s.putResident p.1 { slotGen := p.2.slotGen }).raise evResidentErased srcKeyStore p.2.tenant
        (items [(2, p.2.tenant), (2, p.1)])
    else s) s1
  let s3 := s2.bn.curves.foldl (fun s p =>
    match p.2.deletedAt with
    | some f => if s.olderTask f then s else s.putCurve p.1 { gen := p.2.gen }
    | none => s) s2
  s3.bulk.streams.foldl (fun s p =>
    match p.2.revokedAt with
    | some f =>
      if s.olderTask f ∨ p.2.units = 0 then s
      else s.putStream p.1 { p.2 with units := 0, sideIn := { p.2.sideIn with key := [], chain := [] },
                                      sideOut := { p.2.sideOut with key := [], chain := [] } }
    | none => s) s3

/-! ### The vault (R267) -/

/-- The bytes of a chain record (Table 17.1). -/
def chainRecordBytes (epoch count : Nat) (m : Nat → Member) : Bytes :=
  let one := fun (j : Nat) =>
    beBytes 8 (m j).serial ++ beBytes 1 (m j).position ++ beBytes 1 (m j).state ++ zeros 6 ++ padTo 48 (m j).idHash
  beBytes 4 epoch ++ beBytes 1 count ++ zeros 3 ++ (List.range 8).flatMap one

/-- The chain record in effect. -/
def State.chainRecord (s : State) : Bytes := chainRecordBytes s.pair.epoch s.pair.count s.member

/-- What is sealed of the key store as it stands: no claims, no RESET_EXPIRY keys, nothing that is retiring. -/
def State.sealed (s : State) : Vault :=
  let live := fun (p : Nat × Resident) =>
    if p.2.kind = .retiring ∨ p.2.resetExpiry then (p.1, ({ slotGen := p.2.slotGen } : Resident))
    else (p.1, { p.2 with record := { p.2.record with claims := [] }, reloading := false })
  { s.vault.store with smk := (s.ks.smk.map (fun p => (p.1, ({ p.2 with retiring := [] } : SmkSlot)))).filter (fun p => p.2 != {}),
                       resident := (s.ks.resident.map live).filter (fun p => p.2 != {}), clientKeys := s.ks.clientKeys,
                       pairKey := s.pair.pairKey, chainKey := s.pair.chainKey,
                       chainRecord := if s.paired then s.chainRecord else [],
                       memberKeys := (s.pair.members.map (fun p => (p.1, p.2.keys))).filter (fun p => p.2 != []) }

/-- The clear bytes of a sealed store. -/
def Vault.bytes (v : Vault) : Bytes :=
  v.smk.flatMap (fun p => beBytes 2 p.1 ++ beBytes 2 p.2.lastGen ++
      (p.2.current.toList ++ p.2.pending.toList).flatMap (fun g => beBytes 2 g.gen ++ beBytes 6 g.from_ ++ g.shareA ++ g.shareB)) ++
    v.resident.flatMap (fun p => residentBody p.1 p.2 ++ beBytes 4 p.2.reserved) ++
    v.clientKeys.flatMap (fun p => beBytes 2 p.1 ++ beBytes 1 p.2.alg ++ p.2.pub) ++ v.chainRecord ++ v.pairKey ++ v.chainKey

/-- The chain value after a batch. -/
def vaultChainNext (prev body : Bytes) : Bytes := sha384B (prev ++ body)

/-- The chain value at the end of the batches read. -/
def vaultChain (l : List VaultBatch) : Bytes := l.foldl (fun c b => vaultChainNext c b.body) []

/-- Append a batch that seals `v`: its number and chain value go to the security die. -/
def appendBatch (s : State) (v : Vault) (fenceFlush : Bool) : State :=
  let n := s.vault.heldSeq + 1
  let (ct, tag) := gcmSeal s.ks.vaultKey (beBytes 12 n) (beBytes 8 n) v.bytes
  let body := beBytes 8 n ++ ct ++ tag
  let c := vaultChainNext s.vault.heldChain body
  { s with vault := { s.vault with batches := s.vault.batches ++ [{ seq := n, chain := c, body := body, fenceFlush := fenceFlush }],
                                   store := v, seq := n, heldSeq := n, heldChain := c } }

/-- Unpaired, a written batch makes the next block of every key that needs one durable (R262). -/
def reserveBlocks (s : State) : State :=
  let step := fun (p : Nat × Resident) =>
    (p.1, if p.2.kind = .key ∧ p.2.blockDue then { p.2 with reserved := min p.2.limit (p.2.reserved + useBlock p.2.limit) } else p.2)
  { s with ks := { s.ks with resident := s.ks.resident.map step } }

/-- The device behaves as unpaired for use reservations and the release of replies (R438). -/
def State.soleActive (s : State) : Bool :=
  !s.paired || !(s.pair.members.any (fun p => p.2.position == 1 && p.2.state == 1))

/-- Write the batch of the changes so far. -/
def writeBatch (s : State) (fenceFlush : Bool) : State :=
  let s1 := if s.soleActive then reserveBlocks s else s
  let s2 := appendBatch s1 s1.sealed fenceFlush
  { s2 with ks := { s2.ks with changes := 0, oldest := none } }

/-- VAULT_BATCH_WRITE (R267, R268). -/
def execVaultBatchWrite (s : State) : Host.Outcome State Fault Refusal :=
  if s.ks.unsealed ∧ 0 < s.ks.changes ∧ s.ks.vaultKey ≠ [] then .next (writeBatch s false) else .next s

/-- VAULT_OLD_BATCH_ERASE (R417): one batch of an old chain after another. -/
def execVaultOldBatchErase (s : State) : Host.Outcome State Fault Refusal :=
  .next { s with vault := { s.vault with old := s.vault.old.drop 1 } }

/-! ### Mask refresh and errors (R251, R252) -/

/-- The place of a cumulative unit number in the cache, bindings in the order of their resolution. -/
def cacheAt : Nat → List CacheBinding → Option CacheBinding
  | _, [] => none
  | u, b :: t => if u < b.units then some b else cacheAt (u - b.units) t

/-- Change both shares by the same difference. -/
def remask (a b m : Bytes) : Bytes × Bytes := (xorBytes a m, xorBytes b m)

def Resident.remask (r : Resident) (rnd : Bytes) : Resident :=
  if r.attr.isPublic then r else
  let m := Config.expandMask rnd r.shareA.length
  let (a, b) := Machine.remask r.shareA r.shareB (padTo r.shareA.length m)
  { r with shareA := a, shareB := b }

def CacheBinding.remask (r : CacheBinding) (rnd : Bytes) : CacheBinding :=
  if r.attr.isPublic then r else
  let m := Config.expandMask rnd r.shareA.length
  let (a, b) := Machine.remask r.shareA r.shareB (padTo r.shareA.length m)
  { r with shareA := a, shareB := b }

def SmkGen.remask (g : SmkGen) (rnd : Bytes) : SmkGen :=
  let m := Config.expandMask rnd g.shareA.length
  let (a, b) := Machine.remask g.shareA g.shareB (padTo g.shareA.length m)
  { g with shareA := a, shareB := b }

/-- Remask what lies at unit `u` of key SRAM: cache units first, then the resident store, whose units 0 to 8,207 hold the
SMKs (R253). -/
def remaskUnit (s : State) (u : Nat) (rnd : Bytes) : State :=
  if u < 131072 then
    match cacheAt u s.ks.cache with
    | none => s
    | some b => { s with ks := { s.ks with cache := s.ks.cache.map (fun c => if c = b then b.remask rnd else c) } }
  else
    let r := u - 131072
    if r < 8208 then
      let t := r / 16
      let j := r / 2 % 8
      let x := s.smkSlot t j
      s.putSmk t j (if r % 2 = 0 then { x with current := x.current.map (·.remask rnd) } else { x with pending := x.pending.map (·.remask rnd) })
    else
      let b := s.resident r
      if b.kind = .free then s else s.putResident r (b.remask rnd)

/-- MASK_REFRESH_STEP (R251). -/
def execMaskRefreshStep (s : State) : Host.Outcome State Fault Refusal :=
  if ¬ s.ks.refresh ∨ s.rng.state = .failed then .next s
  else
    let (rnd, s1) := s.random 16
    let s2 := remaskUnit s1 s.ks.refreshUnit rnd
    let u := (s.ks.refreshUnit + 1) % 196608
    .next { s2 with ks := { s2.ks with refreshUnit := u, passes := if u = 0 then min (2 ^ 32 - 1) (s2.ks.passes + 1) else s2.ks.passes } }

/-- The resident binding that covers a unit. -/
def State.residentAt (s : State) (unit : Nat) : Option Nat :=
  (s.ks.resident.find? (fun p => decide (p.2.kind ≠ .free ∧ p.1 ≤ unit ∧ unit < p.1 + p.2.units))).map (·.1)

/-- KEY_SRAM_ERROR (R252). -/
def execKeySramError (resident : Bool) (unit : Nat) (s : State) : Host.Outcome State Fault Refusal :=
  let s1 : State :=
    if resident then
      match s.residentAt unit with
      | none => s
      | some u => s.putResident u { s.resident u with reloading := true }
    else
      match cacheAt unit s.ks.cache with
      | none => s
      | some b => { s with ks := { s.ks with cache := s.ks.cache.erase b } }
  .next ((s1.ksEvent 2).raise evKeySramError srcKeyStore 0 (items [(1, bit resident), (4, unit)]))

/-- RESIDENT_RELOAD_COMPLETE (R252): the slot's key comes back from its vault record. A slot that has no vault record stays as
it is. -/
def execResidentReloadComplete (unit : Nat) (s : State) : Host.Outcome State Fault Refusal :=
  let r := s.resident unit
  let v := tabGet ({} : Resident) s.vault.store.resident unit
  if r.reloading ∧ v.kind ≠ .free then
    .next (s.putResident unit { r with shareA := v.shareA, shareB := v.shareB, reloading := false })
  else .next s

end Machine

end Sys2Proof
end

