-- ==== Sys2Proof/Machine/KeyFns.lean ====
section
/-! DEFINITION. The key-hierarchy functions (Table 9.9) and the colophon (R271). -/

namespace Sys2Proof

/-- SHA-384 of the security-die ROM and of the security-core firmware (Table 9.8). -/
opaque Config.romHash : BitVec 384
opaque Config.firmwareHash : BitVec 384

namespace Machine

/-! ### SMK functions (R253 to R255, R505) -/

/-- A byte with odd parity in its lowest bit. -/
def oddParity (x : Byte) : Byte :=
  let ones := ((List.range 7).filter (fun i => x.getLsbD (i + 1))).length
  (x &&& 0xFE) ||| (if ones % 2 = 0 then 1 else 0)

/-- The key that a command receives from its session's components (R367). -/
def Fn.assembledKey (i : Nat) (tdes : Bool) : Fn Bytes := do
  let s ← get
  let x := s.session i
  let k := s.assembled x
  Fn.need (!allZero k) stComponentInvalid
  let k1 := if tdes then k.map oddParity else k
  Fn.change (fun s => s.raise evKeyAssembled srcSecurity x.scope (items [(4, sessionId i x), (8, beNat (componentKcv k1))]))
  return k1

/-- SMK_REWRAP: the block's key under the generation that new blocks use, in the format it came in. -/
def smkRewrapFn (x : Slot) : Fn FnRes := do
  let p := x.payload
  let r := krefAt p 4
  Fn.need (payloadOk p 12 [] [4] && r.kind == 2) stFieldInvalid
  let h ← Fn.resolve x 4 (fun _ => true)
  let g ← Fn.producing x r.smk
  let f := (versionFormat (fld p r.at_ 1)).getD 0
  let b ← Fn.wrapSmk g f h.attr h.key 248
  Fn.done b

/-- The next generation of a slot, drawn or assembled, with the slot state that `need` asks for (R253, R505). -/
def smkNewFn (k : Nat) (x : Slot) (code : Nat) (need : SmkSlot → Bool) (mk : Nat → Nat → SmkGen → TickEffect) : Fn FnRes := do
  let p := x.payload
  let j := fld p 4 1
  let src := fld p 5 1
  Fn.need (layoutOk p 12 [(6, 2)] && decide (j ≤ 7 ∧ src ≤ 1)) stFieldInvalid
  let i ← Fn.auth k x code src (32 * src) 8
  let y ← Fn.st (fun s => s.smkArmed x.tenant j)
  Fn.need (need y) stSmkState
  Fn.need (decide (y.lastGen < 0xFFFF)) stSmkGenExhausted
  let key ← if src = 0 then Fn.draw 32 else Fn.assembledKey i false
  let m ← Fn.draw 32
  let g : SmkGen := { gen := y.lastGen + 1, shareA := m, shareB := xorBytes key m }
  Fn.armNow k (mk x.tenant j g)
  Fn.done (beBytes 2 g.gen ++ kcvOf { alg := 5 } key)

/-- SMK_CREATE. -/
def smkCreateFn (k : Nat) (x : Slot) : Fn FnRes :=
  smkNewFn k x 0x41 (fun y => y.current.isNone && y.pending.isNone) TickEffect.smkCreate
/-- SMK_ROTATE_BEGIN. -/
def smkRotateBeginFn (k : Nat) (x : Slot) : Fn FnRes :=
  smkNewFn k x 0x42 (fun y => y.current.isSome && y.pending.isNone) TickEffect.smkBegin

/-- The slot and state checks of the remaining SMK commands; what they answer with follows. -/
def smkChangeFn (k : Nat) (x : Slot) (code : Nat) (need : SmkSlot → Bool) (mk : Nat → Nat → TickEffect) : Fn SmkSlot := do
  let p := x.payload
  let j := fld p 4 1
  Fn.need (layoutOk p 12 [(5, 3)] && decide (j ≤ 7)) stFieldInvalid
  let _ ← Fn.auth k x code 0 0 8
  let y ← Fn.st (fun s => s.smkArmed x.tenant j)
  Fn.need (need y) stSmkState
  Fn.armNow k (mk x.tenant j)
  return y

/-- SMK_ROTATE_COMPLETE: the generation that becomes current. -/
def smkRotateCompleteFn (k : Nat) (x : Slot) : Fn FnRes := do
  let y ← smkChangeFn k x 0x43 (fun y => y.pending.isSome) TickEffect.smkComplete
  Fn.done (beBytes 2 ((y.pending.map (·.gen)).getD 0) ++ zeros 6)
/-- SMK_ROTATE_ABORT. -/
def smkRotateAbortFn (k : Nat) (x : Slot) : Fn FnRes := do
  let _ ← smkChangeFn k x 0x44 (fun y => y.pending.isSome) TickEffect.smkAbort
  Fn.done []
/-- SMK_INVALIDATE. -/
def smkInvalidateFn (k : Nat) (x : Slot) : Fn FnRes := do
  let _ ← smkChangeFn k x 0x45 (fun y => y.current.isSome) TickEffect.smkInvalidate
  Fn.done []

/-! ### Counter records and client keys (R240, R263, R269) -/

/-- COUNTER_CREATE. -/
def counterCreateFn (x : Slot) : Fn FnRes := do
  let p := x.payload
  let type := fld p 4 1
  let psn := fld p 5 1
  let digits := fld p 6 1
  Fn.need (layoutOk p 24 [(7, 1), (18, 2)] && decide (1 ≤ type ∧ type ≤ 3) &&
    (if type = 1 then decide (12 ≤ digits ∧ digits ≤ 19) else decide (psn = 0 ∧ digits = 0))) stFieldInvalid
  let u ← Fn.residentRun x.tenant 1
  let r : Resident := { kind := .counter, tenant := x.tenant, units := 1,
                        record := { type := type, psn := psn, digits := digits, id := slice p 8 10, s := fld p 20 4 } }
  Fn.done (beBytes 4 u ++ zeros 4) [.loadResident u r]

/-- CLIENT_KEY_SET. -/
def clientKeySetFn (k : Nat) (x : Slot) : Fn FnRes := do
  let p := x.payload
  let index := fld p 4 1
  let alg := fld p 5 1
  let plen := fld p 6 2
  let want := if alg = 0 then 0 else if alg = 1 then 97 else 1952
  Fn.need (layoutOk p (12 + plen) [] && decide (index ≤ 63 ∧ alg ≤ 2 ∧ plen = want)) stFieldInvalid
  let _ ← Fn.auth k x 0x47 0 0 8
  let pub := p.drop 12
  let qx := fld pub 1 48
  let qy := fld pub 49 48
  Fn.need (alg != 1 || (fld pub 0 1 == 4 && decide (qx < p384.p ∧ qy < p384.p) && p384.has qx qy)) stClientKeyInvalid
  let key : ClientKey := if alg = 0 then {} else { alg := alg, pub := pub, digest := sha384B pub }
  Fn.done [] [.arm (.clientKeySet x.tenant index key)]

/-! ### The colophon (R271, Table 9.8) -/

/-- The head of a CBOR item of major type `m` with argument `n`, in its shortest form. -/
def cborHead (m n : Nat) : Bytes :=
  if n < 24 then beBytes 1 (m * 32 + n)
  else if n < 2 ^ 8 then beBytes 1 (m * 32 + 24) ++ beBytes 1 n
  else if n < 2 ^ 16 then beBytes 1 (m * 32 + 25) ++ beBytes 2 n
  else if n < 2 ^ 32 then beBytes 1 (m * 32 + 26) ++ beBytes 4 n
  else beBytes 1 (m * 32 + 27) ++ beBytes 8 n

def cborUint (n : Nat) : Bytes := cborHead 0 n
/-- The negative integer −1 − n. -/
def cborNeg (n : Nat) : Bytes := cborHead 1 n
def cborBytes (b : Bytes) : Bytes := cborHead 2 b.length ++ b
def cborText (b : Bytes) : Bytes := cborHead 3 b.length ++ b
def cborArray (l : List Bytes) : Bytes := cborHead 4 l.length ++ l.flatten
def cborMap (l : List (Bytes × Bytes)) : Bytes := cborHead 5 l.length ++ l.flatMap (fun p => p.1 ++ p.2)
def cborBool (b : Bool) : Bytes := if b then [0xF5] else [0xF4]
def cborNull : Bytes := [0xF6]

/-- The tenants with an unsealed store: those that hold an SMK, a resident binding or a client key. T0's client keys come from
the image (R269). -/
def State.unsealedTenants (s : State) : Nat :=
  if ¬ s.ks.unsealed then 0
  else
    let holds := fun (t : Nat) =>
      s.ks.smk.any (fun p => p.1 / 8 == t && (p.2.current.isSome || p.2.pending.isSome)) ||
        s.ks.resident.any (fun p => p.2.tenant == t && p.2.kind != .free) ||
        (t != 0 && s.ks.clientKeys.any (fun p => p.1 / 64 == t))
    ((List.range 513).filter holds).length

/-- The current generation of an SMK slot in effect at tick `a`: the lowest one open. -/
def SmkSlot.currentAt (x : SmkSlot) (a : Nat) : Option SmkGen := minBy (·.gen) (x.openAt a)

/-- The entry of an SMK slot in a tenant's colophon. -/
def smkEntry (x : SmkSlot) (a : Nat) : Bytes :=
  match x.currentAt a with
  | none => cborNull
  | some g => cborArray [cborUint g.gen, cborBytes ((kcvOf { alg := 5 } g.key).take 5)]

/-- The colophon map for tick `a`; with a tenant, keys 14 and 15 too. -/
def colophonMap (s : State) (a : Nat) (nonce : Bytes) (tenant : Option Nat) : Bytes :=
  let base : List (Bytes × Bytes) :=
    [(cborUint 1, cborUint Config.serial.toNat), (cborUint 2, cborBytes s.idHash), (cborUint 3, cborUint 0xB0),
     (cborUint 4, cborUint s.lc.state.code), (cborUint 5, cborBytes (beBytes 48 Config.romHash.toNat)),
     (cborUint 6, cborBytes (beBytes 48 Config.firmwareHash.toNat)), (cborUint 7, cborBytes s.boot.imgHash),
     (cborUint 8, cborArray ((List.range 16).map (fun b => cborBytes (tabGet [] s.cores.library.hashes b)))),
     (cborUint 9, cborBool s.tmp.latch), (cborUint 10, cborBool s.lc.dbg.active),
     (cborUint 11, cborUint s.unsealedTenants), (cborUint 12, cborUint (a * 65536)), (cborUint 13, cborBytes nonce)]
  match tenant with
  | none => cborMap base
  | some t => cborMap (base ++ [(cborUint 14, cborUint t),
      (cborUint 15, cborArray ((List.range 8).map (fun j => smkEntry (s.smkSlot t j) a)))])

/-- The protected header: alg ES384 and kid ATTEST_ID. -/
def colophonProtected (s : State) : Bytes := cborMap [(cborUint 1, cborNeg 34), (cborUint 4, cborBytes s.ks.attestId)]

/-- The COSE Sig_structure of a payload. -/
def sigStructure (header payload : Bytes) : Bytes :=
  cborArray [cborText (ascii "Signature1"), cborBytes header, cborBytes [], cborBytes payload]

/-- A COSE_Sign1 of a payload with both signatures. -/
def Fn.coseSign (payload : Bytes) : Fn Bytes := do
  let s ← get
  let header := colophonProtected s
  let tbs := sigStructure header payload
  let ec ← Fn.ecdsaSign p384 (beNat s.ks.akEc) (sha384B tbs)
  let pq ← Fn.mlDsaSign s.ks.akPq [] tbs
  return cborArray [cborBytes header, cborMap [(cborNeg 65536, cborBytes pq)], cborBytes payload, cborBytes ec]

/-- A colophon. -/
def Fn.colophon (a : Nat) (nonce : Bytes) (tenant : Option Nat) : Fn Bytes := do
  Fn.coseSign (colophonMap (← get) a nonce tenant)

/-- The result of a colophon function. -/
def colophonResult (x : Slot) (c : Bytes) : Fn FnRes :=
  Fn.done (beBytes 2 c.length ++ zeros 6 ++ c)
    [.eventOnCommit evColophonIssued srcSecurity x.tenant (items [(2, x.tenant), (8, x.admitTick * 65536)])]

/-- COLOPHON. -/
def colophonFn (x : Slot) : Fn FnRes := do
  let p := x.payload
  let n := fld p 4 1
  Fn.need (layoutOk p (8 + n) [(5, 3)] && decide (16 ≤ n ∧ n ≤ 64)) stFieldInvalid
  let c ← Fn.colophon x.admitTick (p.drop 8) none
  colophonResult x c

/-- COLOPHON_TENANT. -/
def colophonTenantFn (x : Slot) : Fn FnRes := do
  let p := x.payload
  let t := fld p 4 2
  let n := fld p 6 1
  Fn.need (layoutOk p (8 + n) [(7, 1)] && decide (16 ≤ n ∧ n ≤ 64 ∧ t ≤ 512) && (x.tenant == 0 || t == x.tenant)) stFieldInvalid
  let c ← Fn.colophon x.admitTick (p.drop 8) (some t)
  colophonResult x c

/-- CERTIFICATES (R270). -/
def certificatesFn (x : Slot) : Fn FnRes := do
  Fn.need (layoutOk x.payload 4 []) stFieldInvalid
  let s ← get
  let c := (List.range 3).map (fun i => tabGet [] s.ks.certs i)
  Fn.done (c.flatMap (fun b => beBytes 2 b.length) ++ zeros 2 ++ c.flatten)

end Machine

end Sys2Proof
end

