-- ==== Sys2Proof/Machine/Pair.lean ====
section
/-! DEFINITION. The journal chain (chapter 17): the chain record, member channels, journal batches and snapshots, what a
standby keeps, and takeover. -/

namespace Sys2Proof.Machine

def State.pairCnt (s : State) (k n : Nat) : State := { s with pair := { s.pair with counters := bump s.pair.counters k n } }
def State.pairEvent (s : State) (b : Nat) : State :=
  { s with pair := { s.pair with events := s.pair.events ||| BitVec.ofNat 5 (2 ^ b) } }

/-! ### The chain record (R431, R432, R439, Table 17.1) -/

/-- Member j of a chain record; what the device knows of the same member beside the record stays. -/
def memberOf (s : State) (b : Bytes) (j : Nat) : Member :=
  let o := 8 + 64 * j
  let old := s.member j
  let m : Member := { serial := fld b o 8, position := fld b (o + 8) 1, state := fld b (o + 9) 1, idHash := slice b (o + 16) 48 }
  if m.state = 0 then {}
  else if old.serial = m.serial ∧ old.idHash = m.idHash then { old with position := m.position, state := m.state }
  else { m with keys := tabGet [] s.vault.store.memberKeys j }

/-- The client keys 56 to 63 of T0 follow the record (R439). -/
def memberClientKeys (s : State) : State :=
  let put := fun (t : List (Nat × ClientKey)) (j : Nat) =>
    let m := s.member j
    tabPut {} t (56 + j) (if s.paired ∧ m.state ≠ 0 then { alg := 1, pub := m.keys.take 97, digest := m.idHash } else {})
  { s with ks := { s.ks with clientKeys := (List.range 8).foldl put s.ks.clientKeys } }

/-- The channels that the device opened as client close without a word (R439: they are reopened). -/
def dropMemberChannels (s : State) : State :=
  { s with srp := { s.srp with channels := s.srp.channels.filter (fun p => decide (p.2.member = none)) } }

/-- The logical port of a path: 0 Port A, 1 Port B. -/
def State.memberPort (s : State) (path : Nat) : Nat := if path = 0 then s.pair.memberA else s.pair.memberB

/-- The key in the channel table of the device's own member channel to a record slot on a path. -/
def memberChan (j path : Nat) : Nat := 32768 + 2 * j + path

/-- HS1 of a member channel to record slot `j` (R439, Table 3.7). The handshake identifier is 2j + path; the member's
addresses are not in the spec. -/
def openMemberChannel (s : State) (j path : Nat) : State :=
  let (rnd, s1) := s.random (32 + 48 + 64)
  let nonce := rnd.take 32
  let eph := slice rnd 32 48
  let seed := rnd.drop 80
  let body := nonce ++ [4] ++ public384 eph ++ beBytes 1 (56 + s.pair.slot) ++ [1, 0] ++ padTo 1184 (mlKemPublic seed)
  let hs1 := srpHeader 3 false 0 0 0 (2 * j + path) [] ++ body
  let i := s.memberPort path
  let c : Channel := { state := .pending, phys := path, lport := i, member := some j, clientKey := 56 + s.pair.slot, authAlg := 1,
                       hs1 := hs1, prk := eph ++ seed, admitted := some s.folio.now }
  let s2 := s1.putChan (memberChan j path) c
  if (s.port i).link then s2.transmit i { bytes := hs1, dst := {} } else s2

/-- Member channels to every member behind (R439). -/
def openMemberChannels (s : State) : State :=
  let own := s.position
  let behind := (List.range 8).filter (fun j => decide ((s.member j).state ≠ 0 ∧ own < (s.member j).position ∧ j ≠ s.pair.slot))
  if s.paired then behind.foldl (fun s j => openMemberChannel (openMemberChannel s j 0) j 1) s else s

/-- A member that keeps its stores sealed seals what pairing changes at once (R432). -/
def sealPairing (s : State) : State :=
  if s.ks.unsealed then s
  else
    let keys := (s.pair.members.map (fun p => (p.1, p.2.keys))).filter (fun p => p.2 != [])
    { s with vault := { s.vault with store := { s.vault.store with
        chainRecord := if s.paired then s.chainRecord else [], pairKey := s.pair.pairKey, chainKey := s.pair.chainKey,
        memberKeys := keys } } }

/-- A chain record takes effect (R431): with MEMBERS 1 the device is unpaired. -/
def setRecord (s : State) (b : Bytes) : State :=
  let n := fld b 4 1
  let ms := ((List.range 8).map (fun j => (j, memberOf s b j))).filter (fun p => p.2 != {})
  let own := ms.find? (fun p => decide (p.2.serial = Config.serial.toNat))
  let p1 : Pair := { s.pair with epoch := fld b 0 4 }
  let p2 : Pair := match own with
    | some (j, _) => if 2 ≤ n then { p1 with members := ms, count := n, slot := j } else { p1 with members := [], count := 0, slot := 0 }
    | none => { p1 with members := [], count := 0, slot := 0 }
  sealPairing (memberClientKeys (dropMemberChannels { s with pair := p2 }))

/-- The device changes the record: EPOCH + 1, sealed and journalled (R431). -/
def changeRecord (s : State) (count : Nat) (m : Nat → Member) : State :=
  let b := chainRecordBytes (s.pair.epoch + 1) count m
  openMemberChannels ((setRecord s b).journal 8 b)

/-- The record without one position: those behind it move up. -/
def withoutPosition (s : State) (pos : Nat) (j : Nat) : Member :=
  let m := s.member j
  if m.state = 0 ∨ m.position = pos then {} else if pos < m.position then { m with position := m.position - 1 } else m

/-- A member's STATE changes without a change of membership or position: journalled under the same epoch (R438). -/
def markInChain (s : State) (j : Nat) : State :=
  let s1 := s.putMember j { s.member j with state := 1 }
  s1.journal 8 s1.chainRecord

/-! ### Requests on member channels (R439, R440, R443) -/

/-- Wire bytes of a member request with a payload of `n` bytes. -/
def State.memberWire (s : State) (path n : Nat) : Nat := s.udpFrameLen (s.memberPort path) {} (48 + pad8 n) + 20

/-- Send one request record on the own member channel to slot `j` over a path, if it is OPEN. -/
def sendMember (s : State) (j path func : Nat) (payload : Bytes) : State :=
  let c := memberChan j path
  if (s.chan c).state = .open then
    let rest := beBytes 2 (s.pair.journalQueue * 16) ++ beBytes 2 func ++ zeros 6 ++ beBytes 2 payload.length ++ zeros 4
    s.sendOn c (s.memberPort path) {} 1 false 1 rest (padTo (pad8 payload.length) payload) [] false
  else s

/-- Over both paths. -/
def sendBoth (s : State) (j func : Nat) (payload : Bytes) : State := sendMember (sendMember s j 0 func payload) j 1 func payload

/-- HELD of this device (R440): the active holds every batch of the folios that have ended. -/
def State.heldOwn (s : State) : Nat :=
  if s.position = 0 then folioAdd s.folio.now (2 ^ 48 - 1) else s.vault.heldFolio

/-- The lag bound of position k (R445): H + A × (k − 1). -/
def State.lagBound (s : State) (k : Nat) : Nat := s.pair.horizon + s.pair.hop * (k - 1)

/-- A joiner has caught up (R438). -/
def State.caughtUp (s : State) : Bool :=
  decide (0 < s.vault.heldFolio ∧ folioDiff s.folio.now s.vault.heldFolio ≤ s.lagBound s.position)

/-- The heartbeat fields of this device (Table 17.3). -/
def State.heartbeatBytes (s : State) : Bytes :=
  let st := (s.member s.pair.slot).state
  beBytes 4 s.pair.epoch ++ beBytes 1 s.pair.slot ++ beBytes 1 (if st = 2 ∧ s.caughtUp then 1 else st) ++ zeros 2 ++
    beBytes 6 s.heldOwn ++ zeros 2

/-- Members behind this device. -/
def State.membersBehind (s : State) : List Nat :=
  (List.range 8).filter (fun j => decide ((s.member j).state ≠ 0 ∧ s.position < (s.member j).position))

/-- Heartbeats on both channels to every member behind (R440). -/
def heartbeats (s : State) : State :=
  let p := [1, 0, 0, 0] ++ s.heartbeatBytes
  s.membersBehind.foldl (fun s j => sendBoth s j 0xA9 p) s

/-! ### Batches (R442 to R445) -/

/-- The nonce of an encrypted record. -/
def journalNonce (g epoch part index : Nat) : Bytes :=
  beBytes 6 g ++ beBytes 2 (epoch % 65536) ++ beBytes 1 part ++ beBytes 2 index ++ [0]

/-- Length of a record in a batch. -/
def recordLength (r : Nat × Bytes) : Nat := 4 + r.2.length + (if r.1 = 1 ∨ r.1 = 4 then 16 else 0)

/-- A journal record as a batch carries it: kinds 1 and 4 encrypted under the chain key with their header as additional
data (R442). -/
def journalRecord (key : Bytes) (g epoch part index : Nat) (r : Nat × Bytes) : Bytes :=
  let h := beBytes 1 r.1 ++ [0] ++ beBytes 2 (recordLength r - 4)
  if r.1 = 1 ∨ r.1 = 4 then
    let (ct, tag) := gcmSeal key (journalNonce g epoch part index) h r.2
    h ++ ct ++ tag
  else h ++ r.2

/-- Records cut into parts of at most `most` bytes. -/
def partsOf (most : Nat) : List (Nat × Bytes) → List (Nat × Bytes) → Nat → List (List (Nat × Bytes))
  | [], cur, _ => [cur]
  | r :: t, cur, n =>
    if cur ≠ [] ∧ most < n + recordLength r then cur :: partsOf most t [r] (recordLength r)
    else partsOf most t (cur ++ [r]) (n + recordLength r)

/-- Payload bytes of a part that records may take: 8,192 less the prologue and the 16 bytes before the records. -/
abbrev partRoom : Nat := 8172

/-- The payload of one part. -/
def partPayload (key : Bytes) (epoch g part parts : Nat) (rs : List (Nat × Bytes)) : Bytes :=
  [1, 0, 0, 0] ++ beBytes 4 epoch ++ beBytes 6 g ++ beBytes 1 part ++ beBytes 1 parts ++ beBytes 2 rs.length ++ zeros 2 ++
    (rs.zipIdx.flatMap (fun p => journalRecord key g epoch part p.2 p.1))

/-- Wire bytes of a batch of records on one path. -/
def State.batchWire (s : State) (rs : List (Nat × Bytes)) : Nat :=
  ((partsOf partRoom rs [] 0).map (fun p => s.memberWire 0 (20 + (p.map recordLength).sum))).sum

/-- Wire bytes of a folio's heartbeats on one path. -/
def State.heartbeatWire (s : State) : Nat := s.membersBehind.length * s.memberWire 0 20

/-- How many of the records fit the batch: at most 16 parts, within J_E beside the heartbeats (R443). -/
def State.fitting (s : State) (rs : List (Nat × Bytes)) : Nat :=
  ((List.range rs.length).reverse.map (· + 1)).find? (fun n =>
    decide ((partsOf partRoom (rs.take n) [] 0).length ≤ 16 ∧ s.batchWire (rs.take n) + s.heartbeatWire ≤ s.pair.budget)) |>.getD 0

/-- Keep a part with those of the last 4,096 folios (R445). -/
def keepPart (s : State) (b : BatchPart) : State :=
  let recent := s.pair.parts.filter (fun p => decide (folioDiff b.folio p.folio < 4096 ∨ folioDiff p.folio b.folio < 4096))
  { s with pair := { s.pair with parts := recent ++ [b] } }

/-- The reservations of the active (R447): one new block for each key that is due and has none under way. -/
def reserveForChain (s : State) (g : Nat) : State :=
  s.ks.resident.foldl (fun s p =>
    let r := p.2
    if r.kind = .key ∧ r.blockDue ∧ ¬ s.pair.sent.any (fun q => decide (q.2.1 = p.1)) then
      let u := min r.limit (r.reserved + useBlock r.limit)
      { s with pair := { s.pair with records := s.pair.records ++ [(2, beBytes 2 p.1 ++ beBytes 4 u)],
                                     sent := s.pair.sent ++ [(g, p.1, u)] } }
    else s) s

/-- The active sends batch g at the tick that begins the next folio (R443). -/
def sendBatch (s : State) (g : Nat) : State :=
  match s.slotAt 1 with
  | none => { s with pair := { s.pair with records := [] } }
  | some j =>
    let s1 := if s.soleActive then s else reserveForChain s g
    let rs := s1.pair.records
    let n := s1.fitting rs
    let later := rs.length - n
    let parts := partsOf partRoom (rs.take n) [] 0
    let s2 := { s1 with pair := { s1.pair with records := rs.drop n } }
    let s3 := parts.zipIdx.foldl (fun s p =>
      let b := partPayload s.pair.chainKey s.pair.epoch g p.2 parts.length p.1
      sendBoth (keepPart s { folio := g, part := p.2, parts := parts.length, records := b }) j 0xA8 b) s2
    let s4 := (s3.pairCnt 0 1).pairCnt 3 n
    if later = 0 then s4
    else
      -- reservations of the moved records belong to the next batch
      let sent := s4.pair.sent.map (fun q => if q.1 = g ∧ (rs.drop n).any (fun r => decide (r = (2, beBytes 2 q.2.1 ++ beBytes 4 q.2.2)))
        then (folioAdd g 1, q.2) else q)
      ({ s4 with pair := { s4.pair with sent := sent } }.pairEvent 3).raise evBudgetFull (srcCc 0) 0 (items [(8, g), (4, later)])

/-- The records of a part, clear; a record whose tag fails ends the list. -/
def readRecords (key : Bytes) (g epoch part : Nat) : Nat → Nat → Bytes → List (Nat × Bytes)
  | 0, _, _ => []
  | n + 1, i, b =>
    let kind := fld b 0 1
    let len := fld b 2 2
    let body := slice b 4 len
    let rest := readRecords key g epoch part n (i + 1) (b.drop (4 + len))
    if kind = 1 ∨ kind = 4 then
      match gcmOpen key (journalNonce g epoch part i) (b.take 4) (body.take (len - 16)) (body.drop (len - 16)) with
      | some p => (kind, p) :: rest
      | none => []
    else (kind, body) :: rest

/-- The clear records of a part. -/
def BatchPart.clear (p : BatchPart) (key : Bytes) : List (Nat × Bytes) :=
  readRecords key p.folio (fld p.records 4 4) p.part (fld p.records 16 2) 0 (p.records.drop 20)

/-! ### What a standby keeps (R446) -/

/-- Apply a journal record to the sealed stores (Table 17.5); `g` is its folio. -/
def vaultApply (v : Vault) (g : Nat) (r : Nat × Bytes) : Vault :=
  let b := r.2
  match r.1 with
  | 1 =>
    let (slot, x) := residentOf b
    let y : Resident := if x.kind = .retiring then { slotGen := x.slotGen } else { x with reserved := x.uses }
    { v with resident := tabPut {} v.resident slot y }
  | 2 => { v with resident := tabMod {} v.resident (fld b 0 2) (fun x => { x with reserved := fld b 2 4 }) }
  | 3 => { v with resident := tabMod {} v.resident (fld b 0 2) (fun x => { x with record := { x.record with s := fld b 2 4 } }) }
  | 4 =>
    let t := fld b 0 2
    let j := fld b 2 1
    let n := (b.length - 6) / 2
    let y : SmkGen := { gen := fld b 3 2, shareA := slice b 6 n, shareB := slice b (6 + n) n }
    let e : TickEffect := match fld b 5 1 with
      | 1 => .smkCreate t j y
      | 2 => .smkBegin t j y
      | 3 => .smkComplete t j
      | 4 => .smkAbort t j
      | _ => .smkInvalidate t j
    { v with smk := tabMod {} v.smk (8 * t + j) (fun x => { smkAfter t j (folioAdd g 1) x e with retiring := [] }) }
  | 5 =>
    let pub := b.drop 4
    let k : ClientKey := if fld b 3 1 = 0 then {} else { alg := fld b 3 1, pub := pub, digest := sha384B pub }
    { v with clientKeys := tabPut {} v.clientKeys (64 * fld b 0 2 + fld b 2 1) k }
  | 7 => { v with config := v.config ++ [b] }
  | _ => v

/-- Consolidate the oldest appended batch. -/
def consolidateOldest (s : State) : State :=
  match s.vault.log with
  | [] => s
  | (g, rs) :: t => { s with vault := { s.vault with store := rs.foldl (fun v r => vaultApply v g r) s.vault.store, log := t } }

/-- A registry record (kind 6), applied where the registry lies (R363): an entry of 128 bytes (Table 13.2), or scope, role and M
of a quorum. An entry replaces the one of the same serial, else it takes the lowest free place. -/
def applyRegistry (s : State) (b : Bytes) : State :=
  if b.length = 4 then { s with dual := { s.dual with quorums := tabPut 0 s.dual.quorums (4 * fld b 0 2 + fld b 2 1) (fld b 3 1) } }
  else
    let st : CardState := match fld b 11 1 with
      | 1 => .active | 2 => .warned | 3 => .exhausted | 4 => .revoked | _ => .free
    let c : Card := { state := st, serial := fld b 0 8, scope := fld b 8 2, role := fld b 10 1, usesLeft := fld b 12 4,
                      notBefore := fld b 16 8, notAfter := fld b 24 8, pub := slice b 32 96 }
    match (s.cardOf c.serial).orElse (fun _ => s.freeCard) with
    | none => s
    | some e => s.putCard e (if st = .free then {} else c)

/-- Append a complete batch; registry and chain records apply at once. -/
def appendJournal (s : State) (g : Nat) (rs : List (Nat × Bytes)) : State :=
  let s1 := if 256 ≤ s.vault.log.length then consolidateOldest s else s
  let s2 := { s1 with vault := { s1.vault with log := s1.vault.log ++ [(g, rs)], heldFolio := g } }.pairCnt 1 1
  let s3 := rs.foldl (fun s r => if r.1 = 6 then applyRegistry s r.2 else s) s2
  match (rs.filter (fun r => r.1 == 8)).getLast? with
  | some r => if fld r.2 0 4 ≥ s.pair.epoch ∧ fld r.2 0 4 ≠ 0 then openMemberChannels (setRecord s3 r.2) else s3
  | none => s3

/-- Append every batch that is complete and next in order; `fuel` bounds how many. -/
def appendComplete : Nat → State → State
  | 0, s => s
  | n + 1, s =>
    let g := folioAdd s.vault.heldFolio 1
    let ps := sortBy (fun (p : BatchPart) => p.part) (s.pair.parts.filter (fun p => decide (p.folio = g)))
    match ps with
    | [] => s
    | p :: _ =>
      if ps.length = p.parts then
        let rs := ps.flatMap (fun p => p.clear s.pair.chainKey)
        let s1 := appendJournal s g rs
        let s2 := if rs.any (fun r => r.1 == 9) ∧ s1.pair.takeover = none ∧ s.position = 1 then
            { s1 with pair := { s1.pair with handover := some s1.folio.now } } else s1
        appendComplete n s2
      else s

/-- The number of folios whose batches are still missing between what is held and the newest part. -/
def State.folioGap (s : State) : Nat := min 4096 ((s.pair.parts.map (·.folio)).eraseDups.length)

/-- Send a member the retained parts that it lacks (R445). -/
def resend (s : State) (j held : Nat) : State :=
  let todo := s.pair.parts.filter (fun p => decide (folioDiff p.folio held < 2 ^ 47 ∧ p.folio ≠ held))
  todo.foldl (fun s p => sendBoth s j 0xA8 p.records) s

/-! ### Snapshots (R438) -/

/-- What this device holds of the tenants' state: its own on the active, stores and appended batches on a standby. -/
def State.journalled (s : State) : Vault :=
  if s.dev.state = .service then s.sealed
  else s.vault.log.foldl (fun v p => p.2.foldl (fun v r => vaultApply v p.1 r) v) s.vault.store

/-- Every journalled state as records. -/
def snapshotRecords (s : State) : List (Nat × Bytes) :=
  let v := s.journalled
  (v.smk.flatMap (fun p =>
      (p.2.current.toList.map (fun g => (4, smkBody (p.1 / 8) (p.1 % 8) 1 (some g)))) ++
      (p.2.pending.toList.map (fun g => (4, smkBody (p.1 / 8) (p.1 % 8) 2 (some g)))))) ++
    (v.resident.flatMap (fun p => [(1, residentBody p.1 p.2)] ++
      (if p.2.useLimited then [(2, beBytes 2 p.1 ++ beBytes 4 p.2.reserved)] else []))) ++
    (v.clientKeys.map (fun p => (5, beBytes 2 (p.1 / 64) ++ beBytes 1 (p.1 % 64) ++ beBytes 1 p.2.alg ++ p.2.pub))) ++
    (s.dual.cards.map (fun p => (6, cardBytes p.2))) ++
    (s.dual.quorums.map (fun p => (6, beBytes 2 (p.1 / 4) ++ beBytes 1 (p.1 % 4) ++ beBytes 1 p.2))) ++
    (v.config.map (fun b => (7, b))) ++ [(8, s.chainRecord)]

/-- The bytes of a snapshot as of folio f0: f0, the number of records, the members' public keys, the records, the chain key
under the pair key. -/
def snapshotBytes (s : State) (f0 : Nat) : Bytes :=
  let rs := snapshotRecords s
  let (ct, tag) := gcmSeal s.pair.pairKey (journalNonce f0 s.pair.epoch 0xFF 0xFFFF) [] s.pair.chainKey
  beBytes 6 f0 ++ beBytes 4 s.pair.epoch ++ beBytes 4 rs.length ++ (List.range 8).flatMap (fun j => padTo 2146 (s.member j).keys) ++ ct ++ tag ++
    rs.zipIdx.flatMap (fun p => journalRecord s.pair.chainKey f0 s.pair.epoch 0xFF p.2 p.1)

/-- Begin a snapshot for record slot `j`: its parts wait to be sent within the budget. -/
def beginSnapshot (s : State) (j : Nat) : State :=
  let f0 := s.heldOwn
  let data := chunks 2048 (snapshotBytes s f0)
  let parts := data.zipIdx.map (fun p => (p.2, p.1))
  { s with pair := { s.pair with snapOut := parts, snapTotal := parts.length, snapTo := j } }.raise evSnapshotBegun (srcCc 0) 0
    (items [(8, f0), (4, parts.length)])

/-- One part of a snapshot leaves at a tick, where the budget has room beside `used` wire bytes. -/
def sendSnapshotPart (s : State) (used : Nat) : State :=
  match s.pair.snapOut with
  | [] => s
  | (n, d) :: t =>
    let p := [1, 0, 0, 0] ++ beBytes 4 n ++ beBytes 4 s.pair.snapTotal ++ d
    let open_ := fun (path : Nat) => decide ((s.chan (memberChan s.pair.snapTo path)).state = .open)
    if (open_ 0 || open_ 1) ∧ used + s.memberWire 0 p.length ≤ s.pair.budget then
      (sendBoth { s with pair := { s.pair with snapOut := t } } s.pair.snapTo 0xAA p).pairCnt 6 1
    else s

/-- A joiner takes a complete snapshot in. -/
def takeSnapshot (s : State) (b : Bytes) : State :=
  let f0 := fld b 0 6
  let epoch := fld b 6 4
  let n := fld b 10 4
  let o := 14 + 8 * 2146
  match gcmOpen s.pair.pairKey (journalNonce f0 epoch 0xFF 0xFFFF) [] (slice b o 32) (slice b (o + 32) 16) with
  | none => s
  | some key =>
    let keys := ((List.range 8).map (fun j => (j, slice b (14 + 2146 * j) 2146))).filter (fun p => !allZero p.2)
    let rs := readRecords key f0 epoch 0xFF n 0 (b.drop (o + 48))
    let v0 : Vault := { chainRecord := s.vault.store.chainRecord, pairKey := s.pair.pairKey, chainKey := key, memberKeys := keys }
    let v := rs.foldl (fun v r => vaultApply v f0 r) v0
    let s1 := { s with vault := { s.vault with store := v, log := [], heldFolio := f0 }, pair := { s.pair with chainKey := key } }
    let s2 := rs.foldl (fun s r => if r.1 = 6 then applyRegistry s r.2 else s) s1
    match (rs.filter (fun r => r.1 == 8)).getLast? with
    | some r => setRecord s2 r.2
    | none => s2

/-! ### Silence (R445, R448, R449, Table 17.8) -/

/-- Something arrived from record slot `j` on a path. -/
def heardFrom (s : State) (j path : Nat) : State :=
  if (s.member j).state = 0 then s
  else s.putMember j (if path = 0 then { s.member j with silentA := 0 } else { s.member j with silentB := 0 })

/-- One more folio without anything from each other member: at 8 on one path event 0xD3. -/
def countSilence (s : State) : State :=
  (List.range 8).foldl (fun s j =>
    let m := s.member j
    if m.state = 0 ∨ j = s.pair.slot then s
    else
      let s1 := s.putMember j { m with silentA := min 0xFFFF (m.silentA + 1), silentB := min 0xFFFF (m.silentB + 1) }
      let lost := fun (s : State) (path : Nat) => (s.pairEvent 0).raise evPathLost (srcCc 0) 0 (items [(1, j), (1, path)])
      let s2 := if m.silentA + 1 = 8 then lost s1 0 else s1
      if m.silentB + 1 = 8 then lost s2 1 else s2) s

/-- The fence timer runs: a confirmed active whose position 1 is IN_CHAIN (R438, R449). -/
def State.fenceArmed (s : State) : Bool :=
  s.paired && decide (s.dev.state = .service ∧ s.position = 0) && s.pair.confirmed && !s.soleActive

/-- The counts of R448 and R449, and the lag event of R445. -/
def countJournal (s : State) : State :=
  let p := s.pair
  let s1 := { s with pair := { p with ackSilence := if s.fenceArmed then min 0xFFFF (p.ackSilence + 1) else 0,
                                      aheadSilence := if s.dev.state = .standby ∧ p.timer then min 0xFFFF (p.aheadSilence + 1) else 0 } }
  let k := s.position
  let lag := folioDiff s.folio.now s.vault.heldFolio
  if s.dev.state = .standby ∧ 1 ≤ k ∧ (s.member p.slot).state = 1 ∧ s.lagBound k < lag ∧ p.lagSecond ≠ some s.second then
    ({ s1 with pair := { s1.pair with lagSecond := some s.second } }.pairEvent 2).raise evJournalLag (srcCc 0) 0
      (items [(1, p.slot), (4, lag)])
  else s1

/-! ### Takeover (R447, R449, R450) -/

/-- Declare takeover: 0 silence, 1 handover, 2 command. -/
def declareTakeover (s : State) (cause : Nat) : State :=
  if s.pair.takeover.isSome ∨ s.dev.state ≠ .standby ∨ (s.member s.pair.slot).state ≠ 1 then s
  else
    { s with pair := { s.pair with takeover := some (s.folio.now, cause) } }.raise evTakeoverDeclared (srcCc 0) 0
      (items [(1, cause), (4, s.pair.epoch)])

/-- A use-limited key's USES at a takeover from position k (R447). -/
def advanceUses (hop k : Nat) (r : Resident) : Resident :=
  if r.kind = .key ∧ r.useLimited ∧ ¬ r.resetExpiry then
    let u := if k ≤ 1 then r.reserved else min r.limit (r.reserved + hop * (k - 1) * useBlock r.limit)
    { r with uses := u, reserved := u }
  else r

/-- A CONFIG record: group, effective folio, and its committed values. -/
def configBody (g folio : Nat) (vals : List (Nat × Nat)) : Bytes :=
  beBytes 1 g ++ beBytes 6 folio ++ vals.flatMap (fun p => beBytes 4 p.1 ++ beBytes 4 p.2)
def configOf (b : Bytes) : Nat × Nat × List (Nat × Nat) :=
  (fld b 0 1, fld b 1 6, (chunks 8 (b.drop 7)).map (fun c => (fld c 0 4, fld c 4 4)))

/-- A CONFIG record over the values of the image (R450 step 3). -/
def replayConfig (s : State) (b : Bytes) : State :=
  let (g, f, vals) := configOf b
  let shared := decide (s.folio.sync ≠ .free ∧ s.folio.sync ≠ .unaligned)
  if shared ∧ ¬ folioReached s.folio.now f then
    let s1 := s.putGroup g { s.group g with state := .armed, folio := f, staged := vals, writes := vals.length }
    { s1 with folio := { s1.folio with effects := s1.folio.effects ++ [{ folio := some f, slot := none, effect := .commitGroup g }] } }
  else { s with adm := { s.adm with st := vals.foldl (fun t p => stWrite t p.1 p.2) s.adm.st } }

/-- Gratuitous announcements of the service addresses, three times (R450 step 6). -/
def announceService (s : State) : State :=
  let one := fun (s : State) => s.ports.foldl (fun s p =>
    let c := p.2.cfg
    let a4 := c.ipv4.filter (fun e => c.service4.contains e.1 && e.2 != 0)
    let a6 := c.ipv6.filter (fun e => c.service6.contains e.1 && e.2 != 0)
    if ¬ p.2.link then s
    else
      let s1 := a4.foldl (fun s e => s.transmit p.1 { bytes := arpPacket 1 c.mac e.2 0 e.2, dst := { mac := 2 ^ 48 - 1 } }) s
      a6.foldl (fun s e => s.transmit p.1 { bytes := ndPacket 136 e.2 c.mac, dst := { v6 := true } }) s1) s
  one (one (one s))

/-- The device takes over (R450): positions, stores and appended batches, configuration, use counters, districts, service
addresses, SERVICE. -/
def performTakeover (s : State) (declared : Nat) : State :=
  let k := s.position
  let batches := s.vault.log.length
  let moved := fun (j : Nat) =>
    let m := s.member j
    if m.state = 0 ∨ m.position < k then ({} : Member) else { m with position := m.position - k }
  let v := s.journalled
  let old := { s.vault with store := v, log := [] }
  let ks := { s.ks with smk := v.smk, resident := v.resident.map (fun p => (p.1, advanceUses s.pair.hop k p.2)),
                        clientKeys := v.clientKeys, unsealed := true, refresh := true }
  let advanced := (v.resident.filter (fun p => decide (p.2.kind = .key ∧ p.2.useLimited ∧ ¬ p.2.resetExpiry))).length
  let s1 := { s with vault := old, ks := ks, pair := { s.pair with takeover := none, handover := none, timer := false, aheadSilence := 0,
                                                                   ackSilence := 0, confirmed := true, records := [], sent := [] } }
  let s2 := (s1.enter .service).pairCnt 7 1
  let s3 := changeRecord s2 (s.pair.count - k) moved
  let s4 := v.config.foldl replayConfig s3
  let s5 := if advanced = 0 then s4 else s4.raise evUsesAdvanced srcKeyStore 0 (items [(4, advanced), (1, k)])
  let s6 := (List.range 24).foldl (fun s d => if s.asleep d then s.startWake d 1 else s) s5
  let ms := folioDiff s.folio.now declared * s.folio.periodUs / 1000
  (announceService s6).raise evTakeoverDone (srcCc 0) 0 (items [(4, ms), (4, batches)])

/-- The takeover declared, if any, is carried out at the first tick 10 folios or more after its declaration (R42, R450). -/
def tickTakeover (s : State) : State :=
  let s1 := if s.pair.handover.isSome ∧ s.dev.state = .standby then
      declareTakeover { s with pair := { s.pair with handover := none } } 1 else s
  match s1.pair.takeover with
  | some (f, _) => if 10 ≤ folioDiff s1.folio.now f then performTakeover s1 f else s1
  | none => s1

/-- What the chain does at every tick, once the folio has begun (R440, R443, R445). -/
def tickPair (s : State) : State :=
  if ¬ s.paired then s
  else
    let s1 := countJournal (countSilence s)
    match s.dev.state with
    | .service =>
      let g := folioAdd s.folio.now (2 ^ 48 - 1)
      let used := s1.batchWire s1.pair.records + s1.heartbeatWire
      let s2 := if s.position = 0 then sendBatch s1 g else s1
      sendSnapshotPart (heartbeats s2) used
    | .standby => tickTakeover (sendSnapshotPart (heartbeats s1) s1.heartbeatWire)
    | _ => s1

/-- VAULT_CONSOLIDATE (R446). -/
def execVaultConsolidate (s : State) : Host.Outcome State Fault Refusal := .next (consolidateOldest s)

/-- TAKEOVER_SILENCE (R449): 50 + 10 × (k − 1) folios without a heartbeat or batch from ahead. A SYNCING member never takes
over. -/
def execTakeoverSilence (s : State) : Host.Outcome State Fault Refusal :=
  if s.paired ∧ s.dev.state = .standby ∧ s.pair.timer ∧ 1 ≤ s.position ∧ 50 + 10 * (s.position - 1) ≤ s.pair.aheadSilence then
    .next (declareTakeover s 0)
  else .next s

/-- MEMBER_DROP (R445): the successor has been silent for 1,024 folios; the chain closes behind it, and the next member gets
what it lacks. -/
def execMemberDrop (memberSlot : Nat) (s : State) : Host.Outcome State Fault Refusal :=
  let m := s.member memberSlot
  let k := s.position
  if s.paired ∧ (s.dev.state = .service ∨ s.dev.state = .standby) ∧ m.state ≠ 0 ∧ m.position = k + 1 ∧ 1024 ≤ m.silentA ∧
      1024 ≤ m.silentB then
    let s1 := changeRecord s (s.pair.count - 1) (withoutPosition s (k + 1))
    let s2 := (s1.pairEvent 4).raise evMemberDropped (srcCc 0) 0 (items [(1, memberSlot), (8, m.serial)])
    match s2.slotAt (k + 1) with
    | none => .next s2
    | some j =>
      let held := (s2.member j).held
      if s2.pair.parts.any (fun p => decide (p.folio = folioAdd held 1)) ∨ held = s2.heldOwn then .next (resend s2 j held)
      else .next (beginSnapshot s2 j)
  else .next s

end Sys2Proof.Machine
end

