-- ==== Sys2Proof/Machine/PairFns.lean ====
section
/-! DEFINITION. The functions of chapter 17 (Table 17.3), and what their commit points bring about. -/

namespace Sys2Proof.Machine

/-! ### Staging (R434) -/

def State.staged (s : State) (kind : Nat) : Staged := tabGet {} s.pair.staging kind

/-- Every byte of TOTAL has been written. -/
def Staged.complete (g : Staged) : Bool :=
  decide (0 < g.total) && (List.range g.total).all (fun i => g.covered.any (fun c => decide (c.1 ≤ i ∧ i < c.1 + c.2)))

def Staged.bytes (g : Staged) : Bytes := memRead g.mem 0 g.total

/-- PAIR_STAGE. A TOTAL other than the object's starts the object anew. -/
def pairStageFn (x : Slot) : Fn FnRes := do
  let p := x.payload
  let kind := fld p 4 1
  let total := fld p 6 2
  let off := fld p 8 2
  let n := fld p 10 2
  Fn.need (layoutOk p (12 + n) [(5, 1)] && decide (1 ≤ kind ∧ kind ≤ 5 ∧ total ≤ 8192 ∧ n ≤ 8000 ∧ off + n ≤ total)) stFieldInvalid
  let old ← Fn.st (fun s => s.staged kind)
  let g : Staged := if old.total = total then old else { total := total }
  let g1 : Staged := { g with mem := memWrite g.mem off (p.drop 12), covered := g.covered ++ [(off, n)] }
  Fn.change (fun s => { s with pair := { s.pair with staging := tabPut {} s.pair.staging kind g1 } })
  Fn.done []

/-- The staging area is cleared. -/
def clearStaging (s : State) : State := { s with pair := { s.pair with staging := [] } }

/-! ### Peers' colophons (R271, R436) -/

/-- Head of a CBOR item: major type, argument, and its length in bytes. -/
def cborHeadOf (b : Bytes) : Nat × Nat × Nat :=
  let v := fld b 0 1
  let n := v % 32
  if n < 24 then (v / 32, n, 1)
  else if n = 24 then (v / 32, fld b 1 1, 2)
  else if n = 25 then (v / 32, fld b 1 2, 3)
  else if n = 26 then (v / 32, fld b 1 4, 5)
  else (v / 32, fld b 1 8, 9)

/-- A CBOR item without its children: major type, argument, and the bytes of a string. -/
structure CborTok where
  major : Nat
  arg : Nat
  bytes : Bytes := []

/-- The items of an encoding in order, each container before its members; `fuel` bounds their number. -/
def cborToks : Nat → Bytes → List CborTok
  | 0, _ => []
  | n + 1, b =>
    if b = [] then []
    else
      let (m, a, h) := cborHeadOf b
      if m = 2 ∨ m = 3 then { major := m, arg := a, bytes := slice b h a } :: cborToks n (b.drop (h + a))
      else { major := m, arg := a } :: cborToks n (b.drop h)

def tokAt (l : List CborTok) (i : Nat) : CborTok := l.getD i { major := 8, arg := 0 }

/-- What a peer's colophon says, once both its signatures verify under the attestation keys: identity hash, life-cycle state,
latch, debug, nonce. -/
structure PeerColophon where
  idHash : Bytes
  state : Nat
  latch : Bool
  debug : Bool
  nonce : Bytes

/-- Check a colophon under AK-EC (a point of 97 bytes) and AK-PQ (R271). -/
def readColophon (akEc akPq c : Bytes) : Option PeerColophon :=
  let t := cborToks 7 c
  let header := (tokAt t 1).bytes
  let pq := (tokAt t 4).bytes
  let payload := (tokAt t 5).bytes
  let ec := (tokAt t 6).bytes
  let tbs := sigStructure header payload
  let u := cborToks 43 payload
  if (tokAt t 0).major = 4 ∧ (tokAt t 0).arg = 4 ∧ (tokAt u 0).major = 5 ∧ u.length = 43 ∧ verify384 (akEc.drop 1) (sha384B tbs) ec ∧
      mlDsaVerify akPq [] tbs pq then
    some { idHash := (tokAt u 4).bytes, state := (tokAt u 8).arg, latch := decide ((tokAt u 34).arg = 21),
           debug := decide ((tokAt u 36).arg = 21), nonce := (tokAt u 42).bytes }
  else none

/-- The three public keys of the staged certificates (R436): IDK, AK-EC, AK-PQ. -/
def stagedKeys (s : State) : Option (Bytes × Bytes × Bytes) :=
  match Config.certifiedKey (s.staged 1).bytes, Config.certifiedKey (s.staged 2).bytes, Config.certifiedKey (s.staged 3).bytes with
  | some a, some b, some c => some (a, b, c)
  | _, _, _ => none

/-- The peer's colophon agrees with its certificates, and its device may join (R436). -/
def peerOk (idk : Bytes) (c : PeerColophon) (nonce : Bytes) : Bool :=
  c.idHash == sha384B idk && c.nonce == nonce && decide (c.state = 3) && !c.latch && !c.debug

/-! ### OFFER and ANSWER (Table 17.4, R435) -/

/-- SETTINGS: P, sync mode, PTP domain, H, A, J_E, the member ports, and a digest of the permitted peers, in this order. -/
def State.pairSettings (s : State) : Bytes :=
  let mode := match s.folio.mode with
    | .free => 0
    | .ptp => 1
    | .ptpPps => 2
  let p := s.pair
  beBytes 2 s.folio.periodUs ++ beBytes 1 mode ++ beBytes 1 s.image.ptpDomain ++ beBytes 1 p.horizon ++ beBytes 1 p.hop ++
    beBytes 2 p.budget ++ beBytes 1 p.memberA ++ beBytes 1 p.memberB ++
    (if p.peers = [] then zeros 6 else (sha384B p.peers.flatten).take 6)

/-- The x-coordinate of d × Q for a point of 97 bytes on P-384. -/
def ecdhX (d q : Bytes) : Option Bytes :=
  let x := fld q 1 48
  let y := fld q 49 48
  if fld q 0 1 ≠ 4 ∨ p384.p ≤ x ∨ p384.p ≤ y ∨ ¬ p384.has x y then none
  else (p384.mul (beNat d) (some (x, y))).map (fun r => beBytes 48 r.1)

/-- The pair key (R435). -/
def pairKeyOf (offer ecdh ss : Bytes) (serialX serialY : Nat) (ey : Bytes) : Bytes :=
  hkdf (sha384B offer) (ecdh ++ ss) (ascii "SKZ2 pair" ++ beBytes 8 serialX ++ beBytes 8 serialY ++ ey) 32

/-- The device is unpaired in SERVICE, or the last member of a chain (R435). -/
def State.mayOffer (s : State) : Bool :=
  if s.paired then s.position + 1 == s.pair.count else s.dev.state == .service

/-- The record that an offer carries: an unpaired device offers itself alone, in slot 0 at position 0. -/
def State.offeredRecord (s : State) : Bytes :=
  if s.paired then s.chainRecord
  else
    let own : Member := { serial := Config.serial.toNat, position := 0, state := 1, idHash := s.idHash }
    chainRecordBytes s.pair.epoch 1 (fun j => if j = 0 then own else {})

/-- PAIR_OFFER (R435). -/
def pairOfferFn (k : Nat) (x : Slot) : Fn FnRes := do
  Fn.need (layoutOk x.payload 12 [(8, 4)]) stFieldInvalid
  let _ ← Fn.auth k x 0xA1 0 0 4
  Fn.need (← Fn.st State.mayOffer) stPairState
  let rnd ← Fn.draw (32 + 48 + 64)
  let nonce := rnd.take 32
  let eph := slice rnd 32 48
  let seed := rnd.drop 80
  let col ← Fn.colophon x.admitTick nonce none
  let s ← get
  let body := [1] ++ zeros 3 ++ beBytes 4 s.pair.epoch ++ beBytes 8 Config.serial.toNat ++ nonce ++ [4] ++ public384 eph ++ zeros 3 ++
    padTo 1184 (mlKemPublic seed) ++ s.pairSettings ++ s.offeredRecord ++ beBytes 2 col.length ++ zeros 2 ++ col
  let sig ← Fn.ecdsaSign p384 (beNat s.ks.idk) (sha384B (ascii "SKZ2 pair offer" ++ body))
  Fn.done (body ++ sig) [.pairOffer (body ++ sig) (eph ++ seed) nonce]

/-- The offer is kept until PAIR_CONFIRM, a new PAIR_OFFER or a restart (R435). -/
def keepOffer (s : State) (offer keys nonce : Bytes) : State :=
  { s with pair := { s.pair with offer := offer, offerKeys := keys, offerNonce := nonce, offerEpoch := s.pair.epoch } }

/-- Members of a chain that meets the lag bound (R433). -/
def State.lagAllows (s : State) (n : Nat) : Bool := decide (n ≤ 8) && decide (s.pair.horizon + s.pair.hop * (n - 2) ≤ 64)

/-- PAIR_ACCEPT (R436). -/
def pairAcceptFn (k : Nat) (x : Slot) : Fn FnRes :=
  let body : Fn FnRes := do
    Fn.need (layoutOk x.payload 12 [(8, 4)]) stFieldInvalid
    let _ ← Fn.auth k x 0xA2 0 0 4
    let s ← get
    Fn.need (s.dev.state == .service && s.unsealedTenants == 0) stPairNotEmpty
    Fn.need ([1, 2, 3, 5].all (fun i => (s.staged i).complete)) stPairNotStaged
    let (idk, akEc, akPq) ← Fn.get! (stagedKeys s) stPairPeerInvalid
    let o := (s.staged 5).bytes
    let n := fld o 1868 2
    let nonce := slice o 16 32
    let c ← Fn.get! (readColophon akEc akPq (slice o 1872 n)) stPairPeerInvalid
    Fn.need (fld o 0 1 == 1 && decide (o.length = 1968 + n) &&
      verify384 (idk.drop 1) (sha384B (ascii "SKZ2 pair offer" ++ o.take (1872 + n))) (o.drop (1872 + n)) && peerOk idk c nonce)
      stPairPeerInvalid
    Fn.need (s.pair.peers == [] || s.pair.peers.contains c.idHash) stPairPeerInvalid
    let rec_ := slice o 1348 520
    let members := fld rec_ 4 1
    Fn.need (slice o 1332 16 == s.pairSettings && s.lagAllows (members + 1)) stPairSettings
    let rnd ← Fn.draw (48 + 32)
    let eph := rnd.take 48
    let (ct, ss) := mlKemEncaps (slice o 148 1184) (rnd.drop 48)
    let z ← Fn.get! (ecdhX eph (slice o 48 97)) stPairPeerInvalid
    let ey := [4] ++ public384 eph
    let serialX := fld o 8 8
    let key := pairKeyOf o z ss serialX Config.serial.toNat ey
    let col ← Fn.colophon x.admitTick nonce none
    let s ← get
    let ans := [1] ++ zeros 3 ++ beBytes 8 Config.serial.toNat ++ ey ++ zeros 3 ++ padTo 1088 ct ++ beBytes 2 col.length ++ zeros 2 ++ col ++
      kcvOf { alg := 5 } key ++ zeros 2
    let sig ← Fn.ecdsaSign p384 (beNat s.ks.idk) (sha384B (ascii "SKZ2 pair answer" ++ sha384B o ++ ans))
    let own : Member := { serial := Config.serial.toNat, position := members, state := 2, idHash := s.idHash }
    let free := ((List.range 8).find? (fun j => fld rec_ (17 + 64 * j) 1 == 0)).getD 7
    let m := fun (j : Nat) => if j = free then own else
      ({ serial := fld rec_ (8 + 64 * j) 8, position := fld rec_ (16 + 64 * j) 1, state := fld rec_ (17 + 64 * j) 1,
         idHash := slice rec_ (24 + 64 * j) 48 } : Member)
    let next := chainRecordBytes (fld rec_ 0 4 + 1) (members + 1) m
    Fn.change clearStaging
    Fn.done (ans ++ sig) [.pairAccept next key serialX (fld rec_ 0 4 + 1) (padTo 97 idk ++ padTo 97 akEc ++ padTo 1952 akPq)]
  Fn.orRefuse body (fun _ s => clearStaging s)

/-- PAIR_ACCEPT commits (R436, R417): the old vault's batches wait to be erased, a new vault chain begins with the record and
the pair key, and the device restarts once its reply has left. -/
def acceptPairing (s : State) (record pairKey : Bytes) (serial epoch : Nat) (keys : Bytes) : State :=
  let slot := ((List.range 8).find? (fun j => fld record (8 + 64 * j) 8 == serial)).getD 0
  let v : Vault := { chainRecord := record, pairKey := pairKey, memberKeys := [(slot, keys)] }
  let old := { s.vault with old := s.vault.old ++ s.vault.batches, batches := [], store := {}, seq := 0, heldSeq := 0, heldChain := [],
                            log := [], heldFolio := 0 }
  let s1 := appendBatch { s with vault := old, ks := { s.ks with changes := 0, oldest := none } } v false
  (beginDrain s1 .start).raise evPaired (srcCc 0) 0 (items [(8, serial), (4, epoch)])

/-- PAIR_CONFIRM (R437). -/
def pairConfirmFn (k : Nat) (x : Slot) : Fn FnRes :=
  let body : Fn FnRes := do
    Fn.need (layoutOk x.payload 12 [(8, 4)]) stFieldInvalid
    let _ ← Fn.auth k x 0xA3 0 0 4
    let s ← get
    let p := s.pair
    Fn.need (p.offer != [] && s.mayOffer && p.epoch == p.offerEpoch) stPairState
    Fn.need ([1, 2, 3, 4, 5].all (fun i => (s.staged i).complete)) stPairNotStaged
    let (idk, akEc, akPq) ← Fn.get! (stagedKeys s) stPairPeerInvalid
    let a := (s.staged 5).bytes
    let n := fld a 1200 2
    let c ← Fn.get! (readColophon akEc akPq (slice a 1204 n)) stPairPeerInvalid
    let c4 ← Fn.get! (readColophon akEc akPq (s.staged 4).bytes) stPairPeerInvalid
    Fn.need (fld a 0 1 == 1 && decide (a.length = 1308 + n) && peerOk idk c p.offerNonce && peerOk idk c4 p.offerNonce &&
      verify384 (idk.drop 1) (sha384B (ascii "SKZ2 pair answer" ++ sha384B p.offer ++ a.take (1212 + n))) (a.drop (1212 + n)))
      stPairPeerInvalid
    Fn.need (p.peers == [] || p.peers.contains c.idHash) stPairPeerInvalid
    let ey := slice a 12 97
    let z ← Fn.get! (ecdhX (p.offerKeys.take 48) ey) stPairPeerInvalid
    let ss := mlKemDecaps (p.offerKeys.drop 48) (slice a 112 1088)
    let serialY := fld a 4 8
    let key := pairKeyOf p.offer z ss Config.serial.toNat serialY ey
    let kcv := kcvOf { alg := 5 } key
    Fn.need (slice a (1204 + n) 6 == kcv) stPairPeerInvalid
    Fn.change clearStaging
    Fn.done (kcv ++ zeros 2) [.pairConfirm key serialY c.idHash (padTo 97 idk ++ padTo 97 akEc ++ padTo 1952 akPq)]
  Fn.orRefuse body (fun _ s => clearStaging s)

/-- PAIR_CONFIRM commits (R437, R438): the joiner is last, SYNCING; a new chain gets its chain key; the snapshot begins. -/
def confirmPairing (s : State) (pairKey : Bytes) (serial : Nat) (idHash keys : Bytes) : State :=
  let own : Member := { serial := Config.serial.toNat, position := 0, state := 1, idHash := s.idHash,
                        keys := s.devicePublic.flatten }
  let (key, s1) := if s.paired then (s.pair.chainKey, s) else s.random 32
  let old := fun (j : Nat) => if s.paired then s.member j else if j = 0 then own else ({} : Member)
  let n := if s.paired then s.pair.count else 1
  let free := ((List.range 8).find? (fun j => decide ((old j).state = 0))).getD 7
  let joiner : Member := { serial := serial, position := n, state := 2, idHash := idHash, keys := keys }
  let m := fun (j : Nat) => if j = free then joiner else old j
  let s2 := { s1 with pair := { s1.pair with chainKey := key, pairKey := pairKey, confirmed := true, offer := [], offerKeys := [], offerNonce := [] } }
  let s3 := changeRecord s2 (n + 1) m
  let s4 := sealPairing (memberClientKeys (s3.putMember free { s3.member free with keys := keys }))
  (beginSnapshot s4 free).raise evPaired (srcCc 0) 0 (items [(8, serial), (4, s4.pair.epoch)])

/-! ### Handover, takeover, leaving (R451, R452) -/

/-- PAIR_HANDOVER (R451). -/
def pairHandoverFn (k : Nat) (x : Slot) : Fn FnRes := do
  Fn.need (layoutOk x.payload 12 [(8, 4)]) stFieldInvalid
  let _ ← Fn.auth k x 0xA4 0 0 4
  let s ← get
  Fn.need (s.paired && s.dev.state == .service && s.position == 0 && !s.soleActive) stPairState
  Fn.need (s.boot.drain.isNone) stBootBusy
  Fn.done [] [.arm .handoverDrain]

/-- A drain for a handover is told from others by this value until its last batch is sent. -/
abbrev handoverDraining : Nat := 2 ^ 48

def beginHandover (s : State) : State :=
  let s1 := beginDrain s .start
  { s1 with pair := { s1.pair with handover := some handoverDraining } }

/-- The drain of a handover ends (R451): the last batch carries the HANDOVER record and the record that moves this device to the
last position. -/
def sendHandover (s : State) : State :=
  let n := s.pair.count
  let m := fun (j : Nat) =>
    let x := s.member j
    if x.state = 0 then x else if x.position = 0 then { x with position := n - 1 } else { x with position := x.position - 1 }
  let b := chainRecordBytes (s.pair.epoch + 1) n m
  let s1 := (s.journal 8 b).journal 9 []
  { s1 with pair := { s1.pair with handover := some s1.folio.now } }.raise evHandover (srcCc 0) 0 (items [(1, n - 1)])

/-- DRAIN_END (R425, R451): no reply is owed, and the device restarts; a handover first sends its last batch. -/
def execDrainEnd (s : State) : Host.Outcome State Fault Refusal :=
  match s.boot.drain with
  | none => .next s
  | some (f, r) =>
    if s.sq.slots.any (fun p => p.2.owed) ∨ ¬ (s.dev.state = .service ∨ s.dev.state = .standby) then .next s
    else
      let s1 := s.raise evDrainDone srcSecurity 0 (items [(4, folioDiff s.folio.now f)])
      match s.pair.handover with
      | none => .next (s1.computeReset.askRestart r)
      | some g => if g = handoverDraining then .next (sendHandover s1) else .next s

/-- Position 1 holds that batch: the old active restarts as the last standby (R451). -/
def finishHandover (s : State) : State :=
  match (s.pair.handover, s.slotAt 1) with
  | (some _, some _) =>
    let n := s.pair.count
    let m := fun (j : Nat) =>
      let x := s.member j
      if x.state = 0 then x else if x.position = 0 then { x with position := n - 1 } else { x with position := x.position - 1 }
    let b := chainRecordBytes (s.pair.epoch + 1) n m
    let s1 := { s with vault := { s.vault with store := { s.sealed with chainRecord := b }, heldFolio := s.folio.now } }
    s1.computeReset.askRestart .start
  | _ => s

/-- PAIR_TAKEOVER (R452). -/
def pairTakeoverFn (k : Nat) (x : Slot) : Fn FnRes := do
  Fn.need (layoutOk x.payload 12 [(8, 4)]) stFieldInvalid
  let _ ← Fn.auth k x 0xA5 0 0 4
  let s ← get
  Fn.need (s.paired && s.dev.state == .standby && s.position == 1 && (s.member s.pair.slot).state == 1) stPairState
  Fn.done [] [.arm (.declareTakeover 2)]

/-- PAIR_LEAVE (R452). -/
def pairLeaveFn (k : Nat) (x : Slot) : Fn FnRes := do
  let p := x.payload
  let mode := fld p 4 1
  Fn.need (layoutOk p 12 [(5, 3)] && decide (mode ≤ 1)) stFieldInvalid
  let _ ← Fn.auth k x 0xA6 0 0 8
  let s ← get
  Fn.need (s.paired && (mode == 1 || (s.position == 0 && !s.pair.confirmed))) stPairState
  Fn.done [] [.pairLeave (mode == 1)]

/-- PAIR_LEAVE commits: the record names no chain any more; erasing marks the vault, keeping advances the use counters unless
the last batch is a fence flush. The device restarts once its reply has left. -/
def leaveChain (s : State) (erase : Bool) : State :=
  let v := s.vault.store
  let flush : Bool := match s.vault.batches.getLast? with
    | some b => b.fenceFlush
    | none => false
  let moved := (v.resident.filter (fun p => decide (p.2.kind = .key ∧ p.2.useLimited))).length
  let ahead := fun (p : Nat × Resident) =>
    (p.1, if p.2.kind = .key ∧ p.2.useLimited then
        let u := min p.2.limit (p.2.reserved + 256 * useBlock p.2.limit)
        { p.2 with uses := u, reserved := u }
      else p.2)
  let v1 : Vault := { v with chainRecord := [], pairKey := [], chainKey := [], memberKeys := [],
                             resident := if erase ∨ flush then v.resident else v.resident.map ahead }
  let s1 := { s with vault := { s.vault with store := v1, log := [] },
                     boot := { s.boot with vaultMark := s.boot.vaultMark || erase } }
  let s2 := if erase ∨ flush ∨ moved = 0 then s1 else s1.raise evUsesAdvanced srcKeyStore 0 (items [(4, moved), (1, s.position)])
  let s3 := { s2 with pair := { s2.pair with count := 0, members := [], pairKey := [], chainKey := [] } }
  (beginDrain s3 .start).raise evLeftChain (srcCc 0) 0 (items [(1, bit erase)])

/-! ### What a member answers (R438, R440, R443) -/

/-- The record slot of the member whose channel a request came on. -/
def State.peerSlot (s : State) (x : Slot) : Nat := (s.chan x.chan).clientKey - 56

/-- The path of a request. -/
def State.pathOf (s : State) (x : Slot) : Nat := if x.lport = s.pair.memberA then 0 else 1

/-- Something of the epoch in effect arrived from ahead (R449). -/
def heardAhead (s : State) (x : Slot) (heartbeat : Bool) : State :=
  let j := s.peerSlot x
  let s1 := heardFrom s j (s.pathOf x)
  if (s.member j).state ≠ 0 ∧ (s.member j).position < s.position then
    { s1 with pair := { s1.pair with aheadSilence := 0, timer := s1.pair.timer || heartbeat } }
  else s1

/-- JOURNAL_BATCH (R443, R445). -/
def journalBatchFn (x : Slot) : Fn FnRes := do
  let p := x.payload
  Fn.need (decide (20 ≤ p.length) && prologueOk p 0 && zeroAt p 18 2 &&
    decide (1 ≤ fld p 15 1 ∧ fld p 15 1 ≤ 16 ∧ fld p 14 1 < fld p 15 1)) stFieldInvalid
  let s ← get
  Fn.need (decide (s.pair.epoch ≤ fld p 4 4)) stPairSuperseded
  Fn.need (s.paired && s.dev.state == .standby) stPairState
  Fn.change (fun s => heardAhead s x false)
  let b : BatchPart := { folio := fld p 8 6, part := fld p 14 1, parts := fld p 15 1, records := p }
  if s.pair.parts.any (fun q => decide (q.folio = b.folio ∧ q.part = b.part)) then Fn.change (fun s => s.pairCnt 2 1)
  else
    Fn.change (fun s =>
      let s1 := keepPart s b
      let s2 := match s1.slotAt (s1.position + 1) with
        | some j => sendBoth s1 j 0xA8 p
        | none => s1
      if s2.vault.heldFolio = 0 then s2 else appendComplete s2.folioGap s2)
  Fn.done (beBytes 6 (← Fn.st (·.vault.heldFolio)) ++ zeros 2)

/-- HEARTBEAT (R440). -/
def heartbeatFn (x : Slot) : Fn FnRes := do
  let p := x.payload
  Fn.need (layoutOk p 20 [(10, 2), (18, 2)] && decide (fld p 8 1 ≤ 7)) stFieldInvalid
  let s ← get
  Fn.need (decide (s.pair.epoch ≤ fld p 4 4)) stPairSuperseded
  Fn.change (fun s =>
    let s1 := heardAhead s x true
    let j := fld p 8 1
    if (s1.member j).state = 0 then s1 else s1.putMember j { s1.member j with held := fld p 12 6 })
  Fn.done (← Fn.st State.heartbeatBytes)

/-- SNAPSHOT (R438). -/
def snapshotFn (x : Slot) : Fn FnRes := do
  let p := x.payload
  let part := fld p 4 4
  let parts := fld p 8 4
  Fn.need (decide (12 ≤ p.length ∧ part < parts) && prologueOk p 0) stFieldInvalid
  let s ← get
  Fn.need (s.paired && s.dev.state == .standby && (s.member s.pair.slot).state == 2) stPairState
  Fn.change (fun s =>
    let s1 := heardAhead s x false
    let old := if s1.pair.snapshotParts = parts then s1.pair.snapshot else []
    let got := tabPut [] old part (p.drop 12)
    let s2 := { s1 with pair := { s1.pair with snapshot := got, snapshotParts := parts } }
    if got.length = parts then
      let s3 := takeSnapshot s2 (got.flatMap (·.2))
      appendComplete s3.folioGap { s3 with pair := { s3.pair with snapshot := [], snapshotParts := 0 } }
    else s2)
  Fn.done (beBytes 6 (← Fn.st (·.vault.heldFolio)) ++ zeros 2)

end Sys2Proof.Machine
end

