-- ==== Sys2Proof/Machine/Tasks.lean ====
section
/-! DEFINITION. Tasks that end on a transaction core: the task-end clear, and stops by a core (R115, R141, R183, R188, R189,
R193, R216). -/

namespace Sys2Proof.Machine

def State.tcCnt (s : State) (c k n : Nat) : State := s.modCore c (fun x => { x with counters := bump x.counters k n })

/-- The output ports that the task-end clear sets to zero: those of G0 and G3 to G6. -/
def OutPort.cleared : OutPort → Bool
  | .lsuLd | .lsuSc | .iouIor => false
  | _ => true

/-- The registers and units after the task-end clear of 16 cycles; the core then waits as if it had moved to TAKE (R188, R189). -/
def Core.endTask (c : Core) (tenant : Nat) : Core :=
  { c with g := [], w := [], alu := {}, bitu := {}, sym := {}, hash := {}, pin := {},
           ctl := { c.ctl with loops := [] }, reservation := none,
           results := c.results.filter (fun r => !r.port.cleared), accesses := [],
           bits := c.bits.filter (fun p => decide (32 ≤ p.1)), dmem := memClear c.dmem 0xF000 0x1000,
           task := none, taskWord := 0, entered := false, privileged := false, budget := 0, lastTenant := some tenant,
           pc := c.resume, time := c.time + 16, stall := .take }

/-- Everything a task holds at its core is given back: big-number handles, key handles, ports, windows; the core joins those
waiting at TAKE. -/
def endTask (s : State) (core : Nat) : State :=
  let c := s.core core
  match c.task with
  | none => s
  | some r =>
    let tenant := (s.slot r.slot).tenant
    let s1 := endBnHandles s core
    let k := s1.cores
    let s2 := { s1 with cores := { k with
      handles := tabDrop k.handles core, kdig := tabDrop k.kdig core, keyBusy := tabDrop k.keyBusy core,
      unwrap := tabDrop k.unwrap core, cstat := tabDrop k.cstat core, bn := tabDrop k.bn core, rand := tabDrop k.rand core,
      bulk := tabDrop k.bulk core } }
    let s3 := { s2 with bulk := { s2.bulk with submissions := s2.bulk.submissions.filter (fun b => decide (b.core ≠ core)) } }
    let s4 := s3.modMpu core (fun m => { m with windows := [], segments := [] })
    let s5 := s4.modCore core (fun c => c.endTask tenant)
    { s5 with sq := { s5.sq with takers := s5.sq.takers.filter (fun i => decide (i ≠ core)) ++ [core] } }

/-- The cores that run tasks of slot `k`. -/
def State.coresOf (s : State) (k : Nat) : List Nat :=
  (s.cores.core.filter (fun p => decide (p.1 < 128) && (match p.2.task with
    | some r => decide (r.slot = k ∧ r.req = (s.slot k).req)
    | none => false))).map (·.1)

/-- The effects that a task without a commit point arranged are withdrawn: armed effects (R505), counted signatures (R358). -/
def withdrawEffects (s : State) (k : Nat) : State :=
  let s1 := { s with folio := { s.folio with effects := s.folio.effects.filter (fun e => decide (e.slot ≠ some k)) } }
  withdrawSignature s1 k

/-- Stop every task of slot `k` and take back what it did: jobs aborted, claims removed, the session returned (R116, R119,
R216). -/
def stopSlot (s : State) (k : Nat) : State :=
  let s1 := (s.coresOf k).foldl (fun s c => endTask s c) s
  let s2 := withdrawJob s1 k
  let x := s2.slot k
  let s3 := withdrawEffects (settleClaims s2 x.req x.claims false) k
  let s4 := match x.session with
    | some i => settleSession s3 i false
    | none => s3
  ((s4.modSlot k (fun x => { x with claims := [], session := none, effects := [], outcome := none })).dropReady k).dropDelay k none

/-- Why a core stops its task: the code of TC_FAULT. -/
inductive StopCause where
  | protection (kind : Nat)
  | bundle
  | move
  | overrun
  | wait
  | ecc
  | parity
  deriving DecidableEq, Repr

def StopCause.code : StopCause → Nat
  | .protection _ => 1
  | .bundle => 2
  | .move => 3
  | .overrun => 4
  | .wait => 5
  | .ecc => 6
  | .parity => 7

/-- The status that the core supplies. -/
def StopCause.status : StopCause → Nat
  | .protection _ => stProtectionFault
  | .bundle => stIllegalBundle
  | .move => stIllegalMove
  | .overrun => stDeadlineMissed
  | _ => stDeadlineShed

/-- The counter of Table 7.14. -/
def StopCause.counter : StopCause → Option Nat
  | .protection _ => some 2
  | .bundle | .move => some 3
  | .overrun => some 4
  | .wait => some 5
  | _ => none

/-- Event 0xA5, at most once per second and tenant, with the faults counted since the last. -/
def protectionEvent (s : State) (core kind tenant func : Nat) : State :=
  let n := tabGet 0 s.cores.faultCount tenant + 1
  if tabGet 0 s.cores.faultSecond tenant = s.second + 1 then
    { s with cores := { s.cores with faultCount := tabPut 0 s.cores.faultCount tenant n } }
  else
    { s with cores := { s.cores with faultCount := tabPut 0 s.cores.faultCount tenant 0,
                                     faultSecond := tabPut 0 s.cores.faultSecond tenant (s.second + 1) } }.raise
      evProtectionFault (srcCore core) tenant (items [(1, kind), (2, func), (4, n)])

/-- The record and the events of a stop, before the task is taken off the core. -/
def noteStop (s : State) (core : Nat) (cause : StopCause) (at_ : FaultAt) : State :=
  let c := s.core core
  let kind := match cause with
    | .protection k => k
    | _ => 0
  let f : CoreFault := { status := cause.status, cause := cause.code, kind := kind, pc := c.pc, addr := at_.addr }
  let s1 := s.putCore core { c with fault := f }
  let s2 := match cause.counter with
    | some k => s1.tcCnt core k 1
    | none => s1
  let x := match c.task with
    | some r => s.slot r.slot
    | none => {}
  match cause with
  | .protection k =>
    let space := match at_.space with
      | .data => 0
      | .io => 1
      | .bit => 2
    let s3 := s2.modMpu core (fun m => { m with faulted := true, faultKind := k, faultSpace := space, faultWrite := at_.write,
                                                faultAddr := at_.addr, faults := min 0xFFFFFFFF (m.faults + 1) })
    protectionEvent s3 core k x.tenant x.func
  | .overrun =>
    let s3 := { s2 with adm := { s2.adm with counters := bump s2.adm.counters 8 1 } }
    (s3.raise evChargeOverrun srcAdmission x.tenant (items [(1, core), (2, x.tenant), (2, x.func)])).unitError (srcCore core) 4
  | .wait => s2.unitError (srcCore core) 3
  | _ => s2

end Sys2Proof.Machine
end

