-- ==== Sys2Proof/Machine/Effects.lean ====
section
/-! DEFINITION. What takes effect at a tick (R43 to R48, R505) and at a commit point (R34, R44). -/

namespace Sys2Proof.Machine

/-! ### Tick effects -/

/-- A commit makes the permitted state of a sleeping district shallower: it wakes (R477). -/
def wakeByCommit (s : State) : State :=
  (List.range 24).foldl (fun s d =>
    let x := s.district d
    if s.asleep d ∧ s.permitted d < x.state.code then s.startWake d 1 else s) s

/-- Event 0x88 or 0x89 for each tenant whose suspension changed. -/
def suspensionEvents (before s : State) : State :=
  (List.range 513).foldl (fun s t =>
    let was := (before.inEffect (0x41000 + 4 * t)).testBit 0
    let is := (s.inEffect (0x41000 + 4 * t)).testBit 0
    if was = is then s
    else s.raise (if is then evTenantSuspended else evTenantResumed) srcAdmission t (items [(2, t)])) s

/-- A commit group takes effect (R48): its staged values together; the group is CLEAN. -/
def applyGroup (s : State) (g : Nat) : State :=
  let x := s.group g
  let st := x.staged.foldl (fun t p => stWrite t p.1 p.2) s.adm.st
  let s1 := { s with adm := { s.adm with st := st } }.putGroup g { x with state := .clean, staged := [], writes := 0, folio := s.folio.now }
  let s2 := if g = 3 then suspensionEvents s s1 else s1
  let s3 := if g = 2 ∨ g = 4 then wakeByCommit s2 else s2
  s3.raise evCommitApplied srcAdmission 0 (items [(1, g), (8, s.folio.now)])

/-- A CAK is installed on a logical port (R368). -/
def installCak (s : State) (lport : Nat) (ckn cak : Bytes) : State := s.modPort lport (fun p => { p with ckn := ckn, cak := cak })

/-- A curve record is deleted from this tick on; its validation ends and its bank is cleared (R303). -/
def deleteCurve (s : State) (i : Nat) : State :=
  let c := s.curve i
  if c.state = .free then s
  else
    let s1 := s.putCurve i { c with deletedAt := some s.folio.now }
    let s2 := { s1 with bn := { s1.bn with queue := s1.bn.queue.filter (fun j => decide (j ≠ i)) } }
    match s2.bn.engines.find? (fun p => (p.2.background.map (·.1)) == some i) with
    | some (e, x) => endBackground s2 e ((x.background.map (·.2)).getD 0)
    | none => s2

/-- A tick effect at its tick. -/
def applyTick (s : State) (e : TickEffect) : State :=
  match e with
  | .commitGroup g => applyGroup s g
  | .smkCreate .. | .smkBegin .. | .smkComplete .. | .smkAbort .. | .smkInvalidate .. => applySmk s e
  | .residentDelete slot => retireResident s slot
  | .clientKeySet t i k => setClientKey s t i k
  | .cardRevoke serial =>
    let s1 := revokeCard s serial
    { s1 with folio := { s1.folio with effects := s1.folio.effects ++
        [{ folio := some (folioAdd s.folio.now 1), slot := none, effect := .cardFree serial }] } }
  | .cardFree serial => freeRevoked s serial
  | .quorumSet scope role m => setQuorum s scope role m
  | .cakSet lport ckn cak => installCak s lport ckn cak
  | .curveDelete i => deleteCurve s i
  | .drainBegin recovery => beginDrain s (if recovery then .recovery else .start)
  | .handoverDrain => beginHandover s
  | .declareTakeover cause => declareTakeover s cause
  | .pmcSnap => { s with pmc := { s.pmc with snapAsked := true } }

/-- An armed effect falls due at this tick. On a paired device a configuration commit also waits until the batch that carries
it has been acknowledged (R47). -/
def ArmedEffect.due (e : ArmedEffect) (s : State) : Bool :=
  match e.folio with
  | none => false
  | some f => folioReached s.folio.now f &&
      (match e.effect with
      | .commitGroup _ => s.soleActive || decide (s.dev.state ≠ .service) || folioReached s.pair.held (folioAdd f (2 ^ 48 - 1 - s.pair.horizon))
      | _ => true)

/-- Step 2 of R43: the effects that fall due, in the order in which they were armed. -/
def applyDue (s : State) : State :=
  let due := s.folio.effects.filter (fun e => e.due s)
  let s1 := { s with folio := { s.folio with effects := s.folio.effects.filter (fun e => !e.due s) } }
  due.foldl (fun s e => applyTick s e.effect) s1

/-! ### Commit points -/

/-- A channel opens (R79): its keys, the event, and the ready REP with SEQUENCE 1. -/
def openChannel (s : State) (c : Nat) (c2d d2c : Bytes) : State :=
  let x := s.chan c
  if x.state ≠ .pending then s
  else
    let y := { x with state := .open, c2d := c2d, d2c := d2c, hs1 := [], hs2 := [], hsC := [], hsD := [], prk := [], rxHigh := 0, rxBits := 0,
                      txSeq := 0 }
    let s1 := (s.putChan c y).srpCnt 11 1
    let s2 := s1.raise evChannelOpened (srcSrp (srpEngine x.phys c)) x.tenant (items [(4, chanId c x), (2, x.tenant), (1, x.clientKey)])
    s2.sendOn c x.lport x.src 2 false 0 [] [] [] false

/-- A client's signature was refused (R79): the NACK with reason AUTH_FAILED, and the channel is FREE. -/
def refuseChannel (s : State) (c reqSeq : Nat) : State :=
  let x := s.chan c
  if x.state ≠ .pending then s
  else
    (((s.nackHs c x.lport x.src reqSeq 6).freeChan c).srpCnt 12 1).raise evHandshakeFailed (srcSrp (srpEngine x.phys c)) x.tenant
      (items [(4, chanId c x), (2, x.tenant)])

/-- HS2 leaves (R77, R82). -/
def sendHs2 (s : State) (c : Nat) (hs2 prk hsC hsD : Bytes) : State :=
  let x := s.chan c
  if x.state ≠ .pending then s
  else
    let s1 := s.putChan c { x with hs2 := hs2, prk := prk, hsC := hsC, hsD := hsD }
    if (s.port x.lport).link then s1.transmit x.lport { bytes := hs2, dst := x.src } else s1.dropReply x.lport x.tenant

/-- The device starts a local card exchange (R364). -/
def beginExchange (s : State) (session iface : Nat) : State :=
  let x := s.session session
  (s.putIface iface { s.iface iface with exchange := some (sessionId session x), powered := true }).putSession session
    { x with localStatus := 0 }

/-- What the commit point of slot `k` brings about, restarts excepted. -/
def applyEffect (k : Nat) (s : State) (e : Effect) : State :=
  let x := s.slot k
  match e with
  | .arm t =>
    { s with folio := { s.folio with effects := s.folio.effects ++
        [{ folio := some (folioAdd s.folio.now 1), slot := none, effect := t }] } }
  | .loadResident unit r => loadResident s unit r
  | .claim _ _ => s
  | .sessionOpen i y => openSession s i y
  | .sessionClose i => closeSession s i
  | .signature i _ => commitSignature s i k
  | .cardRegister c => registerCard s c
  | .mgmtWrite addr words chan =>
    (regWrites s chan addr words).raise evMgmtWrite s.mgmtCore x.tenant
      (items [(4, chanId chan (s.chan chan)), (4, addr), (2, words.length)])
  | .lcTransition => beginTransition s
  | .debugArm starts st q => armDebug s starts st q
  | .debugEnd => voidDebug s 0
  | .certLoad i c => loadCert s i c
  | .imageWrite => beginImageWrite s
  | .curveLoad i c => startValidation { s.putCurve i c with bn := { (s.putCurve i c).bn with queue := s.bn.queue ++ [i] } }
  | .pairOffer o keys nonce => keepOffer s o keys nonce
  | .pairAccept r key serial epoch keys => acceptPairing s r key serial epoch keys
  | .pairConfirm key serial h keys => confirmPairing s key serial h keys
  | .pairLeave erase => leaveChain s erase
  | .channelOpen c a b => openChannel s c a b
  | .channelRefuse c => refuseChannel s c x.reqSeq
  | .hs2 c b prk hc hd => sendHs2 s c b prk hc hd
  | .cardLocal session iface => beginExchange s session iface
  | .clearStaging => clearStaging s
  | .eventOnCommit code source tenant data => s.raise code source tenant data
  | .latchClear _ | .restartNow _ => s

/-- The effects that restart the device, after all others. -/
def applyRestart (s : State) (e : Effect) : State :=
  match e with
  | .latchClear session => clearLatch s session
  | .restartNow _ => restartFromRecovery s
  | _ => s

end Sys2Proof.Machine
end

