-- ==== Sys2Proof/Machine/Commit.lean ====
section
/-! DEFINITION. The commit sequencer (R34, R36, R39, R113, R114, R143 to R146, R444): replies that reach it, their commit
points, and the functions that bring a result to it. -/

namespace Sys2Proof.Machine

/-- The function's library header, or Table 3.9, says that it changes state. -/
def State.stateChanging (s : State) (x : Slot) : Bool :=
  x.func == 2 || x.func == 3 || (match s.cores.library.find x.tenant x.func with
    | some r => r.entry.stateChanging
    | none => false)

/-- The reply waits for the journal acknowledgement of its folio's batch (R146, R444). -/
def State.waitsForJournal (s : State) (x : Slot) (st : Nat) : Bool :=
  decide (st = stOk) && s.stateChanging x && s.paired && !s.soleActive && decide (s.dev.state = .service) && !x.mailbox

/-- Event 0x80 and its counters (R124). -/
def missEvent (s : State) (x : Slot) : State :=
  let s1 := { s with adm := { s.adm with events := s.adm.events ||| 2, counters := bump s.adm.counters 7 1 } }
  (s1.pmcAdm 0x15 1).raise evDeadlineMissed srcAdmission x.tenant (items [(2, x.tenant), (2, x.queue), (2, x.func), (8, x.admitTick)])

/-- The counters and the event of a committed status. -/
def noteStatus (s : State) (x : Slot) (st : Nat) : State :=
  let s0 := if x.refused.isSome then { s with adm := { s.adm with counters := bump s.adm.counters 14 1 } } else s
  if st = stDeadlineMissed then missEvent s0 x
  else if st = stDeadlineShed then
    { s0 with adm := { s0.adm with events := s0.adm.events ||| 1, counters := bump s0.adm.counters 6 1 } }
  else s0

/-- Armed effects of slot `k` keep their target, or take the next tick (R44, R505). -/
def settleArmed (s : State) (k : Nat) : State :=
  let next := folioAdd s.folio.now 1
  let settle := fun (e : ArmedEffect) =>
    if e.slot = some k then { e with slot := none, folio := some (e.folio.getD next) } else e
  { s with folio := { s.folio with effects := s.folio.effects.map settle } }

/-- PRED is set in the requests whose ordering predecessor is slot `k` (R143). -/
def setPred (s : State) (k : Nat) : State :=
  s.sq.slots.foldl (fun s p =>
    if p.2.live ∧ (s.predecessor p.2).map (·.1) = some k then s.setFlagAll p.1 flagPred else s) s

/-- What the commit point of slot `k` brings about, the restarts apart: with status OK the task's effects; otherwise what it
armed or counted is withdrawn (R34, R264, R359, R505). -/
def settle (s : State) (k : Nat) (x : Slot) (ok : Bool) : State :=
  let s1 := if ok then x.effects.foldl (applyEffect k) (settleArmed s k) else withdrawEffects s k
  let s2 := settleClaims s1 x.req x.claims ok
  match x.session with
  | some i => settleSession s2 i ok
  | none => s2

/-- The reply of slot `k` is committed now. -/
def commitNow (s : State) (k st : Nat) (result : Bytes) : State :=
  let x := s.slot k
  let ok := decide (st = stOk)
  let hold := s.waitsForJournal x st
  let idx := s.folio.commitIndex + 1
  let s1 := { s with folio := { s.folio with commitIndex := idx } }
  let s2 := s1.putSlot k { x with commit := some (s.folio.now, idx), status := st, result := result, answer := none, inOrder := false,
                                  outcome := none, state := if hold then .held else .sending, journalHeld := hold }
  let s3 := settle (if hold then s2.pairCnt 4 1 else s2) k x ok
  let s4 := s3.modSlot k (fun y => { y with effects := [], claims := [], session := none, toReplace := false })
  let s5 := noteStatus (setPred ((s4.dropReady k).dropDelay k none) k) x st
  let s6 := if x.mailbox then { s5 with lc := { s5.lc with mailboxReply := some (st, result) } }.freeSlotAt k
            else if x.handshake then s5.freeSlotAt k else s5
  if ok then x.effects.foldl applyRestart s6 else s6

/-- The reply of slot `k` reaches the sequencer: it is held behind an earlier reply (R145), a status reply waits for the
status allowance (R113), or it is committed. -/
def acceptOne (s : State) (k st : Nat) (result : Bytes) : State :=
  let x := s.slot k
  if x.refused = none ∧ s.mustHold x then
    let adm := x.wasAdmitted
    let s1 := s.putSlot k { x with inOrder := true, outcome := some { status := st, result := result },
                                   answer := if adm then x.answer else some st, state := if adm then .held else x.state }
    ({ s1 with sq := { s1.sq with counters := bump s1.sq.counters 4 1 } }).pmcSquare 0x13 1
  else if x.wasAdmitted ∨ x.mailbox then commitNow s k st result
  else if s.allows x.lport then commitNow (s.spend x.lport (s.replyOverhead x)) k st result
  else
    let s1 := s.modSlot k (fun y => { y with answer := some st })
    { s1 with adm := { s1.adm with deferred := s1.adm.deferred ++ [k], events := s1.adm.events ||| 0x80,
                                   counters := bump s1.adm.counters 12 1 } }.keepPlace x.lport k

/-- The held reply that comes next: the earliest whose order no longer holds it. -/
def State.nextHeld (s : State) : Option (Nat × Slot) :=
  minBy (fun p => p.2.req) (s.sq.slots.filter (fun p => p.2.inOrder && p.2.owed && !s.mustHold p.2))

/-- Held replies are committed in submission order (R145). -/
def releaseHeld : Nat → State → State
  | 0, s => s
  | fuel + 1, s =>
    match s.nextHeld with
    | none => s
    | some (k, x) =>
      let o := x.outcome.getD { status := x.answer.getD 0, result := [] }
      releaseHeld fuel (acceptOne (s.modSlot k (fun y => { y with inOrder := false })) k o.status o.result)

/-- A reply reaches the sequencer, and the held replies that it frees follow it. -/
def accept (s : State) (k st : Nat) (result : Bytes) : State :=
  let s1 := acceptOne s k st result
  releaseHeld (s1.sq.slots.length + 1) s1

/-! ### Miss points (R114, R145, R444) -/

/-- Within one delay tick of its miss point, or past it. -/
def State.atMissPoint (s : State) (x : Slot) : Bool := decide (s.toMissPoint x ≤ (25 * s.folio.periodUs : Nat))

/-- A request without a commit point at a miss point: an admitted one is answered DEADLINE_MISSED, a held status reply keeps
its status. `forced`: by a later request's miss point. -/
def missOne (forced : Bool) (s : State) (k : Nat) : State :=
  let x := s.slot k
  if x.wasAdmitted then
    let s1 := commitNow (stopSlot s k) k stDeadlineMissed []
    if forced then { s1 with sq := { s1.sq with events := s1.sq.events ||| 0x10, counters := bump s1.sq.counters 5 1 } } else s1
  else
    let st := (x.outcome.map (·.status)).getD (x.answer.getD 0)
    commitNow (s.spend x.lport (s.replyOverhead x)) k st []

/-- A reply that still waits for its journal acknowledgement at the miss point becomes DEADLINE_MISSED; its effects stay and
it keeps its stamp (R444). -/
def missHeld (s : State) (k : Nat) : State :=
  let x := s.slot k
  let s1 := s.putSlot k { x with status := stDeadlineMissed, result := [], journalHeld := false, state := .sending }
  (((missEvent s1 x).pairCnt 5 1).pairEvent 1).raise evJournalLate (srcCc 0) 0 (items [(8, (x.commit.getD (0, 0)).1), (2, 1)])

/-- MISS_POINT of the request in slot `k`. -/
def execMissPoint (slot : Nat) (s : State) : Host.Outcome State Fault Refusal :=
  let x := s.slot slot
  if ¬ (x.wasAdmitted ∧ s.atMissPoint x) then .next s
  else if x.journalHeld then .next (missHeld s slot)
  else if x.commit.isSome then .next s
  else
    let s1 := ((s.earlierOpen x).map (·.1)).foldl (missOne true) s
    let s2 := missOne false s1 slot
    .next (releaseHeld (s2.sq.slots.length + 1) s2)

/-! ### Functions -/

/-- A request that waits for its result. -/
def Slot.unanswered (x : Slot) : Bool :=
  x.live && decide (x.commit = none ∧ x.outcome = none ∧ x.answer = none ∧ x.refused = none)

/-- A request that CC0 serves on a big-number engine: a handshake, a function whose library entry claims one (R441), and in
RECOVERY the functions that make or check a signature or a key pair (R423). -/
def State.needsBn (s : State) (x : Slot) : Bool :=
  x.handshake || (decide (s.dev.state = .recovery) && [0x60, 0x61, 0x72, 0x94].contains x.func) ||
    (match s.cores.library.find x.tenant x.func with
    | some r => decide (0 < r.entry.claimBn)
    | none => false)

/-- In STANDBY and RECOVERY CC0 takes the requests one at a time, in the order of their placement (R377, R441). -/
def State.nextForCc0 (s : State) (k : Nat) : Bool :=
  (minBy (fun p => p.2.req) (s.sq.slots.filter (fun p => p.2.unanswered && !isMemberFn p.2.func))).map (·.1) == some k

/-- The control core may serve the request of slot `k` now: in SERVICE an admitted management task from its start
folio on, and member functions at once; else CC0's own work (R423, R433, R504). -/
def State.ccMay (s : State) (k : Nat) (x : Slot) : Bool :=
  let quiet := !s.lc.inProgress || x.func == 0x70 || x.func == 0x91
  quiet && match s.dev.state with
    | .service =>
      if isMemberFn x.func then true
      else isMgmt x.func && x.wasAdmitted && decide ((x.node 0).flags &&& 6 = 6)
    | .standby => isMemberFn x.func || (s.nextForCc0 k && (!s.needsBn x || s.districtUp 16))
    | .recovery => s.nextForCc0 k && (!s.needsBn x || s.districtUp 16)
    | _ => false

/-- The function `f`, of a code in `codes`, computes the request of slot `k`: as a task's program on its core, whose DONE hands
the result over, or on a control core, whose reply goes to the sequencer at once. -/
def serveFn (codes : Nat → Bool) (f : Nat → Slot → Fn FnRes) (k : Nat) (s : State) : State :=
  let x := s.slot k
  if ¬ (x.unanswered ∧ codes x.func) then s
  else if (s.coresOf k).any (fun c => (s.core c).entered) then
    let r := runFnOn (f k x) s
    r.2.modSlot k (fun y => { y with outcome := some { status := r.1.status, result := r.1.result }, effects := r.1.effects })
  else if s.ccMay k x then
    let y := if x.wasAdmitted then { x with state := .running } else { x with state := .running, admitTick := s.folio.now }
    let r := runFnOn (f k y) (s.putSlot k y)
    accept (r.2.modSlot k (fun z => { z with effects := r.1.effects })) k r.1.status r.1.result
  else s

end Sys2Proof.Machine
end

