-- ==== Sys2Proof/Machine/CorePorts.lean ====
section
/-! DEFINITION. A transaction core and its task: the end of a task and its stops (R115, R116, R141, R149, R188, R216), and the
ports of its I/O space (R140, R192, Tables 5.5, 6.14, 6.15, 7.10, 9.6, 10.1, 11.3, 12.3). -/

namespace Sys2Proof.Machine

/-! ### The end of a task -/

/-- The task on `core` leaves it, with the cycles it took. -/
def leaveCore (s : State) (core : Nat) : State :=
  let c := s.core core
  let busy := c.time - c.givenAt
  endTask ((s.tcCnt core 7 busy).pmcTc core 0x11 busy) core

/-- Node `n` of slot `k` has ended with status OK: IN(n) is set in the nodes that it feeds. -/
def feedNodes (s : State) (k n : Nat) : State :=
  (s.slot k).nodes.foldl (fun s p => if p.2.inEdges.testBit n then s.setFlag k p.1 (flagIn n) else s) s

/-- The number of the last node of a request. -/
def Slot.lastNode (x : Slot) : Nat := if isGraph x.func then fld x.payload 0 1 - 1 else 0

/-- A node of a graph request has ended (R149). -/
def graphNodeEnd (s : State) (k n st : Nat) (result : Bytes) : State :=
  let s1 := s.modSlot k (fun x => x.modNode n (fun d => { d with ended := true, status := st, core := none }))
  let s2 := if st = stOk then feedNodes s1 k n else s1.modSlot k (fun x => { x with graphFail := some (x.graphFail.getD st) })
  let x := s2.slot k
  match x.graphFail with
  | some e => if (s2.coresOf k).isEmpty then accept (s2.dropReady k) k e [] else s2.dropReady k
  | none => if n = x.lastNode then accept s2 k st result else s2

/-- The task of node `n` of slot `k` on `core` ends with a status and a result. -/
def nodeEnd (s : State) (core k n st : Nat) (result : Bytes) : State :=
  let s1 := (leaveCore s core).dropDelay k (some n)
  let s2 := if st = stOk then s1 else withdrawJob s1 k
  if (s2.slot k).commit.isSome then s2
  else if isGraph (s2.slot k).func then graphNodeEnd s2 k n st result
  else accept s2 k st result

/-- A request stopped by a detected error: it is placed once more at the next tick, or, where it
has been, answered DEADLINE_SHED there (R116, R183). -/
def errorStop (s : State) (k : Nat) : State :=
  let s1 := (s.coresOf k).foldl leaveCore s
  (stopSlot s1 k).modSlot k (fun x => { x with toReplace := true })

/-- Stop the core at instruction address `pc`: the task ends with the status the core supplies; a core without a task halts
(R185, R193, R216). -/
def stopCore (s : State) (core : Nat) (cause : StopCause) (pc : Nat) (at_ : FaultAt) : State :=
  let s0 := s.modCore core (fun c => { c with pc := pc })
  match s0.taskOf core with
  | none =>
    let s1 := (s0.modCore core (fun c => { c with stall := .halted })).raise evCoreHalted (srcCore core) 0 (items [(4, pc)])
    if core < 128 then (noteStop s1 core cause at_).unitError (srcCore core) 8 else s1
  | some (k, _, n) =>
    let s1 := noteStop s0 core cause at_
    match cause with
    | .wait | .ecc | .parity => errorStop s1 k
    | _ => nodeEnd s1 core k n cause.status []

/-- No address. -/
def noAddress : FaultAt := { kind := 0, addr := 0, space := .data, write := false }

/-! ### The Square's ports (R137, R140 to R142) -/

/-- TAKE: the core waits to be given a task. -/
def takeOp (s : State) (core : Nat) : State :=
  let c := s.core core
  if 128 ≤ core ∨ ¬ c.ctl.guarded ∨ c.task.isSome ∨ c.stall = .halted ∨ c.stall = .held then s
  else
    let s1 := s.putCore core { c with stall := .take, resume := c.pc }
    { s1 with sq := { s1.sq with takers := s1.sq.takers.filter (fun i => decide (i ≠ core)) ++ [core] } }

/-- The task word (Table 5.4). -/
def taskWordOf (x : Slot) (k n : Nat) : Word64 :=
  BitVec.ofNat 64 (x.queue * 2 ^ 48 + x.func * 2 ^ 32 + x.tenant * 2 ^ 22 + n * 2 ^ 16 + k)

/-- The core of a block that has waited longest at TAKE and is served (R137, R138). -/
def State.taker (s : State) (block : Nat) : Option Nat :=
  s.sq.takers.find? (fun c => c / 8 == block && s.unitOk (srcTc c) && s.districtUp (districtOfTc c) && decide ((s.core c).stall = .take))

/-- The core gets the task, after the tenant scrub where one is due (R139, R188). -/
def Core.give (c : Core) (r : TaskRef) (word : Word64) (tenant : Nat) : Core :=
  let scrub := c.lastTenant ≠ some tenant
  let c1 := if scrub then { c with dmem := [], bits := c.bits.filter (fun p => decide (p.1 < 64)) } else c
  { c1 with task := some r, taskWord := word, entered := false, stall := .none, givenAt := c.time,
            results := c.results.filter (fun q => decide (q.port ≠ .iouIor)),
            iou := { c.iou with ior := word.zeroExtend 128 }, time := c.time + (if scrub then 66 else 2) }

/-- The Square gives entry `e` to `core`. -/
def giveTask (s : State) (core : Nat) (e : ReadyEntry) : State :=
  let x := s.slot e.slot
  let c := s.core core
  let l := (s.queue x.queue).priority
  let y := { x with state := .running }.modNode e.node (fun d => { d with given := true, core := some core })
  let ready := tabMod [] s.sq.ready l (fun t => t.filter (fun f => decide (f ≠ e)))
  let s1 := { s with sq := { s.sq with takers := s.sq.takers.filter (fun i => decide (i ≠ core)), ready := ready,
                                       counters := bump s.sq.counters 0 1 } }
  let s2 := (s1.putSlot e.slot y).putCore core
    (c.give { slot := e.slot, node := e.node, req := x.req } (taskWordOf x e.slot e.node) x.tenant)
  let s3 := (((s2.tcCnt core 0 1).pmcTc core 0x10 1).pmcSquare 0x10 1).pmcSquare (0x14 + l) 1
  let s4 := if isGraph x.func then { s3 with sq := { s3.sq with counters := bump s3.sq.counters 6 1 } } else s3
  let s5 := s4.busyDistrict (districtOfTc core)
  if c.lastTenant ≠ some x.tenant then
    (({ s5 with sq := { s5.sq with counters := bump s5.sq.counters 1 1 } }).tcCnt core 1 1).pmcTc core 0x16 1
  else s5

/-- FLAG_CLR: flags 3 to 11. -/
def flagClrOp (s : State) (core : Nat) (value : Word64) : State :=
  match s.taskOf core with
  | none => s
  | some (k, _, n) =>
    s.modSlot k (fun x => x.modNode n (fun d => { d with flags := d.flags &&& ~~~ (value.truncate 32 &&& 0x00000FF8) }))

/-- DELAY. -/
def delayOp (s : State) (core : Nat) (value : Word64) : State :=
  match s.taskOf core with
  | none => s
  | some (k, _, n) =>
    let d := value.toNat % 65536
    let s1 := s.dropDelay k (some n)
    if d = 0 then s1.setFlag k n flagDelay
    else (s1.clearFlag k n flagDelay).addDelay { time := (s1.delayTime + d) % 2 ^ 54, slot := k, node := some n }

/-- The status and result that a DONE with this value brings: those a function computed, else the value's (R141). -/
def doneOutcome (x : Slot) (value : Word64) : Outcome :=
  match x.outcome with
  | some o => o
  | none => { status := bitsOf value.toNat 31 16, result := memRead x.window 0 (bitsOf value.toNat 13 0) }

/-- DONE (R141, R149, R188, R321). -/
def doneOp (s : State) (core : Nat) (value : Word64) : State :=
  match s.taskOf core with
  | none => s
  | some (k, x, n) =>
    let o := doneOutcome x value
    let len := if x.outcome.isSome then o.result.length else bitsOf value.toNat 13 0
    let most := if n = x.lastNode then x.cost.lmax else 0
    if x.outcome = none ∧ most < len then
      stopCore s core (.protection 7) (s.core core).pc { kind := 7, addr := 0, space := .io, write := true }
    else
      match s.jobOf k with
      | some j =>
        if o.status = stOk ∧ ¬ j.handed ∧ x.commit = none then
          let s1 := { s with bulk := { s.bulk with jobs := replaceJob s.bulk.jobs { j with handed := true } } }
          ((leaveCore s1 core).dropDelay k (some n)).modSlot k (fun y => { y with outcome := none })
        else nodeEnd s core k n o.status o.result
      | none => nodeEnd s core k n o.status o.result

/-! ### Window ports (R215) -/

def spaceOf (n : Nat) : Option Space := if n = 0 then some .data else if n = 1 then some .io else if n = 2 then some .bit else none

/-- WIN_SET: none is a protection fault of kind WINDOW_INVALID. -/
def winSetOp (s : State) (core : Nat) (value : Word128) : Option State :=
  let v := value.toNat
  let base := bitsOf v 127 96
  let limit := bitsOf v 95 64
  match spaceOf (bitsOf v 5 4) with
  | none => none
  | some sp =>
    let g := if sp = .bit then 64 else 8
    if base % g ≠ 0 ∨ (limit + 1) % g ≠ 0 ∨ limit < base then none
    else
      match (s.mpu core).segments.find? (fun p => p.2.has sp base && p.2.has sp limit) with
      | none => none
      | some (_, r) =>
        let w : Region := { valid := true, space := sp, base := base, limit := limit, r := v.testBit 0 && r.r, w := v.testBit 1 && r.w }
        some (s.modMpu core (fun m => { m with windows := tabPut {} m.windows (bitsOf v 10 8) w }))

/-- WIN_CLR. -/
def winClrOp (s : State) (core : Nat) (value : Word64) : State :=
  s.modMpu core (fun m => { m with windows := m.windows.filter (fun p => !value.getLsbD p.1) })

/-! ### Key-store ports (R265, R266) -/

def State.handle (s : State) (core h : Nat) : Handle := tabGet {} (tabGet [] s.cores.handles core) h
def State.putHandle (s : State) (core h : Nat) (x : Handle) : State :=
  { s with cores := { s.cores with handles := tabMod [] s.cores.handles core (fun t => tabPut {} t h x) } }
/-- A lookup or advance has been submitted. -/
def State.keySubmitted (s : State) (core : Nat) : State :=
  { s with cores := { s.cores with keyBusy := tabPut false s.cores.keyBusy core true } }.taskFlag core flagKeyResident false

/-- KLOOK. -/
def klookOp (s : State) (core : Nat) (value : Word64) : State :=
  match s.taskOf core with
  | none => s
  | some (_, x, _) =>
    let (h, s1) := lookupRef s x.tenant x.admitTick x.payload (krefAt x.payload (value.toNat % 65536))
    (s1.putHandle core (bitsOf value.toNat 17 16) h).keySubmitted core

/-- KUNWRAP; a second before UNWRAP_DONE is a protection fault of kind SUBMISSION. -/
def kunwrapOp (s : State) (core : Nat) (value : Word64) : Option State :=
  match s.taskOf core with
  | none => some s
  | some _ =>
    if tabGet 0 s.cores.unwrap core ≠ 0 then none
    else
      let s1 := { s with cores := { s.cores with unwrap := tabPut 0 s.cores.unwrap core (bitsOf value.toNat 17 16 + 1) } }
      some (s1.taskFlag core flagUnwrapDone false)

/-- The unwrap in progress ends: its handle is bound, or carries the status. -/
def unwrapOp (s : State) (core : Nat) : State :=
  let n := tabGet 0 s.cores.unwrap core
  match s.taskOf core with
  | none => s
  | some (_, x, _) =>
    if n = 0 then s
    else
      let h := s.handle core (n - 1)
      let (h1, s1) := if h.missed = [] then (h, s) else unwrapBlock s x.tenant x.admitTick h.missedSlot h.missed
      let s2 := { s1 with cores := { s1.cores with unwrap := tabPut 0 s1.cores.unwrap core 0 } }
      (s2.putHandle core (n - 1) h1).taskFlag core flagUnwrapDone true

/-- The derivation digest operand. -/
def State.kdigOf (s : State) (core : Nat) : Bytes := bytes128 (tabGet 0 s.cores.kdig core)

/-- KDLOOK. -/
def kdlookOp (s : State) (core : Nat) (value : Word64) : State :=
  match s.taskOf core with
  | none => s
  | some _ =>
    let (h, s1) := lookupChild s (s.handle core (bitsOf value.toNat 17 16)) (s.kdigOf core)
    (s1.putHandle core (bitsOf value.toNat 19 18) h).keySubmitted core

/-- KDSTORE. -/
def kdstoreOp (s : State) (core : Nat) (value : Word64) : State :=
  match s.taskOf core with
  | none => s
  | some _ =>
    storeChild s (s.handle core (bitsOf value.toNat 17 16)) (s.handle core (bitsOf value.toNat 19 18)) (s.kdigOf core)
      (bitsOf value.toNat 22 20)

/-- CADV, with the whole of IOD. -/
def cadvOp (s : State) (core : Nat) (iod : Word128) : State :=
  match s.taskOf core with
  | none => s
  | some (k, x, _) =>
    let v := iod.toNat
    let unit := v % 65536
    let value := bitsOf v 63 32
    let (st, s1) := advance s x.tenant x.admitTick x.req unit value (bitsOf v 127 120) (bitsOf v 119 112) (beBytes 10 (bitsOf v 111 32))
    let s2 := if st = stOk then s1.modSlot k (fun y => { y with claims := y.claims ++ [(unit, value)] }) else s1
    { s2 with cores := { s2.cores with cstat := tabPut 0 s2.cores.cstat core st } }.keySubmitted core

/-- KREL. -/
def krelOp (s : State) (core : Nat) (value : Word64) : State := s.putHandle core (value.toNat % 4) {}

/-- KSTAT of a handle. -/
def kstatOf (h : Handle) : Nat :=
  h.status * 2 ^ 48 + bit h.hit * 2 ^ 47 + bit h.bound * 2 ^ 46 + h.attr.alg * 2 ^ 32 + h.attr.usage * 2 ^ 16 + h.attr.mode * 2 ^ 8 +
    h.attr.exportability

/-! ### Bulk submission (R320) -/

def State.bulkStat (s : State) (core : Nat) : BulkStat := tabGet {} s.cores.bulk core
def State.putBulkStat (s : State) (core : Nat) (x : BulkStat) : State :=
  { s with cores := { s.cores with bulk := tabPut {} s.cores.bulk core x } }

/-- Weighted bytes that a submission of slot contents `x` asks for (R91). -/
def State.bulkAmount (s : State) (x : Slot) (op : Nat) : Nat :=
  match bulkOpOf op, s.streamNamed x with
  | some .segment, some c | some .final, some c =>
    let st := s.stream c
    (bulkData (if op = 3 then .final else .segment) x.payload).length * (modeWeight st.sideIn.mode + modeWeight st.sideOut.mode)
  | _, _ => 0

/-- BKSUB; none is a protection fault of kind SUBMISSION. -/
def bksubOp (s : State) (core : Nat) (value : Word64) (declared : Option Nat) : Option State :=
  match s.taskOf core with
  | none => some s
  | some (_, x, _) =>
    let op := value.toNat % 8
    if x.func / 256 ≠ 8 ∨ (s.bulkStat core).submitted ∨ declared.any (fun d => decide (d < s.bulkAmount x op)) then none
    else
      let b : BulkSubmission := { core := core, op := op, kin := bitsOf value.toNat 5 4, kout := bitsOf value.toNat 7 6 }
      let s1 := { s with bulk := { s.bulk with submissions := s.bulk.submissions ++ [b] } }
      some ((s1.putBulkStat core { submitted := true }).taskFlag core flagBulkCredit false)

/-- The engines answer the submission of a core and set BULK_CREDIT. An OP that Table 11.3 does not list is refused with
MODE_INVALID. -/
def bulkAnswerOp (s : State) (core : Nat) : State :=
  match s.bulk.submissions.find? (fun b => b.core == core), s.taskOf core with
  | some b, some (k, x, _) =>
    let s0 := { s with bulk := { s.bulk with submissions := s.bulk.submissions.filter (fun c => decide (c.core ≠ core)) } }
    let (st, s1) := match bulkOpOf b.op with
      | some op => bulkAnswer s0 k op (s0.handle core b.kin) (s0.handle core b.kout)
      | none => (stModeInvalid, s0)
    let next := ((s1.streamNamed x).map (fun c => (s1.stream c).next)).getD 0
    (s1.putBulkStat core { status := st, accepted := st = stOk, next := next, submitted := true }).taskFlag core flagBulkCredit true
  | _, _ => s

/-! ### The I/O map (R171, R172, Table 6.14) -/

/-- The declared amount of the submission site at bundle address `pc` for a resource class (R201). -/
def State.declared (s : State) (core pc cls : Nat) : Option Nat :=
  match s.taskOf core with
  | none => none
  | some (_, x, _) =>
    match s.cores.library.find x.tenant x.func with
    | none => none
    | some r =>
      let base := tabGet 0 r.addr (core / 8)
      (r.entry.subs.find? (fun e => e.offset + base == pc && e.cls == cls)).map (·.amount)

/-- Byte `k` of the request-memory window at 0x4000 + k. -/
def windowByte (x : Slot) (k : Nat) : Byte :=
  if k < 0x2000 then x.payload.getD k 0
  else if k < 0x4000 ∧ k - 0x2000 < x.windowSize then tabGet 0 x.window (k - 0x2000) else 0

/-- The ports of 128 bits. -/
def wideports (a : Nat) : Bool :=
  a == 0x68 || (decide (0x140 ≤ a ∧ a < 0x1C0) && a % 16 == 0) || a == 0x1C0 || (decide (0x280 ≤ a ∧ a < 0x300) && a % 16 == 0) ||
    (decide (0x400 ≤ a ∧ a < 0x500) && (a % 0x40 == 0x10 || a % 0x40 == 0x18))

/-- What a port reads as, and the state after the read. -/
def portRead (s : State) (core a : Nat) : Word128 × State :=
  let c := s.core core
  let w := fun (n : Nat) => (BitVec.ofNat 128 n, s)
  if 0x400 ≤ a ∧ a < 0x500 then
    let h := (a - 0x400) / 0x40
    if a % 0x40 = 0x18 then boutOp s core h else if a % 0x40 = 0x28 then w (bstatOf (s.bnHandle core h)) else w 0
  else if 0x140 ≤ a ∧ a < 0x1C0 ∧ a % 16 = 0 then
    let h := s.handle core ((a - 0x140) / 0x20)
    w (if h.bound ∧ h.attr.alg ≤ 6 then beNat (padTo 16 (slice h.key (a % 0x20) 16)) else 0)
  else if 0x280 ≤ a ∧ a < 0x300 ∧ a % 16 = 0 then w (tabGet (0 : Word128) (s.randPort core).rbuf ((a - 0x280) / 16)).toNat
  else if 0x120 ≤ a ∧ a < 0x140 then w (kstatOf (s.handle core ((a - 0x120) / 8)))
  else
    match a with
    | 0x08 => w ((s.taskOf core).map (fun t => (t.2.1.node t.2.2).flags.toNat) |>.getD 0)
    | 0x40 => w (core / 8 * 256 + core)
    | 0x48 => w s.folio.now
    | 0x50 => w (s.delayTime % 2 ^ 54)
    | 0x58 => w (if c.entered then c.budget else 0)
    | 0x60 => w (if c.entered then c.taskWord.toNat else 0)
    | 0x78 => w (((s.mpu core).windows.map (fun p => 2 ^ p.1)).sum)
    | 0x1D0 => w (tabGet 0 s.cores.cstat core * 2 ^ 48)
    | 0x210 => w ((s.randPort core).status * 2 ^ 48 + (s.randPort core).delivered)
    | 0x808 =>
      let b := s.bulkStat core
      w (b.status * 2 ^ 48 + bit b.accepted * 2 ^ 47 + b.next)
    | _ => w 0

/-- A write or trigger of a port; the second part is the kind of a protection fault. `iod` is the whole of IOD. -/
def portWrite (s : State) (core pc a : Nat) (iod : Word128) : State × Option Nat :=
  let v : Word64 := iod.truncate 64
  let fine := fun (s : State) => (s, (none : Option Nat))
  let sub := fun (o : Option State) => match o with
    | some s1 => (s1, (none : Option Nat))
    | none => (s, some 8)
  if 0x400 ≤ a ∧ a < 0x500 then
    let h := (a - 0x400) / 0x40
    match a % 0x40 with
    | 0x00 => sub (bopenOp s core h v.toNat)
    | 0x08 => sub (bptrOp s core h v.toNat)
    | 0x10 => sub (binOp s core h iod)
    | 0x20 => sub (bgoOp s core h v.toNat (s.declared core pc 1))
    | 0x30 => fine (babortOp s core h)
    | 0x38 => fine (brelOp s core h)
    | _ => fine s
  else
    match a with
    | 0x00 => fine (takeOp s core)
    | 0x10 => fine (flagClrOp s core v)
    | 0x18 => fine (delayOp s core v)
    | 0x20 => fine (doneOp s core v)
    | 0x68 =>
      match winSetOp s core iod with
      | some s1 => (s1, none)
      | none => (s, some 4)
    | 0x70 => fine (winClrOp s core v)
    | 0x100 => fine (klookOp s core v)
    | 0x108 => sub (kunwrapOp s core v)
    | 0x110 => fine (kdlookOp s core v)
    | 0x118 => fine (kdstoreOp s core v)
    | 0x1C0 => fine { s with cores := { s.cores with kdig := tabPut 0 s.cores.kdig core iod } }
    | 0x1C8 => fine (cadvOp s core iod)
    | 0x1D8 => fine (krelOp s core v)
    | 0x200 => sub (rreqOp s core v.toNat)
    | 0x208 =>
      if (s.declared core pc 3).any (fun d => decide (d < v.toNat % 512)) then (s, some 8) else sub (rtenOp s core v.toNat)
    | 0x800 => sub (bksubOp s core v (s.declared core pc 2))
    | _ => fine s

end Sys2Proof.Machine
end

