-- ==== Sys2Proof/Machine/CoreExec.lean ====
section
/-! DEFINITION. Cores at work: delayed accesses under protection (R167, R169 to R173, R201, R211, R216), the issue of bundles,
ENTER, waits and budgets (R165, R183 to R187), and the commands of the cores. -/

namespace Sys2Proof.Machine

/-! ### Protection (R209 to R213) -/

/-- 0 transaction, 1 control, 2 security core. -/
def coreKind (core : Nat) : Nat := if core < 128 then 0 else if core < 132 then 1 else 2

/-- The check of an address: the accesses of an entered task are checked, with the windows in force at their issue. -/
def State.checkAt (s : State) (core : Nat) (windows : List (Nat × Region)) (sp : Space) (write : Bool) (a : Nat) : Option Nat :=
  let c := s.core core
  if core < 128 ∧ c.entered then protect (s.mpu core).segments windows c.privileged sp write a else none

/-- Two regions share an address of one space (R212). -/
def Region.meets (x y : Region) : Bool := x.valid && y.valid && x.space == y.space && decide (x.base ≤ y.limit ∧ y.base ≤ x.limit)

def overlapping : List (Nat × Region) → Bool
  | [] => false
  | p :: t => t.any (fun q => p.2.meets q.2) || overlapping t

/-- A segment of Table 7.8. -/
def segment (sp : Space) (base limit : Nat) (r w : Bool) : Region :=
  { valid := true, space := sp, base := base, limit := limit, r := r, w := w }

/-- The segments that ENTER loads (Table 7.8). -/
def State.taskSegments (s : State) (core : Nat) (x : Slot) (priv : Bool) : List (Nat × Region) :=
  let own := if priv then [] else tabGet [] s.cores.library.segments (x.tenant * 16 + core / 8)
  let result := if x.cost.lmax = 0 then [] else [(5, segment .io 0x6000 (0x6000 + x.windowSize - 1) true true)]
  [(0, segment .data 0 0xFFFF true true), (1, segment .bit 0 65535 true true), (2, segment .io 0x8 0x7F true true),
    (3, segment .io 0x100 0xBFF true true), (4, segment .io 0x4000 0x5FFF true false)] ++ result ++
    (List.range 10).filterMap (fun i => (own[i]?).map (fun r => (6 + i, r)))

/-! ### Delayed accesses -/

/-- The memory beyond local data memory (Table 6.1): of the core block, or of the security core. -/
def farSize (core : Nat) : Nat := if core < 128 then 0x100000 else if core = 132 then 0x20000 else 0

def State.farMem (s : State) (core : Nat) : List (Nat × Byte) :=
  if core < 128 then tabGet [] s.cores.blockMem (core / 8) else (s.core core).xmem

def State.putFarMem (s : State) (core : Nat) (m : List (Nat × Byte)) : State :=
  if core < 128 then { s with cores := { s.cores with blockMem := tabPut [] s.cores.blockMem (core / 8) m } }
  else s.modCore core (fun c => { c with xmem := m })

/-- The addresses of the far memory. -/
def isFar (core a : Nat) : Bool := decide (0x100000 ≤ a ∧ a < 0x100000 + farSize core)

/-- Read `n` bytes on whose addresses `ok` permits; what has no memory reads zero. -/
def farRead (s : State) (core : Nat) (ok : Nat → Bool) (a n : Nat) : Bytes :=
  (List.range n).map (fun i => if ok (a + i) ∧ isFar core (a + i) then tabGet 0 (s.farMem core) (a + i - 0x100000) else 0)

/-- Write bytes from address `a`. -/
def farWrite (core : Nat) (m : List (Nat × Byte)) (a : Nat) : Bytes → List (Nat × Byte)
  | [] => m
  | b :: t => farWrite core (if isFar core a then tabPut 0 m (a - 0x100000) b else m) (a + 1) t

/-- Reservations of the other cores of the block on a stored byte are cleared (R170). -/
def loseReservations (s : State) (core a n : Nat) : State :=
  (List.range 8).foldl (fun s i =>
    let c := core / 8 * 8 + i
    match (s.core c).reservation with
    | some g => if core < 128 ∧ c ≠ core ∧ g < a + n ∧ a < g + 8 then s.modCore c (fun x => { x with reservation := none }) else s
    | none => s) s

/-- Store bytes in the far memory. -/
def farStore (s : State) (core a : Nat) (b : Bytes) : State :=
  loseReservations (s.putFarMem core (farWrite core (s.farMem core) a b)) core a b.length

/-- Shared bits of the core's block, and a write of one (R162, R173). -/
def State.sharedBit (s : State) (core a : Nat) : Bool :=
  if core < 128 ∧ 65536 ≤ a ∧ a < 131072 then tabGet false (tabGet [] s.cores.blockBits (core / 8)) (a - 65536) else false

def State.putSharedBit (s : State) (core a : Nat) (v : Bool) : State :=
  if core < 128 ∧ 65536 ≤ a ∧ a < 131072 then
    { s with cores := { s.cores with blockBits := tabMod [] s.cores.blockBits (core / 8) (fun t => tabPut false t (a - 65536) v) } }
  else s

/-- Deliver the result of an access. -/
def State.result (s : State) (core : Nat) (port : OutPort) (ready : Nat) (v : Word128) : State :=
  s.modCore core (fun c => c.later port ready v)

/-- The fault of an access at its addresses, if any. -/
def accessFault (s : State) (core : Nat) (x : Access) (sp : Space) (write : Bool) (n : Nat) : Option FaultAt :=
  (firstRefused (s.checkAt core x.windows sp write) x.addr n).map (fun p => { kind := p.1, addr := p.2, space := sp, write := write })

/-- An IOU trigger whose source was computed reaches only these addresses (R201). -/
def computedIo (a : Nat) : Bool := decide ((0x40 ≤ a ∧ a < 0x80) ∨ (0x4000 ≤ a ∧ a < 0x8000))

/-- A data access. -/
def dataAccess (s : State) (core : Nat) (x : Access) : State × Option FaultAt :=
  let a := x.addr
  let read := fun (n : Nat) =>
    let f := accessFault s core x .data false n
    let b := farRead s core (fun y => (s.checkAt core x.windows .data false y).isNone) a n
    (s.result core .lsuLd x.ready (BitVec.ofNat 128 (beNat b)), f)
  match x.op with
  | .load n => read n
  | .loadReserved =>
    let r := read 8
    (r.1.modCore core (fun c => { c with reservation := if core < 128 then some (a / 8 * 8) else none }), r.2)
  | .store n v =>
    match accessFault s core x .data true n with
    | some f => (s, some f)
    | none => (farStore s core a (beBytes n v.toNat), none)
  | .storeConditional v =>
    let held := (s.core core).reservation.isSome
    let s1 := s.modCore core (fun c => { c with reservation := none })
    match accessFault s core x .data true 8 with
    | some f => (s1.result core .lsuSc x.ready 1, some f)
    | none => if held then ((farStore s1 core a (bytes64 v)).result core .lsuSc x.ready 0, none) else (s1.result core .lsuSc x.ready 1, none)
  | _ => (s, none)

/-- A bit access. -/
def bitAccess (s : State) (core : Nat) (x : Access) : State × Option FaultAt :=
  let a := x.addr
  let ok := fun (y : Nat) => (s.checkAt core x.windows .bit false y).isNone
  let old := ok a && s.sharedBit core a
  let write := fun (s1 : State) (f : Option FaultAt) => if f.isSome then (s, f) else (s1, none)
  match x.op with
  | .bitRead => (s.result core .bitRes x.ready (BitVec.ofNat 128 (bit old)), accessFault s core x .bit false 1)
  | .bitWrite v => write (s.putSharedBit core a v) (accessFault s core x .bit true 1)
  | .bitTas =>
    let f := accessFault s core x .bit true 1
    if f.isSome then (s.result core .bitRes x.ready 0, f)
    else ((s.putSharedBit core a true).result core .bitRes x.ready (BitVec.ofNat 128 (bit old)), none)
  | .bitRead64 =>
    let v := ((List.range 64).map (fun i => if ok (a + i) ∧ s.sharedBit core (a + i) then 2 ^ i else 0)).sum
    (s.result core .bitRes x.ready (BitVec.ofNat 128 v), accessFault s core x .bit false 64)
  | .bitWrite64 v =>
    write ((List.range 64).foldl (fun s i => s.putSharedBit core (a + i) (v.getLsbD i)) s) (accessFault s core x .bit true 64)
  | _ => (s, none)

/-- The request contents that the window of a core shows. -/
def State.windowSlot (s : State) (core : Nat) : Option (Nat × Slot) := (s.taskOf core).map (fun t => (t.1, t.2.1))

/-- A read in I/O space. A part of a 128-bit port that an 8-byte read leaves open has no stated value (log entry 6). -/
def ioReadAccess (s : State) (core : Nat) (x : Access) (n : Nat) : State × Option FaultAt :=
  let a := x.addr
  if inWindow a then
    let ok := fun (y : Nat) => (s.checkAt core x.windows .io false y).isNone
    let y := (s.windowSlot core).map (·.2)
    let b := (List.range n).map (fun i => if ok (a + i) then (y.map (fun y => windowByte y (a + i - 0x4000))).getD 0 else 0)
    (s.result core .iouIor x.ready (BitVec.ofNat 128 (beNat b)), accessFault s core x .io false n)
  else
    match accessFault s core x .io false 1 with
    | some f => (s.result core .iouIor x.ready 0, some f)
    | none =>
      let r := portRead s core a
      if n = 8 ∧ wideports a then
        let d := r.2.random 8
        (d.2.result core .iouIor x.ready (BitVec.ofNat 128 (beNat d.1)), none)
      else (r.2.result core .iouIor x.ready r.1, none)

/-- Write bytes in the result window, those on whose addresses `ok` permits. -/
def windowWrite (s : State) (core : Nat) (ok : Nat → Bool) (a : Nat) (b : Bytes) : State :=
  match s.windowSlot core with
  | none => s
  | some (k, x) =>
    let put := fun (m : List (Nat × Byte)) (i : Nat) =>
      let o := a + i - 0x6000
      if ok (a + i) ∧ 0x6000 ≤ a + i ∧ o < x.windowSize then tabPut 0 m o (b.getD i 0) else m
    s.putSlot k { x with window := (List.range b.length).foldl put x.window }

/-- A write in I/O space. An 8-byte write leaves the upper half of a 128-bit port open (log entry 6). -/
def ioWriteAccess (s : State) (core : Nat) (x : Access) (n : Nat) (v : Word128) : State × Option FaultAt :=
  let a := x.addr
  if inWindow a then
    let ok := fun (y : Nat) => (s.checkAt core x.windows .io true y).isNone
    (windowWrite s core ok a (beBytes n v.toNat), accessFault s core x .io true n)
  else
    match accessFault s core x .io true 1 with
    | some f => (s, some f)
    | none =>
      let (v1, s1) := if n = 8 ∧ wideports a then
          let d := s.random 8
          (BitVec.ofNat 128 (beNat d.1 * 2 ^ 64 + v.toNat % 2 ^ 64), d.2)
        else (v, s)
      let r := portWrite s1 core x.pc a v1
      (r.1, r.2.map (fun k => { kind := k, addr := a, space := .io, write := true }))

/-- An I/O access. -/
def ioAccess (s : State) (core : Nat) (x : Access) : State × Option FaultAt :=
  let bad := x.computed && (s.core core).entered && !computedIo x.addr
  match x.op with
  | .ioRead n =>
    if bad then (s.result core .iouIor x.ready 0, some { kind := 6, addr := x.addr, space := .io, write := false })
    else ioReadAccess s core x n
  | .ioWrite n v =>
    if bad then (s, some { kind := 6, addr := x.addr, space := .io, write := true }) else ioWriteAccess s core x n v
  | _ => (s, none)

/-- Perform one access; a fault stops the task (R216). -/
def performAccess (s : State) (core : Nat) (x : Access) : State :=
  let s0 := s.modCore core (fun c => { c with accesses := c.accesses.erase x })
  let (s1, f) := match x.op with
    | .load _ | .loadReserved | .store .. | .storeConditional _ => dataAccess s0 core x
    | .ioRead _ | .ioWrite .. => ioAccess s0 core x
    | _ => bitAccess s0 core x
  match f with
  | some f => stopCore s1 core (.protection f.kind) x.pc f
  | none => s1

/-- The core's next access: the earliest due, in issue order. -/
def Core.nextAccess (c : Core) : Option Access := minBy (fun x => x.due) c.accesses

/-- DELAYED_ACCESS_PERFORM (R167): no bundle still to issue comes before the access. -/
def execDelayedAccessPerform (core : Nat) (s : State) : Host.Outcome State Fault Refusal :=
  let c := s.core core
  match c.nextAccess with
  | none => .next s
  | some x => if x.due < c.time ∨ c.stall ≠ .none then .next (performAccess s core x) else .next s

/-! ### Issue -/

/-- The core fetches: its die is up, it is neither withdrawn nor quarantined, and its instruction space is loaded. -/
def State.coreRuns (s : State) (core : Nat) : Bool :=
  if core < 128 then decide (s.dev.state = .service ∨ s.dev.state = .standby) && s.unitOk (srcTc core) && s.districtUp (districtOfTc core)
  else if core < 132 then s.folioRuns && s.unitOk (srcCc (core - 128))
  else decide (core = 132) && decide (s.dev.state ≠ .reset)

/-- What a bundle of the core sees. -/
def State.issueEnv (s : State) (core : Nat) : IssueEnv :=
  let c := s.core core
  { kind := coreKind core, tasked := c.entered, mayEnter := c.task.isSome && !c.entered,
    flags := ((s.taskOf core).map (fun t => (t.2.1.node t.2.2).flags)).getD 0,
    word := fun i => tabGet 0 c.imem i, check := s.checkAt core (s.mpu core).windows, windows := (s.mpu core).windows,
    free := (s.random 64).1 }

/-- The function's entry on the core's block (R186, R197): its address, and whether it is privileged. -/
def State.entryOf (s : State) (core : Nat) (x : Slot) (n : Nat) : Option Nat :=
  (s.cores.library.find x.tenant x.func).map (fun r =>
    tabGet 0 r.addr (core / 8) + r.entry.nodes.getD (if isGraph x.func then (x.node n).prog else 0) 0)

/-- ENTER (R186, R187, R213): the function's first bundle issues 8 cycles after the ENTER bundle, whose next bundle the core `c`
would have issued. -/
def enterTask (s : State) (core : Nat) (c : Core) : State :=
  match s.taskOf core with
  | none => s.putCore core c
  | some (_, x, n) =>
    let priv := decide (x.func < 0x8000)
    let budget := x.cost.span * ceilDiv x.cost.core x.cost.span
    let time := c.time + 7
    let s1 := s.putCore core { c with entered := true, privileged := priv, pc := (s.entryOf core x n).getD 0, time := time,
                                      budget := budget - (time - c.givenAt), ctl := { c.ctl with loops := [] } }
    let segs := s.taskSegments core x priv
    let s2 := s1.modMpu core (fun m => { m with tenant := x.tenant, privileged := priv, segments := segs, windows := [] })
    if overlapping segs then stopCore s2 core (.protection 5) (s1.core core).pc { kind := 5, addr := 0, space := .data, write := false }
    else s2

/-- A bundle whose moves have taken effect; `ms` its moves, `stalled` the cycles it stood at issue. -/
def finishIssue (s : State) (core : Nat) (ms : List Move) (stalled : Nat) (pc : Nat) (a : Acc) : Host.Outcome State Fault Refusal :=
  if a.firmwareIo then .refused .firmwareIoUndescribed
  else
    let c0 := s.core core
    let s0 := if a.drew then (s.random 64).2 else s
    let live := (ms.filter (fun m => c0.guard m)).length
    let s1 := if core < 128 then ((s0.pmcTc core 0x12 stalled).pmcTc core 0x14 1).pmcTc core 0x15 live else s0
    match a.fault with
    | some f => .next (stopCore (s1.putCore core a.c) core (.protection f.kind) pc f)
    | none => if a.enter.isSome then .next (enterTask s1 core a.c) else .next (s1.putCore core a.c)

/-- Issue the bundle at the core's pc, once its stalls are over. -/
def issueBundle (s : State) (core : Nat) : Host.Outcome State Fault Refusal :=
  let c := s.core core
  let env := s.issueEnv core
  match decodeBundle env.word c.pc with
  | none => .next (stopCore s core .bundle c.pc noAddress)
  | some (ms, next) =>
    let t := stallTo c ms c.time
    let stalled := t - c.time
    if c.accesses.any (fun x => decide (x.due < t)) ∨ (c.entered ∧ c.budget ≤ stalled) then .next s
    else
      match issue env (c.pass stalled) ms next with
      | .ok a => finishIssue s core ms stalled c.pc a
      | .illegalBundle => .next (stopCore s core .bundle c.pc noAddress)
      | .illegalMove => .next (stopCore s core .move c.pc noAddress)
      | .waiting mask => .next (s.putCore core { (c.pass stalled) with stall := .waitf mask (t + c.ctl.wb) })

/-- BUNDLE_ISSUE (R152, R165). -/
def execBundleIssue (core : Nat) (s : State) : Host.Outcome State Fault Refusal :=
  if s.coreRuns core ∧ (s.core core).stall = .none then issueBundle s core else .next s

/-- The flags of the core's task satisfy a mask. -/
def State.satisfies (s : State) (core : Nat) (mask : BitVec 32) : Bool := (s.issueEnv core).flags &&& mask == mask

/-- WAITF_SATISFIED (R183): after `cycles` of waiting the mask is satisfied, and the bundle issues. -/
def execWaitfSatisfied (core cycles : Nat) (s : State) : Host.Outcome State Fault Refusal :=
  let c := s.core core
  match c.stall with
  | .waitf mask until_ =>
    if s.coreRuns core ∧ s.satisfies core mask ∧ c.time + cycles ≤ until_ ∧ ¬ (c.entered ∧ c.budget ≤ cycles) ∧
        ¬ c.accesses.any (fun x => decide (x.due < c.time + cycles)) then
      let s1 := if core < 128 then (s.pmcTc core 0x13 cycles).pmcTc core 0x12 cycles else s
      issueBundle (s1.putCore core { (c.pass cycles) with stall := .none }) core
    else .next s
  | _ => .next s

/-- WAIT_BOUND_EXPIRY (R183): the bound passes before the mask is satisfied, and before the budget. -/
def execWaitBoundExpiry (core : Nat) (s : State) : Host.Outcome State Fault Refusal :=
  let c := s.core core
  match c.stall with
  | .waitf mask until_ =>
    if s.satisfies core mask ∨ (c.entered ∧ c.budget < until_ - c.time) then .next s
    else .next (stopCore (s.putCore core (c.pass (until_ - c.time))) core .wait c.pc noAddress)
  | _ => .next s

/-- The budget of the core's task has run out, or runs out while the core waits (R115, R187). -/
def State.budgetOut (s : State) (core : Nat) : Bool :=
  let c := s.core core
  c.entered && match c.stall with
    | .waitf mask until_ => !s.satisfies core mask && decide (c.budget < until_ - c.time)
    | .none =>
      match decodeBundle (fun i => tabGet 0 c.imem i) c.pc with
      | some (ms, _) => decide (c.budget ≤ stallTo c ms c.time - c.time)
      | none => decide (c.budget = 0)
    | _ => false

/-- BUDGET_EXPIRY (R115). -/
def execBudgetExpiry (core : Nat) (s : State) : Host.Outcome State Fault Refusal :=
  let c := s.core core
  if s.budgetOut core then .next (stopCore (s.putCore core (c.pass c.budget)) core .overrun c.pc noAddress) else .next s

/-- BTEST_COMPLETE (R185). -/
def execBtestComplete (core : Nat) (pass : Bool) (s : State) : Host.Outcome State Fault Refusal :=
  let c := s.core core
  if c.stall = .btest then
    .next (s.putCore core { c with stall := .none, time := c.time + 10240, bits := [], ctl := { c.ctl with btestPass := pass } })
  else .next s

/-! ### Commands of the Square and the windows -/

/-- TASK_GIVE (R137, R138): the first ready entry of a block goes to the core that has waited longest. -/
def execTaskGive (block : Nat) (s : State) : Host.Outcome State Fault Refusal :=
  match s.readyFor block, s.taker block with
  | some e, some core => .next (giveTask s core e)
  | _, _ => .next s

/-- TAKE. -/
def execTake (core : Nat) (s : State) : Host.Outcome State Fault Refusal := .next (takeOp s core)

/-- FLAG_CLR. -/
def execFlagClr (core : Nat) (value : Word64) (s : State) : Host.Outcome State Fault Refusal := .next (flagClrOp s core value)

/-- DELAY. -/
def execDelay (core : Nat) (value : Word64) (s : State) : Host.Outcome State Fault Refusal := .next (delayOp s core value)

/-- DONE. -/
def execDoneTask (core : Nat) (value : Word64) (s : State) : Host.Outcome State Fault Refusal := .next (doneOp s core value)

/-- A protection fault of a port of the core at address `a`. -/
def portFault (s : State) (core kind a : Nat) : State :=
  stopCore s core (.protection kind) (s.core core).pc { kind := kind, addr := a, space := .io, write := true }

/-- The state after a port operation, or a protection fault of the kind given. -/
def orFault (o : Option State) (s : State) (core kind a : Nat) : Host.Outcome State Fault Refusal :=
  match o with
  | some t => .next t
  | none => .next (portFault s core kind a)

/-- WIN_SET (R215). -/
def execWinSet (core : Nat) (value : Word128) (s : State) : Host.Outcome State Fault Refusal :=
  orFault (winSetOp s core value) s core 4 0x68

/-- WIN_CLR (R215). -/
def execWinClr (core : Nat) (value : Word64) (s : State) : Host.Outcome State Fault Refusal := .next (winClrOp s core value)

/-! ### Commands of the key-store ports -/

/-- KLOOK (R259, R260). -/
def execKlook (core : Nat) (value : Word64) (s : State) : Host.Outcome State Fault Refusal := .next (klookOp s core value)

/-- KUNWRAP (R260, R266). -/
def execKunwrap (core : Nat) (value : Word64) (s : State) : Host.Outcome State Fault Refusal :=
  orFault (kunwrapOp s core value) s core 8 0x108

/-- KDLOOK (R265). -/
def execKdlook (core : Nat) (value : Word64) (s : State) : Host.Outcome State Fault Refusal := .next (kdlookOp s core value)

/-- KDSTORE (R265). -/
def execKdstore (core : Nat) (value : Word64) (s : State) : Host.Outcome State Fault Refusal := .next (kdstoreOp s core value)

/-- CADV (R264): the 64 bits written, over the IOD operand. -/
def execCadv (core : Nat) (value : Word64) (s : State) : Host.Outcome State Fault Refusal :=
  let high := (s.core core).iou.iod.toNat / 2 ^ 64
  .next (cadvOp s core (BitVec.ofNat 128 (high * 2 ^ 64 + value.toNat)))

/-- KREL (R265). -/
def execKrel (core : Nat) (value : Word64) (s : State) : Host.Outcome State Fault Refusal := .next (krelOp s core value)

/-- KEY_REQUEST_COMPLETE (R266). -/
def execKeyRequestComplete (core : Nat) (s : State) : Host.Outcome State Fault Refusal :=
  if tabGet false s.cores.keyBusy core then
    .next ({ s with cores := { s.cores with keyBusy := tabPut false s.cores.keyBusy core false } }.taskFlag core flagKeyResident true)
  else .next s

/-- UNWRAP_COMPLETE (R260, R266). -/
def execUnwrapComplete (core : Nat) (s : State) : Host.Outcome State Fault Refusal := .next (unwrapOp s core)

/-! ### Commands of the big-number ports (R280 to R285, R297) -/

/-- The address of a port of handle `h`. -/
def bnPort (h o : Nat) : Nat := 0x400 + 0x40 * h + o

/-- BOPEN. -/
def execBopen (core handle : Nat) (value : Word64) (s : State) : Host.Outcome State Fault Refusal :=
  orFault (if handle < 4 then bopenOp s core handle value.toNat else some s) s core 8 (bnPort handle 0)

/-- BPTR. -/
def execBptr (core handle : Nat) (value : Word64) (s : State) : Host.Outcome State Fault Refusal :=
  orFault (if handle < 4 then bptrOp s core handle value.toNat else some s) s core 8 (bnPort handle 8)

/-- BIN. -/
def execBin (core handle : Nat) (value : Word128) (s : State) : Host.Outcome State Fault Refusal :=
  orFault (if handle < 4 then binOp s core handle value else some s) s core 8 (bnPort handle 0x10)

/-- BOUT: the 16 bytes go to IOR, readable 8 cycles after the read issues. -/
def execBout (core handle : Nat) (s : State) : Host.Outcome State Fault Refusal :=
  if 4 ≤ handle ∨ 128 ≤ core then .next s
  else
    let r := boutOp s core handle
    .next (r.2.result core .iouIor ((s.core core).time + 8) r.1)

/-- BGO. -/
def execBgo (core handle : Nat) (value : Word64) (s : State) : Host.Outcome State Fault Refusal :=
  orFault (if handle < 4 then bgoOp s core handle value.toNat none else some s) s core 8 (bnPort handle 0x20)

/-- BABORT. -/
def execBabort (core handle : Nat) (s : State) : Host.Outcome State Fault Refusal := .next (babortOp s core handle)

/-- BREL. -/
def execBrel (core handle : Nat) (s : State) : Host.Outcome State Fault Refusal := .next (brelOp s core handle)

/-! ### Commands of the big-number engines (R287 to R302) -/

/-- RSA_PUB_2048 to RSA_PUB_4096. -/
def execRsaPub (engine : Nat) (s : State) : Host.Outcome State Fault Refusal := .next (runOp [1, 2, 3] engine s)
/-- RSA_PRIV_2048 to RSA_PRIV_4096, paired. -/
def execRsaPriv (engine : Nat) (s : State) : Host.Outcome State Fault Refusal := .next (runOp [5, 6, 7] engine s)
/-- ML_KEM_KEYGEN. -/
def execMlKemKeygen (engine : Nat) (s : State) : Host.Outcome State Fault Refusal := .next (runOp [0x20] engine s)
/-- ML_KEM_ENCAPS. -/
def execBnMlKemEncaps (engine : Nat) (s : State) : Host.Outcome State Fault Refusal := .next (runOp [0x21] engine s)
/-- ML_KEM_DECAPS. -/
def execBnMlKemDecaps (engine : Nat) (s : State) : Host.Outcome State Fault Refusal := .next (runOp [0x22] engine s)
/-- ML_DSA_KEYGEN. -/
def execMlDsaKeygen (engine : Nat) (s : State) : Host.Outcome State Fault Refusal := .next (runOp [0x28] engine s)
/-- ML_DSA_SIGN. -/
def execBnMlDsaSign (engine : Nat) (s : State) : Host.Outcome State Fault Refusal := .next (runOp [0x29] engine s)
/-- ML_DSA_VERIFY. -/
def execBnMlDsaVerify (engine : Nat) (s : State) : Host.Outcome State Fault Refusal := .next (runOp [0x2A] engine s)
/-- ECDSA_SIGN. -/
def execEcdsaSign (engine : Nat) (s : State) : Host.Outcome State Fault Refusal := .next (runOp [0x10] engine s)
/-- ECDSA_VERIFY. -/
def execEcdsaVerify (engine : Nat) (s : State) : Host.Outcome State Fault Refusal := .next (runOp [0x11] engine s)
/-- ECDH. -/
def execEcdh (engine : Nat) (s : State) : Host.Outcome State Fault Refusal := .next (runOp [0x12] engine s)
/-- EC_KEYGEN. -/
def execEcKeygen (engine : Nat) (s : State) : Host.Outcome State Fault Refusal := .next (runOp [0x13] engine s)
/-- EC_POINT_CHECK. -/
def execEcPointCheck (engine : Nat) (s : State) : Host.Outcome State Fault Refusal := .next (runOp [0x14] engine s)
/-- An iteration beyond the sixteenth (R299). -/
def execMlDsaIteration (engine : Nat) (s : State) : Host.Outcome State Fault Refusal := .next (mlDsaIterationOp s engine)
/-- BN_JOB_COMPLETE (R290). -/
def execBnJobComplete (engine : Nat) (s : State) : Host.Outcome State Fault Refusal := .next (bnCompleteOp s engine)
/-- BANK_CLEAR_COMPLETE (R297). -/
def execBankClearComplete (engine bank : Nat) (s : State) : Host.Outcome State Fault Refusal := .next (bankClearOp s engine bank)
/-- BN_SLICE_END (R292). -/
def execBnSliceEnd (engine : Nat) (progress : Nat) (s : State) : Host.Outcome State Fault Refusal := .next (sliceEndOp s engine progress)
/-- CURVE_VALIDATION_COMPLETE (R302). -/
def execCurveValidationComplete (engine : Nat) (s : State) : Host.Outcome State Fault Refusal := .next (validationOp s engine)

/-! ### Commands of the random and bulk ports -/

/-- RREQ (R339, R340). -/
def execRreq (core : Nat) (value : Word64) (s : State) : Host.Outcome State Fault Refusal :=
  orFault (rreqOp s core value.toNat) s core 8 0x200

/-- RTEN (R339, R340). -/
def execRten (core : Nat) (value : Word64) (s : State) : Host.Outcome State Fault Refusal :=
  orFault (rtenOp s core value.toNat) s core 8 0x208

/-- BKSUB (R320). -/
def execBksub (core : Nat) (value : Word64) (s : State) : Host.Outcome State Fault Refusal :=
  orFault (bksubOp s core value none) s core 8 0x800

/-- BULK_SUBMISSION_ANSWER (R320). -/
def execBulkSubmissionAnswer (core : Nat) (s : State) : Host.Outcome State Fault Refusal := .next (bulkAnswerOp s core)

/-- BULK_JOB_START (R323). -/
def execBulkJobStart (s : State) : Host.Outcome State Fault Refusal := .next (startJob s)

/-- BULK_JOB_COMPLETE (R321, R323): the job's completion is the reply's commit point. -/
def execBulkJobComplete (slot : Nat) (s : State) : Host.Outcome State Fault Refusal :=
  match s.jobOf slot with
  | none => .next s
  | some j =>
    if ¬ (j.running ∧ j.handed) then .next s
    else
      let s1 := countJob s j
      let (o, s2) := finishJob s1 j
      .next (accept (removeJob s2 j) slot o.status o.result)

end Sys2Proof.Machine
end

