-- ==== Sys2Proof/Machine/Prove.lean ====
section
/-! DEFINITION. The proof that the device makes of a function program at library load (R199, R202 to R204, R279): the rules of
Table 7.3 that concern the code, the cycles of Table 7.5, the longest path, the declared amounts and the open handles. -/

namespace Sys2Proof.Machine

/-! ### Node programs -/

/-- A bundle of a node program, at its byte offset in the function's code. -/
structure Bun where
  off : Nat
  next : Nat
  moves : List Move
  deriving DecidableEq, Repr

/-- The move of a bundle's slot of `group`; a bundle has at most one (R156). -/
def Bun.slot (b : Bun) (group : Nat) : Option Move := b.moves.find? (fun m => m.group == group)

/-- The move to port `d` of `group`. -/
def Bun.moveTo (b : Bun) (group d : Nat) : Option Move := (b.slot group).filter (fun m => m.dest == d)

/-- The immediate of a source. -/
def Src.imm? : Src → Option Word64
  | .imm v => some v
  | _ => none

/-- Guard 0000. -/
def Move.always (m : Move) : Bool := !m.inv && m.pred == 0

/-- Guard 1000: never executed. -/
def Move.never (m : Move) : Bool := m.inv && m.pred == 0

/-- The immediate moved to port `d` of `group`. -/
def Bun.immTo (b : Bun) (group d : Nat) : Option Word64 := (b.moveTo group d).bind (fun m => m.src.imm?)

/-- A node program: its bundles in address order, with the base address of the function's code and the tables of its entry. -/
structure Prog where
  base : Nat
  waits : List WaitEntry
  subs : List SubEntry
  bundles : List Bun

/-- Bundles from offset `o` to `end_` of code laid down at `base`, and whether all of it decodes. Bundles are read one after
another from the node's first (log entry 40). -/
def decodeNode (words : List Word32) (base end_ : Nat) : Nat → Nat → List Bun × Bool
  | 0, _ => ([], true)
  | fuel + 1, o =>
    if end_ ≤ o then ([], true)
    else
      match decodeBundle (fun k => (words[k - base / 4]?).getD 0) (base + o) with
      | none => ([], false)
      | some (ms, n) =>
        if end_ < n - base then ([], false)
        else
          let r := decodeNode words base end_ fuel (n - base)
          ({ off := o, next := n - base, moves := ms } :: r.1, r.2)

def Prog.at_ (p : Prog) (o : Nat) : Option Bun := p.bundles.find? (fun b => b.off == o)

/-- The bundle that ends where `b` begins. -/
def Prog.before (p : Prog) (b : Bun) : Option Bun := p.bundles.find? (fun c => c.next == b.off)

/-! ### Jumps and loops -/

/-- The jump of a bundle: its move, and the code offset it goes to when its source is an immediate (R181). -/
def Prog.jump (p : Prog) (b : Bun) : Option (Move × Option Int) :=
  match b.moveTo 7 0, b.moveTo 7 1 with
  | some m, _ => some (m, m.src.imm?.map (fun v => (v.toNat : Int) - (p.base : Int)))
  | _, some m => some (m, m.src.imm?.map (fun v => (b.off : Int) + 4 * v.toInt))
  | _, _ => none

/-- The offset that a bundle may jump to. -/
def Prog.target (p : Prog) (b : Bun) : Option Nat :=
  match p.jump b with
  | some (m, some t) => if m.never ∨ t < 0 then none else some t.toNat
  | _ => none

/-- Control can pass to the next bundle. -/
def Prog.falls (p : Prog) (b : Bun) : Bool :=
  match p.jump b with
  | some (m, _) => !m.always
  | none => true

/-- A counted loop: the LOOP bundle, its body's first and last bundle, and its count. -/
structure LoopAt where
  at_ : Nat
  first : Nat
  last : Nat
  count : Nat
  deriving DecidableEq, Repr

def Prog.loopOf (p : Prog) (b : Bun) : Option LoopAt :=
  match b.immTo 7 3 with
  | some v =>
    let n := ((p.before b).bind (fun c => c.immTo 7 2)).getD 0
    some { at_ := b.off, first := b.next, last := v.toNat - p.base, count := n.toNat % 65536 }
  | none => none

def Prog.loops (p : Prog) : List LoopAt := p.bundles.filterMap p.loopOf

/-- Offset `o` lies in the body. -/
def LoopAt.has (l : LoopAt) (o : Nat) : Bool := decide (l.first ≤ o ∧ o ≤ l.last)

/-- A DONE bundle (R199). -/
def Bun.isDone (b : Bun) : Bool := (b.immTo 2 3).map (fun v => v.toNat % 65536) == some 0x20

/-- The offsets that may follow a bundle within its node; the last bundle of a loop body also returns to its first. -/
def Prog.succs (p : Prog) (b : Bun) : List Nat :=
  if b.isDone then []
  else
    let jump := (p.target b).toList
    let fall := if p.falls b then [b.next] else []
    let back := if p.falls b then (p.loops.filter (fun l => l.last == b.off && decide (1 ≤ l.count))).map (·.first) else []
    match p.loopOf b with
    | some l =>
      if l.count = 0 then ((p.at_ l.last).map (·.next)).toList else [l.first]
    | none => jump ++ fall ++ back

/-! ### The rules of Table 7.3 -/

/-- The I/O address of an immediate IOU trigger. -/
def Bun.ioAt (b : Bun) : Option Nat :=
  match b.slot 2 with
  | some m => if 1 ≤ m.dest ∧ m.dest ≤ 4 then m.src.imm?.map (fun v => v.toNat % 65536) else none
  | none => none

/-- Reason 3, second case: a guard other than 0000 on LOOP, on WAITF, or on the LCNT or WB before them. -/
def Prog.guardBad (p : Prog) (b : Bun) : Bool :=
  let pair := fun (d operand : Nat) => match b.moveTo 7 d with
    | some m => !m.always || (match (p.before b).bind (fun c => c.moveTo 7 operand) with
        | some o => !o.always
        | none => false)
    | none => false
  pair 3 2 || pair 5 4

/-- Reason 4: a move to a forbidden port, TAKE, or an immediate that its port refuses (R171, R173, R175, R177, R181). -/
def Prog.forbidden (p : Prog) (b : Bun) (m : Move) : Bool :=
  let bad := fun (v : Word64) =>
    let n := v.toNat
    match m.group with
    | 2 => decide (1 ≤ m.dest ∧ m.dest ≤ 4) && (n % 65536 == 0 || (!inWindow (n % 65536) && n % 8 != 0))
    | 3 => ((m.dest == 6 || m.dest == 7) && n % 64 != 0) || (decide (0x11 ≤ m.dest ∧ m.dest ≤ 0x17) && decide (65535 < n))
    | 4 => m.dest == 3 && (keyTypeOf n).isNone
    | 5 => m.dest == 4 && (match hashAlgOf n with
        | none => true
        | some alg => alg == .hmac256 && decide (64 < bitsOf n 14 8))
    | 7 =>
      match m.dest with
      | 0 => n % 4 != 0 || decide (4 * imemWords ≤ n)
      | 1 => decide ((p.base : Int) + b.off + 4 * v.toInt < 0 ∨ (4 * imemWords : Int) ≤ p.base + b.off + 4 * v.toInt)
      | 4 => n % 2 ^ 32 == 0
      | _ => false
    | _ => false
  (m.group == 7 && ([6, 7, 8, 9, 0x10, 0x11].contains m.dest || decide (0x18 ≤ m.dest ∧ m.dest ≤ 0x1D))) ||
    (m.src.imm?.map bad).getD false

/-- Reason 5. -/
def Prog.flowBad (p : Prog) (b : Bun) : Bool :=
  match p.jump b with
  | none => false
  | some (_, none) => true
  | some (_, some t) =>
    decide (t ≤ (b.off : Int)) || (p.at_ t.toNat).isNone ||
      p.loops.any (fun l => l.has t.toNat && !l.has b.off)

/-- Some bundle jumps to offset `o`. -/
def Prog.jumpedTo (p : Prog) (o : Nat) : Bool := p.bundles.any (fun c => p.target c == some o)

/-- The operand bundle directly before `b`: every path into `b` comes from it. -/
def Prog.operand (p : Prog) (b : Bun) (d : Nat) : Option Word64 :=
  if p.jumpedTo b.off || p.loops.any (fun l => l.first == b.off) then none else (p.before b).bind (fun c => c.immTo 7 d)

/-- Reason 6 (R182). -/
def Prog.loopBad (p : Prog) (b : Bun) : Bool :=
  match b.moveTo 7 3 with
  | none => false
  | some m =>
    match m.src.imm? with
    | none => true
    | some v =>
      let last := v.toNat - p.base
      let around := p.loops.filter (fun l => l.has b.off)
      (p.operand b 2).isNone || decide (v.toNat < p.base + b.next) || (p.at_ last).isNone ||
        around.any (fun l => !l.has last) || decide (4 ≤ around.length)

/-- The mask and the bound of a wait (Table 7.4, R266, R291, R320, R337); `none`: no such wait. -/
def waitRule (periodUs kind param : Nat) (mask : Nat) : Option Nat :=
  let when_ := fun (m bound : Nat) => if mask = m then some bound else none
  match kind with
  | 1 => when_ 0x10 48
  | 2 =>
    let n := param % 2 ^ 14
    match param / 2 ^ 14 with
    | 0 => when_ 0x20 (160 + 52 * ceilDiv n 8)
    | 1 | 2 => when_ 0x20 (96 + 8 * ceilDiv n 16)
    | _ => none
  | 3 =>
    let n := param % 512
    if param.testBit 15 then when_ 0x40 (512 + ceilDiv n 4) else when_ 0x40 (64 + 256 * n)
  | 4 =>
    let op := param % 256
    let cv := param / 256
    let row := if cv = 4 then 7 else cv
    if opDefined op ∧ (0x100 = mask ∨ 0x200 = mask ∨ 0x400 = mask ∨ 0x800 = mask) then some (opT op row 128 + 3264) else none
  | 5 => when_ 0x80 64
  | 6 => when_ 0x8 (25 * periodUs * param + 278)
  | _ => none

/-- Reason 7. -/
def Prog.waitBad (p : Prog) (periodUs : Nat) (b : Bun) : Bool :=
  match b.moveTo 7 5 with
  | none => false
  | some m =>
    match p.waits.find? (fun w => w.offset == b.off), m.src.imm?, p.operand b 4 with
    | some w, some v, some wb =>
      match waitRule periodUs w.kind w.param v.toNat with
      | some bound => decide (wb.toNat % 2 ^ 32 < bound)
      | none => true
    | _, _, _ => true

/-- The class that a submission port takes: none where the port is no submission port, `some none` where the spec names no
class for it (log entry 40). -/
def submissionClass (a : Nat) : Option (Option Nat) :=
  if [0x100, 0x108, 0x110, 0x118, 0x1C8].contains a then some none
  else if a = 0x200 ∨ a = 0x208 then some (some 3)
  else if [0x420, 0x460, 0x4A0, 0x4E0].contains a then some (some 1)
  else if a = 0x800 then some (some 2)
  else none

/-- Reason 8. -/
def Prog.subBad (p : Prog) (b : Bun) : Bool :=
  match b.ioAt.bind submissionClass with
  | none => false
  | some want =>
    match p.subs.find? (fun e => e.offset == b.off) with
    | none => true
    | some e => (want.map (fun c => c != e.cls)).getD false

/-- What a slot can write: register numbers from 0, wide registers from 100, predicates from 200 (R155). -/
def Move.writes (m : Move) : List Nat :=
  let preds := (List.range 7).map (· + 201)
  if 0xC0 ≤ m.dest then (if m.dest < 0xE0 then [m.dest - 0xC0] else [100 + (m.dest - 0xE0)])
  else if m.group = 0 ∧ 0x40 ≤ m.dest then (let q := (m.dest - 0x40) % 8; if q = 0 then [] else [200 + q])
  else if m.group = 3 then
    if 0x11 ≤ m.dest then [200 + (m.dest - 0x10)]
    else if (2 ≤ m.dest ∧ m.dest ≤ 5) ∨ m.dest = 7 then
      match m.src.imm? with
      | none => preds
      | some v => if m.dest = 7 then (if v.toNat = 0 then preds else []) else preds.filter (fun q => decide (q = 200 + v.toNat))
    else []
  else []

/-- Reason 9. -/
def conflict : List Move → Bool
  | [] => false
  | m :: t =>
    t.any (fun n => m.writes.any (fun w => n.writes.contains w) && !(m.pred == n.pred && m.inv != n.inv)) || conflict t

/-- Offsets reachable from offset 0 of the node, in one pass over the bundles for each nesting of jumps: every edge of a node
goes forward, but for the returns of loops, which reach nothing new. -/
def Prog.reach (p : Prog) : List Nat :=
  match p.bundles with
  | [] => []
  | b :: _ => p.bundles.foldl (fun r c => if r.contains c.off then r ++ (p.succs c).filter (fun o => decide (c.off < o)) else r) [b.off]

/-- Reason 10: some path leaves the node before a DONE bundle. -/
def Prog.noDone (p : Prog) : Bool := p.reach.any (fun o => (p.at_ o).isNone)

/-! ### Longest paths (R203, R204) -/

/-- What reaches a bundle on some path: whether any does, a TDES key type in force, cycles since KSET (at most 3), INIT's
values (`none` is one that is no immediate), the sets of open handles, and IOD. -/
structure Flow where
  live : Bool := false
  tdes : Bool := false
  kset : Nat := 3
  init : List (Option Nat) := []
  opens : List Nat := []
  iod : List (Option Nat) := []
  deriving DecidableEq, Repr

def union {α : Type} [BEq α] (a b : List α) : List α := a ++ b.filter (fun x => !a.contains x)

def Flow.join (a b : Flow) : Flow :=
  { live := a.live || b.live, tdes := a.tdes || b.tdes, kset := min a.kset b.kset, init := union a.init b.init,
    opens := union a.opens b.opens, iod := union a.iod b.iod }

/-- Handles that BOPEN opens: two for a paired operation, and for an operation that is no immediate on an even handle. -/
def opened (h : Nat) (iod : List (Option Nat)) : Nat :=
  let paired := h % 2 = 0 ∧ iod.any (fun o => match o with
    | none => true
    | some v => isPairedOp (v % 256))
  if paired then 2 ^ h + 2 ^ (h + 1) + 2 ^ (4 + h) else 2 ^ h

/-- A set of open handles, bit h for handle h and bit 4 + h for a paired operation on h and h + 1, without handle `h` after
BREL: both halves of a paired operation go. -/
def released (s h : Nat) : Nat :=
  let e := h / 2 * 2
  let gone := if s.testBit (4 + e) then [e, e + 1, 4 + e] else [h]
  gone.foldl (fun s i => if s.testBit i then s - 2 ^ i else s) s

/-- The sets of open handles after the I/O move of a bundle. -/
def handleStep (f : Flow) (b : Bun) : List Nat :=
  match b.slot 2, b.ioAt with
  | some m, some a =>
    if 0x400 ≤ a ∧ a < 0x500 ∧ 3 ≤ m.dest ∧ ¬ m.never then
      let h := (a - 0x400) / 64
      let port := a % 64
      let after :=
        if port = 0 then f.opens.map (fun s => Nat.lor s (opened h f.iod))
        else if port = 0x38 then f.opens.map (fun s => released s h)
        else f.opens
      if m.always then after else union f.opens after
    else f.opens
  | _, _ => f.opens

/-- The least cycles from a bundle to the next one. -/
def Bun.least (b : Bun) : Nat :=
  match b.moveTo 7 0x0A with
  | some m =>
    match m.always, m.src.imm? with
    | true, some v => max 1 (v.toNat % 65536)
    | _, _ => 1
  | none => 1

/-- The flow after a bundle. -/
def Flow.step (f : Flow) (b : Bun) : Flow :=
  let aged := min 3 (f.kset + b.least)
  let f1 : Flow := match b.moveTo 4 3 with
    | none => { f with kset := aged }
    | some m =>
      let t := match m.src.imm? with
        | none => true
        | some v => decide (3 ≤ v.toNat % 8)
      if m.never then { f with kset := aged }
      else { f with tdes := t || (f.tdes && !m.always), kset := min (if m.always then 3 else aged) b.least }
  let f2 : Flow := match b.moveTo 5 4 with
    | none => f1
    | some m =>
      if m.never then f1
      else
        let v := m.src.imm?.map (fun v => v.toNat)
        { f1 with init := if m.always then [v] else union f.init [v] }
  let f3 : Flow := match b.moveTo 2 0 with
    | none => f2
    | some m =>
      if m.never then f2
      else
        let v := m.src.imm?.map (fun v => v.toNat)
        { f2 with iod := if m.always then [v] else union f.iod [v] }
  { f3 with opens := handleStep f b }

/-- One pass over the bundles in address order. -/
def Prog.flowPass (p : Prog) (t : List (Nat × Flow)) : List (Nat × Flow) :=
  p.bundles.foldl (fun t b =>
    let f := tabGet {} t b.off
    if f.live then (p.succs b).foldl (fun t o => tabPut {} t o ((tabGet {} t o).join (f.step b))) t else t) t

def Prog.flowLoop (p : Prog) : Nat → List (Nat × Flow) → List (Nat × Flow)
  | 0, t => t
  | fuel + 1, t =>
    let u := p.flowPass t
    if u = t then t else Prog.flowLoop p fuel u

/-- The flow at every bundle. A loop's returns change at most what its body sets, so a few passes reach it. -/
def Prog.flow (p : Prog) : List (Nat × Flow) :=
  match p.bundles with
  | [] => []
  | b :: _ => p.flowLoop 600 [(b.off, { live := true, opens := [0], iod := [none] })]

/-- The compression latency that an ABSORB counts. -/
def absorbLatency (init : List (Option Nat)) : Nat :=
  match init with
  | [some v] => ((hashAlgOf v).map hashLatency).getD 81
  | _ => 81

/-- Cycles of a bundle on its fall-through edge (Table 7.5). -/
def Prog.cycles (p : Prog) (flow : List (Nat × Flow)) (b : Bun) : Nat :=
  let f := tabGet {} flow b.off
  let idle := match b.moveTo 7 0x0A with
    | none => 1
    | some m => (m.src.imm?.map (fun v => max 1 (v.toNat % 65536))).getD 65535
  let ctl :=
    if (b.moveTo 7 5).isSome then ((p.operand b 4).map (fun w => w.toNat % 2 ^ 32)).getD 0 + 1
    else match p.loopOf b with
      | some l => if l.count = 0 then 3 else 1
      | none => idle
  let sym := match b.slot 4 with
    | none => 0
    | some m =>
      if m.dest < 3 ∨ 8 ≤ m.dest then 0
      else if f.tdes then 48 else if 4 ≤ m.dest ∧ f.kset ≤ 2 then 2 else 0
  let hash := if (b.moveTo 5 5).isSome then absorbLatency f.init else 0
  ctl + sym + hash

/-- The declared amount of class `cls` at a bundle. -/
def Prog.amount (p : Prog) (cls : Nat) (b : Bun) : Nat :=
  ((p.subs.filter (fun e => e.offset == b.off && e.cls == cls)).map (·.amount)).sum

/-- The largest weight of a path through the bundles of a region: `best` of each bundle outside inner loops. `w` weighs a
bundle, and a taken jump adds `extra`. -/
def Prog.regionBest (p : Prog) (w : Bun → Nat) (extra : Nat) : Nat → List Bun → List (Nat × Nat)
  | 0, _ => []
  | fuel + 1, region =>
    let loops := (region.filterMap p.loopOf).filter (fun l => decide (1 ≤ l.count))
    let outer := region.filter (fun b => !loops.any (fun l => l.has b.off))
    outer.foldr (fun b t =>
      let go := fun (o : Nat) => tabGet 0 t o
      let best :=
        if b.isDone then w b
        else
          match loops.find? (fun l => l.at_ == b.off) with
          | some l =>
            let body := region.filter (fun c => l.has c.off)
            let inner := tabGet 0 (Prog.regionBest p w extra fuel body) l.first
            let exits := body.flatMap (fun c => (p.succs c).filter (fun o => !l.has o))
            w b + l.count * inner + (exits.map go).foldl max 0
          | none =>
            match p.loopOf b with
            | some l => w b + go (((p.at_ l.last).map (·.next)).getD 0)
            | none =>
              let taken := match p.target b with
                | some o => w b + extra + go o
                | none => 0
              max taken (if p.falls b then w b + go b.next else 0)
      tabPut 0 t b.off best) []

/-- The largest weight of a path from the node's first bundle. -/
def Prog.longest (p : Prog) (w : Bun → Nat) (extra : Nat) : Nat :=
  match p.bundles with
  | [] => 0
  | b :: _ => tabGet 0 (p.regionBest w extra 6 p.bundles) b.off

/-- The largest number of handles open at one bundle (R279). -/
def Prog.handles (flow : List (Nat × Flow)) : Nat :=
  let count := fun (s : Nat) => ((List.range 4).filter (fun h => s.testBit h)).length
  (flow.map (fun f => (f.2.opens.map count).foldl max 0)).foldl max 0

/-! ### A function -/

/-- The code offset at which node `i` ends: the next start above its own, or the end of the code. -/
def FnEntry.nodeEnd (e : FnEntry) (start : Nat) : Nat :=
  (e.nodes.filter (fun o => decide (start < o))).foldl min (4 * e.words.length)

/-- The node programs of a function at `base`, and whether all decode. -/
def FnEntry.progs (e : FnEntry) (base : Nat) : List (Prog × Bool) :=
  e.nodes.map (fun o =>
    let r := decodeNode e.words base (e.nodeEnd o) (e.words.length + 1) o
    ({ base := base, waits := e.waits, subs := e.subs, bundles := r.1 }, r.2))

/-- The first reason among 3 to 10 by which a node program is refused; 0 for none. -/
def Prog.reason (p : Prog) (decoded : Bool) (periodUs : Nat) : Nat :=
  let some_ := fun (f : Bun → Bool) => p.bundles.any f
  if !decoded || some_ p.guardBad then 3
  else if some_ (fun b => b.moves.any (p.forbidden b)) then 4
  else if some_ p.flowBad then 5
  else if some_ p.loopBad then 6
  else if some_ (p.waitBad periodUs) then 7
  else if some_ p.subBad then 8
  else if some_ (fun b => conflict b.moves) then 9
  else if p.bundles.isEmpty || p.noDone then 10
  else 0

/-- What the device proves of a function at one base address. -/
structure Proof where
  reason : Nat := 0
  core : Nat := 0
  bn : Nat := 0
  bulk : Nat := 0
  rand : Nat := 0
  handles : Nat := 0
  deriving DecidableEq, Repr

/-- The device's results of a function whose code lies at `base` (R203, R204, R205). -/
def FnEntry.prove (e : FnEntry) (base periodUs : Nat) : Proof :=
  let ps := e.progs base
  let rs := (ps.map (fun q => q.1.reason q.2 periodUs)).filter (fun r => r != 0)
  if !rs.isEmpty then { reason := rs.foldl min 99 }
  else
    let one := fun (p : Prog) =>
      let f := p.flow
      (p.longest (p.cycles f) 2 + 90, Prog.handles f)
    let rs := ps.map (fun q => one q.1)
    let sum := fun (cls : Nat) => (ps.map (fun q => q.1.longest (q.1.amount cls) 0)).sum
    let r : Proof := { core := (rs.map (·.1)).sum, bn := sum 1, bulk := sum 2, rand := sum 3, handles := (rs.map (·.2)).foldl max 0 }
    if e.claimCore < r.core ∨ e.claimBn < r.bn ∨ e.claimBulk < r.bulk ∨ e.claimRand < r.rand then { r with reason := 11 } else r

end Sys2Proof.Machine
end

