-- ==== Sys2Proof/Machine/Sync.lean ====
section
/-! DEFINITION. Time discipline (R27 to R31, R64): offsets, the sync state, and the ordinary clock. -/

namespace Sys2Proof.Machine

/-- Four folio periods in nanoseconds. -/
def State.fourPeriods (s : State) : Int := 4000 * s.folio.periodUs

/-- The folio number of PTP time `t` in nanoseconds (R28). -/
def State.folioAt (s : State) (t : Int) : Nat := ((t / (1000 * s.folio.periodUs : Nat)) % (2 ^ 48 : Nat)).toNat

/-- Enter a sync state and raise its timing event (R30, Table 4.7). -/
def State.enterSync (s : State) (y : SyncState) (code : Nat) (data : Bytes) : State :=
  { s with folio := { s.folio with sync := y, goodRun := 0 } }.raise code srcNone 0 data

/-- The bytes of an offset in an event. -/
def offsetData (off : Int) : Bytes := beBytes 4 (twos 32 off)

/-- Set the folio number from the reference, whose time is `t` (R29). -/
def State.stepFolio (s : State) (t : Int) (off : Int) : State :=
  let s1 := { s with folio := { s.folio with now := s.folioAt t, stepped := true, slewLeft := 0 } }
  s1.enterSync .acquire evSyncAcquire (offsetData off)

/-- An offset within the bound: HOLDOVER returns to ACQUIRE, and four in a row within 100 ns lock. -/
def State.settle (s : State) (off : Int) : State :=
  match s.folio.sync with
  | .holdover => s.enterSync .acquire evSyncAcquire (offsetData off)
  | .acquire =>
    let n := if -100 ≤ off ∧ off ≤ 100 then s.folio.goodRun + 1 else 0
    if 4 ≤ n then s.enterSync .locked evSyncLocked (offsetData off)
    else { s with folio := { s.folio with goodRun := n } }
  | _ => s

/-- A valid offset measurement at reference time `t` (R29, R30, Table 2.2). -/
def State.measured (s : State) (off t : Int) : State :=
  let top : Int := 2 ^ 31 - 1
  let s0 := { s with folio := { s.folio with offset := max (-top) (min top off), sinceSync := 0,
                                              slewLeft := -(off * 8 / 5) } }
  let far := decide (s.fourPeriods < off ∨ off < -s.fourPeriods)
  match s.dev.state with
  | .start => if s.folio.stepped then s0 else s0.stepFolio t off
  | .standby =>
    if s.folio.sync = .free then s0
    else if far then s0.stepFolio t off
    else s0.settle off
  | .service =>
    match s.folio.sync with
    | .free => s0
    | .unaligned => s0
    | _ => if far then s0.enterSync .unaligned evSyncUnaligned (offsetData off) else s0.settle off
  | _ => s0

/-- The PTP service runs on the port: the one the image names, with link, in a mode that uses PTP. -/
def State.ptpRuns (s : State) (i domain : Nat) : Bool :=
  (s.port i).cfg.ptp && (s.port i).link && s.folio.mode != .free && domain == s.image.ptpDomain

/-- A Sync's times are known: the offset in PTP mode, and one Delay_Req, up to 16 per second (R64). -/
def State.syncMeasured (s : State) (i : Nat) (t1 t2 : Int) : State :=
  let off := t2 - t1 - s.folio.ptp.delay - s.image.asymmetry
  let n := if s.folio.ptp.reqSecond = s.second then s.folio.ptp.reqs else 0
  let send := decide (n < 16)
  let p := { s.folio.ptp with valid := true, t1 := t1, t2 := t2, pendingSync := none, reqSecond := s.second,
                              reqs := if send then n + 1 else n, reqOpen := s.folio.ptp.reqOpen || send }
  let s1 := { s with folio := { s.folio with ptp := p } }
  let s2 := if s.folio.mode = .ptp then s1.measured off (t2 - off) else s1
  -- a Delay_Req has 44 bytes after UDP (IEEE 1588-2019)
  if send then s2.sendAllowed i (s2.udpFrameLen i {} 44) { bytes := [0x01, 0x02] ++ zeros 42, dst := { mac := 0x01005E000181, port := 319 } }
  else s2

/-- A Sync from the parent: measured at once, or with its Follow_Up. -/
def ptpSync (s : State) (i : Nat) (m : PtpSync) : State :=
  if ¬ (s.ptpRuns i m.domain ∧ s.folio.ptp.parent = some m.source) then s
  else if m.twoStep then { s with folio := { s.folio with ptp := { s.folio.ptp with pendingSync := some (m.seq, m.t2) } } }
  else s.syncMeasured i m.t1 m.t2

/-- A Follow_Up completes the Sync of its sequence number (R64). -/
def ptpFollowUp (s : State) (i domain source seq : Nat) (t1 : Int) : State :=
  if ¬ (s.ptpRuns i domain ∧ s.folio.ptp.parent = some source) then s
  else
    match s.folio.ptp.pendingSync with
    | some (q, t2) => if q = seq then s.syncMeasured i t1 t2 else s
    | none => s

/-- A rising edge of PPS_IN at device time `t`, in PTP_PPS mode: the reference is the PTP second it marks (R27, R30). -/
def ppsEdge (s : State) (t : Int) : State :=
  let p := s.folio.ptp
  if ¬ (s.folio.mode = .ptpPps ∧ p.valid) then s
  else
    let tod := t - (p.t2 - p.t1 - p.delay - s.image.asymmetry)
    let ref := (tod + 500000000) / 1000000000 * 1000000000
    s.measured (t - ref) ref

/-- PTP_DELAY_RESP_RECEIVE (R64): the end-to-end delay from the times of the last Sync and of the Delay_Req. -/
def execPtpDelayRespReceive (lport domain source : Nat) (t3 t4 : Int) (s : State) : Host.Outcome State Fault Refusal :=
  let p := s.folio.ptp
  if s.ptpRuns lport domain ∧ p.parent = some source ∧ p.reqOpen then
    .next { s with folio := { s.folio with ptp := { p with reqOpen := false, delay := (p.t2 - p.t1 + (t4 - t3)) / 2 } } }
  else .next s

/-- The order in which the best master clock algorithm of the default profile compares Announce data sets
(IEEE 1588-2019; log entry 16). -/
def announceRank (m : PtpAnnounce) : Nat :=
  ((((m.priority1 * 256 + m.clockClass) * 256 + m.accuracy) * 65536 + m.variance) * 256 + m.priority2) * 2 ^ 64 + m.identity

/-- PTP_ANNOUNCE_RECEIVE (R64): the better clock becomes the parent, and event 0xCE marks the change. -/
def execPtpAnnounceReceive (lport : Nat) (m : PtpAnnounce) (s : State) : Host.Outcome State Fault Refusal :=
  let p := s.folio.ptp
  let r := announceRank m
  if ¬ s.ptpRuns lport m.domain then .next s
  else if p.parent = some m.identity then .next { s with folio := { s.folio with ptp := { p with parentRank := r } } }
  else if p.parent = none ∨ r < p.parentRank then
    let p1 : PtpClock := { p with parent := some m.identity, parentRank := r, pendingSync := none, reqOpen := false }
    .next ({ s with folio := { s.folio with ptp := p1 } }.raise evPtpParent (srcPort lport) 0 (items [(8, m.identity)]))
  else .next s

/-- SYNC_HOLDOVER_TIMEOUT (R30): no valid offset for 2 s while ACQUIRE or LOCKED. -/
def execSyncHoldoverTimeout (s : State) : Host.Outcome State Fault Refusal :=
  if (s.folio.sync = .acquire ∨ s.folio.sync = .locked) ∧ 2000000 ≤ s.folio.sinceSync * s.folio.periodUs then
    .next (s.enterSync .holdover evSyncHoldover (items [(4, s.folio.sinceSync)]))
  else .next s

/-- The adjustment of the folio that ends, in core cycles, at most 16 either way (R25, R30), and what is left of it. -/
def State.slew (s : State) : State :=
  match s.folio.sync with
  | .acquire | .locked =>
    let adj := max (-16) (min 16 s.folio.slewLeft)
    { s with folio := { s.folio with slewLast := adj, slewLeft := s.folio.slewLeft - adj } }
  | .holdover => s
  | _ => { s with folio := { s.folio with slewLast := 0 } }

end Sys2Proof.Machine
end

