-- ==== Sys2Proof/Machine/Tick.lean ====
section
/-! DEFINITION. The tick (R43): the folio number, the effects that fall due, units withdrawn and returning, lost capacity and
precedence, admission, the answers of a tick in their order, and the power districts (R95, R105 to R119, R128, R471 to R477). -/

namespace Sys2Proof.Machine

/-! ### The folio that begins (R25 to R31) -/

/-- The district of the block that counter `c` belongs to. -/
def counterDistrict (c : Nat) : Option Nat :=
  if c < 512 then some (districtOfTc (c / 4))
  else if c < 768 then some (districtOfBn ((c - 512) / 4))
  else if c < 832 then some (districtOfBk ((c - 768) / 4))
  else none

/-- The counters of a block whose district sleeps count nothing (R469). -/
def State.counterSleeps (s : State) (c : Nat) : Bool :=
  match counterDistrict c with
  | some d => !s.districtUp d
  | none => false

/-- Core cycles and ticks, which every kind of block counts (Table 18.5). -/
def countCycles (s : State) : State :=
  s.pmc.select.foldl (fun s p =>
    if s.counterSleeps p.1 then s
    else if p.2 = 1 then s.pmcAddTo p.1 s.cycles
    else if p.2 = 2 then s.pmcAddTo p.1 1
    else s) s

/-- One more folio has passed since a channel's last accepted datagram (R81, SRP_CHAN_IDLE). -/
def Channel.age (x : Channel) : Channel := if x.state = .free then x else { x with idle := x.idle + 1 }

/-- The next folio begins (R25, R27, R31, R34). -/
def newFolio (s : State) : State :=
  let s1 := (countCycles s).slew
  let f := s1.folio
  let now := folioAdd f.now 1
  let pps := decide (now * f.periodUs % 1000000 = 0)
  let s2 := { s1 with folio := { f with now := now, delayTick := 0, commitIndex := 0, sinceSync := f.sinceSync + 1,
                                        ticks := f.ticks + 1, pps := pps },
                      srp := { s1.srp with channels := s1.srp.channels.map (fun p => (p.1, p.2.age)) },
                      bn := { s1.bn with lastDrawn := s1.bn.drawn, drawn := 0, refusedThisTick := 0 } }
  if s1.bn.refusedThisTick = 0 then s2
  else s2.raise evBnRefused srcNone 0 (items [(2, s1.bn.refusedThisTick)])

/-- Curve records whose checks have all passed become VALID (R302). -/
def validateCurves (s : State) : State :=
  s.bn.curves.foldl (fun s p =>
    let c := s.curve p.1
    if c.passed then s.putCurve p.1 { c with passed := false, state := .valid, validFrom := s.folio.now } else s) s

/-! ### Units withdrawn, returning and quarantined (R118, R471 to R473) -/

/-- Duration of a unit's targeted test in microseconds (Table 18.6). -/
def testMicros (unit : Nat) : Nat :=
  if 0x80 ≤ unit then 200
  else if 0x40 ≤ unit then 300
  else if 0x2C ≤ unit ∧ unit ≤ 0x3B then 100
  else if 0x08 ≤ unit ∧ unit ≤ 0x0B then 200
  else 50

/-- What a withdrawn or quarantined unit leaves: a transaction core its place at TAKE, an engine its withdrawal mark, a control
core its work (R473). -/
def unitLeaves (s : State) (unit : Nat) : State :=
  let s1 := match s.unitCapacity unit with
    | some (cls, amount) => s.capacityLost cls unit amount
    | none => s
  if 0x80 ≤ unit ∧ unit ≤ 0xFF then
    { s1 with sq := { s1.sq with takers := s1.sq.takers.filter (fun c => decide (c ≠ unit - 0x80)) } }
  else if 0x40 ≤ unit ∧ unit ≤ 0x7F then s1.modEngine (unit - 0x40) (fun x => { x with withdrawn := true, marked := false })
  else if 0x08 ≤ unit ∧ unit ≤ 0x0B then
    match s1.controlCore (unit - 0x08) with
    | some j => s1.raise evControlWorkMoved unit 0 (items [(1, unit - 0x08), (1, j)])
    | none => s1
  else s1

/-- A unit marked for withdrawal is withdrawn, and its test begins (R471). -/
def withdrawUnit (s : State) (unit : Nat) : State :=
  if unit ∈ s.faults.withdrawn ∨ s.quarantined unit then s
  else
    let s1 := { s with faults := { s.faults with withdrawn := s.faults.withdrawn ++ [unit] } }
    (unitLeaves s1 unit).raise evUnitWithdrawn unit 0 (items [(8, s.folio.now), (2, testMicros unit)])

/-- A unit is quarantined until the next start (R472). -/
def quarantineUnit (s : State) (p : Nat × Nat) : State :=
  let (unit, cause) := p
  if s.quarantined unit then s
  else
    let was := decide (unit ∈ s.faults.withdrawn)
    let s1 := { s with dev := { s.dev with quarantined := s.dev.quarantined ++ [unit] },
                       faults := { s.faults with withdrawn := s.faults.withdrawn.filter (· ≠ unit) } }
    (if was then s1 else unitLeaves s1 unit).raise evUnitQuarantined unit 0 (items [(1, cause)])

/-- A core as a targeted test leaves it: restarted as from reset, its instruction space as it was (R184). -/
def Core.restarted (c : Core) : Core := { imem := c.imem, time := c.time, counters := c.counters }

/-- A unit that passed its test counts again (R118). -/
def returnUnit (s : State) (unit : Nat) : State :=
  let s1 := { s with faults := { s.faults with withdrawn := s.faults.withdrawn.filter (· ≠ unit) } }
  let s2 :=
    if 0x80 ≤ unit ∧ unit ≤ 0xFF then s1.modCore (unit - 0x80) Core.restarted
    else if 0x40 ≤ unit ∧ unit ≤ 0x7F then s1.modEngine (unit - 0x40) (fun x => { x with withdrawn := false, marked := false })
    else if 0x08 ≤ unit ∧ unit ≤ 0x0B then s1.modCore (128 + (unit - 0x08)) Core.restarted
    else s1
  match s.unitCapacity unit with
  | some (cls, _) => s2.raise evCapacityRestored srcAdmission 0 (items [(1, cls), (1, unit)])
  | none => s2

/-- The units' part of a tick. -/
def tickUnits (s : State) : State :=
  let f := s.faults
  let s0 := { s with faults := { f with returning := [], marked := [], toQuarantine := [] } }
  let s1 := f.returning.foldl returnUnit s0
  let s2 := f.toQuarantine.foldl quarantineUnit s1
  f.marked.foldl withdrawUnit s2

/-- No control core is left, though one has been lost: the device passes through an internal RESET into START (R473). -/
def State.controlLost (s : State) : Bool := (s.controlCore 0).isNone

/-! ### Districts (R110, R118, R441, R477) -/

/-- The capacity of a class that a district supplies in a folio in which it is ready: class, units and amount. -/
def State.districtSupply (s : State) (d : Nat) : Nat × Nat :=
  let n := ((districtUnits d).filter s.unitOk).length
  if d < 16 then (0, n * s.perCore) else if d < 20 then (1, n * s.admF) else (2, n * (16 * s.admF))

/-- A waking district whose ready folio has come is late: its capacity is lost (R118). -/
def lateDistricts (s : State) : State :=
  (List.range 24).foldl (fun s d =>
    let x := s.district d
    if ¬ (x.waking ∧ ¬ x.late ∧ folioReached s.folio.now x.ready) then s
    else
      let (cls, amount) := s.districtSupply d
      let s1 := s.putDistrict d { x with late := true }
      let s2 := { s1 with pwr := { s1.pwr with counters := bump s1.pwr.counters 1 1 },
                          adm := { s1.adm with events := s1.adm.events ||| 0x10 } }
      (s2.raise evWakeLate srcAdmission 0 (items [(1, d), (8, s.folio.now)])).capacityLost cls ((districtUnits d).headD 0) amount) s

/-- Charges of a class in a folio and the capacity of the ready districts of the class numbered below `d` (R477). -/
def State.chargedAbove (s : State) (r : Res) (first d f each : Nat) : Bool :=
  let below := (List.range (d - first)).map (fun g => if s.districtReady (first + g) f then
    ((districtUnits (first + g)).filter s.unitOk).length * each else 0)
  decide (below.sum < s.charged r f)

/-- District `d` holds a charge in folio `f` (R477). -/
def State.districtCharged (s : State) (d f : Nat) : Bool :=
  if d < 16 then decide (0 < s.charged (.core d) f)
  else if d < 20 then s.chargedAbove .bn 16 d f s.admF
  else s.chargedAbove .bulk 20 d f (16 * s.admF)

/-- A task, a job, a background context or a test runs in district `d` now. -/
def State.districtRuns (s : State) (d : Nat) : Bool :=
  s.heldTest d ||
    (if d < 16 then (List.range 8).any (fun i => (s.core (8 * d + i)).task.isSome)
     else if d < 20 then (List.range 16).any (fun i =>
       let x := s.engine (16 * (d - 16) + i)
       x.owner.isSome || x.background.isSome)
     else s.bulk.jobs.any (fun j => j.running && j.engines.any (fun e => districtOfBk e == d)))

/-- One more folio has ended for district `d`: its count of consecutive idle folios, and whether what runs now makes the new
folio busy. `ended` is the state before anything of this tick released a charge. -/
def ageDistrict (ended : State) (s : State) (d : Nat) : State :=
  let x := s.district d
  let f := folioAdd s.folio.now (2 ^ 48 - 1)
  let busy := x.busy || ended.districtCharged d f || ended.districtRuns d
  s.putDistrict d { x with idle := if busy then 0 else min 0xFFFF (x.idle + 1), busy := s.districtRuns d }

/-- District `d` enters a sleep state (R475, R477): in OFF its cores and its memories, the instruction spaces apart, lose what
they hold. -/
def sleepDistrict (s : State) (d code : Nat) : State :=
  let x := s.district d
  let s1 := s.putDistrict d { x with state := districtOfCode code }
  let s2 : State :=
    if code = 3 ∧ d < 16 then
      let cores := (List.range 8).foldl (fun s i => s.modCore (8 * d + i) Core.restarted) s1
      { cores with cores := { cores.cores with blockMem := tabDrop cores.cores.blockMem d, blockBits := tabDrop cores.cores.blockBits d },
                   sq := { cores.sq with takers := cores.sq.takers.filter (fun c => decide (c / 8 ≠ d)) } }
    else s1
  ({ s2 with pwr := { s2.pwr with counters := bump s2.pwr.counters 2 1 } }).raise evDistrictSleep srcPower 0 (items [(1, d), (1, code)])

/-- A district enters its permitted state when it has been idle long enough and holds no charge in any later folio (R477). -/
def trySleep (s : State) (d : Nat) : State :=
  let x := s.district d
  let later := s.ledgerFolios s.folio.now
  if x.state.code < s.permitted d ∧ s.pwr.idleHold ≤ x.idle ∧ ¬ x.waking ∧ ¬ s.heldActive d ∧ ¬ s.districtRuns d ∧
      ¬ later.any (fun f => s.districtCharged d f)
  then sleepDistrict s d (s.permitted d) else s

/-- In STANDBY and RECOVERY a waiting request that needs a big-number engine wakes D16, which returns to OFF when none remains
(R423, R441). -/
def standbyDistricts (s : State) : State :=
  let need := s.sq.slots.any (fun p => p.2.unanswered && s.needsBn p.2)
  if need ∧ s.asleep 16 then s.startWake 16 1
  else if ¬ need ∧ (s.district 16).state = .active ∧ ¬ (s.district 16).waking ∧ ¬ s.districtRuns 16 then sleepDistrict s 16 3
  else s

/-- The power controller's part of a tick. -/
def tickDistricts (ended s : State) : State :=
  match s.dev.state with
  | .service => (List.range 24).foldl trySleep ((List.range 24).foldl (ageDistrict ended) s)
  | .standby | .recovery => standbyDistricts s
  | _ => s

/-! ### Answers of a tick (R128, R506) -/

/-- Requests whose status reply had to wait for the status allowance (R113). -/
def deferredAnswers (s : State) : State :=
  s.adm.deferred.foldl (fun s k =>
    let x := s.slot k
    let s1 := s.drainWaiting x.lport (s.port x.lport).waiting.length
    let s2 := { s1 with adm := { s1.adm with deferred := s1.adm.deferred.filter (fun j => j != k) } }
    match x.answer with
    | none => s2
    | some st =>
      if ¬ x.owed then s2
      else if (s1.port x.lport).waiting.head?.map (·.slots) = some [k] ∧ s1.allows x.lport then
        accept (s2.modPort x.lport (fun p => { p with waiting := p.waiting.drop 1 })) k st []
      else s1) s

/-- Commit the answers of a list of requests, in its order. -/
def commitAnswers (s : State) (l : List Nat) : State :=
  l.foldl (fun s k =>
    let x := s.slot k
    match x.answer with
    | some st => if x.owed then accept s k st [] else s
    | none => s) s

/-- Undecided requests on the queues that this tick's effects disabled, in order of placement (R128). -/
def State.newlyDisabled (before s : State) : List Nat :=
  (sortBy (fun p => p.2.req) (s.sq.slots.filter (fun p =>
    p.2.undecided && !p.2.mailbox && before.queueEnabled p.2.queue && !s.queueEnabled p.2.queue))).map (·.1)

/-- Records refused at placement, in order of placement (R73). -/
def State.placementRefusals (s : State) : List Nat :=
  (sortBy (fun p => p.2.req) (s.sq.slots.filter (fun p => p.2.refused.isSome && p.2.owed && p.2.answer.isNone))).map (·.1)

/-- In STANDBY a drain answers every request that CC0 has not taken (R425). -/
def State.drainedRequests (s : State) : List Nat :=
  if s.dev.state = .standby ∧ s.boot.drain.isSome then
    (sortBy (fun p => p.2.req) (s.sq.slots.filter (fun p => p.2.undecided && !p.2.mailbox && !isMemberFn p.2.func))).map (·.1)
  else []

/-- Mark requests with a status and return their slots. -/
def answerAll (s : State) (st : Nat) (l : List Nat) : State := l.foldl (fun s k => s.answer k st) s

/-- The START entry of a request. -/
def startEntry (p : Nat × Slot) : DelayEntry := { time := p.2.start * 64 % 2 ^ 54, slot := p.1, node := none }

/-- The START entries inserted at the tick that begins their own start folio (R142). -/
def State.startsNow (s : State) (placed : List Nat) : List DelayEntry :=
  (((placed.map (fun k => (k, s.slot k))).filter (fun p => decide (p.2.commit = none))).map startEntry).filter s.due

/-- A request admitted or placed once more at this tick waits for its start folio, and for its ordering predecessor (R134, R142,
R143). -/
def beginWait (s : State) (k : Nat) : State :=
  let x := s.slot k
  let s1 := if x.replaced then
      s.modSlot k (fun y => { y with nodes := y.nodes.map (fun p => (p.1, { p.2 with flags := flagBit flagOperands })) }) else s
  let s2 := match s1.predecessor (s1.slot k) with
    | some (_, y) => if y.owed then s1 else s1.setFlagAll k flagPred
    | none => s1.setFlagAll k flagPred
  let e := startEntry (k, x)
  if s2.due e then s2 else s2.insertDelay e

/-- Stop the tasks of the requests that this tick sheds. -/
def stopShed (s : State) (l : List Nat) : State := l.foldl stopSlot s

/-- What precedence, re-placement and the admission pass answer, in the order of R506, and the requests that they placed. -/
structure Decided where
  s : State
  shed : List Nat := []
  failed : List Nat := []
  answers : List Nat := []
  placed : List Nat := []

/-- Steps 3 and 4 of R43, in SERVICE. `plazaToo`: a commit of group 1 took effect (R103). -/
def decide_ (s : State) (plazaToo : Bool) : Decided :=
  if s.dev.state ≠ .service then { s := s, answers := [] }
  else
    let a := s.folio.now
    let errors := s.faults.memErrors.filter (fun k => (s.slot k).owed)
    let s0 := answerAll s stDeadlineShed errors
    let (s1, shed) := precedence (errors.foldl (fun s k => s.release (s.slot k).req) s0) a plazaToo
    let out := errors ++ shed.map (·.1)
    let s2 := stopShed s1 out
    let (s3, failed, placed) := replacePass s2 a
    let o := admissionPass s3 a
    { s := o.s, shed := out, failed := failed, answers := o.answers, placed := placed ++ o.admitted }

/-- A request memory error ends its request also where nothing is admitted (R473). -/
def State.memErrorsElsewhere (s : State) : List Nat :=
  if s.dev.state = .service then [] else s.faults.memErrors.filter (fun k => (s.slot k).owed)

/-! ### The tick -/

/-- Requests undecided and replies owed after a tick (ADM_UNDECIDED, ADM_OWED); event 0x8A at 65,535 (R36). -/
def countOwed (s : State) : State :=
  let owed := (s.sq.slots.filter (fun p => p.2.owed)).length
  let und := (s.sq.slots.filter (fun p => p.2.undecided)).length
  let s1 := { s with adm := { s.adm with undecided := und, owed := owed } }
  if 65535 ≤ owed then
    { s1 with adm := { s1.adm with events := s1.adm.events ||| 0x40 } }.raise evOwedLimit srcAdmission 0
      (items [(8, s.folio.now), (2, owed)])
  else s1

/-- A commit of group `g` falls due now. -/
def State.commitDue (s : State) (g : Nat) : Bool := s.folio.effects.any (fun e => e.due s && e.effect == .commitGroup g)

/-- Step 2 and what else takes effect with it. -/
def tickApply (s : State) : State := eraseRetired (validateCurves (tickSignatures (applyDue s)))

/-- Every logical port's status balance rises by its allowance (R113). -/
def refillPorts (s : State) : State := (List.range 17).foldl (fun s i => s.refillPort i) s

/-- Frames that waited for the allowance leave. -/
def drainPorts (s : State) : State := (List.range 17).foldl (fun s i => s.drainWaiting i ((s.port i).waiting.length)) s

/-- The tick that ends the folio in progress. -/
def tickFolio (s : State) : State :=
  let s1 := newFolio s
  let plazaToo := s1.commitDue 1
  let s2 := tickApply s1
  let s3 := lateDistricts (tickUnits s2)
  if s3.controlLost then s3.computeReset.askRestart .start
  else
    let disabled := State.newlyDisabled s1 s3
    let drained := s3.drainedRequests
    let elsewhere := s3.memErrorsElsewhere
    let s4 := answerAll (answerAll (answerAll (tickSnapshot s3) stQueueDisabled disabled) stNotAdmitted drained) stDeadlineShed elsewhere
    let d := decide_ s4 plazaToo
    let s5 := d.placed.foldl beginWait { d.s with faults := { d.s.faults with memErrors := [] } }
    let s6 := deferredAnswers (refillPorts s5)
    let s7 := commitAnswers s6 (disabled ++ elsewhere ++ d.shed ++ d.failed)
    let s8 := commitAnswers (s7.placementRefusals.foldl (fun s k => acceptOne s k ((s.slot k).refused.getD 0) []) s7) (d.answers ++ drained)
    let s9 := drainPorts s8
    let s9 := s9.releaseDue (s9.startsNow d.placed)
    let s10 := tickPair (tickRng s9)
    if s10.dev.state = .reset then s10
    else countOwed (tickDistricts s4 s10).trimLedger

/-- TICK (R43). -/
def execTick (s : State) : Host.Outcome State Fault Refusal := if s.folioRuns then .next (s.inOneCycle tickFolio) else .next s

end Sys2Proof.Machine
end

