-- ==== Sys2Proof/Machine/Loader.lean ====
section
/-! DEFINITION. The library load of START step 9: refusals, placement, entry tables, library hashes, the big-number concurrency and
the spans (R194 to R199, R205 to R208, R212, R223, R279, R311). -/

namespace Sys2Proof.Machine

/-! ### Rules on the entry (Table 7.3, reasons 1, 2, 14, 15) -/

/-- Codes 0x0A01 to 0x0AFF. -/
def isGraphCode (c : Nat) : Bool := decide (0x0A01 ≤ c ∧ c ≤ 0x0AFF)

/-- Reason 1: a tenant's package whose signatures fail, or that lacks the tenant's approval (R194, R354). In DEPLOYED only are
approvals checked, as step 8 does for the tenants section. -/
def State.packageBad (s : State) (t : Nat) : Bool :=
  let p := (tabGet ({} : TenantImage) s.image.tenants t).package
  !Config.packageSigned p ||
    (s.lc.state == .deployed && decide (s.approvals t (sha384B p) (s.image.approvalOf t) < s.quorum t 0))

/-- Reason 2. -/
def FnEntry.formatBad (e : FnEntry) : Bool :=
  e.malformed || e.nodes.isEmpty || decide (16 < e.nodes.length) || (e.kind != 1 && e.nodes.length != 1) || decide (2 < e.kind) ||
    decide (512 < e.tenant) || (e.tenant != 0 && e.privileged) || decide (126976 < 4 * e.words.length) ||
    decide (8192 < e.lmax) || decide ((if e.code / 256 = 8 then 8960 else 8192) < e.lenMax) ||
    decide (1024 < e.waits.length) || decide (1024 < e.subs.length) || e.nodes.any (fun o => o % 4 != 0 || decide (4 * e.words.length ≤ o))

/-- Reason 14: a code outside its range, duplicated for one tenant, or in conflict with KIND. -/
def codeBad (all : List FnEntry) (e : FnEntry) : Bool :=
  let range := if e.tenant = 0 then decide (1 ≤ e.code ∧ e.code < 0x8000) else decide (0x8000 ≤ e.code ∧ e.code < 0x10000)
  !range || decide (1 < (all.filter (fun f => f.code == e.code && f.tenant == e.tenant)).length) ||
    ((e.kind == 1) != isGraphCode e.code) || (e.kind == 2 && e.tenant != 0)

/-- Reason 15 (R212): the tenant's segments, with those of every task, overlap on every block of PLACE. -/
def State.segmentsBad (s : State) (e : FnEntry) : Bool :=
  let blocks := (List.range 16).filter (fun b => e.place.testBit b)
  let bad := fun (b : Nat) =>
    let own := tabGet [] s.image.segments (e.tenant * 16 + b)
    overlapping ((List.range own.length).filterMap (fun i => (own[i]?).map (fun r => (i, r))))
  e.tenant != 0 && !blocks.isEmpty && blocks.all bad

/-! ### Placement (R196) -/

/-- First address of the functions, and the end of instruction space. -/
abbrev fnBase : Nat := 0x1000
abbrev fnEnd : Nat := 0x20000

/-- The load in progress: records so far, and the next free address of each block. -/
structure Load where
  fns : List FnRec := []
  free : List (Nat × Nat) := []

def Load.next (l : Load) (b : Nat) : Nat := tabGet fnBase l.free b

/-- The blocks a function asks for. -/
def State.wanted (s : State) (e : FnEntry) : Nat := if e.tenant = 0 then tabGet 0 s.image.placement e.code else e.place

/-- J_f of a standard function (R279). -/
def stdHandles (e : FnEntry) : Nat :=
  if [0x701, 0x702, 0x703, 0x620, 0x621, 0xC0].contains e.code then 2 else if e.claimBn = 0 then 0 else 1

/-- Load one entry: the first reason that refuses it, or its addresses. A refused function takes no space. -/
def loadEntry (s : State) (l : Load) (e : FnEntry) : Load :=
  let size := 4 * e.words.length
  let want := s.wanted e
  let unnamed := e.tenant = 0 ∧ want = 0
  let addr : List (Nat × Nat) := (List.range 16).filterMap (fun b => if want.testBit b ∧ l.next b + size ≤ fnEnd then some (b, l.next b) else none)
  let bases := if addr.isEmpty then [fnBase] else (addr.map (·.2)).eraseDups
  let proofs := bases.map (fun a => e.prove a s.folio.periodUs)
  let proof := (proofs.head?).getD {}
  let worst : Nat := ((proofs.map (fun q => q.reason)).filter (fun r => r != 0)).foldl min 99
  let reason :=
    if e.tenant ≠ 0 ∧ s.packageBad e.tenant then 1
    else if e.formatBad then 2
    else if worst < 12 then worst
    else if addr.isEmpty then 13
    else if codeBad s.image.functions e then 14
    else if s.segmentsBad e then 15
    else 0
  let jf := if e.tenant = 0 then stdHandles e else proof.handles
  if unnamed then { l with fns := l.fns ++ [{ entry := e, proved := proof.core, jf := jf }] }
  else if reason ≠ 0 then { l with fns := l.fns ++ [{ entry := e, reason := reason, proved := proof.core, jf := jf }] }
  else
    { fns := l.fns ++ [{ entry := e, placed := (addr.map (fun p => 2 ^ p.1)).sum, proved := proof.core, jf := jf, addr := addr }],
      free := addr.foldl (fun t p => tabPut fnBase t p.1 (p.2 + size)) l.free }

/-- Take a function off block `b`; with no block left it is refused with NO_SPACE. -/
def FnRec.offBlock (r : FnRec) (b : Nat) : FnRec :=
  let addr := r.addr.filter (fun p => p.1 != b)
  { r with addr := addr, placed := (addr.map (fun p => 2 ^ p.1)).sum, reason := if addr.isEmpty then 13 else r.reason }

/-! ### Concurrency (R279) -/

/-- J_k. -/
def jOf (fns : List FnRec) (b : Nat) : Nat := ((fns.filter (fun r => r.placed.testBit b)).map (·.jf)).foldl max 0

/-- C. -/
def concurrencyOf (fns : List FnRec) : Nat := 8 * ((List.range 16).map (jOf fns)).sum

/-- Take the functions with handles off the highest block until C fits `engines`. -/
def fitConcurrency (engines : Nat) : Nat → List FnRec → List FnRec
  | 0, fns => fns
  | fuel + 1, fns =>
    if concurrencyOf fns ≤ engines then fns
    else
      match (List.range 16).reverse.find? (fun b => decide (0 < jOf fns b)) with
      | none => fns
      | some b => fitConcurrency engines fuel (fns.map (fun r => if r.placed.testBit b ∧ 0 < r.jf then r.offBlock b else r))

/-! ### Spans (R206, R207, R223, R311) -/

/-- W_max of a block. -/
def wMax (fns : List FnRec) (b : Nat) : Nat := ((fns.filter (fun r => r.placed.testBit b)).map (·.entry.claimCore)).foldl max 0

/-- The dispatch allowance of a block. -/
def dispatchOf (fns : List FnRec) (b : Nat) : Nat := 256 + wMax fns b

/-- M: 2,000 + ⌈0.128 × (L + 174)⌉. -/
def replyMargin (lmax : Nat) : Nat := 2000 + ceilDiv (128 * (ceilDiv lmax 8 * 8 + 174)) 1000

/-- The span on the blocks of a record, before the horizon; 1,025 where no span up to 1,024 does. -/
def spanOf (f a : Nat) (fns : List FnRec) (r : FnRec) : Nat :=
  let e := r.entry
  let worst := (r.addr.map (fun p => dispatchOf fns p.1)).foldl max 0
  let total := a + e.nodes.length * worst + e.claimCore + replyMargin e.lmax
  let s := max 1 (max (ceilDiv total f) (ceilDiv e.claimCore (f - a)))
  max (if e.subs.any (fun x => x.cls == 2) then 2 else 1) (min s 1025)

/-- Spans of every placed function; one above 1,024 is refused with SPAN and the allowances are taken again. -/
def spans (f a horizon : Nat) : Nat → List FnRec → List FnRec
  | 0, fns => fns
  | fuel + 1, fns =>
    let one := fun (r : FnRec) =>
      if r.placed = 0 then r else { r with span := spanOf f a fns r + (if r.entry.stateChanging then horizon else 0) }
    let next := fns.map one
    if next.any (fun r => decide (1024 < r.span)) then
      spans f a horizon fuel (next.map (fun r => if 1024 < r.span then { r with span := 0, placed := 0, addr := [], reason := 12 } else r))
    else next

/-! ### Instruction spaces, entry tables and hashes (R196 to R198) -/

/-- A block's instruction space: the firmware, and each placed function's words in library order, at rising addresses. -/
def blockImage (firmware : List (Nat × Word32)) (fns : List FnRec) (b : Nat) : List (Nat × Word32) :=
  let code := fns.flatMap (fun r =>
    match r.addr.find? (fun p => p.1 == b) with
    | none => []
    | some (_, a) => r.entry.words.zipIdx.filterMap (fun p => if p.1 = 0 then none else some (a / 4 + p.2, p.1)))
  firmware.filter (fun p => decide (p.1 < 1024) && p.2 != 0) ++ code

/-- The tenants in whose entry tables a function stands on the blocks it is placed on (R197). -/
def State.entryTenants (s : State) (e : FnEntry) : List Nat :=
  if e.tenant ≠ 0 then [e.tenant]
  else
    let all := List.range 513
    if e.code < 0x100 then (if e.kind = 2 then [0] else all)
    else all.filter (fun t => (tabGet ({} : TenantImage) s.image.tenants t).enabled.contains e.code && (e.kind != 2 || t == 0))

/-- The entry table of a block in tenant and code order: tenant, code, address and privilege, 2, 2, 4 and 1 bytes (log entry 40:
the spec does not give the encoding). -/
def State.entryTable (s : State) (fns : List FnRec) (b : Nat) : Bytes :=
  let rows := fns.flatMap (fun r =>
    match r.addr.find? (fun p => p.1 == b) with
    | none => []
    | some (_, a) => (s.entryTenants r.entry).map (fun t => (t * 65536 + r.entry.code, a, bit (r.entry.code < 0x8000))))
  (sortBy (fun p => p.1) rows).flatMap (fun p => beBytes 4 p.1 ++ beBytes 4 p.2.1 ++ beBytes 1 p.2.2)

/-- SHA-384 over a block's instruction space and entry table. -/
def State.libraryHash (s : State) (fns : List FnRec) (b : Nat) : Bytes :=
  let words := blockImage s.image.firmware fns b
  sha384B (((List.range imemWords).flatMap (fun i => beBytes 4 (tabGet 0 words i).toNat)) ++ s.entryTable fns b)

/-- The engines present and not quarantined (R279). -/
def State.enginesPresent (s : State) : Nat := ((List.range 64).filter (fun e => !s.dev.quarantined.contains (srcBn e))).length

/-! ### The load -/

/-- The library that START step 9 leaves, whatever its refusals. -/
def State.loadedLibrary (s : State) : Library :=
  let f := s.admF
  let a := s.admA
  let l := s.image.functions.foldl (loadEntry s) {}
  let fit := fitConcurrency s.enginesPresent 17 l.fns
  let fns := spans f a s.image.horizon (fit.length + 1) fit
  { fns := fns, dispatch := (List.range 16).map (fun b => (b, dispatchOf fns b)),
    hashes := (List.range 16).map (fun b => (b, s.libraryHash fns b)), concurrency := concurrencyOf fns,
    placement := s.image.placement, segments := s.image.segments }

/-- The first refused standard function, as cause data: code in bits 31 to 16 and the reason (R208, Table 16.5). -/
def Library.stdRefused (l : Library) : Option Nat :=
  (l.fns.find? (fun r => r.entry.tenant == 0 && r.reason != 0)).map (fun r => r.entry.code * 65536 + r.reason)

/-- Every core of a block starts from reset with the block's instruction space (R184, R196). -/
def State.fillSpaces (s : State) (fns : List FnRec) : State :=
  let images := (List.range 16).map (fun b => (b, blockImage s.image.firmware fns b))
  (List.range 128).foldl (fun s c =>
    if s.unitOk (srcTc c) then s.putCore c { ({} : Core) with imem := tabGet [] images (c / 8) } else s) s

/-- The library load. The refused custom functions are recorded (event 0x36) and left out; a refused standard function makes the
start fail. -/
def loadLibrary (s : State) : State × Option Nat :=
  let l := s.loadedLibrary
  let s1 := { s with cores := { s.cores with library := l } }
  match l.stdRefused with
  | some d => (s1, some d)
  | none =>
    let note := fun (s : State) (r : FnRec) =>
      if r.reason = 0 then s else s.raise evFunctionRefused (srcCc 0) r.entry.tenant (items [(2, r.entry.tenant), (2, r.entry.code), (1, r.reason)])
    ((l.fns.foldl note s1).fillSpaces l.fns, none)

end Sys2Proof.Machine
end

