-- ==== Sys2Proof/Machine/Start.lean ====
section
/-! DEFINITION. The start-up sequence (R409 to R424, Table 16.1): the thirteen steps, failed attempts, and RECOVERY as a start
reaches it. What the hardware finds at each step comes with the command that begins the start (`StartEnv`). -/

namespace Sys2Proof.Machine

/-- How a step of a start ends. -/
inductive StepEnd where
  /-- The step is complete. -/
  | done (s : State)
  /-- The attempt fails, with a cause and its data (Table 16.5). -/
  | fail (s : State) (cause data : Nat)
  /-- The sequence ends here: the step hangs or waits, or the device has changed state. -/
  | stop (s : State)

/-! ### The root (R246, R248) -/

/-- L0 or the test root of a PUF response. -/
def rootOf (test : Bool) (puf : Bytes) : Bytes := (sha384B (ascii (if test then "SKZ2 test root" else "SKZ2 L0") ++ puf)).take 32

/-- The PUF response of the start in progress; none where it could not be corrected. -/
def State.pufOf (s : State) : Option Bytes :=
  match s.boot.env.puf with
  | .inl r => some r
  | .inr _ => none

/-- The tamper key share as the derivation takes it: zero but in DEPLOYED under L0. -/
def State.shareSalt (s : State) : Bytes :=
  if s.lc.state = .deployed ∧ ¬ s.lc.dbg.active then padTo 64 s.tmp.share else zeros 64

/-- The identity keys pass to the key store (R246, R270, R423). -/
def passIdentity (s : State) : State :=
  match s.pufOf with
  | none => s
  | some r =>
    let root := rootOf s.lc.dbg.active r
    let key := fun (label : String) (n : Nat) => hkdf [] root (ascii label) n
    let ec := scalar384 (key "SKZ2 ak-ec" 64)
    let pq := key "SKZ2 ak-pq" 32
    let id := sha384B (4 :: public384 ec ++ mlDsaPublic pq)
    { s with ks := { s.ks with root := if s.lc.dbg.active then 2 else 1, idk := scalar384 (key "SKZ2 idk" 64), akEc := ec, akPq := pq,
                               attestId := id, certs := s.lc.certs } }

/-- L1 and the vault key pass to the key store. -/
def passL1 (s : State) : State :=
  match s.pufOf with
  | none => s
  | some r =>
    let l1 := hkdf s.shareSalt (rootOf s.lc.dbg.active r) (ascii "SKZ2 L1" ++ beBytes 8 Config.serial.toNat) 32
    { s with ks := { s.ks with l1 := l1, vaultKey := hkdf [] l1 (ascii "SKZ2 vault") 32 } }

/-! ### Steps 1 to 7 -/

/-- The first windows of a source, from its start. -/
def startSource (s : State) (k : Nat) (windows : List Bytes) : State :=
  windows.foldl (fun s w => windowEnd s k w) (s.putSource k { health := .startTest })

/-- Step 1: the start-attempt counter, the firmware check, source C. -/
def startStep1 (s : State) : StepEnd :=
  let n := min 255 (s.boot.attempts + 1)
  let s1 := { s with boot := { s.boot with attempts := n, counters := bump s.boot.counters 0 1 }, dev := { s.dev with quarantined := [] } }
  let s2 := startSource s1 2 s.boot.env.windowsC
  if s.boot.env.firmwareOk then .done s2 else .fail s2 0x01 0

/-- Step 2: the PUF, the debug record and the root (R247, R385). -/
def startStep2 (s : State) : StepEnd :=
  match s.boot.env.puf with
  | .inr n => .fail s 0x02 n
  | .inl _ =>
    let d := s.lc.dbg
    let s1 := { s with tmp := { s.tmp with rootFormed := true } }
    if d.armed ∧ 0 < d.startsLeft then
      let s2 := { s1 with lc := { s1.lc with dbg := { d with active := true, startsLeft := d.startsLeft - 1 } } }
      .done ((s2.raise evDebugStart srcSecurity 0 (items [(1, d.startsLeft - 1)])).raise evTestRoot srcSecurity 0 [])
    else .done s1

/-- Step 3: the life-cycle state, and a debug record granted in another one (R375, R385). -/
def startStep3 (s : State) : StepEnd :=
  let (st, cause) := decodeState s.lc
  let s1 := { s with lc := { s.lc with state := st, cause := cause },
                     recorder := { s.recorder with everDeployed := s.recorder.everDeployed || st == .deployed } }
  let d := s1.lc.dbg
  match st with
  | .blank => .fail s1 0x03 0
  | .invalid =>
    let data := (items [(1, cause), (8, s.lc.word0.toNat), (8, s.lc.word1.toNat)]).take 16
    .fail (s1.raise evLcInvalid srcSecurity 0 data) 0x04 cause
  | .scrapped => .fail s1 0x05 0
  | _ => if d.armed ∧ d.grantState ≠ st.code then .fail (voidDebug s1 3) 0x06 d.grantState else .done s1

/-- Every capture held is recorded (R397, R400). -/
def recordCaptures : Nat → State → State
  | 0, s => s
  | fuel + 1, s =>
    match execTamperRecordWrite s with
    | .next t => recordCaptures fuel t
    | _ => s

/-- Step 4: the latch and the presence word, with the captures and the events held back (R396, R398, R465). Then RECOVERY for
its reasons (R410, R414, R425). -/
def startStep4 (s : State) : StepEnd :=
  let held := s.recorder.deferred
  let s0 := { s with recorder := held.foldl offer { s.recorder with deferred := [] }, boot := { s.boot with step := 4 } }
  let s1 := recordCaptures 9 s0
  if s1.tmp.latch ∨ s1.tmp.presence then .done s1
  else if s1.lc.state = .deployed then
    .stop (detect (s1.raise evVsecLost srcSecurity 0 []) 19 0)
  else .done { s1 with tmp := { s1.tmp with presence := true } }

/-- Step 5 (R461): a start after a rise of PWRGOOD counts a power cycle. -/
def startStep5 (s : State) : StepEnd :=
  let r := s.recorder
  let secs := if r.coldStart ∧ ¬ r.sleepEntryStored then r.storedSeconds + 64 else r.seconds
  let cycles := if r.coldStart then r.cycles + 1 else r.cycles
  let r1 := { r with seconds := secs, cycles := cycles, storedCycles := cycles, storedSeconds := secs, coldStart := false,
                     sleepEntryStored := true }
  .done { s with recorder := r1 }

/-- The gutter link is keyed with a nonce drawn from source C (R13). -/
def keyGutter (s : State) : State :=
  let (nonce, s1) := s.random 32
  { s1 with dev := { s1.dev with gutterKeyed := true, gutterKey := gutterKeys nonce, gutterTx := 0, gutterRx := 0 } }

/-- Step 6: the compute die is released. A draw from C waits for its start-up test. -/
def startStep6 (s : State) : StepEnd :=
  if ¬ s.boot.env.clockLock then .fail s 0x08 1
  else if ¬ s.healthy 2 then .stop s
  else if ¬ s.boot.env.gutterUp then .fail s 0x08 2
  else .done (keyGutter s)

/-- Quarantine of a unit by MBIST (R412). -/
def bistQuarantine (s : State) (unit : Nat) : State :=
  if s.dev.quarantined.contains unit then s
  else { s with dev := { s.dev with quarantined := s.dev.quarantined ++ [unit] } }.raise evBistQuarantine (srcCc 0) 0 (items [(1, unit)])

/-- The units that a failing memory quarantines; none where the attempt fails with its bank. -/
def badUnits : BadMemory → List Nat ⊕ Nat
  | .unit u =>
    if 0x80 ≤ u ∧ u ≤ 0xFF ∨ 0x40 ≤ u ∧ u ≤ 0x7F ∨ srcBk 0 ≤ u ∧ u ≤ srcBk 15 ∨ srcCc 1 ≤ u ∧ u ≤ srcCc 3 then .inl [u] else .inr u
  | .coreBlock b => .inl ((List.range 8).map (fun i => srcTc (8 * (b % 16) + i)))
  | .other bank => .inr bank

/-- MBIST of the memories that the list names: the state, and the first bank that fails the attempt. -/
def runMbist (s : State) (l : List BadMemory) : State × Option Nat :=
  l.foldl (fun a m =>
    match badUnits m with
    | .inl us => (us.foldl bistQuarantine a.1, a.2)
    | .inr bank => (a.1, a.2.orElse (fun _ => some bank))) (s, none)

/-- Step 7. -/
def startStep7 (s : State) : StepEnd :=
  match runMbist s s.boot.env.badMemories with
  | (s1, none) => .done s1
  | (s1, some bank) => .fail s1 0x09 bank

/-! ### Step 8: the image (R393, R416 to R420, R352) -/

/-- The image in the configuration NVM: from address 0, as long as its header says. -/
def State.nvmImage (s : State) : Bytes :=
  let h := memRead s.boot.nvm0 0 64
  memRead s.boot.nvm0 0 (max 64 (min maxImage (fld h 8 4 + fld h 12 4)))

/-- In every state but DEPLOYED the sections ignore every tenant but T0 (R373). -/
def Image.forState (g : Image) (deployed : Bool) : Image :=
  if deployed then g
  else { g with tenants := g.tenants.filter (fun p => p.1 == 0), functions := g.functions.filter (fun e => e.tenant == 0),
                segments := g.segments.filter (fun p => decide (p.1 < 16)) }

/-- The values that the image sets, in the registers and units that hold them (R422). -/
def takeValues (s : State) (g : Image) : State :=
  let mode : SyncMode := match g.syncMode with
    | 1 => .ptp
    | 2 => .ptpPps
    | _ => .free
  let ports := (g.ports.filter (fun p => p.2.present)).map (fun p => (p.1, ({ (s.port p.1) with cfg := p.2 } : Port)))
  let quota := fun (f : TenantImage → Nat) => (g.tenants.map (fun p => (p.1, f p.2))).filter (fun p => p.2 != 0)
  { s with image := g, ports := ports,
           folio := { s.folio with periodUs := g.periodUs, mode := mode, ptpPort := g.ptpPort },
           srp := { s.srp with udpPort := g.srpPort, hsMs := g.hsMs, idleS := g.idleS },
           sq := { s.sq with queues := g.queues }, adm := { s.adm with st := g.st },
           rng := { s.rng with pers := g.rngPers }, recorder := { s.recorder with policy := g.policy },
           pmc := { s.pmc with interval := g.pmcInterval },
           pwr := { s.pwr with idleHold := g.idleHold, qMap := g.qMap, warmAt := g.warmAt },
           dual := { s.dual with lifeMax := g.lifeMax },
           ks := { s.ks with cacheQuota := quota (fun t => t.cacheQuota), residentQuota := quota (fun t => t.residentQuota) },
           pair := { s.pair with horizon := g.horizon, hop := g.hop, budget := g.budget, memberA := g.memberA, memberB := g.memberB,
                                 peers := g.peers, journalQueue := g.journalQueue } }

/-- The tamper configuration takes effect at once; a sensor active when its action becomes erase is detected (R393). -/
def takeTamperConfig (s : State) (g : Image) : State :=
  let t := s.tmp
  if t.action = g.tamperAction ∧ t.filter = g.switchFilter ∧ t.level = g.switchLevel then s
  else
    let fresh := g.tamperAction &&& ~~~ t.action
    let s1 := { s with tmp := { t with action := g.tamperAction, filter := g.switchFilter, level := g.switchLevel } }.raise
      evTamperConfigChanged srcSecurity 0 (items [(4, t.action.toNat), (4, g.tamperAction.toNat)])
    (List.range 29).foldl (fun s k => if fresh.getLsbD k ∧ t.active.getLsbD k then detect s k 0 else s) s1

/-- The cards and quorums that an image gives a scope are written to the registry; `note`: with event 0x77 for each card. -/
def writeScope (s : State) (scope : Nat) (cards : List Card) (quorums : List (Nat × Nat)) (note : Bool) : State :=
  let keep := s.dual.cards.filter (fun p => p.2.scope != scope)
  let s1 := { s with dual := { s.dual with cards := keep, written := true,
                                           quorums := (List.range 4).foldl (fun t r => tabPut 0 t (4 * scope + r) (tabGet 0 quorums r)) s.dual.quorums } }
  cards.foldl (fun s c =>
    let x := { c with state := .active, scope := scope, usesLeft := 200000 }
    match s.freeCard with
    | none => s
    | some i =>
      let s1 := s.putCard i x
      if note then s1.raise evCardRegistered srcSecurity scope (items [(8, c.serial), (2, scope), (1, c.role)]) else s1) s1

/-- A scope's cards and quorums are written at the first start that finds them absent; the device scope's again while N is below
M for its SO role (R352). -/
def takeCards (s : State) (g : Image) : State :=
  let absent := fun (s : State) (scope : Nat) => decide (s.quorum scope 0 = 0)
  let s1 :=
    if absent s 0 then writeScope s 0 g.cards g.quorums false
    else if s.usableCards 0 0 < s.quorum 0 0 then writeScope s 0 g.cards g.quorums true
    else s
  g.tenants.foldl (fun s p => if p.1 ≠ 0 ∧ absent s p.1 then writeScope s p.1 p.2.cards p.2.quorums false else s) s1

/-- No owner set. -/
def noOwners : OwnerSet := { k := 0, signers := [] }

/-- What an accepted image leaves (R417, R419, R420). -/
def acceptImage (s : State) (b : Bytes) (x : Accepted) : State :=
  let deployed := decide (s.lc.state = .deployed)
  let g := x.image.forState deployed
  let own := x.image.ownerSet
  let number := fld b 24 8
  let boot := { s.boot with imgLen := fld b 8 4, imgNumber := number, imgHash := imageHash b, imgK := x.set.k,
                            imgN := x.set.signers.length, imgRecorded := x.recorded, imgSigned := BitVec.ofNat 8 x.signed }
  let s1 := takeTamperConfig (takeValues { s with boot := boot } g) g
  if s1.dev.state ≠ .start then s1
  else
    let s2 := s1.raise evImageAccepted (srcCc 0) 0 (items [(8, number)] ++ (imageHash b).take 8)
    let s3 := if deployed ∧ own.isSome ∧ s2.boot.ownerSet ≠ own then
        { s2 with boot := { s2.boot with ownerSet := own } }.raise evOwnerSetRecorded srcSecurity 0
          (items [(1, (own.getD noOwners).k), (1, (own.getD noOwners).signers.length)])
      else s2
    let s4 := if deployed then { s3 with boot := { s3.boot with rollback := max s3.boot.rollback number } } else s3
    let s5 := if s4.recoveryRec = g.recovery then s4
      else { s4 with recovery := some g.recovery }.raise evRecoveryRecordWritten srcSecurity 0 []
    takeCards s5 g

/-- The acquire wait begins (R29): a sync mode other than FREE waits up to the acquire limit for a first offset. -/
def beginAcquire (s : State) : State :=
  { s with folio := { s.folio with acquiring := decide (s.folio.mode ≠ .free ∧ 0 < s.image.acquireUs) } }

/-- Step 8. -/
def startStep8 (s : State) : StepEnd :=
  match s.boot.env.xspi0 with
  | some e => .fail s causeImageRead e
  | none =>
    let b := s.nvmImage
    match imageCheck s b with
    | .error (c, d) =>
      .fail (if c = causeApproval then s.raise evOfflineRefused srcSecurity 0 (items [(1, 4), (2, 0)]) else s) c d
    | .ok x =>
      let s1 := acceptImage s b x
      if s1.dev.state ≠ .start then .stop s1 else .done (beginAcquire s1)

/-! ### Steps 9 to 12 -/

/-- Size of the tenant pool, L_T, and s_R (R337). -/
def State.tenantPool (s : State) : Nat × Nat :=
  let spans := (s.cores.library.fns.filter (fun r => r.placed != 0 && decide (0 < r.entry.claimRand))).map (·.span)
  let sr := if spans.isEmpty then 1 else spans.foldl max 0
  ((sr + 1) * s.admF + 8192, sr)

/-- Step 9: the library, and the cells of the tenant pool. A package whose approval fails raises event 0x7F (R354). -/
def startStep9 (s : State) : StepEnd :=
  let refused := (s.image.tenants.filter (fun p => p.1 != 0 && p.2.package != [] && s.lc.state == .deployed &&
    decide (s.approvals p.1 (sha384B p.2.package) (s.image.approvalOf p.1) < s.quorum p.1 0))).map (·.1)
  let s0 := refused.foldl (fun s t => s.raise evOfflineRefused srcSecurity t (items [(1, 7), (2, t)])) s
  match loadLibrary s0 with
  | (s1, some d) => .fail s1 0x12 d
  | (s1, none) =>
    let (size, sr) := s1.tenantPool
    let cells := ceilDiv size 16
    let left := 196608 - quotaSum s1.image (fun t => t.cellQuota)
    if left < cells then .fail s1 0x13 (cells - left)
    else .done { s1 with rng := { s1.rng with poolSize := size, poolSpan := sr }, sq := { s1.sq with poolCells := cells } }

/-- The eight instances from the first seed of source `k`, and the pools full (R333, R341). -/
def instantiateAll (s : State) (k : Nat) (seed : Bytes) : State :=
  let s1 := (List.range 8).foldl (fun s i =>
    s.putDrbg i { state := .running, source := k, seed := instantiation s i seed, lastReseed := s.micros }) s
  { s1 with rng := { s1.rng with poolInt := 4096, poolTen := s1.rng.poolSize, ready := true, active := k } }.raise evRngReady srcRng 0
    (items [(1, k)])

/-- The RNG start-up (R341): A and B start, and the selected one becomes active if it passes, otherwise the other. -/
def rngStart (s : State) : StepEnd :=
  let env := s.boot.env
  let s0 := { s with rng := { s.rng with state := .startup, ready := false } }
  if ¬ env.conditionerOk then .fail (s0.raise evConditionerKatFail srcRng 0 []) 0x14 2
  else if ¬ env.drbgOk then .fail (s0.raise evDrbgKatFail srcRng 0 (items [(1, 0)])) 0x14 3
  else
    let s1 := startSource (startSource s0 0 env.windowsA) 1 env.windowsB
    let want := s1.image.rngActive % 2
    let k := if s1.healthy want then want else 1 - want
    if ¬ s1.healthy k then .fail s1 0x14 1
    else
      match s1.takeSeed k with
      | none => .stop s1
      | some (seed, s2) =>
        let both := s2.healthy 0 ∧ s2.healthy 1
        let s3 := { (instantiateAll s2 k seed) with rng := { (instantiateAll s2 k seed).rng with state := if both then .ready else .degraded } }
        .done (if both then s3 else s3.raise evRngDegraded srcRng 0 (items [(1, k)]))

/-- A marked vault is erased: a new chain begins, and the old batches wait to be erased (R417). -/
def eraseVault (s : State) : State :=
  let v := { s.vault with old := s.vault.old ++ s.vault.batches, batches := [], store := {}, seq := 0, heldSeq := 0, heldChain := [],
                          log := [], heldFolio := 0 }
  { s with vault := v, boot := { s.boot with vaultMark := false } }.raise evVaultErased srcSecurity 0 []

/-- The final sequence number and chain value of the vault equal those the security die holds, and the batches open under the
vault key (R267). Under the test root they never do (R248). -/
def State.vaultGood (s : State) : Bool :=
  let last := (s.vault.batches.getLast?.map (·.seq)).getD 0
  let opens := fun (b : VaultBatch) =>
    let n := b.body.length
    (gcmOpen s.ks.vaultKey (beBytes 12 b.seq) (beBytes 8 b.seq) (slice b.body 8 (n - 24)) (b.body.drop (n - 16))).isSome
  s.ks.root == 1 && vaultChain s.vault.batches == s.vault.heldChain && last == s.vault.heldSeq && s.vault.batches.all opens

/-- T0's client keys of the image, written at each start (R269). -/
def takeClientKeys (s : State) : State :=
  let t0 := (tabGet ({} : TenantImage) s.image.tenants 0).clientKeys
  let key := fun (i : Nat) =>
    let k := tabGet ({} : ClientKey) t0 i
    if k.alg = 0 then k else { k with digest := sha384B k.pub }
  let put := fun (t : List (Nat × ClientKey)) (i : Nat) => tabPut {} t i (key i)
  { s with ks := { s.ks with clientKeys := (List.range 56).foldl put s.ks.clientKeys } }

/-- The stores of a vault that passed its check: a standby takes only the chain record and its keys (R432); use counters resume
from their marks (R262). Outside DEPLOYED only T0's (R373). -/
def unsealStores (s : State) : State :=
  let v := s.vault.store
  let own := fun (t : Nat) => decide (s.lc.state = .deployed ∨ t = 0)
  let s1 := { s with vault := { s.vault with seq := s.vault.heldSeq }, pair := { s.pair with pairKey := v.pairKey, chainKey := v.chainKey } }
  let s2 := if v.chainRecord = [] then s1 else setRecord s1 v.chainRecord
  if s2.paired ∧ s2.position ≠ 0 then s2
  else
    let live := (v.resident.filter (fun p => own p.2.tenant)).map (fun p => (p.1, advanceUses s.pair.hop 1 p.2))
    { s2 with ks := { s2.ks with unsealed := true, refresh := s2.rng.ready, resident := live,
                                 smk := v.smk.filter (fun p => own (p.1 / 8)),
                                 clientKeys := v.clientKeys.filter (fun p => own (p.1 / 64)) } }

/-- Step 11. -/
def startStep11 (s : State) : StepEnd :=
  let (scramble, s0) := s.random 16
  let s1 := passL1 (passIdentity { s0 with ks := { s0.ks with scramble := scramble } })
  let s2 := if s1.boot.vaultMark then eraseVault s1 else s1
  match s.boot.env.xspi1 with
  | some e => .fail s2 0x15 e
  | none =>
    let found := (s2.vault.batches.getLast?.map (·.seq)).getD 0
    let s3 := if s2.vaultGood then unsealStores s2
      else s2.raise evVaultRefused srcKeyStore 0 (items [(8, s2.vault.heldSeq), (8, found)])
    .done (memberClientKeys (takeClientKeys s3))

/-- Step 12: the remaining ports, and the end of the acquire wait. -/
def startStep12 (s : State) : StepEnd :=
  if s.folio.acquiring then .stop s
  else
    match s.boot.env.portFail with
    | some p => .fail s 0x16 p
    | none => .done s

/-! ### Ends of a start -/

/-- What compute-die blocks hold is dropped but for the security die's part, the folio, the RNG and the gutter link (R423). -/
def holdBlocks (s : State) : State :=
  let c := s.computeReset
  let f := { s.folio with groups := [], effects := [], acquiring := false, mode := .free, ptp := {} }
  { c with dev := s.dev, folio := f, rng := { s.rng with forced := none, refilling := false },
           boot := { s.boot with drain := none }, lc := { c.lc with dbg := s.lc.dbg }, tmp := s.tmp,
           faults := {}, pmc := s.pmc, recorder := s.recorder,
           ks := { root := s.ks.root, idk := s.ks.idk, akEc := s.ks.akEc, akPq := s.ks.akPq, attestId := s.ks.attestId, certs := s.ks.certs },
           pwr := { districts := (List.range 24).map (fun d => (d, ({ state := .off } : District))), counters := s.pwr.counters,
                    thermal := s.pwr.thermal, tmax := s.pwr.tmax } }

/-- Steps 6 and 7 on the blocks that RECOVERY holds ready, unless the attempt completed them, and the RNG start-up, unless the
attempt reached it (R341, R423). -/
def readyRecovery (s : State) : State :=
  let up := s.boot.env.clockLock ∧ s.boot.env.gutterUp ∧ s.healthy 2
  let s1 := if s.boot.step < 6 ∧ up then keyGutter s else s
  let s2 := if s.boot.step < 7 ∧ s1.dev.gutterKeyed then (runMbist s1 s1.boot.env.badMemories).1 else s1
  if s2.rng.state ≠ .off then s2
  else
    match rngStart s2 with
    | .done t => t
    | .stop t => t
    | .fail t _ _ => { t with rng := { t.rng with state := if t.healthy 2 then .cOnly else .failed } }

/-- RECOVERY: the compute die holds Port M, SRP4, the Square, request memory, the key store, CC0 and BN0, with the identity keys
where a root was formed (R423). -/
def toRecovery (s : State) (reason : Nat) : State :=
  let s1 := readyRecovery (holdBlocks s)
  let s2 := if s1.tmp.rootFormed ∧ s1.dev.gutterKeyed ∧ s1.ks.idk = [] then passIdentity s1 else s1
  let s3 := enterRecovery s2 reason
  { s3 with boot := { s3.boot with env := {} } }

/-- A debug record used up is voided at the end of the start that used it (R385). -/
def endDebug (s : State) : State := if s.lc.dbg.armed ∧ s.lc.dbg.startsLeft = 0 ∧ s.lc.dbg.active then voidDebug s 1 else s

/-- The attempt fails at step `n` (R414, R424): the cause record, event 0x32, then RECOVERY at the third failure, or an internal
RESET into START. -/
def failStart (s : State) (n cause data : Nat) : State :=
  let r : CauseRec := { reason := 0, step := n, attempt := s.boot.attempts, cause := cause, data := data, seconds := s.recorder.seconds,
                        cycles := s.recorder.cycles }
  let s1 := { s with boot := { s.boot with cause := r, counters := bump s.boot.counters 1 1, running := none } }
  let s2 := endDebug (s1.raise evStartFailed srcSecurity 0 (items [(1, cause), (1, n), (4, data)]))
  if 3 ≤ s2.boot.attempts then toRecovery s2 1 else s2.computeReset.askRestart .start

/-- Step 13: SERVICE, or STANDBY for a paired device that is not first in chain; the counter is cleared (R413). -/
def enterService (s : State) : State :=
  let standby := s.paired ∧ s.position ≠ 0
  let off := (List.range 24).map (fun d => (d, ({ state := .off } : District)))
  let free := if s.folio.stepped then s else { s with folio := { s.folio with sync := .free } }
  let b := { free.boot with attempts := 0, running := none, step := 13, env := {}, commanded := false }
  let s1 := { free with boot := b, pair := { free.pair with confirmed := ¬ free.paired, timer := false } }
  let s2 := if standby then { s1 with pwr := { s1.pwr with districts := off } } else s1
  let s3 := endDebug (s2.enter (if standby then .standby else .service))
  (openMemberChannels s3).raise evStartComplete srcSecurity 0 (items [(1, s3.dev.state.code), (4, s3.boot.ms)])

/-- The steps after the given ones, in order. -/
def stepsFrom (n : Nat) : List (Nat × (State → StepEnd)) :=
  ([(1, startStep1), (2, startStep2), (3, startStep3), (4, startStep4), (5, startStep5), (6, startStep6), (7, startStep7),
    (8, startStep8), (9, startStep9), (10, rngStart), (11, startStep11), (12, startStep12)] :
      List (Nat × (State → StepEnd))).filter (fun p => decide (n ≤ p.1))

/-- A step is complete: its time, and the step last completed. -/
def endStep (s : State) (n : Nat) : State :=
  let ms := s.boot.env.ms.getD (n - 1) 0
  { s with boot := { s.boot with step := n, running := none, ms := s.boot.ms + ms, stepMs := tabPut 0 s.boot.stepMs n ms } }

/-- After step 4 a start enters RECOVERY where the latch is set, the counter stands at 4 or more, or DEV_RESTART asked for it. -/
def State.recoveryDue (s : State) : Option Nat :=
  if s.tmp.latch then some 2 else if 4 ≤ s.boot.attempts then some 5 else if s.boot.commanded then some 4 else none

/-- Run steps until one does not complete. -/
def runSteps : List (Nat × (State → StepEnd)) → State → State
  | [], s => enterService s
  | (n, f) :: rest, s =>
    let s0 := { s with boot := { s.boot with running := some n } }
    if s.boot.env.hang = some n then s0
    else
      match f s0 with
      | .fail t c d => failStart t n c d
      | .stop t => t
      | .done t =>
        let u := endStep t n
        if n = 4 ∧ u.recoveryDue.isSome then
          toRecovery (endDebug { u with boot := { u.boot with commanded := false } }) (u.recoveryDue.getD 0)
        else runSteps rest u

/-- START begins (R409): event 0x30 with the counter that step 1 gives and the life-cycle state. -/
def beginStart (s : State) (env : StartEnv) : State :=
  let c := s.computeReset
  let s1 := { c with dev := { c.dev with state := .start, entryFolio := 0 },
                     boot := { c.boot with restart := none, env := env, step := 0, ms := 0 } }
  let s2 := s1.raise evStartBegun srcSecurity 0 (items [(1, min 255 (s.boot.attempts + 1)), (1, (decodeState s.lc).1.code)])
  runSteps (stepsFrom 1) s2

/-! ### Commands -/

/-- START_BEGIN (R409): PWRGOOD and RESET_N are both high in RESET. -/
def execStartBegin (env : StartEnv) (s : State) : Host.Outcome State Fault Refusal :=
  if s.dev.state = .reset ∧ s.dev.mainRails ∧ s.boot.restart.isNone then
    .next (beginStart { s with dev := { s.dev with pwrGood := true, resetN := true } } env)
  else .next s

/-- INTERNAL_RESTART (R18, R425): the restart that the device owes. -/
def execInternalRestart (env : StartEnv) (s : State) : Host.Outcome State Fault Refusal :=
  match s.boot.restart with
  | some r =>
    if s.dev.state = .reset then .next (beginStart { s with boot := { s.boot with commanded := decide (r = .recovery) } } env) else .next s
  | none => .next s

/-- START_STEP_TIMEOUT (R409): the step in progress overruns its limit. The acquire wait is no part of step 12's limit. -/
def execStartStepTimeout (s : State) : Host.Outcome State Fault Refusal :=
  match s.boot.running with
  | some n => if s.dev.state = .start ∧ ¬ s.folio.acquiring then .next (failStart s n 0x17 n) else .next s
  | none => .next s

/-- The acquire wait has ended: start-up goes on with step 12 (R29). -/
def endAcquire (s : State) : State :=
  let s1 := { s with folio := { s.folio with acquiring := false } }
  if s1.boot.running = some 12 ∧ s1.dev.state = .start then runSteps (stepsFrom 12) s1 else s1

/-- ACQUIRE_WAIT_END (R29). -/
def execAcquireWaitEnd (s : State) : Host.Outcome State Fault Refusal :=
  .next (if s.dev.state = .start ∧ s.folio.acquiring then endAcquire s else s)

/-- A first offset measured in START ends the wait. -/
def acquired (s : State) : State := if s.dev.state = .start ∧ s.folio.acquiring ∧ s.folio.stepped then endAcquire s else s

/-- PTP_SYNC_RECEIVE (R30, R64). -/
def execPtpSyncReceive (lport : Nat) (m : PtpSync) (s : State) : Host.Outcome State Fault Refusal := .next (acquired (ptpSync s lport m))

/-- PTP_FOLLOW_UP_RECEIVE (R64). -/
def execPtpFollowUpReceive (lport domain source seq : Nat) (t1 : Int) (s : State) : Host.Outcome State Fault Refusal :=
  .next (acquired (ptpFollowUp s lport domain source seq t1))

/-- PPS_IN_EDGE (R30). -/
def execPpsInEdge (t : Int) (s : State) : Host.Outcome State Fault Refusal := .next (acquired (ppsEdge s t))

end Sys2Proof.Machine
end

