-- ==== Sys2Proof/Machine/Chain.lean ====
section
/-! DEFINITION. What comes back to a member on the channels that it opened: handshakes, acknowledgements, heartbeat replies
(R79, R80, R440, R443, R444), and the self-fence (R448). -/

namespace Sys2Proof.Machine

/-! ### The client's side of the handshake (R77 to R80, R439) -/

/-- The transcript and keys of a handshake (R78). -/
def handshakePrk (hs1 z ss : Bytes) : Bytes := hkdfExtract (sha384B hs1) (z ++ ss)
def handshakeKey (prk : Bytes) (label : String) : Bytes := hkdfExpand prk (ascii label) 32
def trafficKey (prk : Bytes) (label : String) (hs1 hs2 hs3 : Bytes) : Bytes :=
  hkdfExpand prk (ascii label ++ sha384B (hs1 ++ hs2 ++ hs3)) 36

/-- What the device signs, and what the client signs. -/
def deviceMessage (hs1 hs2 : Bytes) : Bytes := sha384B (hs1 ++ hs2.take 1249)
def clientMessage (hs1 hs2 : Bytes) : Bytes := sha384B (hs1 ++ hs2)

/-- The member keys of a record slot: IDK, AK-EC, AK-PQ. -/
def Member.akEc (m : Member) : Bytes := slice m.keys 97 97
def Member.akPq (m : Member) : Bytes := slice m.keys 194 1952

/-- HS2 of a member's device is good: it opens, names the attestation keys of that member, and both signatures verify; the
value is the PRK (R79, R439). -/
def checkHs2 (m : Member) (x : Channel) (hs2 : Bytes) : Option Bytes :=
  match ecdhX (x.prk.take 48) (slice hs2 64 97) with
  | none => none
  | some z =>
    let prk := handshakePrk x.hs1 z (mlKemDecaps (x.prk.drop 48) (slice hs2 161 1088))
    match gcmOpen (handshakeKey prk "SKZ2 hs d2c") (zeros 12) (hs2.take 1249) (slice hs2 1249 3453) (hs2.drop 4702) with
    | none => none
    | some p =>
      let msg := deviceMessage x.hs1 hs2
      if p.take 48 = sha384B (m.akEc ++ m.akPq) ∧ verify384 (m.akEc.drop 1) (sha384B msg) (slice p 48 96) ∧
          mlDsaVerify m.akPq [] msg (p.drop 144) then some prk
      else none

/-- HS3, signed by the identity key, leaves; the channel has its keys, sending under c2d (R78, R439). -/
def sendHs3 (s : State) (c : Nat) (x : Channel) (lport : Nat) (src : Source4) (hs2 prk sig : Bytes) : State :=
  let id := fld hs2 4 4
  let h := srpHeader 5 false 0 0 id 0 []
  let (ct, tag) := gcmSeal (handshakeKey prk "SKZ2 hs c2d") (zeros 12) h sig
  let hs3 := h ++ ct ++ tag
  let y := { x with hs2 := hs2, prk := [], peerId := some id, c2d := trafficKey prk "SKZ2 d2c" x.hs1 hs2 hs3,
                    d2c := trafficKey prk "SKZ2 c2d" x.hs1 hs2 hs3 }
  let s1 := s.putChan c y
  if (s.port lport).link then s1.transmit lport { bytes := hs3, dst := src } else s1.dropReply lport 0

/-- HS2_RECEIVE: the answer to the device's own HS1. A check that fails ends the handshake. -/
def execHs2Receive (lport : Nat) (s : State) : Host.Outcome State Fault Refusal :=
  match s.head lport with
  | none => .next s
  | some d =>
    if (s.headerDrop lport d.bytes).isSome then .next (dropHeader s lport d.bytes)
    else if dgramType d.bytes ≠ 4 then .next s
    else
      let s := s.popIngress lport
      let hs := fld d.bytes 8 8
      let c := 32768 + hs % 16
      let x := s.chan c
      match x.member with
      | none => .next s
      | some j =>
        if 16 ≤ hs ∨ x.state ≠ .pending ∨ x.hs2 ≠ [] ∨ x.phys ≠ physOf lport then .next ((s.srpCnt 3 1).dropped lport 0)
        else if d.bytes.length ≠ 4718 then .next ((s.srpCnt 7 1).dropped lport 0)
        else
          match checkHs2 (s.member j) x d.bytes with
          | none => .next ((s.putChan c {}).srpCnt 12 1)
          | some prk =>
            match (Fn.ecdsaSign p384 (beNat s.ks.idk) (sha384B (clientMessage x.hs1 d.bytes))).run.run s with
            | (.ok sig, s1) => .next (sendHs3 s1 c x lport d.src d.bytes prk sig)
            | (.error _, s1) => .next ((s1.putChan c {}).srpCnt 12 1)

/-- The REP at the head of a port's ingress buffer, on an own channel in state `want`: its channel, its plaintext, and the state
after the receive checks of R70 and R71; none where no REP stands there, or it is dropped. -/
def takeRep (s : State) (lport : Nat) (want : ChanState) : Option (Nat × Channel × Bytes × Bytes) × State :=
  match s.head lport with
  | none => (none, s)
  | some d =>
    let b := d.bytes
    if (s.headerDrop lport b).isSome then (none, dropHeader s lport b)
    else
      match s.ownChannel lport (fld b 4 4) with
      | none => (none, s)
      | some (c, x) =>
        if dgramType b ≠ 2 ∨ x.state ≠ want then (none, s)
        else
          let s := s.popIngress lport
          if b.length < 48 then (none, (s.srpCnt 7 1).dropped lport c)
          else
            match openDgram x.c2d b with
            | none => (none, (s.tagFailure lport).dropped lport c)
            | some pt =>
              match x.window (fld b 8 8) with
              | none => (none, (s.replayRefusal lport).dropped lport c)
              | some y => (some (c, x, b, pt), s.putChan c { y with idle := 0 })

/-- READY_REP_RECEIVE (R79, R80): the ready REP opens the device's own channel. -/
def execReadyRepReceive (lport : Nat) (s : State) : Host.Outcome State Fault Refusal :=
  match takeRep s lport .pending with
  | (some (c, x, b, _), s1) =>
    if fld b 2 2 / 1024 = 0 ∧ fld b 8 8 = 1 then
      .next (((s1.modChan c (fun y => { y with state := .open, hs1 := [], hs2 := [] })).srpCnt 11 1).raise evChannelOpened
        (srcSrp (srpEngine x.phys c)) 0 (items [(4, chanId c x), (2, 0), (1, x.clientKey)]))
    else .next s1
  | (none, s1) => .next s1

/-! ### Replies on own channels -/

/-- A reply record: its status and result (Table 3.5). -/
structure ReplyRec where
  status : Nat
  result : Bytes
  deriving DecidableEq, Repr

/-- The reply records of a REP's plaintext. -/
def replyRecs : Nat → Bytes → List ReplyRec
  | 0, _ => []
  | n + 1, p =>
    let len := fld p 12 2
    { status := fld p 10 2, result := slice p 24 len } :: replyRecs n (p.drop (24 + pad8 len))

/-- The active's reservations up to folio `h` are durable (R262, R447). -/
def settleReservations (s : State) (h : Nat) : State :=
  let done := s.pair.sent.filter (fun q => folioReached h q.1)
  let s1 := { s with pair := { s.pair with sent := s.pair.sent.filter (fun q => !folioReached h q.1) } }
  done.foldl (fun s q => s.putResident q.2.1 { s.resident q.2.1 with reserved := q.2.2 }) s1

/-- The replies of the folios up to `h` that wait for the journal are released (R146, R444). -/
def releaseJournal (s : State) (h : Nat) : State :=
  let free := fun (p : Nat × Slot) =>
    (p.1, if p.2.journalHeld ∧ folioReached h (p.2.commit.getD (0, 0)).1 then
        ({ p.2 with journalHeld := false, state := .sending } : Slot) else p.2)
  { s with sq := { s.sq with slots := s.sq.slots.map free } }

/-- Position 1 holds every batch up to `h` (R438, R444, R448, R449, R451); `batch`: it has answered a batch, which ends the
silence. -/
def acknowledged (s : State) (h : Nat) (batch : Bool) : State :=
  let newer := folioReached h s.pair.held && h != s.pair.held
  let fresh := batch || newer
  let was := s.pair.confirmed
  let s1 := { s with pair := { s.pair with held := if newer then h else s.pair.held, confirmed := was || fresh,
                                           ackSilence := if fresh then 0 else s.pair.ackSilence } }
  let s2 := releaseJournal (settleReservations s1 h) h
  let s3 := if fresh ∧ ¬ was then announceService s2 else s2
  match s3.pair.handover with
  | some g => if g ≠ handoverDraining ∧ folioReached h g then finishHandover s3 else s3
  | none => s3

/-- Record slot `j` answered on a path with HELD `h`. -/
def memberHolds (s : State) (j path h : Nat) (batch : Bool) : State :=
  let s1 := heardFrom s j path
  let m := s1.member j
  let s2 := if m.state ≠ 0 ∧ folioReached h m.held then s1.putMember j { m with held := h } else s1
  if s.dev.state = .service ∧ s.position = 0 ∧ m.position = 1 ∧ m.state ≠ 0 then acknowledged s2 h batch else s2

/-- The device fences itself (R448): nothing more is committed, every task and job stops without output, the vault gets its
fence flush, and the device enters RECOVERY. -/
def selfFence (s : State) : State :=
  let s1 := (s.sq.slots.map (·.1)).foldl stopSlot s
  let s2 := writeBatch s1 true
  toRecovery (s2.raise evSelfFence (srcCc 0) 0 (items [(8, s.pair.held)])) 3

/-- PAIR_SUPERSEDED (R440): the sender stops at once. The peer's epoch in the event is a free value: the reply does not carry it. -/
def superseded (s : State) : State :=
  let (e, s1) := s.random 4
  let s2 := s1.raise evSuperseded (srcCc 0) 0 (items [(4, s.pair.epoch), (4, beNat e)])
  match s.dev.state with
  | .service => selfFence s2
  | .standby => toRecovery s2 3
  | _ => s2

/-- A member's own heartbeat fields, in its reply (R438, R440). -/
def memberReports (s : State) (j path : Nat) (r : Bytes) : State :=
  let s1 := memberHolds s j path (fld r 8 6) false
  let m := s1.member j
  if fld r 5 1 = 1 ∧ m.state = 2 ∧ m.position = s1.position + 1 then
    (markInChain s1 j).raise evMemberInChain (srcCc 0) 0 (items [(1, j), (4, s1.pair.epoch)])
  else s1

/-- Act on one reply record from record slot `j`. Results of 8 bytes answer batches and snapshots, results of 16 bytes heartbeats
(Table 17.3). -/
def actOnReply (j path : Nat) (s : State) (r : ReplyRec) : State :=
  if r.status = stPairSuperseded then superseded s
  else if r.status ≠ stOk then heardFrom s j path
  else if r.result.length = 16 then memberReports s j path r.result
  else memberHolds s j path (fld r.result 0 6) true

/-- A REP on an own channel, with every record it carries. -/
def repArrives (s : State) (lport : Nat) : State :=
  match takeRep s lport .open with
  | (some (_, x, b, pt), s1) =>
    match x.member with
    | some j => (replyRecs (fld b 2 2 / 1024) pt).foldl (actOnReply j x.phys) s1
    | none => s1
  | (none, s1) => s1

/-- JOURNAL_ACK (R443, R444): a REP on an own channel, whose first record the name tells. -/
def execJournalAck (lport : Nat) (s : State) : Host.Outcome State Fault Refusal := .next (repArrives s lport)
/-- HEARTBEAT_REPLY (R440). -/
def execHeartbeatReply (lport : Nat) (s : State) : Host.Outcome State Fault Refusal := .next (repArrives s lport)

/-- SELF_FENCE (R448): at the tick that follows 40 consecutive folios without an acknowledgement on either path. -/
def execSelfFence (s : State) : Host.Outcome State Fault Refusal :=
  if s.fenceArmed ∧ 40 ≤ s.pair.ackSilence then .next (selfFence s) else .next s

end Sys2Proof.Machine
end

