-- ==== Sys2Proof/Machine/Mgmt.lean ====
section
/-! DEFINITION. The management functions (R45 to R49, R86, R504) and the handshake functions (R77 to R79). -/

namespace Sys2Proof.Machine

/-! ### Reads and writes (R86) -/

/-- The checks on a range of registers. -/
def Fn.rangeOk (p : Bytes) (len : Nat) : Fn Unit := do
  let addr := fld p 0 4
  let n := fld p 4 2
  Fn.need (decide (p.length = len ∧ 1 ≤ n ∧ n ≤ 256)) stMgmtCount
  Fn.need (decide (addr % 4 = 0)) stMgmtAddrAlign
  Fn.need ((List.range n).all (fun i => !undefinedAddr (addr + 4 * i))) stMgmtAddrUndefined

/-- RNG_RANDOM(0) to RNG_RANDOM(15). -/
def isRandomReg (addr : Nat) : Bool := decide (0x600300 ≤ addr ∧ addr < 0x600340)

/-- Read `n` registers from `addr` on. -/
def Fn.readRegs (chan : Nat) : Nat → Nat → Fn Bytes
  | 0, _ => pure []
  | n + 1, addr => do
    let w ← if isRandomReg addr then do
        match readRandom (← get) with
        | .ok (w, s1) => set s1; pure w.toNat
        | .error st => throw st
      else Fn.act (fun s => regRead s chan addr)
    return beBytes 4 w ++ (← Fn.readRegs chan n (addr + 4))

/-- MGMT_READ. -/
def mgmtReadFn (x : Slot) : Fn FnRes := do
  let p := x.payload
  Fn.rangeOk p 8
  let addr := fld p 0 4
  let n := fld p 4 2
  if (List.range n).any (fun i => isRandomReg (addr + 4 * i)) then
    match readRandom (← get) with
    | .ok _ => pure ()
    | .error st =>
      Fn.change (fun s => refuseDraw s none st)
      throw st
  Fn.done (← Fn.readRegs x.chan n addr)

/-- The commit groups that a register range touches. -/
def groupsOf (addr n : Nat) : List Nat := ((List.range n).filterMap (fun i => (stagedField (addr + 4 * i)).map (·.1))).eraseDups

/-- MGMT_WRITE: its words are written at its commit point. -/
def mgmtWriteFn (x : Slot) : Fn FnRes := do
  let p := x.payload
  let addr := fld p 0 4
  let n := fld p 4 2
  Fn.rangeOk p (8 + 4 * n)
  let s ← get
  Fn.need ((groupsOf addr n).all (fun g => (s.group g).state != .armed)) stCommitPending
  Fn.done [] [.mgmtWrite addr ((chunks 4 (p.drop 8)).map (fun w => fld w 0 4)) x.chan]

/-! ### Commits (R46 to R49) -/

/-- The values that would result: those in effect with the staged ones over them. -/
def State.wouldBe (s : State) (g : Nat) : List (Nat × Nat) := (s.group g).staged.foldl (fun t p => stWrite t p.1 p.2) s.adm.st

/-- The first register that a sum covers: the lowest one written, else the lowest one (DESIGN CHOICE, log entry 41). -/
def firstOf (staged : List (Nat × Nat)) (base step : Nat) : Nat :=
  ((staged.map (·.1)).find? (fun a => decide (base ≤ a ∧ a < base + step * 513 ∧ (a - base) % step = 0))).getD base

/-- A sum rule: the address of its first register where it fails. -/
def sumRule (staged st : List (Nat × Nat)) (base step limit : Nat) : Option Nat :=
  if sumSt st base step ≤ limit then none else some (firstOf staged base step)

/-- The rules of R100 over the values `st`, in their order. -/
def State.rules1 (s : State) (st : List (Nat × Nat)) : List (Option Nat) :=
  let staged := (s.group 1).staged
  let most := fun (n : Nat) => n * 95 / 100
  let service := (List.range 16).filter (fun i => (s.port i).cfg.present)
  let eg := (service.map (fun i => s.nomEg i - s.journalAllowance i)).foldl min (2 ^ 32)
  let t0 := fun (a : Nat) => if stRead st a < stRead s.image.st a then some a else none
  let share := fun (st : List (Nat × Nat)) => if stRead st 0x46000 < 64 then some 0x46000 else none
  (List.range 16).map (fun b => sumRule staged st (0x47000 + 4 * b) 0x40 (most (8 * s.perCore))) ++
    [sumRule staged st 0x42000 4 (most s.nomBn), sumRule staged st 0x43000 4 (most s.nomBulk), sumRule staged st 0x44000 4 (most s.nomRand),
     sumRule staged st 0x45000 4 (most eg)] ++
    ([0x42000, 0x43000, 0x44000, 0x45000] ++ (List.range 16).map (fun b => 0x47000 + 4 * b)).map t0 ++
    [sumRule staged st 0x46000 4 (8 * s.admA), share st]

/-- The rules of R127. -/
def State.rules2 (s : State) (st : List (Nat × Nat)) : List (Option Nat) :=
  let on := fun (q : Nat) => (stRead st (0x58000 + 4 * (q / 32))).testBit (q % 32)
  let quota := fun (q : Nat) => (tabGet ({} : TenantImage) s.image.tenants (s.queue q).owner).channelQuota
  [if on 0 && on 1 then none else some 0x58000] ++
    (List.range 128).map (fun e => if (List.range 32).any (fun j => on (32 * e + j) && quota (32 * e + j) == 0) then some (0x58000 + 4 * e) else none)

/-- The rules of a group: the address of the first register whose rule fails (R46, R100, R104, R127, R481). -/
def State.ruleFails (s : State) (g : Nat) : Option Nat :=
  let st := s.wouldBe g
  match g with
  | 1 => (s.rules1 st).findSome? id
  | 2 => (s.rules2 st).findSome? id
  | 3 => if (stRead st 0x41000).testBit 0 then some 0x41000 else none
  | _ => none

/-- A refused commit (R49): LAST_REFUSED, event 0x96; FAIL_ADDR goes with COMMIT_INCONSISTENT alone. -/
def Fn.refuseCommit (g st fail : Nat) : Fn FnRes := do
  Fn.change (fun s =>
    let s1 := if g < 64 then s.putGroup g { s.group g with lastRefused := true } else s
    s1.raise evCommitRefused s.mgmtCore 0 (items [(1, g), (2, st), (4, fail)]))
  return { status := st, result := if st = stCommitInconsistent then zeros 8 ++ beBytes 4 fail else [] }

/-- What an accepted commit answers: EFFECTIVE. -/
def commitReply (f : Nat) : Bytes := beBytes 6 f ++ zeros 6

/-- Folios from the admission folio to the earliest target tick (R47). -/
def State.commitLead (s : State) : Nat := if s.soleActive then 1 else 1 + s.pair.horizon

/-- MGMT_COMMIT. -/
def mgmtCommitFn (k : Nat) (x : Slot) : Fn FnRes := do
  let p := x.payload
  let g := fld p 0 1
  let flags := fld p 1 1
  Fn.need (decide (p.length = 8)) stMgmtCount
  let s ← get
  let y := s.group g
  if g = 0 ∨ 5 ≤ g then Fn.refuseCommit g stCommitGroupUnknown 0
  else if y.state = .armed then Fn.refuseCommit g stCommitPending 0
  else if flags.testBit 0 then do
    Fn.change (fun s => s.putGroup g { y with state := .clean, staged := [], writes := 0, lastRefused := false })
    Fn.done (commitReply 0)
  else if y.state = .clean then do
    Fn.change (fun s => s.putGroup g { y with lastRefused := false })
    Fn.done (commitReply 0)
  else
    let a := s.folio.now
    let early := folioAdd a s.commitLead
    let at_ := fld p 2 6
    let target := if flags.testBit 1 then at_ else early
    let armed := ((List.range 5).filter (fun h => (s.group h).state == .armed)).map (fun h => (s.group h).folio)
    if ¬ folioReached target early ∨ 2 ^ 20 < folioDiff target a then Fn.refuseCommit g stCommitFolioRange 0
    else if armed.any (fun f => !folioReached target f) then
      Fn.refuseCommit g stCommitOrder 0
    else
      match s.ruleFails g with
      | some fail => Fn.refuseCommit g stCommitInconsistent fail
      | none => do
        let e : ArmedEffect := { folio := some target, slot := some k, effect := .commitGroup g }
        Fn.change (fun s =>
          let s1 := s.putGroup g { y with state := .armed, folio := target, lastRefused := false }
          let s2 := { s1 with folio := { s1.folio with effects := s1.folio.effects ++ [e] } }
          if s2.paired then s2.journal 7 (configBody g target y.staged) else s2)
        Fn.done (commitReply target)

/-- MGMT_READ. -/
def execMgmtRead (slot : Nat) (s : State) : Host.Outcome State Fault Refusal := .next (serveFn (· == 1) (fun _ x => mgmtReadFn x) slot s)
/-- MGMT_WRITE. -/
def execMgmtWrite (slot : Nat) (s : State) : Host.Outcome State Fault Refusal := .next (serveFn (· == 2) (fun _ x => mgmtWriteFn x) slot s)
/-- MGMT_COMMIT. -/
def execMgmtCommit (slot : Nat) (s : State) : Host.Outcome State Fault Refusal := .next (serveFn (· == 3) mgmtCommitFn slot s)

/-! ### Handshakes (R77 to R79) -/

/-- HS_RESPOND: the device's ephemeral keys, the shared secrets, HS2 and its signatures. -/
def hsRespondFn (x : Slot) : Fn FnRes := do
  let hs1 := x.payload
  let s ← get
  let c := s.chan x.chan
  let ek := slice hs1 164 1184
  Fn.need (!ekUnreduced (ek.take 1152)) stInputNotReduced
  let rnd ← Fn.draw (32 + 48 + 32)
  let eph := slice rnd 32 48
  let z ← Fn.get! (ecdhX eph (slice hs1 64 97)) stPointNotOnCurve
  let (ct, ss) := mlKemEncaps ek (rnd.drop 80)
  let prk := handshakePrk hs1 z ss
  let clear := rnd.take 32 ++ [4] ++ public384 eph ++ padTo 1088 ct
  let h := srpHeader 4 false 0 c.tenant (chanId x.chan c) (fld hs1 8 8) []
  let msg := deviceMessage hs1 (h ++ clear)
  let ec ← Fn.ecdsaSign p384 (beNat s.ks.akEc) (sha384B msg)
  let pq ← Fn.mlDsaSign s.ks.akPq [] msg
  let key := handshakeKey prk "SKZ2 hs d2c"
  let (body, tag) := gcmSeal key (zeros 12) (h ++ clear) (padTo 48 s.ks.attestId ++ ec ++ pq)
  Fn.done [] [.hs2 x.chan (h ++ clear ++ body ++ tag) prk (handshakeKey prk "SKZ2 hs c2d") key]

/-- The client's signature over m_cli verifies under a registered key. -/
def clientSigned (key : ClientKey) (msg sig : Bytes) : Bool :=
  match key.alg with
  | 1 => verify384 (key.pub.drop 1) (sha384B msg) sig
  | 2 => mlDsaVerify key.pub [] msg sig
  | _ => false

/-- HS_FINISH: the registered key is read and checked (R269), and the signature decides. The payload is the header of HS3, the
opened signature, and the sealed body. -/
def hsFinishFn (x : Slot) : Fn FnRes := do
  let p := x.payload
  let n := (p.length - 48) / 2
  let s ← get
  let c := s.chan x.chan
  let key := s.clientKey c.tenant c.clientKey
  let qx := fld key.pub 1 48
  let qy := fld key.pub 49 48
  Fn.need (sha384B key.pub == key.digest &&
    (key.alg != 1 || (fld key.pub 0 1 == 4 && decide (qx < p384.p ∧ qy < p384.p) && p384.has qx qy))) stClientKeyInvalid
  if clientSigned key (clientMessage c.hs1 c.hs2) (slice p 32 n) then
    let hs3 := p.take 32 ++ p.drop (32 + n)
    Fn.done [] [.channelOpen x.chan (trafficKey c.prk "SKZ2 c2d" c.hs1 c.hs2 hs3) (trafficKey c.prk "SKZ2 d2c" c.hs1 c.hs2 hs3)]
  else Fn.done [] [.channelRefuse x.chan]

/-- HS_RESPOND. -/
def execHsRespond (slot : Nat) (s : State) : Host.Outcome State Fault Refusal := .next (serveFn (· == 0xC0) (fun _ x => hsRespondFn x) slot s)
/-- HS_FINISH. -/
def execHsFinish (slot : Nat) (s : State) : Host.Outcome State Fault Refusal := .next (serveFn (· == 0xC1) (fun _ x => hsFinishFn x) slot s)

end Sys2Proof.Machine
end

