-- ==== Sys2Proof/Machine/Debug.lean ====
section
/-! DEFINITION. The debug master behind DBG_ACCESS (R211, R219, R384 to R387, Table 7.12). -/

namespace Sys2Proof.Machine

/-! ### The bytes of the compute-die SRAM space -/

/-- What a part of a debug access reaches. -/
inductive DebugByte where
  | absent
  | locked
  /-- A byte of a memory whose contents the spec lays out. -/
  | plain (row offset : Nat)
  /-- A byte of a memory whose contents it does not lay out. -/
  | inner
  deriving DecidableEq, Repr

/-- The byte that an address shows (Table 1.2): the key cache, the resident key store and the DRBG state are locked. -/
def debugByte (a : Nat) : DebugByte :=
  let p := Config.debugSram a
  if p.1 < 5 then .plain p.1 p.2
  else if p.1 = 6 ∨ p.1 = 7 ∨ p.1 = 13 then .locked
  else if p.1 < 15 then .inner
  else .absent

/-- Eight bits from bit address `a`, the lowest address least significant, as the 64-bit reads of R173 order them. -/
def bitByte (m : List (Nat × Bool)) (a : Nat) : Byte :=
  BitVec.ofNat 8 ((List.range 8).map (fun i => bit (tabGet false m (a + i)) * 2 ^ i)).sum

def putBitByte (m : List (Nat × Bool)) (a : Nat) (b : Byte) : List (Nat × Bool) :=
  (List.range 8).foldl (fun m i => tabPut false m (a + i) (b.getLsbD i)) m

/-- Bytes of one core's private memory in Table 1.2: 128 KiB of instructions, 64 KiB of data, 8 KiB of bits. -/
def privateSize : Nat := 0x32000

def privateByte (c : Core) (r : Nat) : Byte :=
  if r < 0x20000 then (beBytes 4 (tabGet 0 c.imem (r / 4)).toNat).getD (r % 4) 0
  else if r < 0x30000 then tabGet 0 c.dmem (r - 0x20000)
  else bitByte c.bits (8 * (r - 0x30000))

def putPrivateByte (c : Core) (r : Nat) (b : Byte) : Core :=
  if r < 0x20000 then
    let old := beBytes 4 (tabGet 0 c.imem (r / 4)).toNat
    { c with imem := tabPut 0 c.imem (r / 4) (BitVec.ofNat 32 (beNat (old.set (r % 4) b))) }
  else if r < 0x30000 then { c with dmem := tabPut 0 c.dmem (r - 0x20000) b }
  else { c with bits := putBitByte c.bits (8 * (r - 0x30000)) b }

/-- A byte of a memory of Table 1.2, by row: core-block memory, transaction-core private memory, shared bits, control-core private
memory, big-number operand memory. -/
def State.sramByte (s : State) (row o : Nat) : Byte :=
  match row with
  | 0 => tabGet 0 (tabGet [] s.cores.blockMem (o / 2 ^ 20)) (o % 2 ^ 20)
  | 1 => privateByte (s.core (o / privateSize)) (o % privateSize)
  | 2 => bitByte (tabGet [] s.cores.blockBits (o / 2 ^ 13)) (8 * (o % 2 ^ 13))
  | 3 => privateByte (s.core (128 + o / privateSize)) (o % privateSize)
  | _ => tabGet 0 ((s.engine (o / 2 ^ 15)).bank (o / 2 ^ 13 % 4)).mem (o % 2 ^ 13)

def State.putSramByte (s : State) (row o : Nat) (b : Byte) : State :=
  match row with
  | 0 => { s with cores := { s.cores with blockMem := tabMod [] s.cores.blockMem (o / 2 ^ 20) (fun m => tabPut 0 m (o % 2 ^ 20) b) } }
  | 1 => s.modCore (o / privateSize) (fun c => putPrivateByte c (o % privateSize) b)
  | 2 =>
    { s with cores := { s.cores with blockBits := tabMod [] s.cores.blockBits (o / 2 ^ 13) (fun m => putBitByte m (8 * (o % 2 ^ 13)) b) } }
  | 3 => s.modCore (128 + o / privateSize) (fun c => putPrivateByte c (o % privateSize) b)
  | _ => s.modBank (o / 2 ^ 15) (o / 2 ^ 13 % 4) (fun k => { k with mem := tabPut 0 k.mem (o % 2 ^ 13) b })

/-! ### Parts refused -/

/-- A part that Table 7.12 does not permit: DENIED, its address, and event 0x2C at most once a second with the parts denied since
the last. -/
def debugDenied (s : State) (a : Nat) : State :=
  let s1 := { s with cores := { s.cores with mpuDenied := true, mpuDbgAddr := a } }
  let n := s1.lc.debugDeniedCount + 1
  if s1.lc.debugDeniedSecond = some s1.second then { s1 with lc := { s1.lc with debugDeniedCount := n } }
  else
    { s1 with lc := { s1.lc with debugDeniedSecond := some s1.second, debugDeniedCount := 0 } }.raise evDebugDenied srcDebug 0
      (items [(4, a), (4, n)])

/-- A part that reached a locked region: LOCKED_HIT, its address, and event 0x2B at most once a second (R219, R391). -/
def debugLocked (s : State) (a : Nat) : State :=
  let s1 := { s with cores := { s.cores with mpuLockedHit := true, mpuDbgAddr := a } }
  let n := s1.lc.debugLockedCount + 1
  if s1.lc.debugLockedSecond = some s1.second then { s1 with lc := { s1.lc with debugLockedCount := n } }
  else
    { s1 with lc := { s1.lc with debugLockedSecond := some s1.second, debugLockedCount := 0 } }.raise evDebugLockedAccess srcDebug 0
      (items [(4, a), (4, n)])

/-- The first byte of an access of a kind, as the address of a refused part. -/
def firstDebug (p : DebugByte → Bool) (a : Nat) : Option Nat := ((List.range 4).map (a + ·)).find? (fun y => p (debugByte y))

/-- The flags of an access in the SRAM space; `allowed`: debug is authorised. -/
def debugFlags (s : State) (allowed : Bool) (a : Nat) : State :=
  let s1 := match firstDebug (fun (t : DebugByte) => t == .locked) a with
    | some y => debugLocked s y
    | none => s
  match firstDebug (fun (t : DebugByte) => t != .locked && (!allowed || t == .absent)) a with
  | some y => debugDenied s1 y
  | none => s1

/-! ### The accesses -/

/-- Read four bytes of the SRAM space: zeros for the parts that are refused, and no stated value for a memory that the spec does not
lay out (log entry 6). -/
def debugSramRead (s : State) (allowed : Bool) (a : Nat) : Word32 × State :=
  let r := s.random 4
  let byte := fun (i : Nat) => match debugByte (a + i) with
    | .plain row o => if allowed then s.sramByte row o else 0
    | .inner => if allowed then r.1.getD i 0 else 0
    | _ => 0
  let drew := (List.range 4).any (fun i => debugByte (a + i) == .inner)
  (BitVec.ofNat 32 (beNat ((List.range 4).map byte)), debugFlags (if drew then r.2 else s) allowed a)

/-- Write four bytes of the SRAM space. -/
def debugSramWrite (s : State) (allowed : Bool) (a : Nat) (data : Word32) : State :=
  let b := beBytes 4 data.toNat
  let put := fun (s : State) (i : Nat) => match debugByte (a + i) with
    | .plain row o => if allowed then s.putSramByte row o (b.getD i 0) else s
    | _ => s
  debugFlags ((List.range 4).foldl put s) allowed a

/-- A register as the debug master reads it: it has no channel, so selectors read 0 and a LO half is not captured. -/
def debugReg (s : State) (addr : Nat) : Word32 × State :=
  if isRandomReg addr then
    match readRandom s with
    | .ok r => r
    | .error _ => (0, s)
  else
    match splitValue s (2 ^ 15) addr with
    | none => (BitVec.ofNat 32 (readPlain s (2 ^ 15) addr), s)
    | some (v, hi) => (BitVec.ofNat 32 (if addr = hi then hi32 v else lo32 v), s)

/-- A read in the management space: without authorisation, of DEV_PART only. -/
def debugMgmtRead (s : State) (allowed : Bool) (a : Nat) : Word32 × State :=
  if ¬ allowed ∧ a ≠ 0 then (0, debugDenied s a)
  else if a % 4 = 0 then debugReg s a
  else
    let r1 := debugReg s (a - a % 4)
    let r2 := debugReg r1.2 (a - a % 4 + 4)
    let b := beBytes 4 r1.1.toNat ++ beBytes 4 r2.1.toNat
    (BitVec.ofNat 32 (beNat (slice b (a % 4) 4)), r2.2)

/-- A write in the management space. A part of a register is not written. -/
def debugMgmtWrite (s : State) (allowed : Bool) (a : Nat) (data : Word32) : State :=
  if ¬ allowed then debugDenied s a
  else if a % 4 ≠ 0 ∨ (selectorMask a).isSome then s
  else regWrite s (2 ^ 15) a data.toNat

/-- Debug is authorised in this start (R385), in a state that accepts it (Table 7.12). -/
def State.debugAllowed (s : State) : Bool := s.lc.dbg.active && s.lc.state != .invalid && s.lc.state != .scrapped

/-- DBG_ACCESS (R386, R387). Space 0 is management space, 1 compute-die SRAM; nothing stands in the others. -/
def execDbgAccess (write : Bool) (space addr : Nat) (data : Word32) (s : State) : Host.Outcome State Fault Refusal :=
  if ¬ s.tapOpen then .next (s.setTap (fun t => { t with instr := .bypass }))
  else
    let s1 := s.setTap (fun t => { t with instr := .dbgAccess, pinsFromBoundary := false, pinsHighZ := false })
    let ok := s.debugAllowed
    let shown := fun (r : Word32 × State) => r.2.setTap (fun t => { t with dbgData := r.1 })
    match space, write with
    | 0, false => .next (shown (debugMgmtRead s1 ok addr))
    | 0, true => .next (debugMgmtWrite s1 ok addr data)
    | 1, false => .next (shown (debugSramRead s1 ok addr))
    | 1, true => .next (debugSramWrite s1 ok addr data)
    | _, false => .next (shown (0, debugDenied s1 addr))
    | _, true => .next (debugDenied s1 addr)

end Sys2Proof.Machine
end

