-- ==== Sys2Proof/Machine/Pay.lean ====
section
/-! DEFINITION. The PIN, MAC and card-verification functions (R231 to R235). -/

namespace Sys2Proof.Machine

/-! ### Common fields (Table 8.2, R226) -/

/-- Digits of the PAN field at `off`, or PAN_INVALID. -/
def Fn.pan (p : Bytes) (off : Nat) : Fn (List Nat) := do
  let n := fld p off 1
  let ds := nibbles (slice p (off + 2) 10)
  Fn.need (decide (12 ≤ n ∧ n ≤ 19) && decimal ds && (ds.take (20 - n)).all (· == 0)) stPanInvalid
  return ds.drop (20 - n)

/-- FMT, and LMIN with LMAX, in range. -/
def fmtOk (f : Nat) : Bool := f == 0 || f == 1 || f == 3 || f == 4
def lensOk (lmin lmax : Nat) : Bool := decide (4 ≤ lmin ∧ lmin ≤ lmax ∧ lmax ≤ 12)
/-- PINBLK at `off`: 8 bytes and 8 zero bytes but in format 4. -/
def pinblkOk (p : Bytes) (off fmt : Nat) : Bool := fmt == 4 || zeroAt p (off + 8) 8

/-! ### PIN blocks (R180, R231) -/

def desEnc (k b : Bytes) : Bytes := bytes64 (desEncrypt k (word64 b))
def desDec (k b : Bytes) : Bytes := bytes64 (desDecrypt k (word64 b))

/-- An encrypted PIN block of 16 bytes; `fill` is 8 random bytes. -/
def sealPin (key : Bytes) (fmt : Nat) (pan ds : List Nat) (fill : Bytes) : Bytes :=
  let f := fld fill 0 8
  match fmt with
  | 0 => padTo 16 (tdesEnc key (beBytes 8 (Nat.xor (clearBlock 0 ds (fun _ => 15)) (panPart pan))))
  | 1 => padTo 16 (tdesEnc key (beBytes 8 (clearBlock 1 ds (fillNibble f))))
  | 3 => padTo 16 (tdesEnc key (beBytes 8 (Nat.xor (clearBlock 3 ds (fun i => 10 + fillNibble f i % 6)) (panPart pan))))
  | _ =>
    let a := aesEnc key (beBytes 16 (clearBlock 4 ds (fun _ => 10) * 2 ^ 64 + f))
    aesEnc key (xorBytes a (beBytes 16 (panField4 pan)))

/-- The PIN digits of an encrypted block; none where the format checks fail. -/
def openPin (key : Bytes) (fmt : Nat) (pan : List Nat) (block : Bytes) : Option (List Nat) :=
  let v := fld (tdesDec key (block.take 8)) 0 8
  match fmt with
  | 0 => openBlock 0 (Nat.xor v (panPart pan)) (fun x => x == 15)
  | 1 => openBlock 1 v (fun _ => true)
  | 3 => openBlock 3 (Nat.xor v (panPart pan)) (fun x => decide (10 ≤ x))
  | _ =>
    let b := aesDec key (xorBytes (aesDec key block) (beBytes 16 (panField4 pan)))
    openBlock 4 (fld b 0 8) (fun x => x == 10)

/-- The PIN of an incoming block, within its accepted lengths. -/
def Fn.openPin (key : Bytes) (fmt lmin lmax : Nat) (pan : List Nat) (block : Bytes) : Fn (List Nat) := do
  let ds ← Fn.get! (Machine.openPin key fmt pan block) stPinBlockInvalid
  Fn.need (decide (lmin ≤ ds.length ∧ ds.length ≤ lmax)) stPinLength
  return ds

/-- Random fill where the format takes it (R231). -/
def Fn.fill (fmt : Nat) : Fn Bytes := if fmt = 0 then pure [] else Fn.draw 8

/-- PIN encryption keys. -/
def pinRole (fmt : Nat) (modes : List Nat) : Role := { usages := [uP0], modes := modes, algs := if fmt = 4 then [3, 4, 5] else [1, 2] }
def pinIn (fmt : Nat) : Role := pinRole fmt [mD, mB]
def pinOut (fmt : Nat) : Role := pinRole fmt [mE, mB]

/-- A pair of formats that PIN translation permits (R232). -/
def State.translates (s : State) (t fin fout : Nat) : Bool :=
  if fout = 1 then fin == 1
  else if fin = 1 then (tabGet ({} : TenantImage) s.image.tenants t).fromFormat1
  else true

/-! ### The offset method (R233) -/

/-- OFFSET: at least `n` decimal digits, then 0xF to its end. -/
def offsetOk (n : Nat) (ds : List Nat) : Bool :=
  let lead := ds.takeWhile (fun d => decide (d ≤ 9))
  decide (n ≤ lead.length) && (ds.drop lead.length).all (· == 15)

/-- What the offset functions share: the customer's PIN and the natural PIN, each cut to CHKLEN digits. -/
def Fn.offsetMethod (x : Slot) (stop : Nat) (rest : Bool) (modes : List Nat) : Fn (List Nat × List Nat) := do
  let p := x.payload
  let fmt := fld p 20 1
  let n := fld p 23 1
  Fn.need (payloadOk p stop [(25, 1)] [4, 12] && fmtOk fmt && lensOk (fld p 21 1) (fld p 22 1) && decide (4 ≤ n ∧ n ≤ 12) &&
    pinblkOk p 36 fmt && rest) stFieldInvalid
  let pan ← Fn.pan p 24
  let kv ← Fn.resolveRole x 4 { usages := [uV1], modes := modes, algs := [1, 2] }
  let kp ← Fn.resolveRole x 12 (pinIn fmt)
  let t := nibbles (slice p 52 8)
  Fn.need (decimal t && (List.range 10).all (fun d => t.contains d)) stDtabInvalid
  let pin ← Fn.openPin kp.key fmt (fld p 21 1) (fld p 22 1) pan (slice p 36 16)
  Fn.need (decide (n ≤ pin.length)) stPinLength
  let natural := (nibbles (tdesEnc kv.key (slice p 60 8))).map (fun h => t.getD h 0)
  return (pin.take n, natural.take n)

/-- PIN_VERIFY_OFFSET. -/
def pinVerifyOffsetFn (x : Slot) : Fn FnRes := do
  let p := x.payload
  let off := nibbles (slice p 68 6)
  let (pin, nat) ← Fn.offsetMethod x 74 (offsetOk (fld p 23 1) off) [mC, mV]
  Fn.need (pin == List.zipWith (fun a b => (a + b) % 10) nat off) stVerifyFailed
  Fn.done []

/-- PIN_OFFSET_GENERATE. -/
def pinOffsetGenerateFn (x : Slot) : Fn FnRes := do
  let (pin, nat) ← Fn.offsetMethod x 68 true [mC, mG]
  let off := List.zipWith (fun a b => (a + 10 - b) % 10) pin nat
  Fn.done (packNibbles (off ++ List.replicate (12 - off.length) 15) ++ zeros 2)

/-! ### The PVV method (R234) -/

/-- The four digits of the PVV of the request's PIN. -/
def Fn.pvvMethod (x : Slot) (stop : Nat) (rest : Bool) (modes : List Nat) : Fn (List Nat) := do
  let p := x.payload
  let fmt := fld p 20 1
  let pvki := fld p 23 1
  Fn.need (payloadOk p stop [(25, 1)] [4, 12] && fmtOk fmt && lensOk (fld p 21 1) (fld p 22 1) && decide (pvki ≤ 6) &&
    pinblkOk p 36 fmt && rest) stFieldInvalid
  let pan ← Fn.pan p 24
  let kv ← Fn.resolveRole x 4 { usages := [uV2], modes := modes, algs := [1] }
  let kp ← Fn.resolveRole x 12 (pinIn fmt)
  let pin ← Fn.openPin kp.key fmt (fld p 21 1) (fld p 22 1) pan (slice p 36 16)
  let account := pan.dropLast
  let tsp := account.drop (account.length - 11) ++ [pvki] ++ pin.take 4
  return (extractDigits (nibbles (tdesEnc kv.key (packNibbles tsp)))).take 4

/-- PIN_VERIFY_PVV. -/
def pinVerifyPvvFn (x : Slot) : Fn FnRes := do
  let given := nibbles (slice x.payload 52 2)
  let pvv ← Fn.pvvMethod x 54 (decimal given) [mC, mV]
  Fn.need (pvv == given) stVerifyFailed
  Fn.done []

/-- PVV_GENERATE. -/
def pvvGenerateFn (x : Slot) : Fn FnRes := do
  let pvv ← Fn.pvvMethod x 52 true [mC, mG]
  Fn.done (packNibbles pvv ++ zeros 6)

/-! ### Translation (R231, R232) -/

/-- PIN_TRANSLATE. -/
def pinTranslateFn (x : Slot) : Fn FnRes := do
  let p := x.payload
  let fin := fld p 20 1
  let fout := fld p 21 1
  Fn.need (payloadOk p 52 [(25, 1)] [4, 12] && fmtOk fin && fmtOk fout && lensOk (fld p 22 1) (fld p 23 1) && pinblkOk p 36 fin)
    stFieldInvalid
  let pan ← Fn.pan p 24
  let kin ← Fn.resolveRole x 4 (pinIn fin)
  let kout ← Fn.resolveRole x 12 (pinOut fout)
  Fn.need (← Fn.st (fun s => s.translates x.tenant fin fout)) stTranslationNotPermitted
  let fill ← Fn.fill fout
  let pin ← Fn.openPin kin.key fin (fld p 22 1) (fld p 23 1) pan (slice p 36 16)
  Fn.done (sealPin kout.key fout pan pin fill)

/-! ### MACs (R235) -/

/-- ISO 9797-1 padding method 1 or 2, for blocks of `n` bytes. -/
def isoPad (method n : Nat) (b : Bytes) : Bytes :=
  let c := if method = 2 then b ++ [0x80] else b
  padTo (max n (ceilDiv c.length n * n)) c

/-- The last block of a CBC encryption with zero IV. -/
def cbcMac (c : Cipher) (data : Bytes) : Bytes :=
  let e := cbcEnc c (zeros c.size) data
  e.drop (e.length - c.size)

def desCipher (k : Bytes) : Cipher := { size := 8, enc := desEnc k, dec := desDec k }

/-- ISO 9797-1 MAC algorithm 3 over padded data: single DES over the chain, and a two-key final step. -/
def mac3 (key data : Bytes) : Bytes :=
  let a := key.take 8
  desEnc a (desDec (slice key 8 8) (cbcMac (desCipher a) data))

/-- The MAC of ALG. -/
def macOf (alg pad : Nat) (key data : Bytes) : Bytes :=
  match alg with
  | 1 => cbcMac (tdesCipher key) (isoPad pad 8 data)
  | 3 => mac3 key (isoPad pad 8 data)
  | 5 => cmac (aesCipher key) data
  | _ => hmac256 key data

/-- ALG, PAD and MACLEN agree. -/
def macFieldsOk (alg pad len : Nat) : Bool :=
  match alg with
  | 1 | 3 => decide ((pad = 1 ∨ pad = 2) ∧ 4 ≤ len ∧ len ≤ 8)
  | 5 => decide (pad = 0 ∧ 4 ≤ len ∧ len ≤ 16)
  | 7 => decide (pad = 0 ∧ 16 ≤ len ∧ len ≤ 32)
  | _ => false

/-- A key fits the MAC role of ALG. -/
def macKeyOk (alg : Nat) (modes : List Nat) (h : Handle) : Bool :=
  let r : Role := match alg with
    | 1 => { usages := [uM1], modes := modes, algs := [1, 2] }
    | 3 => { usages := [uM3], modes := modes, algs := [1, 2] }
    | 5 => { usages := [uM6], modes := modes, algs := [3, 4, 5] }
    | _ => { usages := [uM7], modes := modes, algs := [6] }
  r.fits h.attr && (alg != 7 || decide (16 ≤ h.key.length ∧ h.key.length ≤ 64))

/-- The MAC of a request whose DLEN lies at `off`, cut to MACLEN. -/
def Fn.macFor (x : Slot) (off most : Nat) (modes : List Nat) : Fn Bytes := do
  let p := x.payload
  let alg := fld p 12 1
  let pad := fld p 13 1
  let len := fld p 14 1
  let n := fld p off 2
  Fn.need (payloadOk p (off + 2 + n) [(15, 1)] [4] && macFieldsOk alg pad len && decide (n ≤ most)) stFieldInvalid
  let h ← Fn.resolve x 4 (macKeyOk alg modes)
  return (macOf alg pad h.key (slice p (off + 2) n)).take len

/-- MAC_GENERATE and MAC_GENERATE_LONG, MAC_VERIFY and MAC_VERIFY_LONG. -/
def macMake (x : Slot) (most : Nat) : Fn FnRes := do Fn.done (← Fn.macFor x 16 most [mC, mG])
def macCheck (x : Slot) (most : Nat) : Fn FnRes := do
  let m ← Fn.macFor x 48 most [mC, mV]
  Fn.need (m == slice x.payload 16 m.length) stVerifyFailed
  Fn.done []

/-! ### Card verification values (R235) -/

/-- The three digits of the CVV. -/
def Fn.cvvOf (x : Slot) (stop : Nat) (rest : Bool) (modes : List Nat) : Fn (List Nat) := do
  let p := x.payload
  let v := fld p 12 1
  let expiry := nibbles (slice p 26 2)
  let service := nibbles (slice p 28 2)
  Fn.need (payloadOk p stop [(13, 1), (15, 1)] [4] && decide (v ≤ 2) && decimal expiry && decimal service && service.take 1 == [0] && rest)
    stFieldInvalid
  let pan ← Fn.pan p 14
  let h ← Fn.resolveRole x 4 { usages := [uC0], modes := modes, algs := [1] }
  let date := if v = 2 then decDigits 4 (fld p 30 2) else expiry
  let code := if v = 1 then [9, 9, 9] else service.drop 1
  let ds := pan ++ date ++ code
  let b := packNibbles (ds ++ List.replicate (32 - ds.length) 0)
  let a := h.key.take 8
  let y := desEnc a (xorBytes (desEnc a (b.take 8)) (b.drop 8))
  return (extractDigits (nibbles (desEnc a (desDec (slice h.key 8 8) y)))).take 3

/-- CVV_GENERATE. -/
def cvvGenerateFn (x : Slot) : Fn FnRes := do
  let ds ← Fn.cvvOf x 32 true [mC, mG]
  Fn.done (packNibbles (0 :: ds) ++ zeros 6)

/-- CVV_VERIFY. -/
def cvvVerifyFn (x : Slot) : Fn FnRes := do
  let given := nibbles (slice x.payload 32 2)
  let ds ← Fn.cvvOf x 34 (decimal given && given.take 1 == [0]) [mC, mV]
  Fn.need (0 :: ds == given) stVerifyFailed
  Fn.done []

/-! ### Commands -/

/-- PIN_VERIFY_OFFSET. -/
def execPinVerifyOffset (slot : Nat) (s : State) : Host.Outcome State Fault Refusal :=
  .next (serveFn (· == 0x0101) (fun _ x => pinVerifyOffsetFn x) slot s)
/-- PIN_TRANSLATE. -/
def execPinTranslate (slot : Nat) (s : State) : Host.Outcome State Fault Refusal :=
  .next (serveFn (· == 0x0102) (fun _ x => pinTranslateFn x) slot s)
/-- PIN_VERIFY_PVV. -/
def execPinVerifyPvv (slot : Nat) (s : State) : Host.Outcome State Fault Refusal :=
  .next (serveFn (· == 0x0103) (fun _ x => pinVerifyPvvFn x) slot s)
/-- PIN_OFFSET_GENERATE. -/
def execPinOffsetGenerate (slot : Nat) (s : State) : Host.Outcome State Fault Refusal :=
  .next (serveFn (· == 0x0104) (fun _ x => pinOffsetGenerateFn x) slot s)
/-- PVV_GENERATE. -/
def execPvvGenerate (slot : Nat) (s : State) : Host.Outcome State Fault Refusal :=
  .next (serveFn (· == 0x0105) (fun _ x => pvvGenerateFn x) slot s)
/-- MAC_GENERATE. -/
def execMacGenerate (slot : Nat) (s : State) : Host.Outcome State Fault Refusal :=
  .next (serveFn (· == 0x0201) (fun _ x => macMake x 384) slot s)
/-- MAC_VERIFY. -/
def execMacVerify (slot : Nat) (s : State) : Host.Outcome State Fault Refusal :=
  .next (serveFn (· == 0x0202) (fun _ x => macCheck x 384) slot s)
/-- MAC_GENERATE_LONG. -/
def execMacGenerateLong (slot : Nat) (s : State) : Host.Outcome State Fault Refusal :=
  .next (serveFn (· == 0x0203) (fun _ x => macMake x 8064) slot s)
/-- MAC_VERIFY_LONG. -/
def execMacVerifyLong (slot : Nat) (s : State) : Host.Outcome State Fault Refusal :=
  .next (serveFn (· == 0x0204) (fun _ x => macCheck x 8064) slot s)
/-- CVV_GENERATE. -/
def execCvvGenerate (slot : Nat) (s : State) : Host.Outcome State Fault Refusal :=
  .next (serveFn (· == 0x0301) (fun _ x => cvvGenerateFn x) slot s)
/-- CVV_VERIFY. -/
def execCvvVerify (slot : Nat) (s : State) : Host.Outcome State Fault Refusal :=
  .next (serveFn (· == 0x0302) (fun _ x => cvvVerifyFn x) slot s)

end Sys2Proof.Machine
end

