-- ==== Sys2Proof/Machine/Emv.lean ====
section
/-! DEFINITION. The EMV and DUKPT functions (R236 to R238; key derivations of EMV Book 2 and ANSI X9.24, log entry 13). -/

namespace Sys2Proof.Machine

/-! ### EMV keys (R236) -/

/-- PAN followed by PSN, as digits. -/
def panPsn (pan : List Nat) (psn : Nat) : List Nat := pan ++ [psn / 16, psn % 16]

/-- A block with every byte inverted. -/
def flipBytes (b : Bytes) : Bytes := b.map (· ^^^ 0xFF)

/-- The card master key by option A; AES in place of TDES under SCHEME 1. -/
def emvMaster (scheme : Nat) (imk : Bytes) (pan : List Nat) (psn : Nat) : Bytes :=
  let x := panPsn pan psn
  if scheme = 0 then
    let y := beBytes 8 (ofDigits (x.drop (x.length - 16)))
    (tdesEnc imk y ++ tdesEnc imk (flipBytes y)).map oddParity
  else
    let y := beBytes 16 (ofDigits x)
    (aesEnc imk y ++ aesEnc imk (flipBytes y)).take imk.length

/-- The block with its third byte replaced. -/
def withThird (r : Bytes) (v : Byte) : Bytes := r.take 2 ++ [v] ++ r.drop 3

/-- The common session key for diversification value `r`. -/
def emvSession (scheme : Nat) (mk r : Bytes) : Bytes :=
  if scheme = 0 then
    let b := padTo 8 r
    tdesEnc mk (withThird b 0xF0) ++ tdesEnc mk (withThird b 0x0F)
  else
    let b := padTo 16 r
    if mk.length = 16 then aesEnc mk b
    else (aesEnc mk (withThird b 0xF0) ++ aesEnc mk (withThird b 0x0F)).take mk.length

/-- The MAC of cryptograms and secure messaging, 8 bytes. -/
def emvMac (scheme : Nat) (key data : Bytes) : Bytes :=
  if scheme = 0 then mac3 key (isoPad 2 8 data) else (cmac (aesCipher key) data).take 8

/-- The EMV roles of Table 8.3. -/
def emvRole (usage scheme : Nat) : Role := { usages := [usage], modes := [mX], algs := if scheme = 0 then [1, 2] else [3, 4, 5] }

/-! ### Cryptograms (R236) -/

/-- The ARQC of a request whose DATA begins at `off`, with its session key; VERIFY_FAILED where it differs. -/
def Fn.arqc (x : Slot) (off : Nat) (reserved : List (Nat × Nat)) (rest : Bool) : Fn (List Nat × Bytes) := do
  let p := x.payload
  let scheme := fld p 12 1
  let n := fld p (off - 2) 2
  Fn.need (payloadOk p (off + n) reserved [4] && decide (scheme ≤ 1 ∧ n ≤ 256) && rest) stFieldInvalid
  let pan ← Fn.pan p 16
  let h ← Fn.resolveRole x 4 (emvRole uE0 scheme)
  let sk := emvSession scheme (emvMaster scheme h.key pan (fld p 13 1)) (slice p 14 2)
  Fn.need (emvMac scheme sk (slice p off n) == slice p 28 8) stVerifyFailed
  return (pan, sk)

/-- ARPCLEN and ARPC. -/
def arpcOf (p sk : Bytes) : Bytes :=
  let scheme := fld p 12 1
  let arqc := slice p 28 8
  if fld p 36 1 = 1 then
    let y := xorBytes arqc (padTo 8 (slice p 38 2))
    let e := if scheme = 0 then tdesEnc sk y else aesEnc sk (padTo 16 y)
    [8] ++ zeros 7 ++ e.take 8
  else
    [4] ++ zeros 7 ++ padTo 8 ((emvMac scheme sk (arqc ++ slice p 40 4 ++ slice p 48 (fld p 44 1))).take 4)

/-- ARPCM and PADL in range. -/
def arpcFieldsOk (p : Bytes) : Bool := decide ((fld p 36 1 = 1 ∨ fld p 36 1 = 2) ∧ fld p 44 1 ≤ 8)
/-- Reserved fields of the ARPC layouts. -/
def arpcReserved : List (Nat × Nat) := [(37, 1), (45, 3)]

/-- Advance a counter record for the task of slot `k` (R238, R264). -/
def Fn.advance (k : Nat) (x : Slot) (unit v psn digits : Nat) (id : Bytes) : Fn Unit := do
  let st ← Fn.act (fun s => Machine.advance s x.tenant x.admitTick x.req unit v psn digits id)
  Fn.ok st
  Fn.change (fun s => s.modSlot k (fun y => { y with claims := y.claims ++ [(unit, v)] }))

/-- ARQC_VERIFY. -/
def arqcVerifyFn (x : Slot) : Fn FnRes := do
  let _ ← Fn.arqc x 38 [] true
  Fn.done []

/-- ARQC_VERIFY_ARPC. -/
def arqcVerifyArpcFn (x : Slot) : Fn FnRes := do
  let (_, sk) ← Fn.arqc x 58 arpcReserved (arpcFieldsOk x.payload)
  Fn.done (arpcOf x.payload sk)

/-- ARQC_VERIFY_TRACKED. -/
def arqcVerifyTrackedFn (k : Nat) (x : Slot) : Fn FnRes := do
  let p := x.payload
  let (pan, sk) ← Fn.arqc x 62 arpcReserved (arpcFieldsOk p)
  Fn.advance k x (fld p 56 4) (fld p 14 2) (fld p 13 1) pan.length (slice p 18 10)
  Fn.done (arpcOf p sk)

/-! ### Secure messaging (R236) -/

/-- SM_MAC. -/
def smMacFn (x : Slot) : Fn FnRes := do
  let p := x.payload
  let scheme := fld p 12 1
  let len := fld p 14 1
  let n := fld p 36 2
  Fn.need (payloadOk p (38 + n) [(15, 1)] [4] && decide (scheme ≤ 1 ∧ 4 ≤ len ∧ len ≤ 8 ∧ n ≤ 1024)) stFieldInvalid
  let pan ← Fn.pan p 16
  let h ← Fn.resolveRole x 4 (emvRole uE2 scheme)
  let sk := emvSession scheme (emvMaster scheme h.key pan (fld p 13 1)) (slice p 28 8)
  Fn.done (padTo 16 ((emvMac scheme sk (slice p 38 n)).take len))

/-- The cipher of a scheme. -/
def emvCipher (scheme : Nat) (key : Bytes) : Cipher := if scheme = 0 then tdesCipher key else aesCipher key

/-- SM_ENCRYPT. -/
def smEncryptFn (x : Slot) : Fn FnRes := do
  let p := x.payload
  let scheme := fld p 12 1
  let n := fld p 36 2
  Fn.need (payloadOk p (38 + n) [(14, 2)] [4] && decide (scheme ≤ 1 ∧ n ≤ 1024)) stFieldInvalid
  let pan ← Fn.pan p 16
  let h ← Fn.resolveRole x 4 (emvRole uE1 scheme)
  let c := emvCipher scheme (emvSession scheme (emvMaster scheme h.key pan (fld p 13 1)) (slice p 28 8))
  let e := cbcEnc c (zeros c.size) (isoPad 2 c.size (slice p 38 n))
  Fn.done (beBytes 2 e.length ++ zeros 6 ++ e)

/-- SM_PIN_CHANGE. -/
def smPinChangeFn (x : Slot) : Fn FnRes := do
  let p := x.payload
  let scheme := fld p 20 1
  let fmt := fld p 22 1
  Fn.need (payloadOk p 64 [(25, 3)] [4, 12] && decide (scheme ≤ 1) && fmtOk fmt && lensOk (fld p 23 1) (fld p 24 1) &&
    pinblkOk p 48 fmt) stFieldInvalid
  let pan ← Fn.pan p 28
  let h ← Fn.resolveRole x 4 (emvRole uE1 scheme)
  let kp ← Fn.resolveRole x 12 (pinIn fmt)
  let sk := emvSession scheme (emvMaster scheme h.key pan (fld p 21 1)) (slice p 40 8)
  let pin ← Fn.openPin kp.key fmt (fld p 23 1) (fld p 24 1) pan (slice p 48 16)
  let b := beBytes 8 (clearBlock 2 pin (fun _ => 15))
  Fn.done (if scheme = 0 then padTo 16 (tdesEnc sk b) else aesEnc sk (b ++ bytes64 Config.format2Tail))

/-! ### DUKPT keys (R237) -/

/-- The purpose of a working key. -/
inductive DukptUse where
  | pin | macRequest | macResponse | dataRequest | dataResponse
  deriving DecidableEq, Repr

/-- Key usage of the AES derivation data. -/
def DukptUse.code : DukptUse → Nat
  | .pin => 0x1000
  | .macRequest => 0x2000
  | .macResponse => 0x2001
  | .dataRequest => 0x3000
  | .dataResponse => 0x3001

/-- The TDES variant of each key half. -/
def DukptUse.variant : DukptUse → Bytes
  | .pin => beBytes 8 0xFF
  | .macRequest => beBytes 8 0xFF00
  | .macResponse => beBytes 8 0xFF000000
  | .dataRequest => beBytes 8 0xFF0000
  | .dataResponse => beBytes 8 0xFF00000000

/-- A key of `len` bytes derived under an AES key from derivation data without its block counter. -/
def aesDerive (key : Bytes) (len usage : Nat) (tail : Bytes) : Bytes :=
  let type := if len = 16 then 2 else if len = 24 then 3 else 4
  ((List.range (ceilDiv len 16)).flatMap (fun i =>
    aesEnc key ([1] ++ beBytes 1 (i + 1) ++ beBytes 2 usage ++ beBytes 2 type ++ beBytes 2 (8 * len) ++ tail))).take len

/-- The derivation key of a counter: one derivation per one-bit, from the top. -/
def aesDukptChain (id : Bytes) (len counter : Nat) : Nat → Nat → Bytes → Bytes
  | 0, _, key => key
  | i + 1, done, key =>
    if counter.testBit i then
      let c := done + 2 ^ i
      aesDukptChain id len counter i c (aesDerive key len 0x8000 (slice id 4 4 ++ beBytes 4 c))
    else aesDukptChain id len counter i done key

/-- AES DUKPT: the working key of `len` bytes. -/
def aesDukpt (bdk id : Bytes) (counter len : Nat) (use : DukptUse) : Bytes :=
  let ik := aesDerive bdk bdk.length 0x8001 id
  aesDerive (aesDukptChain id bdk.length counter 32 0 ik) len use.code (slice id 4 4 ++ beBytes 4 counter)

/-- The mask of the second half of a derivation. -/
def c0Mask (n : Nat) : Bytes := (List.range n).map (fun i => if i % 8 < 4 then 0xC0 else 0)

/-- One TDES DUKPT step on the register value. -/
def tdesDukptStep (key reg : Bytes) : Bytes :=
  let half := fun (k : Bytes) => xorBytes (desEnc (k.take 8) (xorBytes reg (k.drop 8))) (k.drop 8)
  half (xorBytes key (c0Mask 16)) ++ half key

def tdesDukptChain (base counter : Nat) : Nat → Nat → Bytes → Bytes
  | 0, _, key => key
  | i + 1, done, key =>
    if counter.testBit i then
      let c := done + 2 ^ i
      tdesDukptChain base counter i c (tdesDukptStep key (beBytes 8 (base + c)))
    else tdesDukptChain base counter i done key

/-- TDES DUKPT of a 10-byte KSN: the working key of two halves. -/
def tdesDukpt (bdk ksn : Bytes) (use : DukptUse) : Bytes :=
  let v := beNat ksn
  let counter := v % 2 ^ 21
  let idv := v - counter
  let top := beBytes 8 (idv / 65536)
  let ipek := tdesEnc bdk top ++ tdesEnc (xorBytes bdk (c0Mask bdk.length)) top
  let key := xorBytes (tdesDukptChain (idv % 2 ^ 64) counter 21 0 ipek) (use.variant ++ use.variant)
  if use = .dataRequest ∨ use = .dataResponse then tdesEnc key (key.take 8) ++ tdesEnc key (key.drop 8) else key

/-! ### DUKPT requests (R237, R238) -/

/-- What a DUKPT request derives: AES or TDES, the working key, and the identity and counter for a record. -/
structure Dukpt where
  aes : Bool
  key : Bytes
  id : Bytes
  counter : Nat

/-- Ones among the low 32 bits of a number. -/
def onesOf (n : Nat) : Nat := ((List.range 32).filter n.testBit).length

/-- The kind's own limits on WKLEN and KSN bytes 10 and 11 (R237, stage 2). -/
def wklenOk (h : Handle) (wklen : Nat) (ksn : Bytes) : Bool :=
  if 3 ≤ h.attr.alg then wklen == 1 || (wklen == 2 && h.attr.alg == 5) else wklen == 0 && zeroAt ksn 10 2

/-- The base derivation key. -/
def bdkRole : Role := { usages := [uB0], modes := [mX], algs := [1, 2, 3, 4, 5] }

/-- Counter and identity of a KSN. -/
def ksnParts (aes : Bool) (ksn : Bytes) : Nat × Bytes :=
  if aes then (fld ksn 8 4, ksn.take 8)
  else
    let v := fld ksn 0 10
    (v % 2 ^ 21, beBytes 10 (v - v % 2 ^ 21))

/-- The working key of a purpose; DUKPT_COUNTER_INVALID outside the counter's limits. -/
def Fn.dukpt (h : Handle) (wklen : Nat) (ksn : Bytes) (use : DukptUse) : Fn Dukpt := do
  let aes := decide (3 ≤ h.attr.alg)
  let (c, id) := ksnParts aes ksn
  Fn.need (decide (c ≠ 0 ∧ onesOf c ≤ if aes then 16 else 10)) stDukptCounterInvalid
  let key := if aes then aesDukpt h.key id c (if wklen = 1 then 16 else 32) use else tdesDukpt h.key (ksn.take 10) use
  return { aes := aes, key := key, id := id, counter := c }

/-- The MAC of a DUKPT request whose DLEN lies at `off`, cut to MACLEN. -/
def Fn.dukptMac (x : Slot) (off : Nat) (use : DukptUse) : Fn Bytes := do
  let p := x.payload
  let len := fld p 26 1
  let n := fld p off 2
  let wk := fld p 24 1
  Fn.need (payloadOk p (off + 2 + n) [(25, 1), (27, 1)] [4] && decide (wk ≤ 2 ∧ 4 ≤ len ∧ len ≤ 16 ∧ n ≤ 384)) stFieldInvalid
  let h ← Fn.resolveRole x 4 bdkRole
  Fn.need (wklenOk h wk (slice p 12 12) && decide (3 ≤ h.attr.alg ∨ len ≤ 8)) stFieldInvalid
  let d ← Fn.dukpt h wk (slice p 12 12) use
  let data := slice p (off + 2) n
  return (if d.aes then cmac (aesCipher d.key) data else mac3 d.key (isoPad 1 8 data)).take len

/-- DUKPT_MAC_VERIFY. -/
def dukptMacVerifyFn (x : Slot) : Fn FnRes := do
  let m ← Fn.dukptMac x 44 .macRequest
  Fn.need (m == slice x.payload 28 m.length) stVerifyFailed
  Fn.done []

/-- DUKPT_MAC_GENERATE. -/
def dukptMacGenerateFn (x : Slot) : Fn FnRes := do Fn.done (← Fn.dukptMac x 28 .macResponse)

/-- The translation of a DUKPT PIN block, with what a record is advanced by. -/
def Fn.dukptPin (x : Slot) (stop : Nat) : Fn (Bytes × Dukpt) := do
  let p := x.payload
  let wk := fld p 32 1
  let fin := fld p 33 1
  let fout := fld p 34 1
  Fn.need (payloadOk p stop [(37, 3)] [4, 12] && decide (wk ≤ 2) && fmtOk fin && fmtOk fout && lensOk (fld p 35 1) (fld p 36 1) &&
    pinblkOk p 52 fin) stFieldInvalid
  let pan ← Fn.pan p 40
  let h ← Fn.resolveRole x 4 bdkRole
  let ko ← Fn.resolveRole x 12 (pinOut fout)
  Fn.need (wklenOk h wk (slice p 20 12) && decide (fin = 4 ↔ 3 ≤ h.attr.alg)) stFieldInvalid
  Fn.need (← Fn.st (fun s => s.translates x.tenant fin fout)) stTranslationNotPermitted
  let d ← Fn.dukpt h wk (slice p 20 12) .pin
  let fill ← Fn.fill fout
  let pin ← Fn.openPin d.key fin (fld p 35 1) (fld p 36 1) pan (slice p 52 16)
  return (sealPin ko.key fout pan pin fill, d)

/-- DUKPT_PIN_TRANSLATE. -/
def dukptPinTranslateFn (x : Slot) : Fn FnRes := do
  let (b, _) ← Fn.dukptPin x 68
  Fn.done b

/-- DUKPT_PIN_TRANSLATE_TRACKED. -/
def dukptPinTranslateTrackedFn (k : Nat) (x : Slot) : Fn FnRes := do
  let (b, d) ← Fn.dukptPin x 72
  Fn.advance k x (fld x.payload 68 4) d.counter 0 0 d.id
  Fn.done b

/-- The data of a DUKPT request, run through CBC under the working key of `use`. -/
def dukptData (enc : Bool) (use : DukptUse) (x : Slot) : Fn FnRes := do
  let p := x.payload
  let wk := fld p 24 1
  let n := fld p 44 2
  Fn.need (payloadOk p (46 + n) [(25, 3)] [4] && decide (wk ≤ 2 ∧ 16 ≤ n ∧ n ≤ 1024 ∧ n % 8 = 0)) stFieldInvalid
  let h ← Fn.resolveRole x 4 bdkRole
  Fn.need (wklenOk h wk (slice p 12 12) && decide (h.attr.alg < 3 ∨ n % 16 = 0)) stFieldInvalid
  let d ← Fn.dukpt h wk (slice p 12 12) use
  let c := if d.aes then aesCipher d.key else tdesCipher d.key
  let iv := slice p 28 c.size
  let data := slice p 46 n
  let out := if enc then cbcEnc c iv data else cbcDec c iv data
  Fn.done (beBytes 2 out.length ++ zeros 6 ++ out)

/-! ### Commands -/

/-- ARQC_VERIFY. -/
def execArqcVerify (slot : Nat) (s : State) : Host.Outcome State Fault Refusal :=
  .next (serveFn (· == 0x0401) (fun _ x => arqcVerifyFn x) slot s)
/-- ARQC_VERIFY_ARPC. -/
def execArqcVerifyArpc (slot : Nat) (s : State) : Host.Outcome State Fault Refusal :=
  .next (serveFn (· == 0x0402) (fun _ x => arqcVerifyArpcFn x) slot s)
/-- SM_MAC. -/
def execSmMac (slot : Nat) (s : State) : Host.Outcome State Fault Refusal :=
  .next (serveFn (· == 0x0403) (fun _ x => smMacFn x) slot s)
/-- SM_ENCRYPT. -/
def execSmEncrypt (slot : Nat) (s : State) : Host.Outcome State Fault Refusal :=
  .next (serveFn (· == 0x0404) (fun _ x => smEncryptFn x) slot s)
/-- SM_PIN_CHANGE. -/
def execSmPinChange (slot : Nat) (s : State) : Host.Outcome State Fault Refusal :=
  .next (serveFn (· == 0x0405) (fun _ x => smPinChangeFn x) slot s)
/-- ARQC_VERIFY_TRACKED. -/
def execArqcVerifyTracked (slot : Nat) (s : State) : Host.Outcome State Fault Refusal :=
  .next (serveFn (· == 0x0410) arqcVerifyTrackedFn slot s)
/-- DUKPT_MAC_VERIFY. -/
def execDukptMacVerify (slot : Nat) (s : State) : Host.Outcome State Fault Refusal :=
  .next (serveFn (· == 0x0501) (fun _ x => dukptMacVerifyFn x) slot s)
/-- DUKPT_MAC_GENERATE. -/
def execDukptMacGenerate (slot : Nat) (s : State) : Host.Outcome State Fault Refusal :=
  .next (serveFn (· == 0x0502) (fun _ x => dukptMacGenerateFn x) slot s)
/-- DUKPT_PIN_TRANSLATE. -/
def execDukptPinTranslate (slot : Nat) (s : State) : Host.Outcome State Fault Refusal :=
  .next (serveFn (· == 0x0503) (fun _ x => dukptPinTranslateFn x) slot s)
/-- DUKPT_DATA_DECRYPT. -/
def execDukptDataDecrypt (slot : Nat) (s : State) : Host.Outcome State Fault Refusal :=
  .next (serveFn (· == 0x0504) (fun _ x => dukptData false .dataRequest x) slot s)
/-- DUKPT_DATA_ENCRYPT. -/
def execDukptDataEncrypt (slot : Nat) (s : State) : Host.Outcome State Fault Refusal :=
  .next (serveFn (· == 0x0505) (fun _ x => dukptData true .dataResponse x) slot s)
/-- DUKPT_PIN_TRANSLATE_TRACKED. -/
def execDukptPinTranslateTracked (slot : Nat) (s : State) : Host.Outcome State Fault Refusal :=
  .next (serveFn (· == 0x0510) dukptPinTranslateTrackedFn slot s)

end Sys2Proof.Machine
end

