-- ==== Sys2Proof/Machine/PubKey.lean ====
section
/-! DEFINITION. Keys that a function produces (Table 8.4, R239), jobs of a function on the big-number engines, and the
public-key functions (R242 to R244). -/

namespace Sys2Proof.Machine

/-! ### Produced keys (Table 8.4, R228, R239) -/

/-- OUTATTR. -/
structure OutAttr where
  attr : KeyAttr
  format : Nat
  smk : Nat

/-- The modes of use and exportabilities of X9.143. -/
def modeCodes : List Nat := [mB, mC, mD, mE, mG, mN, mS, mV, mX]
def exportCodes : List Nat := [0x45, 0x4E, 0x53]

/-- OUTATTR at `off`. -/
def outAttrAt (p : Bytes) (off : Nat) : OutAttr :=
  let u := fld p (off + 1) 2
  { attr := { alg := fld p off 1, usage := u, mode := fld p (off + 3) 1, exportability := fld p (off + 4) 1,
              level := (usageLevel u).getD 0 }
    format := fld p (off + 5) 1
    smk := fld p (off + 6) 1 }

/-- OUTATTR lies in its ranges, with an algorithm of `algs`. -/
def outAttrOk (p : Bytes) (off : Nat) (algs : List Nat) : Bool :=
  let a := outAttrAt p off
  algs.contains a.attr.alg && (usageLevel a.attr.usage).isSome && modeCodes.contains a.attr.mode &&
    exportCodes.contains a.attr.exportability && decide (a.format ≤ 2 ∧ a.smk ≤ 7) && zeroAt p (off + 7) 1

/-- Bytes of a symmetric key of an algorithm. -/
def keyLength : Nat → Nat
  | 1 => 16
  | 2 => 24
  | 3 => 16
  | 4 => 24
  | _ => 32

/-- A TDES key takes odd parity. -/
def withParity (alg : Nat) (k : Bytes) : Bytes := if alg ≤ 2 then k.map oddParity else k

/-- The strength of a key (Table 8.4a); for a loaded curve record p is as long as the key. -/
def strengthOf (a : KeyAttr) (raw : Bytes) : Nat := strength a raw (8 * raw.length)

/-- A format can be used under a key-encryption key: version B under TDES, the others under AES. -/
def formatFits (format kekAlg : Nat) : Bool := if format = 0 then decide (kekAlg ≤ 2) else decide (3 ≤ kekAlg)

/-- The key-encryption roles of Table 8.3. -/
def kekRole (modes : List Nat) : Role := { usages := [uK0, uK1], modes := modes, algs := [1, 2, 3, 4, 5] }

/-! ### Jobs of a function (R280, R287, R294 to R296) -/

/-- The engine that a job takes; ENGINE_UNAVAILABLE where too few are ready. -/
def Fn.engine (paired : Bool) : Fn Nat := do
  let e ← Fn.get! (← Fn.st (fun s => s.pickEngine none)) stEngineUnavailable
  Fn.need (!paired || (← Fn.st (fun s => (s.pickEngine (some e)).isSome))) stEngineUnavailable
  return e

/-- A job leaves its status, counters and, where its invariant failed, its mark on its engine. -/
def noteJob (s : State) (e op st cyc inv iter : Nat) (refused : Bool) : State :=
  let note := fun (y : BnEngine) =>
    if st = stOk then y else { y with faultStatus := st, faultOp := op, faultInv := inv }
  let s1 := ((s.modEngine e (fun y => note { y with iter := iter, cycles := cyc })).bnCnt e 1 cyc).pmcBn e 0x11 cyc
  let s2 := if refused then s1.bnCnt e 3 1 else s1
  if st = stInvariantFailed then
    (((s2.bnEvent 0).bnCnt e 5 1).modEngine e (fun y => { y with marked := true })).unitError (srcBn e) 5
  else s2

/-- Run one operation on operands in a bank: what it writes, or its status. -/
def Fn.job (j : BnJob) (row : Nat) : Fn (List (Nat × Byte)) := do
  let e ← Fn.engine (isPairedOp j.x.op)
  let dead ← Fn.st (fun s => decide (s.rng.state = .failed) && opUsesRandom j.x.op)
  let v := if dead then stRandomUnavailable else bnValidate j
  if v ≠ stOk then
    Fn.change (fun s => noteJob s e j.x.op v (opV j.x.op row) 0 0 true)
    throw v
  let rnd ← Fn.random (randomNeed j)
  let r := bnCompute j rnd
  Fn.change (fun s => noteJob s e j.x.op r.status (opT j.x.op row 0) r.invariant 0 false)
  Fn.ok r.status
  return r.out.foldl (fun m p => memWrite m p.1 p.2) []

/-- Operands at their bank offsets. -/
def bankOf (l : List (Nat × Bytes)) : List (Nat × Byte) := l.foldl (fun m p => memWrite m p.1 p.2) []

/-- A job on a curve, with a key or without. -/
def curveJob (op code : Nat) (c : Curve) (key : Option Handle) (l : List (Nat × Nat)) : BnJob :=
  { x := { op := op, curve := code, hasKey := key.isSome, keyAttr := (key.map (·.attr)).getD {} }
    mem := bankOf (l.map (fun p => (p.1, beBytes c.size p.2)))
    key := (key.map (·.key)).getD []
    curve := c }

/-! ### RSA encodings (R242; RFC 8017, log entry 13) -/

/-- The hash of HASH and its length. -/
def hashBytes (h : Nat) (b : Bytes) : Bytes := if h = 1 then sha256B b else if h = 2 then sha384B b else sha512B b
def hashLen (h : Nat) : Nat := if h = 1 then 32 else if h = 2 then 48 else 64

/-- MGF1. -/
def mgf1 (h : Nat) (seed : Bytes) (n : Nat) : Bytes :=
  ((List.range (ceilDiv n (hashLen h))).flatMap (fun i => hashBytes h (seed ++ beBytes 4 i))).take n

/-- EMSA-PKCS1-v1_5 of a digest, `n` bytes. -/
def pkcs1Encode (h n : Nat) (digest : Bytes) : Bytes :=
  let len := hashLen h
  let info : Bytes := [0x30] ++ beBytes 1 (17 + len) ++ [0x30, 0x0D, 0x06, 0x09, 0x60, 0x86, 0x48, 0x01, 0x65, 0x03, 0x04, 0x02] ++
    beBytes 1 h ++ [0x05, 0x00, 0x04] ++ beBytes 1 len ++ digest
  [0x00, 0x01] ++ List.replicate (n - 3 - info.length) 0xFF ++ [0x00] ++ info

/-- The first byte with its top bit clear. -/
def clearTop (b : Bytes) : Bytes :=
  match b with
  | [] => []
  | x :: t => (x &&& 0x7F) :: t

/-- EMSA-PSS of a digest with a salt, for a modulus of `n` bytes whose top bit is set. -/
def pssEncode (h n : Nat) (digest salt : Bytes) : Bytes :=
  let m := hashBytes h (zeros 8 ++ digest ++ salt)
  let db := zeros (n - salt.length - m.length - 2) ++ [0x01] ++ salt
  clearTop (xorBytes db (mgf1 h m db.length)) ++ m ++ [0xBC]

/-- EMSA-PSS verification, with a salt as long as the hash. -/
def pssVerify (h n : Nat) (digest em : Bytes) : Bool :=
  let len := hashLen h
  let m := slice em (n - len - 1) len
  let db := clearTop (xorBytes (em.take (n - len - 1)) (mgf1 h m (n - len - 1)))
  decide (fld em 0 1 < 128) && em.drop (n - 1) == [0xBC] && zeroAt db 0 (n - 2 * len - 2) &&
    slice db (n - 2 * len - 2) 1 == [0x01] && hashBytes h (zeros 8 ++ digest ++ db.drop (n - 2 * len - 1)) == m

/-- EME-OAEP with an empty label. -/
def oaepEncode (h n : Nat) (msg seed : Bytes) : Bytes :=
  let len := hashLen h
  let db := hashBytes h [] ++ zeros (n - msg.length - 2 * len - 2) ++ [0x01] ++ msg
  let masked := xorBytes db (mgf1 h seed db.length)
  [0x00] ++ xorBytes seed (mgf1 h masked len) ++ masked

def oaepDecode (h n : Nat) (em : Bytes) : Option Bytes :=
  let len := hashLen h
  let masked := em.drop (1 + len)
  let seed := xorBytes (slice em 1 len) (mgf1 h masked len)
  let db := xorBytes masked (mgf1 h seed (n - len - 1))
  let rest := (db.drop len).dropWhile (· == 0)
  if fld em 0 1 = 0 ∧ db.take len = hashBytes h [] ∧ rest.head? = some 0x01 then some (rest.drop 1) else none

/-- Modulus bytes of an RSA algorithm code, and the operation codes of its private and public jobs. -/
def rsaBytes (alg : Nat) : Nat := if alg = 7 then 256 else if alg = 8 then 384 else 512
def rsaPrivOp (n : Nat) : Nat := if n = 256 then 5 else if n = 384 then 6 else 7
def rsaPubOp (n : Nat) : Nat := if n = 256 then 1 else if n = 384 then 2 else 3

/-- The private operation on a block of `n` bytes. -/
def Fn.rsaPrivate (h : Handle) (n : Nat) (b : Bytes) : Fn Bytes := do
  let m ← Fn.job { x := { op := rsaPrivOp n, hasKey := true, keyAttr := h.attr }, mem := bankOf [(0x200, b)], key := h.key,
                   curve := p256 } 0
  return memRead m 0x400 n

/-- The public operation on a block of `n` bytes. -/
def Fn.rsaPublic (e : Nat) (modulus b : Bytes) : Fn Bytes := do
  let n := modulus.length
  let m ← Fn.job { x := { op := rsaPubOp n, e := e }, mem := bankOf [(0, modulus), (0x200, b)], key := [], curve := p256 } 0
  return memRead m 0x400 n

/-- A signature of a digest under SCHEME 1 or 2. -/
def Fn.rsaSign (h : Handle) (n scheme hash : Nat) (digest : Bytes) : Fn Bytes := do
  let salt ← if scheme = 2 then Fn.draw (hashLen hash) else pure []
  Fn.rsaPrivate h n (if scheme = 1 then pkcs1Encode hash n digest else pssEncode hash n digest salt)

/-- A signature of a digest verifies under SCHEME 1 or 2. -/
def Fn.rsaVerify (e : Nat) (modulus : Bytes) (scheme hash : Nat) (digest sig : Bytes) : Fn Bool := do
  let em ← Fn.rsaPublic e modulus sig
  return if scheme = 1 then em == pkcs1Encode hash modulus.length digest else pssVerify hash modulus.length digest em

/-! ### RSA functions -/

/-- RSA_PRIVATE_2048, _3072 and _4096, of modulus bytes `n`. -/
def rsaPrivateFn (n : Nat) (x : Slot) : Fn FnRes := do
  let p := x.payload
  let scheme := fld p 12 1
  let hash := fld p 13 1
  let len := fld p 16 2
  Fn.need (payloadOk p (18 + len) [(14, 2)] [4] && decide (1 ≤ scheme ∧ scheme ≤ 3 ∧ 1 ≤ hash ∧ hash ≤ 3) &&
    decide (len = if scheme = 3 then n else hashLen hash)) stFieldInvalid
  let role : Role := if scheme = 3 then { usages := [uD1], modes := [mD], algs := [7, 8, 9] }
    else { usages := [uS0], modes := [mS], algs := [7, 8, 9] }
  let h ← Fn.resolveRole x 4 role
  let input := slice p 18 len
  let out ←
    if scheme = 3 then do
      let em ← Fn.rsaPrivate h n input
      Fn.get! (oaepDecode hash n em) stVerifyFailed
    else Fn.rsaSign h n scheme hash input
  Fn.done (beBytes 2 out.length ++ zeros 6 ++ out)

/-- RSA_PUBLIC_2048 and _4096, for the moduli of `sizes`. -/
def rsaPublicFn (sizes : List Nat) (x : Slot) : Fn FnRes := do
  let p := x.payload
  let scheme := fld p 4 1
  let hash := fld p 5 1
  let e := fld p 8 4
  let n := fld p 12 2
  let len := fld p (14 + n) 2
  let slen := fld p (16 + n + len) 2
  Fn.need (payloadOk p (18 + n + len + slen) [(6, 2)] [] && decide (1 ≤ scheme ∧ scheme ≤ 3 ∧ 1 ≤ hash ∧ hash ≤ 3) &&
    decide (e = 3 ∨ e = 65537) && sizes.contains n &&
    decide (if scheme = 3 then len + 2 * hashLen hash + 2 ≤ n ∧ slen = 0 else len = hashLen hash ∧ slen = n)) stFieldInvalid
  let modulus := slice p 14 n
  let input := slice p (16 + n) len
  if scheme = 3 then
    let seed ← Fn.draw (hashLen hash)
    let out ← Fn.rsaPublic e modulus (oaepEncode hash n input seed)
    Fn.done (beBytes 2 n ++ zeros 6 ++ out)
  else
    Fn.need (← Fn.rsaVerify e modulus scheme hash input (slice p (18 + n + len) slen)) stVerifyFailed
    Fn.done []

/-! ### Elliptic-curve functions (R243) -/

/-- Bytes of p and of n. -/
def Curve.pLen (c : Curve) : Nat := (Nat.log2 c.p + 8) / 8
def Curve.nLen (c : Curve) : Nat := (Nat.log2 c.n + 8) / 8

/-- The digest as an integer, cut to the length of n (FIPS 186-5). -/
def digestInt (c : Curve) (d : Bytes) : Nat :=
  let nbits := Nat.log2 c.n + 1
  if nbits < 8 * d.length then beNat d / 2 ^ (8 * d.length - nbits) else beNat d

/-- The curve that CURVE and HANDLE name for the request. -/
def Fn.curve (x : Slot) (code handle : Nat) : Fn (Curve × Nat) := do
  match ← Fn.st (fun s => s.curveFor x.tenant x.admitTick code handle) with
  | .ok c => return c
  | .error st => throw st

/-- HANDLE is 0 but for CURVE 4. -/
def handleOk (code handle : Nat) : Bool := code == 4 || handle == 0

/-- Coordinates of an uncompressed point of a curve; FIELD_INVALID for another encoding. -/
def Fn.point (c : Curve) (pub : Bytes) : Fn (Nat × Nat) := do
  let n := c.pLen
  Fn.need (decide (pub.length = 1 + 2 * n) && fld pub 0 1 == 4) stFieldInvalid
  return (fld pub 1 n, fld pub (1 + n) n)

/-- ECDSA_SIGN on CURVE `code`. -/
def ecdsaSignFn (code : Nat) (x : Slot) : Fn FnRes := do
  let p := x.payload
  let hlen := fld p 16 1
  Fn.need (payloadOk p (20 + hlen) [(17, 3)] [4] && handleOk code (fld p 12 4) && decide (20 ≤ hlen ∧ hlen ≤ 64)) stFieldInvalid
  let h ← Fn.resolveRole x 4 { usages := [uS0], modes := [mS], algs := [16] }
  let (c, row) ← Fn.curve x code (fld p 12 4)
  let m ← Fn.job (curveJob 0x10 code c (some h) [(0, digestInt c (slice p 20 hlen))]) row
  Fn.done (beBytes c.nLen (beNat (memRead m 0x200 c.size)) ++ beBytes c.nLen (beNat (memRead m 0x280 c.size)))

/-- ECDSA_VERIFY on CURVE `code`. -/
def ecdsaVerifyFn (code : Nat) (x : Slot) : Fn FnRes := do
  let p := x.payload
  let hlen := fld p 8 1
  let plen := fld p 10 2
  let stop := 12 + plen + hlen
  Fn.need (decide (stop ≤ p.length) && payloadOk p p.length [(9, 1)] [] && handleOk code (fld p 4 4) &&
    decide (20 ≤ hlen ∧ hlen ≤ 64 ∧ plen ≤ 145 ∧ p.length ≤ stop + 144)) stFieldInvalid
  let (c, row) ← Fn.curve x code (fld p 4 4)
  let (qx, qy) ← Fn.point c (slice p 12 plen)
  let n := c.nLen
  Fn.need (decide (p.length = stop + 2 * n)) stFieldInvalid
  let m ← Fn.job (curveJob 0x11 code c none
    [(0, digestInt c (slice p (12 + plen) hlen)), (0x80, qx), (0x100, qy), (0x180, fld p stop n), (0x200, fld p (stop + n) n)]) row
  Fn.need (beNat (memRead m 0x300 8) == 1) stVerifyFailed
  Fn.done []

/-- HKDF-SHA-256 with an empty salt, and the one-step KDF of SP 800-56C with SHA-256: `n` bytes, at most 32. -/
def kdfBytes (kdf : Nat) (z info : Bytes) (n : Nat) : Bytes :=
  if kdf = 1 then (sha256B (beBytes 4 1 ++ z ++ info)).take n
  else (hmac256 (hmac256 (zeros 32) z) (info ++ [0x01])).take n

/-- ECDH on CURVE `code`. -/
def ecdhFn (code : Nat) (x : Slot) : Fn FnRes := do
  let p := x.payload
  let o := outAttrAt p 16
  let ilen := fld p 25 1
  let plen := fld p 28 2
  Fn.need (payloadOk p (30 + plen + ilen) [(26, 2)] [4] && handleOk code (fld p 12 4) && outAttrOk p 16 [1, 2, 3, 4, 5, 6] &&
    decide ((fld p 24 1 = 1 ∨ fld p 24 1 = 2) ∧ ilen ≤ 64 ∧ plen ≤ 145)) stFieldInvalid
  let h ← Fn.resolveRole x 4 { usages := [uK3], modes := [mX], algs := [16] }
  let g ← Fn.producing x o.smk
  Fn.need (o.format != 0) stKeyBlockFormat
  let (c, row) ← Fn.curve x code (fld p 12 4)
  let (qx, qy) ← Fn.point c (slice p 30 plen)
  let m ← Fn.job (curveJob 0x12 code c (some h) [(0x80, qx), (0x100, qy)]) row
  let z := beBytes c.pLen (beNat (memRead m 0x300 c.size))
  let key := withParity o.attr.alg (kdfBytes (fld p 24 1) z (slice p (30 + plen) ilen) (keyLength o.attr.alg))
  Fn.done (← Fn.wrapSmk g o.format o.attr key 248)

/-! ### ML-KEM and ML-DSA functions (R243, R244) -/

/-- ML_KEM_ENCAPS. -/
def mlKemEncapsFn (x : Slot) : Fn FnRes := do
  let p := x.payload
  let o := outAttrAt p 4
  Fn.need (payloadOk p 1196 [] [] && outAttrOk p 4 [5, 6]) stFieldInvalid
  let g ← Fn.producing x o.smk
  Fn.need (o.format != 0) stKeyBlockFormat
  let m ← Fn.job { x := { op := 0x21 }, mem := bankOf [(0, slice p 12 1184)], key := [], curve := p256 } 0
  let kb ← Fn.wrapSmk g o.format o.attr (memRead m 0x1000 32) 256
  Fn.done (memRead m 0x800 1088 ++ kb)

/-- ML_KEM_DECAPS. -/
def mlKemDecapsFn (x : Slot) : Fn FnRes := do
  let p := x.payload
  let o := outAttrAt p 12
  Fn.need (payloadOk p 1108 [] [4] && outAttrOk p 12 [5, 6]) stFieldInvalid
  let h ← Fn.resolveRole x 4 { usages := [uK3], modes := [mX], algs := [17] }
  let g ← Fn.producing x o.smk
  Fn.need (o.format != 0) stKeyBlockFormat
  let m ← Fn.job { x := { op := 0x22, hasKey := true, keyAttr := h.attr }, mem := bankOf [(0x800, slice p 20 1088)], key := h.key,
                   curve := p256 } 0
  Fn.done (← Fn.wrapSmk g o.format o.attr (memRead m 0x1000 32) 248)

/-- ML_DSA_SIGN. -/
def mlDsaSignFn (x : Slot) : Fn FnRes := do
  let p := x.payload
  let clen := fld p 12 1
  let mlen := fld p 14 2
  Fn.need (payloadOk p (16 + clen + mlen) [(13, 1)] [4] && decide (mlen ≤ 4096)) stFieldInvalid
  let h ← Fn.resolveRole x 4 { usages := [uS0], modes := [mS], algs := [18] }
  let _ ← Fn.engine false
  Fn.need (h.key.length == 32) stParameterInvalid
  Fn.done (← Fn.mlDsaSign h.key (slice p 16 clen) (slice p (16 + clen) mlen))

/-- ML_DSA_VERIFY. -/
def mlDsaVerifyFn (x : Slot) : Fn FnRes := do
  let p := x.payload
  let clen := fld p 4 1
  let mlen := fld p 6 2
  Fn.need (payloadOk p (5269 + clen + mlen) [(5, 1)] [] && decide (mlen ≤ 2048)) stFieldInvalid
  let m ← Fn.job { x := { op := 0x2A, mlen := mlen, ctxlen := clen },
                   mem := bankOf [(0, slice p 8 1952), (0x800, slice p 1960 3309), (0x1500, p.drop 5269)], key := [], curve := p256 } 0
  Fn.need (beNat (memRead m 0x1E00 8) == 1) stVerifyFailed
  Fn.done []

/-! ### Commands -/

/-- RSA_PRIVATE. -/
def rsaPrivateCode (x : Slot) : Fn FnRes := rsaPrivateFn (if x.func = 0x0701 then 256 else if x.func = 0x0702 then 384 else 512) x
def rsaPublicCode (x : Slot) : Fn FnRes := rsaPublicFn (if x.func = 0x0704 then [256] else [384, 512]) x

/-- RSA_PRIVATE_2048, RSA_PRIVATE_3072, RSA_PRIVATE_4096. -/
def execRsaPrivate (slot : Nat) (s : State) : Host.Outcome State Fault Refusal :=
  .next (serveFn [0x0701, 0x0702, 0x0703].contains (fun _ x => rsaPrivateCode x) slot s)
/-- RSA_PUBLIC_2048, RSA_PUBLIC_4096. -/
def execRsaPublic (slot : Nat) (s : State) : Host.Outcome State Fault Refusal :=
  .next (serveFn [0x0704, 0x0705].contains (fun _ x => rsaPublicCode x) slot s)
/-- ECDSA_SIGN_P256, _P384, _P521 and _CURVE. -/
def execEcdsaSignFunction (slot : Nat) (s : State) : Host.Outcome State Fault Refusal :=
  .next (serveFn [0x0710, 0x0711, 0x0712, 0x0713].contains (fun _ x => ecdsaSignFn (x.func - 0x070F) x) slot s)
/-- ECDSA_VERIFY_P256, _P384, _P521 and _CURVE. -/
def execEcdsaVerifyFunction (slot : Nat) (s : State) : Host.Outcome State Fault Refusal :=
  .next (serveFn [0x0718, 0x0719, 0x071A, 0x071B].contains (fun _ x => ecdsaVerifyFn (x.func - 0x0717) x) slot s)
/-- ECDH_P256, _P384, _P521 and _CURVE. -/
def execEcdhFunction (slot : Nat) (s : State) : Host.Outcome State Fault Refusal :=
  .next (serveFn [0x0720, 0x0721, 0x0722, 0x0723].contains (fun _ x => ecdhFn (x.func - 0x071F) x) slot s)
/-- ML_KEM_ENCAPS. -/
def execMlKemEncaps (slot : Nat) (s : State) : Host.Outcome State Fault Refusal :=
  .next (serveFn (· == 0x0730) (fun _ x => mlKemEncapsFn x) slot s)
/-- ML_KEM_DECAPS. -/
def execMlKemDecaps (slot : Nat) (s : State) : Host.Outcome State Fault Refusal :=
  .next (serveFn (· == 0x0731) (fun _ x => mlKemDecapsFn x) slot s)
/-- ML_DSA_SIGN. -/
def execMlDsaSign (slot : Nat) (s : State) : Host.Outcome State Fault Refusal :=
  .next (serveFn (· == 0x0738) (fun _ x => mlDsaSignFn x) slot s)
/-- ML_DSA_VERIFY. -/
def execMlDsaVerify (slot : Nat) (s : State) : Host.Outcome State Fault Refusal :=
  .next (serveFn (· == 0x0739) (fun _ x => mlDsaVerifyFn x) slot s)

end Sys2Proof.Machine
end

