-- ==== Sys2Proof/Machine/KeyMgmt.lean ====
section
/-! DEFINITION. The key-management functions (R239 to R241), and random data, hashing and FF1 (R245). -/

namespace Sys2Proof.Machine

/-! ### Import, export, translation (R239) -/

/-- The key of an incoming block under a key-encryption key, with its attributes (R228, R239, R274). -/
def Fn.incoming (h : Handle) (b : Bytes) : Fn (KeyAttr × Bytes) := do
  let hdr ← Fn.get! (parseHeader b) stKeyInvalid
  let k ← Fn.get! (unwrapWith h.key b hdr) stKeyInvalid
  let r ← Fn.get! (attrOf hdr k) stKeyInvalid
  Fn.need (r.1.alg != 0) stKeyInvalid
  return r

/-- The version of an incoming block is one that its key-encryption key takes. -/
def incomingOk (h : Handle) (b : Bytes) : Bool :=
  match versionFormat (fld b 0 1) with
  | some f => formatFits f h.attr.alg
  | none => false

/-- KEY_IMPORT and KEY_IMPORT_LARGE, with their limits on the incoming and the produced block. -/
def keyImportFn (most out : Nat) (x : Slot) : Fn FnRes := do
  let p := x.payload
  let j := fld p 12 1
  let format := fld p 13 1
  let n := fld p 16 2
  Fn.need (payloadOk p (18 + n) [(14, 2)] [4] && decide (j ≤ 7 ∧ format ≤ 2 ∧ n ≤ most)) stFieldInvalid
  let h ← Fn.resolveRole x 4 (kekRole [mD, mB])
  let g ← Fn.producing x j
  let ib := slice p 18 n
  Fn.need (incomingOk h ib && format != 0) stKeyBlockFormat
  let (a, k) ← Fn.incoming h ib
  Fn.done (← Fn.wrapSmk g format a k out)

/-- A key of an exportability may leave under a key-encryption key (R239). -/
def exportOk (a : KeyAttr) (kek : Handle) : Bool :=
  a.exportability == 0x45 || (a.exportability == 0x53 && kek.resident.isSome)

/-- KEY_EXPORT. -/
def keyExportFn (x : Slot) : Fn FnRes := do
  let p := x.payload
  let format := fld p 20 1
  Fn.need (payloadOk p 24 [(21, 3)] [4, 12] && decide (format ≤ 2)) stFieldInvalid
  let h ← Fn.resolveRole x 4 (kekRole [mE, mB])
  let k ← Fn.resolve x 12 (fun _ => true)
  Fn.need (exportOk k.attr h) stUsageDenied
  Fn.need (decide (strengthOf k.attr k.key ≤ strengthOf h.attr h.key)) stKekTooWeak
  Fn.need (formatFits format h.attr.alg && (format != 0 || decide (k.attr.alg ≤ 2))) stKeyBlockFormat
  Fn.done (← Fn.wrap h.key format k.attr k.key none 248)

/-- KEY_TRANSLATE. -/
def keyTranslateFn (x : Slot) : Fn FnRes := do
  let p := x.payload
  let format := fld p 20 1
  let n := fld p 24 2
  Fn.need (payloadOk p (26 + n) [(21, 3)] [4, 12] && decide (format ≤ 2 ∧ n ≤ 248)) stFieldInvalid
  let hi ← Fn.resolveRole x 4 (kekRole [mD, mB])
  let ho ← Fn.resolveRole x 12 (kekRole [mE, mB])
  let ib := slice p 26 n
  Fn.need (incomingOk hi ib && formatFits format ho.attr.alg) stKeyBlockFormat
  let (a, k) ← Fn.incoming hi ib
  Fn.need (exportOk a ho) stUsageDenied
  Fn.need (decide (strengthOf a k ≤ strengthOf ho.attr ho.key)) stKekTooWeak
  Fn.done (← Fn.wrap ho.key format a k none 248)

/-! ### Generation and check values (R239, R272) -/

/-- KEY_GENERATE. -/
def keyGenerateFn (x : Slot) : Fn FnRes := do
  let p := x.payload
  let o := outAttrAt p 4
  let format := fld p 20 1
  let named := fld p 12 1 != 0
  Fn.need (payloadOk p 24 [(21, 3)] (if named then [12] else []) && outAttrOk p 4 [1, 2, 3, 4, 5, 6] && decide (format ≤ 2))
    stFieldInvalid
  let kek ← if named then do pure (some (← Fn.resolveRole x 12 (kekRole [mE, mB]))) else pure none
  let g ← Fn.producing x o.smk
  let n := keyLength o.attr.alg
  Fn.need (kek.all (fun h => decide (strengthOf o.attr (zeros n) ≤ strengthOf h.attr h.key))) stKekTooWeak
  Fn.need (o.format != 0 && kek.all (fun h => formatFits format h.attr.alg && (format != 0 || decide (o.attr.alg ≤ 2))))
    stKeyBlockFormat
  let k := withParity o.attr.alg (← Fn.draw n)
  let b ← Fn.wrapSmk g o.format o.attr k 248
  match kek with
  | none => Fn.done b
  | some h => Fn.done (b ++ (← Fn.wrap h.key format o.attr k none 248))

/-- KEY_CHECK_VALUE. -/
def keyCheckValueFn (x : Slot) : Fn FnRes := do
  Fn.need (payloadOk x.payload 12 [] [4]) stFieldInvalid
  let h ← Fn.resolve x 4 (fun _ => true)
  Fn.done (kcvOf h.attr h.key ++ zeros 2)

/-! ### Resident keys (R240, R257) -/

/-- KEY_LOAD_RESIDENT. -/
def keyLoadResidentFn (x : Slot) : Fn FnRes := do
  let p := x.payload
  let limit := fld p 12 4
  let flags := fld p 16 1
  Fn.need (payloadOk p 20 [(17, 3)] [4] && (krefAt p 4).kind == 2 && decide (flags ≤ 1)) stFieldInvalid
  let h ← Fn.resolve x 4 (fun _ => true)
  let n := unitsOf (bindingBytes h.attr h.key)
  let u ← Fn.residentRun x.tenant n
  let (sa, sb) ← Fn.act (fun s =>
    let r := s.shares h.attr.isPublic h.key
    ((r.1, r.2.1), r.2.2))
  let r : Resident := { kind := .key, tenant := x.tenant, units := n, attr := h.attr, shareA := sa, shareB := sb,
                        useLimited := limit != 0, limit := limit, resetExpiry := flags == 1, rootSlot := h.rootSlot,
                        rootGen := h.rootGen }
  Fn.done (beBytes 4 u ++ kcvOf h.attr h.key ++ zeros 6) [.loadResident u r]

/-- KEY_DELETE_RESIDENT: its checks and its retirement in one step (R257, R505). -/
def keyDeleteResidentFn (k : Nat) (x : Slot) : Fn FnRes := do
  let u := fld x.payload 4 4
  Fn.need (layoutOk x.payload 12 [(8, 4)]) stFieldInvalid
  let s ← get
  let r := s.resident u
  Fn.need (decide (8256 ≤ u ∧ u < 65536 ∧ r.kind ≠ .free ∧ r.tenant = x.tenant) && folioReached x.admitTick r.from_) stSlotNotOwned
  Fn.need (decide (r.kind ≠ .retiring) && !s.folio.effects.any (fun e => e.effect == .residentDelete u)) stKeyRevoked
  Fn.armNow k (.residentDelete u)
  Fn.done []

/-! ### TR-34 (R241) -/

/-- An RSA public key as a binding holds it: the exponent in 4 bytes, then the modulus. -/
def rsaPublicOf (raw : Bytes) : Nat × Bytes := (fld raw 0 4, raw.drop 4)

/-- The key distribution host's key. -/
def kdhRole (mode : Nat) : Role := { usages := [uS0], modes := [mode], algs := [7] }

/-- The CBC cipher of a token's content: 1 AES-128, 2 TDES; the key of a length that it takes. -/
def tokenCipher (alg : Nat) (key : Bytes) : Option Cipher :=
  if alg = 1 ∧ key.length = 16 then some (aesCipher key)
  else if alg = 2 ∧ (key.length = 16 ∨ key.length = 24) then some (tdesCipher key)
  else none

/-- The content with its PKCS#7 padding removed. -/
def unpad (size : Nat) (b : Bytes) : Option Bytes :=
  let n := fld b (b.length - 1) 1
  if b ≠ [] ∧ 1 ≤ n ∧ n ≤ size ∧ n ≤ b.length ∧ (b.drop (b.length - n)).all (fun x => x.toNat == n) then some (b.take (b.length - n))
  else none

/-- TR34_IMPORT. -/
def tr34ImportFn (x : Slot) : Fn FnRes := do
  let p := x.payload
  let j := fld p 20 1
  let format := fld p 21 1
  let n := fld p 24 2
  Fn.need (payloadOk p (26 + n) [(22, 2)] [4, 12] && decide (j ≤ 7 ∧ format ≤ 2 ∧ n ≤ 4000)) stFieldInvalid
  let kr ← Fn.resolveRole x 4 { usages := [uK2], modes := [mD], algs := [7] }
  let kd ← Fn.resolveRole x 12 (kdhRole mV)
  let g ← Fn.producing x j
  Fn.need (format != 0) stKeyBlockFormat
  let (tbs, scheme, sig, wrapped, alg, iv, ct) ← Fn.get! (Config.tr34Parse (slice p 26 n)) stTokenInvalid
  Fn.need (decide ((scheme = 1 ∨ scheme = 2) ∧ sig.length = 256 ∧ wrapped.length = 256)) stTokenInvalid
  let (e, modulus) := rsaPublicOf kd.key
  Fn.need (← Fn.rsaVerify e modulus scheme 1 (sha256B tbs) sig) stTokenInvalid
  let em ← Fn.rsaPrivate kr 256 wrapped
  let ck ← Fn.get! (oaepDecode 1 256 em) stTokenInvalid
  let c ← Fn.get! (tokenCipher alg ck) stTokenInvalid
  Fn.need (decide (iv.length = c.size ∧ ct.length % c.size = 0)) stTokenInvalid
  let content ← Fn.get! (unpad c.size (cbcDec c iv ct)) stTokenInvalid
  let (usage, ac, mode, exp, key) ← Fn.get! (Config.tr34Key content) stTokenInvalid
  let hdr : BlockHdr := { version := verD, usage := usage, alg := ac, mode := mode, exportability := exp, opts := [], len := 16 }
  let (a, raw) ← Fn.get! (attrOf hdr key) stTokenInvalid
  Fn.need (a.alg != 0) stTokenInvalid
  Fn.done (← Fn.wrapSmk g format a raw 248)

/-- TR34_EXPORT: AES-128-CBC content under a fresh key, signed by RSASSA-PSS. -/
def tr34ExportFn (x : Slot) : Fn FnRes := do
  let p := x.payload
  let e := fld p 20 4
  let n := fld p 24 2
  Fn.need (payloadOk p (26 + n) [] [4, 12] && decide ((e = 3 ∨ e = 65537) ∧ n = 256)) stFieldInvalid
  let kd ← Fn.resolveRole x 4 (kdhRole mS)
  let k ← Fn.resolve x 12 (fun _ => true)
  let rnd ← Fn.draw 64
  let content := Config.tr34Content k.attr.usage (algChar k.attr.alg) k.attr.mode k.attr.exportability (blockKeyData k.attr k.key)
  let ck := rnd.take 16
  let iv := slice rnd 16 16
  let pad := 16 - content.length % 16
  let ct := cbcEnc (aesCipher ck) iv (content ++ List.replicate pad (BitVec.ofNat 8 pad))
  let wrapped ← Fn.rsaPublic e (slice p 26 n) (oaepEncode 1 256 ck (rnd.drop 32))
  let tbs := Config.tr34Signed wrapped iv ct (slice p 26 n)
  let sig ← Fn.rsaSign kd 256 2 1 (sha256B tbs)
  let token := Config.tr34Token tbs sig
  Fn.need (decide (token.length ≤ 4088)) stKeyBlockFormat
  Fn.done (beBytes 2 token.length ++ zeros 6 ++ token)

/-! ### Key pairs (R241) -/

/-- PLEN, PUB and KBOUT of a key pair, within `most` bytes. -/
def Fn.keyPair (x : Slot) (o : OutAttr) (g : SmkGen) (pub raw : Bytes) (curve : Nat) : Fn FnRes := do
  let kb ← Fn.wrapSmk g o.format { o.attr with curve := curve } raw (x.cost.lmax - 10 - pub.length)
  Fn.done (beBytes 2 pub.length ++ pub ++ kb)

/-- EC_KEYPAIR_GENERATE. -/
def ecKeypairGenerateFn (x : Slot) : Fn FnRes := do
  let p := x.payload
  let o := outAttrAt p 4
  let code := fld p 12 1
  Fn.need (payloadOk p 20 [(13, 3)] [] && outAttrOk p 4 [16] && decide (1 ≤ code ∧ code ≤ 4) && handleOk code (fld p 16 4)) stFieldInvalid
  let g ← Fn.producing x o.smk
  Fn.need (o.format != 0) stKeyBlockFormat
  let (c, row) ← Fn.curve x code (fld p 16 4)
  let m ← Fn.job (curveJob 0x13 code c none []) row
  let at_ := fun (a n : Nat) => beBytes n (beNat (memRead m a c.size))
  Fn.keyPair x o g ([0x04] ++ at_ 0x80 c.pLen ++ at_ 0x100 c.pLen) (at_ 0x380 c.size) code

/-- A lattice key pair: the operation, the bytes of its public key and of its seed. -/
def latticeKeypairFn (alg op pub seed : Nat) (x : Slot) : Fn FnRes := do
  let p := x.payload
  let o := outAttrAt p 4
  Fn.need (payloadOk p 12 [] [] && outAttrOk p 4 [alg]) stFieldInvalid
  let g ← Fn.producing x o.smk
  Fn.need (o.format != 0) stKeyBlockFormat
  let m ← Fn.job { x := { op := op }, mem := [], key := [], curve := p256 } 0
  Fn.keyPair x o g (memRead m 0 pub) (memRead m 0x1000 seed) 0

/-! ### Random data and hashing (R245) -/

/-- RANDOM_SHORT and RANDOM_LONG. -/
def randomFn (most : Nat) (x : Slot) : Fn FnRes := do
  let n := fld x.payload 4 2
  Fn.need (layoutOk x.payload 8 [(6, 2)] && decide (1 ≤ n ∧ n ≤ most)) stFieldInvalid
  let st ← Fn.st (fun s => s.drawStatus true)
  if st ≠ stOk then
    Fn.change (fun s => refuseDraw s (some x.tenant) st)
    throw st
  let b ← Fn.act (fun s => drawBlocks s true (ceilDiv n 16))
  Fn.done (b.take n)

/-- HASH. -/
def hashFn (x : Slot) : Fn FnRes := do
  let p := x.payload
  let alg := fld p 4 1
  let n := fld p 6 2
  Fn.need (layoutOk p (8 + n) [(5, 1)] && decide (alg ≤ 3 ∧ n ≤ 8180)) stFieldInvalid
  let d := p.drop 8
  Fn.done (match alg with
    | 0 => sha256B d
    | 1 => sha384B d
    | 2 => sha512B d
    | _ => sha3_256B d)

/-! ### FF1 (R245; SP 800-38G) -/

/-- The number that numerals spell in a radix, and back to `m` numerals. -/
def numRadix (radix : Nat) (l : List Nat) : Nat := l.foldl (fun a d => a * radix + d) 0
def strRadix (radix m v : Nat) : List Nat := ((List.range m).reverse).map (fun i => v / radix ^ i % radix)

/-- y of round `i`: the round function over the tweak and the numerals `l` of a string of `n`. -/
def ff1Round (key tweak : Bytes) (radix n i : Nat) (l : List Nat) : Nat :=
  let v := n - n / 2
  let b := ceilDiv (Nat.log2 (radix ^ v - 1) + 1) 8
  let d := 4 * ceilDiv b 4 + 4
  let p : Bytes := [1, 2, 1] ++ beBytes 3 radix ++ [10] ++ beBytes 1 (n / 2) ++ beBytes 4 n ++ beBytes 4 tweak.length
  let t := tweak ++ zeros ((16 - (tweak.length + b + 1) % 16) % 16) ++ beBytes 1 i ++ beBytes b (numRadix radix l)
  let r := cbcMac (aesCipher key) (p ++ t)
  let more := (List.range (ceilDiv d 16 - 1)).flatMap (fun j => aesEnc key (xorBytes r (beBytes 16 (j + 1))))
  beNat ((r ++ more).take d)

/-- Numerals of half `i` of a string of `n`: the first half for even rounds. -/
def halfLen (n i : Nat) : Nat := if i % 2 = 0 then n / 2 else n - n / 2

/-- One round of encryption on the halves. -/
def ff1Enc (key tweak : Bytes) (radix n : Nat) (ab : List Nat × List Nat) (i : Nat) : List Nat × List Nat :=
  let m := halfLen n i
  (ab.2, strRadix radix m ((numRadix radix ab.1 + ff1Round key tweak radix n i ab.2) % radix ^ m))

/-- One round of decryption on the halves. -/
def ff1Dec (key tweak : Bytes) (radix n : Nat) (ab : List Nat × List Nat) (i : Nat) : List Nat × List Nat :=
  let m := halfLen n i
  (strRadix radix m (subMod (numRadix radix ab.2) (ff1Round key tweak radix n i ab.1) (radix ^ m)), ab.1)

/-- FF1 over numerals. -/
def ff1 (enc : Bool) (key tweak : Bytes) (radix : Nat) (l : List Nat) : List Nat :=
  let n := l.length
  let ab := (l.take (n / 2), l.drop (n / 2))
  let r := if enc then (List.range 10).foldl (ff1Enc key tweak radix n) ab
    else ((List.range 10).reverse).foldl (ff1Dec key tweak radix n) ab
  r.1 ++ r.2

/-- The numeral of a character: 0–9, then a–z. -/
def numeralOf (c : Byte) : Nat :=
  let v := c.toNat
  if 0x30 ≤ v ∧ v ≤ 0x39 then v - 0x30 else if 0x61 ≤ v ∧ v ≤ 0x7A then v - 0x57 else 255
def charOf (d : Nat) : Byte := BitVec.ofNat 8 (if d < 10 then 0x30 + d else 0x57 + d)

/-- FF1_ENCRYPT and FF1_DECRYPT. -/
def ff1Fn (enc : Bool) (x : Slot) : Fn FnRes := do
  let p := x.payload
  let radix := fld p 12 1
  let n := fld p 13 1
  let t := fld p 14 1
  Fn.need (payloadOk p (16 + t + n) [(15, 1)] [4] && decide (t ≤ 32)) stFieldInvalid
  let h ← Fn.resolveRole x 4 { usages := [uD0], modes := [if enc then mE else mD, mB], algs := [3, 4, 5] }
  let l := (slice p (16 + t) n).map numeralOf
  Fn.need (decide ((radix = 10 ∧ 6 ≤ n ∧ n ≤ 56) ∨ (radix = 36 ∧ 4 ≤ n ∧ n ≤ 36)) && l.all (fun d => decide (d < radix))) stFf1Domain
  Fn.done ((ff1 enc h.key (slice p 16 t) radix l).map charOf)

/-! ### Commands -/

/-- KEY_IMPORT. -/
def execKeyImport (slot : Nat) (s : State) : Host.Outcome State Fault Refusal :=
  .next (serveFn (· == 0x0601) (fun _ x => keyImportFn 248 248 x) slot s)
/-- KEY_EXPORT. -/
def execKeyExport (slot : Nat) (s : State) : Host.Outcome State Fault Refusal :=
  .next (serveFn (· == 0x0602) (fun _ x => keyExportFn x) slot s)
/-- KEY_TRANSLATE. -/
def execKeyTranslate (slot : Nat) (s : State) : Host.Outcome State Fault Refusal :=
  .next (serveFn (· == 0x0603) (fun _ x => keyTranslateFn x) slot s)
/-- KEY_GENERATE. -/
def execKeyGenerate (slot : Nat) (s : State) : Host.Outcome State Fault Refusal :=
  .next (serveFn (· == 0x0604) (fun _ x => keyGenerateFn x) slot s)
/-- KEY_CHECK_VALUE. -/
def execKeyCheckValue (slot : Nat) (s : State) : Host.Outcome State Fault Refusal :=
  .next (serveFn (· == 0x0605) (fun _ x => keyCheckValueFn x) slot s)
/-- KEY_IMPORT_LARGE. -/
def execKeyImportLarge (slot : Nat) (s : State) : Host.Outcome State Fault Refusal :=
  .next (serveFn (· == 0x0606) (fun _ x => keyImportFn 4000 4088 x) slot s)
/-- KEY_LOAD_RESIDENT. -/
def execKeyLoadResident (slot : Nat) (s : State) : Host.Outcome State Fault Refusal :=
  .next (serveFn (· == 0x0610) (fun _ x => keyLoadResidentFn x) slot s)
/-- KEY_DELETE_RESIDENT. -/
def execKeyDeleteResident (slot : Nat) (s : State) : Host.Outcome State Fault Refusal :=
  .next (serveFn (· == 0x0611) keyDeleteResidentFn slot s)
/-- TR34_IMPORT. -/
def execTr34Import (slot : Nat) (s : State) : Host.Outcome State Fault Refusal :=
  .next (serveFn (· == 0x0620) (fun _ x => tr34ImportFn x) slot s)
/-- TR34_EXPORT. -/
def execTr34Export (slot : Nat) (s : State) : Host.Outcome State Fault Refusal :=
  .next (serveFn (· == 0x0621) (fun _ x => tr34ExportFn x) slot s)
/-- EC_KEYPAIR_GENERATE. -/
def execEcKeypairGenerate (slot : Nat) (s : State) : Host.Outcome State Fault Refusal :=
  .next (serveFn (· == 0x0630) (fun _ x => ecKeypairGenerateFn x) slot s)
/-- ML_KEM_KEYPAIR. -/
def execMlKemKeypair (slot : Nat) (s : State) : Host.Outcome State Fault Refusal :=
  .next (serveFn (· == 0x0631) (fun _ x => latticeKeypairFn 17 0x20 1184 64 x) slot s)
/-- ML_DSA_KEYPAIR. -/
def execMlDsaKeypair (slot : Nat) (s : State) : Host.Outcome State Fault Refusal :=
  .next (serveFn (· == 0x0632) (fun _ x => latticeKeypairFn 18 0x28 1952 32 x) slot s)
/-- RANDOM_SHORT. -/
def execRandomShort (slot : Nat) (s : State) : Host.Outcome State Fault Refusal :=
  .next (serveFn (· == 0x0901) (fun _ x => randomFn 64 x) slot s)
/-- RANDOM_LONG. -/
def execRandomLong (slot : Nat) (s : State) : Host.Outcome State Fault Refusal :=
  .next (serveFn (· == 0x0902) (fun _ x => randomFn 4096 x) slot s)
/-- HASH. -/
def execHash (slot : Nat) (s : State) : Host.Outcome State Fault Refusal :=
  .next (serveFn (· == 0x0910) (fun _ x => hashFn x) slot s)
/-- FF1_ENCRYPT. -/
def execFf1Encrypt (slot : Nat) (s : State) : Host.Outcome State Fault Refusal :=
  .next (serveFn (· == 0x0920) (fun _ x => ff1Fn true x) slot s)
/-- FF1_DECRYPT. -/
def execFf1Decrypt (slot : Nat) (s : State) : Host.Outcome State Fault Refusal :=
  .next (serveFn (· == 0x0921) (fun _ x => ff1Fn false x) slot s)

end Sys2Proof.Machine
end

