-- ==== Sys2Proof/Machine/Stream.lean ====
section
/-! DEFINITION. The stream functions (R310 to R317) and the curve functions (R301 to R303). -/

namespace Sys2Proof.Machine

/-! ### Streams -/

/-- The role of a side's key (Table 11.1, R227). -/
def sideRole (mode : Nat) (enc : Bool) : Role :=
  if mode = 5 then { usages := [uM6], modes := [mC, if enc then mG else mV], algs := [3, 4, 5] }
  else { usages := [uD0], modes := [if enc then mE else mD, mB],
         algs := if mode = 6 then [1, 2] else if mode = 4 then [5] else [3, 4, 5] }

/-- Bytes of an IV field that a mode uses. -/
def ivUsed (mode : Nat) : Nat :=
  match mode with
  | 1 | 2 => 16
  | 3 => 12
  | 6 => 8
  | _ => 0

/-- The layout of STREAM_OPEN: unused fields are zero, and a side of mode 0 has no key (R310). -/
def openLayoutOk (p : Bytes) : Bool :=
  let f := openFields p
  let side := fun (off mode : Nat) => if mode = 0 then fld p off 1 == 0 else fld p off 1 != 0
  payloadOk p (68 + f.aadLen) [(66, 2)] ([(4, f.modeIn), (12, f.modeOut)].filterMap (fun q => if q.2 = 0 then none else some q.1)) &&
    decide (f.modeIn ≤ 6 ∧ f.modeOut ≤ 6) && side 4 f.modeIn && side 12 f.modeOut &&
    allZero (f.ivIn.drop (ivUsed f.modeIn)) && allZero (f.ivOut.drop (ivUsed f.modeOut)) && (f.uses 4 || f.tweak == 0)

/-- Submit the operation of a stream request: its status, and what BKSTAT shows. -/
def Fn.submit (k : Nat) (op : BulkOp) (kin kout : Handle) : Fn FnRes := do
  let st ← Fn.act (fun s => bulkAnswer s k op kin kout)
  Fn.change (fun s => (s.coresOf k).foldl (fun s c => s.putBulkStat c { status := st, accepted := st = stOk, submitted := true }) s)
  Fn.ok st
  Fn.done []

/-- STREAM_OPEN. -/
def streamOpenFn (k : Nat) (x : Slot) : Fn FnRes := do
  let f := openFields x.payload
  Fn.need (openLayoutOk x.payload) stFieldInvalid
  let kin ← if f.modeIn = 0 then pure {} else Fn.resolveRole x 4 (sideRole f.modeIn false)
  let kout ← if f.modeOut = 0 then pure {} else Fn.resolveRole x 12 (sideRole f.modeOut true)
  Fn.submit k .openOp kin kout

/-- STREAM_SEGMENT and STREAM_SEGMENT_TDES. -/
def streamSegmentFn (k : Nat) (x : Slot) : Fn FnRes := do
  Fn.need (prologueOk x.payload 0) stFieldInvalid
  Fn.submit k .segment {} {}

/-- STREAM_FINAL and STREAM_FINAL_TDES. -/
def streamFinalFn (k : Nat) (x : Slot) : Fn FnRes := do
  Fn.need (prologueOk x.payload 0 && decide (20 ≤ x.payload.length)) stFieldInvalid
  Fn.submit k .final {} {}

/-- STREAM_ABORT. -/
def streamAbortFn (k : Nat) (x : Slot) : Fn FnRes := do
  Fn.need (layoutOk x.payload 4 []) stFieldInvalid
  Fn.submit k .abort {} {}

/-! ### Curve records -/

/-- Indices that loads of tasks have promised and not yet committed, with their tenants. -/
def State.pendingCurves (s : State) : List (Nat × Nat) :=
  s.sq.slots.flatMap (fun p => p.2.effects.filterMap (fun e => match e with
    | .curveLoad i c => some (i, c.tenant)
    | _ => none))

/-- CURVE_LOAD. -/
def curveLoadFn (x : Slot) : Fn FnRes := do
  let p := x.payload
  let pbits := fld p 4 2
  let h := fld p 6 1
  Fn.need (layoutOk p 440 [(7, 1)] && decide (192 ≤ pbits ∧ pbits ≤ 576 ∧ 1 ≤ h ∧ h ≤ 4)) stFieldInvalid
  let s ← get
  let used := (s.bn.curves.filter (fun q => decide (q.2.state ≠ .free ∧ q.2.tenant = x.tenant))).length +
    (s.pendingCurves.filter (fun q => q.2 == x.tenant)).length
  Fn.need (decide (used < (tabGet ({} : TenantImage) s.image.tenants x.tenant).curveQuota)) stCurveQuotaFull
  let i ← Fn.get! ((List.range 256).find? (fun i => decide ((s.curve i).state = .free) && s.pendingCurves.all (fun q => q.1 != i)))
    stCurveQuotaFull
  let gen := if 65535 ≤ (s.curve i).gen then 1 else (s.curve i).gen + 1
  let v := fun (j : Nat) => fld p (8 + 72 * j) 72
  let c : CurveRec := { state := .validating, tenant := x.tenant, gen := gen, h := h, pbits := pbits, p := v 0, a := v 1, b := v 2,
                        gx := v 3, gy := v 4, n := v 5 }
  Fn.done (beBytes 4 (curveHandle i c) ++ zeros 4) [.curveLoad i c]

/-- STATE of a record (R301). -/
def curveStateCode : CurveState → Nat
  | .free => 0
  | .validating => 1
  | .valid => 2
  | .rejected => 3

/-- The record that HANDLE names for its sender, while it is not deleted; CURVE_UNSUPPORTED otherwise. -/
def Fn.curveRecord (x : Slot) (h : Nat) : Fn (Nat × CurveRec) := do
  let s ← get
  let i ← Fn.get! (s.curveNamed x.tenant h) stCurveUnsupported
  let c := s.curve i
  let gone : Bool := match c.deletedAt with
    | some d => folioReached x.admitTick d
    | none => false
  Fn.need (!gone) stCurveUnsupported
  return (i, c)

/-- PBITS of a built-in record. -/
def builtinBits (h : Nat) : Option Nat := if h = 1 then some 256 else if h = 2 then some 384 else if h = 3 then some 512 else none

/-- CURVE_QUERY. -/
def curveQueryFn (x : Slot) : Fn FnRes := do
  let p := x.payload
  let h := fld p 4 4
  Fn.need (layoutOk p 12 [(8, 4)]) stFieldInvalid
  match builtinBits h with
  | some b => Fn.done ([2, 0, 100, 1] ++ beBytes 2 b ++ zeros 2)
  | none => do
    let (_, c) ← Fn.curveRecord x h
    Fn.done (beBytes 1 (curveStateCode c.state) ++ beBytes 1 c.check ++ beBytes 1 c.progress ++ beBytes 1 c.h ++
      beBytes 2 c.pbits ++ zeros 2)

/-- CURVE_DELETE. -/
def curveDeleteFn (x : Slot) : Fn FnRes := do
  let p := x.payload
  Fn.need (layoutOk p 12 [(8, 4)]) stFieldInvalid
  let (i, _) ← Fn.curveRecord x (fld p 4 4)
  Fn.done [] [.arm (.curveDelete i)]

/-! ### Commands -/

/-- STREAM_OPEN. -/
def execStreamOpen (slot : Nat) (s : State) : Host.Outcome State Fault Refusal :=
  .next (serveFn (· == 0x0801) streamOpenFn slot s)
/-- STREAM_SEGMENT. -/
def execStreamSegment (slot : Nat) (s : State) : Host.Outcome State Fault Refusal :=
  .next (serveFn (· == 0x0802) streamSegmentFn slot s)
/-- STREAM_FINAL. -/
def execStreamFinal (slot : Nat) (s : State) : Host.Outcome State Fault Refusal :=
  .next (serveFn (· == 0x0803) streamFinalFn slot s)
/-- STREAM_ABORT. -/
def execStreamAbort (slot : Nat) (s : State) : Host.Outcome State Fault Refusal :=
  .next (serveFn (· == 0x0804) streamAbortFn slot s)
/-- STREAM_SEGMENT_TDES. -/
def execStreamSegmentTdes (slot : Nat) (s : State) : Host.Outcome State Fault Refusal :=
  .next (serveFn (· == 0x0812) streamSegmentFn slot s)
/-- STREAM_FINAL_TDES. -/
def execStreamFinalTdes (slot : Nat) (s : State) : Host.Outcome State Fault Refusal :=
  .next (serveFn (· == 0x0813) streamFinalFn slot s)
/-- CURVE_LOAD. -/
def execCurveLoad (slot : Nat) (s : State) : Host.Outcome State Fault Refusal :=
  .next (serveFn (· == 0x0050) (fun _ x => curveLoadFn x) slot s)
/-- CURVE_QUERY. -/
def execCurveQuery (slot : Nat) (s : State) : Host.Outcome State Fault Refusal :=
  .next (serveFn (· == 0x0051) (fun _ x => curveQueryFn x) slot s)
/-- CURVE_DELETE. -/
def execCurveDelete (slot : Nat) (s : State) : Host.Outcome State Fault Refusal :=
  .next (serveFn (· == 0x0052) (fun _ x => curveDeleteFn x) slot s)

end Sys2Proof.Machine
end

