-- ==== Sys2Proof/Machine/DevFns.lean ====
section
/-! DEFINITION. The dual-control functions (R352 to R368), the recorder functions (R467), and the commands of the device
functions whose computations stand with their subject. -/

namespace Sys2Proof.Machine

/-! ### Sessions -/

/-- AUTH_OPEN. -/
def authOpenFn (x : Slot) : Fn FnRes := do
  let p := x.payload
  let command := fld p 4 2
  let compLen := fld p 6 1
  let role := fld p 7 1
  let life := fld p 8 4
  let s ← get
  Fn.need (layoutOk p 60 [] && rowNamed x.tenant command role compLen && decide (1 ≤ life ∧ life ≤ s.dual.lifeMax)) stFieldInvalid
  Fn.need (decide (s.sessionsOpen (some x.tenant) < 8 ∧ s.sessionsOpen none < 256)) stSessionLimit
  let i ← Fn.get! s.pickSession stSessionLimit
  let challenge ← Fn.draw 32
  let eph ← if compLen = 0 then pure [] else do pure (scalar384 (← Fn.draw 56))
  let gen := if 0xFFFFFF ≤ (s.session i).gen then 1 else (s.session i).gen + 1
  let y : Session := { gen := gen, scope := x.tenant, command := command, role := role, compLen := compLen,
                       pdigest := slice p 12 48, m := s.quorum x.tenant role, expires := life, challenge := challenge,
                       ephemeral := eph }
  let qd := if eph = [] then zeros 97 else [0x04] ++ public384 eph
  Fn.done (beBytes 4 (sessionId i y) ++ challenge ++ qd ++ zeros 3) [.sessionOpen i y]

/-- AUTH_SIGN: its checks and its count in one step (R358). -/
def authSignFn (k : Nat) (x : Slot) : Fn FnRes := do
  let p := x.payload
  let id := fld p 4 4
  let serial := fld p 8 8
  let clen := fld p 112 2
  let s ← get
  let named := s.sessionNamed x.tenant id false
  let fits := match named with
    | none => true
    | some i => decide (clen = if (s.session i).compLen = 0 then 0 else 97 + (s.session i).compLen + 16)
  Fn.need (layoutOk p (116 + clen) [(114, 2)] && fits) stFieldInvalid
  match signatureStatus s named x.admitTick serial (slice p 16 96) (p.drop 116), named with
  | (_, some (e, comp)), some i => do
    Fn.change (fun s => countSignature s i serial e comp (some k) none)
    let y ← Fn.st (fun s => s.session i)
    Fn.done (beBytes 1 y.counted.length ++ beBytes 1 y.m ++ zeros 8 ++ (if comp = [] then zeros 6 else componentKcv comp))
      [.signature i serial]
  | (st, _), _ => do
    Fn.change (fun s => refuseSignature s x.tenant id serial st)
    throw (if st = stOk then stAuthRequired else st)

/-- AUTH_CARD_LOCAL. -/
def authCardLocalFn (x : Slot) : Fn FnRes := do
  let p := x.payload
  let iface := fld p 8 1
  Fn.need (layoutOk p 12 [(9, 3)] && decide (iface ≤ 1)) stFieldInvalid
  let s ← get
  let i ← Fn.get! (s.sessionNamed x.tenant (fld p 4 4) (x.tenant == 0)) stAuthRequired
  let y := s.session i
  Fn.need (decide (y.state = .open ∨ y.state = .granted) && !State.pastE y x.admitTick) stAuthExpired
  let promised := s.sq.slots.any (fun q => q.2.effects.any (fun e => match e with
    | .cardLocal _ f => f == iface
    | _ => false))
  Fn.need ((s.iface iface).exchange.isNone && !promised) stCardBusy
  Fn.done [] [.cardLocal i iface]

/-- AUTH_QUERY. -/
def authQueryFn (x : Slot) : Fn FnRes := do
  let p := x.payload
  Fn.need (layoutOk p 12 [(8, 4)]) stFieldInvalid
  let s ← get
  let i ← Fn.get! (s.sessionNamed x.tenant (fld p 4 4) (x.tenant == 0)) stAuthRequired
  let y := s.session i
  Fn.done (beBytes 1 y.state.code ++ beBytes 1 y.m ++ beBytes 1 (s.countedNow y).length ++ [0] ++ beBytes 2 y.localStatus ++
    zeros 2 ++ beBytes 8 y.expires)

/-- AUTH_CLOSE. -/
def authCloseFn (x : Slot) : Fn FnRes := do
  let p := x.payload
  Fn.need (layoutOk p 12 [(8, 4)]) stFieldInvalid
  let s ← get
  let i ← Fn.get! (s.sessionNamed x.tenant (fld p 4 4) false) stAuthRequired
  match (s.session i).state with
  | .inUse => throw stAuthInUse
  | .expired => throw stAuthExpired
  | .spent | .closed => throw stAuthSpent
  | _ => Fn.done [] [.sessionClose i]

/-! ### The registry (R352, R355, R361, R362) -/

/-- Tick effects that are armed, and those that tasks have promised. -/
def State.comingEffects (s : State) : List TickEffect :=
  s.folio.effects.map (·.effect) ++ s.sq.slots.flatMap (fun p => p.2.effects.filterMap (fun e => match e with
    | .arm t => some t
    | _ => none))

/-- M of a role once the quorum changes under way have taken effect. -/
def State.comingQuorum (s : State) (scope role : Nat) : Nat :=
  s.comingEffects.foldl (fun m e => match e with
    | .quorumSet a b n => if a = scope ∧ b = role then n else m
    | _ => m) (s.quorum scope role)

/-- N of a role once the revocations under way have taken effect. -/
def State.comingCards (s : State) (scope role : Nat) : Nat :=
  let gone := s.comingEffects.filterMap (fun e => match e with
    | .cardRevoke serial => some serial
    | _ => none)
  (s.dual.cards.filter (fun p => (p.2.state == .active || p.2.state == .warned) && p.2.scope == scope && p.2.role == role &&
    !gone.contains p.2.serial)).length

/-- A sender may name a scope: its own, or, for T0, a tenant's role whose N is below M (R352, R355). -/
def State.mayName (s : State) (tenant scope role : Nat) (substitute : Bool) : Bool :=
  scope == tenant || (tenant == 0 && substitute && decide (s.usableCards scope role < s.quorum scope role))

/-- Registrations that tasks have promised and not yet committed. -/
def State.pendingCards (s : State) : List Card :=
  s.sq.slots.flatMap (fun p => p.2.effects.filterMap (fun e => match e with
    | .cardRegister c => some c
    | _ => none))

/-- Seconds of eight years. -/
def eightYears : Nat := 252460800

/-- CARD_REGISTER. -/
def cardRegisterFn (k : Nat) (x : Slot) : Fn FnRes := do
  let p := x.payload
  let scope := fld p 4 2
  let role := fld p 6 1
  let n := fld p 12 2
  Fn.need (layoutOk p (16 + n) [(7, 1), (14, 2)] && decide (scope ≤ 512 ∧ role ≤ 3)) stFieldInvalid
  let _ ← Fn.auth k x 0x65 0 0 8
  let s ← get
  Fn.need (s.mayName x.tenant scope role true) stAuthMismatch
  let (serial, nb, na, pub) ← Fn.get! (Config.readCard (p.drop 16)) stSignatureInvalid
  Fn.need (decide (nb ≤ na ∧ na - nb ≤ eightYears)) stSignatureInvalid
  Fn.need ((s.cardOf serial).isNone && s.pendingCards.all (fun c => c.serial != serial)) stCardDuplicate
  Fn.need (decide (s.scopeCards scope + (s.pendingCards.filter (fun c => c.scope == scope)).length < 32 ∧
    (s.dual.cards.filter (fun q => q.2.state != .free)).length + s.pendingCards.length < 4096)) stCardRegistryFull
  Fn.done [] [.cardRegister { state := .active, serial := serial, scope := scope, role := role, usesLeft := 200000,
                              notBefore := nb, notAfter := na, pub := pub }]

/-- CARD_REVOKE. -/
def cardRevokeFn (k : Nat) (x : Slot) : Fn FnRes := do
  let p := x.payload
  let serial := fld p 4 8
  Fn.need (layoutOk p 20 [(16, 4)]) stFieldInvalid
  let _ ← Fn.auth k x 0x66 0 0 12
  let s ← get
  let e ← Fn.get! (s.cardOf serial) stCardUnknown
  let c := s.card e
  Fn.need (s.mayName x.tenant c.scope c.role false) stAuthMismatch
  Fn.need (decide (c.state ≠ .revoked) && !s.comingEffects.contains (.cardRevoke serial)) stCardRevoked
  let leaves := s.comingCards c.scope c.role - bit (c.state == .active || c.state == .warned)
  Fn.need (decide (s.comingQuorum c.scope c.role ≤ leaves)) stQuorumInvalid
  Fn.done [] [.arm (.cardRevoke serial)]

/-- QUORUM_SET. -/
def quorumSetFn (k : Nat) (x : Slot) : Fn FnRes := do
  let p := x.payload
  let scope := fld p 4 2
  let role := fld p 6 1
  let m := fld p 7 1
  Fn.need (layoutOk p 12 [] && decide (scope ≤ 512 ∧ role ≤ 3) && quorumRange role m) stFieldInvalid
  let _ ← Fn.auth k x 0x67 0 0 8
  let s ← get
  Fn.need (s.mayName x.tenant scope role true) stAuthMismatch
  Fn.need (decide (m ≤ s.comingCards scope role)) stQuorumInvalid
  Fn.done [] [.arm (.quorumSet scope role m)]

/-! ### Clear keys (R367, R368) -/

/-- MACSEC_CAK_SET. -/
def macsecCakSetFn (k : Nat) (x : Slot) : Fn FnRes := do
  let p := x.payload
  let lport := fld p 4 1
  let n := fld p 5 1
  Fn.need (layoutOk p (12 + n) [(6, 2)] && decide (lport ≤ 15 ∧ 1 ≤ n ∧ n ≤ 32)) stFieldInvalid
  let i ← Fn.auth k x 0x68 1 32 8
  let cak ← Fn.assembledKey i false
  Fn.done [] [.arm (.cakSet lport (p.drop 12) cak)]

/-- KEY_ENTER. -/
def keyEnterFn (k : Nat) (x : Slot) : Fn FnRes := do
  let p := x.payload
  let o := outAttrAt p 4
  Fn.need (layoutOk p 20 [(16, 4)] && outAttrOk p 4 [1, 2, 3, 4, 5, 6]) stFieldInvalid
  let i ← Fn.auth k x 0x69 1 (keyLength o.attr.alg) 12
  let g ← Fn.producing x o.smk
  Fn.need (o.format != 0) stKeyBlockFormat
  let key ← Fn.assembledKey i (decide (o.attr.alg ≤ 2))
  Fn.done (← Fn.wrapSmk g o.format o.attr key 248)

/-! ### The recorder (R467) -/

/-- The map of REC_HEAD. -/
def recHeadMap (s : State) (x : Slot) (h : RecHead) (nonce : Bytes) : Bytes :=
  cborMap [(cborUint 1, cborUint Config.serial.toNat), (cborUint 2, cborBytes s.idHash), (cborUint 3, cborUint h.frontCount),
    (cborUint 4, cborBytes (chainOf 0x46 h.frontChain)), (cborUint 5, cborUint h.next),
    (cborUint 6, cborBytes (chainOf 0x54 h.tailChain)), (cborUint 7, cborUint h.oldest), (cborUint 8, cborUint (x.admitTick * 65536)),
    (cborUint 9, cborBytes nonce)]

/-- REC_HEAD. -/
def recHeadFn (x : Slot) : Fn FnRes := do
  let p := x.payload
  let n := fld p 4 1
  Fn.need (layoutOk p (8 + n) [(5, 3)] && decide (16 ≤ n ∧ n ≤ 64)) stFieldInvalid
  let s ← get
  let h := x.head.getD s.recHead
  let c ← Fn.coseSign (recHeadMap s x h (p.drop 8))
  Fn.done (beBytes 2 c.length ++ zeros 6 ++ c)
    [.eventOnCommit evRecHeadIssued srcRecorder x.tenant (items [(4, h.next), (8, x.admitTick * 65536)])]

/-- REC_READ. -/
def recReadFn (x : Slot) : Fn FnRes := do
  let p := x.payload
  let area := fld p 4 1
  let i := fld p 8 4
  Fn.need (layoutOk p 12 [(5, 3)] && decide (area ≤ 1)) stFieldInvalid
  let s ← get
  let l := if area = 0 then s.recorder.tail else s.recorder.front
  let seen := (l.filter (fun q => decide (i ≤ q.1 ∧ q.1 < i + 8))).filter (fun q => x.tenant == 0 || q.2.tenant == x.tenant)
  Fn.done (beBytes 1 seen.length ++ zeros 7 ++ seen.flatMap (fun q => beBytes 4 q.1 ++ zeros 4 ++ recordBytes q.2))

/-! ### Commands -/

/-- SMK_REWRAP. -/
def execSmkRewrap (slot : Nat) (s : State) : Host.Outcome State Fault Refusal := .next (serveFn (· == 0x40) (fun _ x => smkRewrapFn x) slot s)
/-- SMK_CREATE. -/
def execSmkCreate (slot : Nat) (s : State) : Host.Outcome State Fault Refusal := .next (serveFn (· == 0x41) smkCreateFn slot s)
/-- SMK_ROTATE_BEGIN. -/
def execSmkRotateBegin (slot : Nat) (s : State) : Host.Outcome State Fault Refusal := .next (serveFn (· == 0x42) smkRotateBeginFn slot s)
/-- SMK_ROTATE_COMPLETE. -/
def execSmkRotateComplete (slot : Nat) (s : State) : Host.Outcome State Fault Refusal :=
  .next (serveFn (· == 0x43) smkRotateCompleteFn slot s)
/-- SMK_ROTATE_ABORT. -/
def execSmkRotateAbort (slot : Nat) (s : State) : Host.Outcome State Fault Refusal := .next (serveFn (· == 0x44) smkRotateAbortFn slot s)
/-- SMK_INVALIDATE. -/
def execSmkInvalidate (slot : Nat) (s : State) : Host.Outcome State Fault Refusal := .next (serveFn (· == 0x45) smkInvalidateFn slot s)
/-- COUNTER_CREATE. -/
def execCounterCreate (slot : Nat) (s : State) : Host.Outcome State Fault Refusal :=
  .next (serveFn (· == 0x46) (fun _ x => counterCreateFn x) slot s)
/-- CLIENT_KEY_SET. -/
def execClientKeySet (slot : Nat) (s : State) : Host.Outcome State Fault Refusal := .next (serveFn (· == 0x47) clientKeySetFn slot s)
/-- COLOPHON. -/
def execColophon (slot : Nat) (s : State) : Host.Outcome State Fault Refusal := .next (serveFn (· == 0x48) (fun _ x => colophonFn x) slot s)
/-- COLOPHON_TENANT. -/
def execColophonTenant (slot : Nat) (s : State) : Host.Outcome State Fault Refusal :=
  .next (serveFn (· == 0x49) (fun _ x => colophonTenantFn x) slot s)
/-- CERTIFICATES. -/
def execCertificates (slot : Nat) (s : State) : Host.Outcome State Fault Refusal :=
  .next (serveFn (· == 0x4A) (fun _ x => certificatesFn x) slot s)

/-- AUTH_OPEN. -/
def execAuthOpen (slot : Nat) (s : State) : Host.Outcome State Fault Refusal := .next (serveFn (· == 0x60) (fun _ x => authOpenFn x) slot s)
/-- AUTH_SIGN. -/
def execAuthSign (slot : Nat) (s : State) : Host.Outcome State Fault Refusal := .next (serveFn (· == 0x61) authSignFn slot s)
/-- AUTH_CARD_LOCAL. -/
def execAuthCardLocal (slot : Nat) (s : State) : Host.Outcome State Fault Refusal :=
  .next (serveFn (· == 0x62) (fun _ x => authCardLocalFn x) slot s)
/-- AUTH_QUERY. -/
def execAuthQuery (slot : Nat) (s : State) : Host.Outcome State Fault Refusal := .next (serveFn (· == 0x63) (fun _ x => authQueryFn x) slot s)
/-- AUTH_CLOSE. -/
def execAuthClose (slot : Nat) (s : State) : Host.Outcome State Fault Refusal := .next (serveFn (· == 0x64) (fun _ x => authCloseFn x) slot s)
/-- CARD_REGISTER. -/
def execCardRegister (slot : Nat) (s : State) : Host.Outcome State Fault Refusal := .next (serveFn (· == 0x65) cardRegisterFn slot s)
/-- CARD_REVOKE. -/
def execCardRevoke (slot : Nat) (s : State) : Host.Outcome State Fault Refusal := .next (serveFn (· == 0x66) cardRevokeFn slot s)
/-- QUORUM_SET. -/
def execQuorumSet (slot : Nat) (s : State) : Host.Outcome State Fault Refusal := .next (serveFn (· == 0x67) quorumSetFn slot s)
/-- MACSEC_CAK_SET. -/
def execMacsecCakSet (slot : Nat) (s : State) : Host.Outcome State Fault Refusal := .next (serveFn (· == 0x68) macsecCakSetFn slot s)
/-- KEY_ENTER. -/
def execKeyEnter (slot : Nat) (s : State) : Host.Outcome State Fault Refusal := .next (serveFn (· == 0x69) keyEnterFn slot s)

/-- LC_TRANSITION. -/
def execLcTransition (slot : Nat) (s : State) : Host.Outcome State Fault Refusal := .next (serveFn (· == 0x70) lcTransitionFn slot s)
/-- LC_DEBUG_CHALLENGE. -/
def execLcDebugChallenge (slot : Nat) (s : State) : Host.Outcome State Fault Refusal :=
  .next (serveFn (· == 0x71) (fun _ x => lcDebugChallengeFn x) slot s)
/-- LC_DEBUG_AUTH. -/
def execLcDebugAuth (slot : Nat) (s : State) : Host.Outcome State Fault Refusal := .next (serveFn (· == 0x72) lcDebugAuthFn slot s)
/-- LC_DEBUG_END. -/
def execLcDebugEnd (slot : Nat) (s : State) : Host.Outcome State Fault Refusal := .next (serveFn (· == 0x73) (fun _ x => lcDebugEndFn x) slot s)
/-- LC_IDENTITY. -/
def execLcIdentity (slot : Nat) (s : State) : Host.Outcome State Fault Refusal := .next (serveFn (· == 0x74) (fun _ x => lcIdentityFn x) slot s)
/-- LC_CERT_LOAD. -/
def execLcCertLoad (slot : Nat) (s : State) : Host.Outcome State Fault Refusal := .next (serveFn (· == 0x75) (fun _ x => lcCertLoadFn x) slot s)
/-- TMP_LATCH_CLEAR. -/
def execTmpLatchClear (slot : Nat) (s : State) : Host.Outcome State Fault Refusal := .next (serveFn (· == 0x80) tmpLatchClearFn slot s)
/-- RECOVERY_STATUS. -/
def execRecoveryStatus (slot : Nat) (s : State) : Host.Outcome State Fault Refusal :=
  .next (serveFn (· == 0x90) (fun _ x => recoveryStatusFn x) slot s)
/-- DEV_RESTART. -/
def execDevRestart (slot : Nat) (s : State) : Host.Outcome State Fault Refusal := .next (serveFn (· == 0x91) devRestartFn slot s)
/-- IMAGE_LOAD_BEGIN. -/
def execImageLoadBegin (slot : Nat) (s : State) : Host.Outcome State Fault Refusal :=
  .next (serveFn (· == 0x92) (fun _ x => imageLoadBeginFn x) slot s)
/-- IMAGE_LOAD_DATA. -/
def execImageLoadData (slot : Nat) (s : State) : Host.Outcome State Fault Refusal :=
  .next (serveFn (· == 0x93) (fun _ x => imageLoadDataFn x) slot s)
/-- IMAGE_LOAD_END. -/
def execImageLoadEnd (slot : Nat) (s : State) : Host.Outcome State Fault Refusal :=
  .next (serveFn (· == 0x94) (fun _ x => imageLoadEndFn x) slot s)

/-- PAIR_STAGE. -/
def execPairStage (slot : Nat) (s : State) : Host.Outcome State Fault Refusal := .next (serveFn (· == 0xA0) (fun _ x => pairStageFn x) slot s)
/-- PAIR_OFFER. -/
def execPairOffer (slot : Nat) (s : State) : Host.Outcome State Fault Refusal := .next (serveFn (· == 0xA1) pairOfferFn slot s)
/-- PAIR_ACCEPT. -/
def execPairAccept (slot : Nat) (s : State) : Host.Outcome State Fault Refusal := .next (serveFn (· == 0xA2) pairAcceptFn slot s)
/-- PAIR_CONFIRM. -/
def execPairConfirm (slot : Nat) (s : State) : Host.Outcome State Fault Refusal := .next (serveFn (· == 0xA3) pairConfirmFn slot s)
/-- PAIR_HANDOVER. -/
def execPairHandover (slot : Nat) (s : State) : Host.Outcome State Fault Refusal := .next (serveFn (· == 0xA4) pairHandoverFn slot s)
/-- PAIR_TAKEOVER. -/
def execPairTakeover (slot : Nat) (s : State) : Host.Outcome State Fault Refusal := .next (serveFn (· == 0xA5) pairTakeoverFn slot s)
/-- PAIR_LEAVE. -/
def execPairLeave (slot : Nat) (s : State) : Host.Outcome State Fault Refusal := .next (serveFn (· == 0xA6) pairLeaveFn slot s)
/-- JOURNAL_BATCH. -/
def execJournalBatch (slot : Nat) (s : State) : Host.Outcome State Fault Refusal :=
  .next (serveFn (· == 0xA8) (fun _ x => journalBatchFn x) slot s)
/-- HEARTBEAT. -/
def execHeartbeat (slot : Nat) (s : State) : Host.Outcome State Fault Refusal := .next (serveFn (· == 0xA9) (fun _ x => heartbeatFn x) slot s)
/-- SNAPSHOT. -/
def execSnapshot (slot : Nat) (s : State) : Host.Outcome State Fault Refusal := .next (serveFn (· == 0xAA) (fun _ x => snapshotFn x) slot s)
/-- REC_HEAD. -/
def execRecHead (slot : Nat) (s : State) : Host.Outcome State Fault Refusal := .next (serveFn (· == 0xB0) (fun _ x => recHeadFn x) slot s)
/-- REC_READ. -/
def execRecRead (slot : Nat) (s : State) : Host.Outcome State Fault Refusal := .next (serveFn (· == 0xB1) (fun _ x => recReadFn x) slot s)

end Sys2Proof.Machine
end

