-- ==== Sys2Proof/Machine/Faults.lean ====
section
/-! DEFINITION. Detected errors of units, their targeted tests, and the wake of a district (R116, R164, R218, R296, R326, R471 to
R477). -/

namespace Sys2Proof.Machine

/-! ### The work that a unit holds at the detection -/

/-- End the request of slot `k` with PROTECTION_FAULT (R218). -/
def faultRequest (s : State) (k : Nat) : State :=
  let x := s.slot k
  if x.live ∧ x.owed then accept (stopSlot s k) k stProtectionFault [] else s

/-- A core's ECC or parity error stops its task (R116, R164). -/
def errorOnCore (s : State) (core kind : Nat) : State :=
  match s.taskOf core with
  | none => s
  | some _ => stopCore s core (if kind = 1 then .ecc else .parity) (s.core core).pc noAddress

/-- An error of a big-number engine. `kind` 5: the invariant of its job has failed, as BN_JOB_COMPLETE then finds (R296). `kind` 1:
the job is stopped with the status that R296 gives an engine's error, and a background validation starts again (R302). -/
def errorOnBn (s : State) (e kind : Nat) : State :=
  match (s.engine e).owner with
  | none =>
    match (s.engine e).background with
    | some (_, b) => if kind = 1 then endBackground s e b else s
    | none => s
  | some (core, h) =>
    let x := s.bnHandle core h
    if x.state ≠ .running ∨ x.abortStatus.isSome then s
    else if kind = 5 then
      s.putBnHandle core h { x with outcome := some stInvariantFailed, need := x.iterations, refusedInput := false,
                                    invariant := invariantOf x.op }
    else abortJob s core h stInvariantFailed
where
  /-- Table 10.7. -/
  invariantOf (op : Nat) : Nat :=
    if 5 ≤ op ∧ op ≤ 7 then 1
    else if op = 0x10 ∨ op = 0x13 then 2
    else if op = 0x12 then 3
    else if op = 0x21 ∨ op = 0x22 then 4
    else if op = 0x29 then 5
    else 6

/-- The slot whose job a bulk engine runs. -/
def State.jobSlot (s : State) (e : Nat) : Option Nat :=
  (s.bulk.jobs.find? (fun j => j.running && j.engines.contains e)).map (·.slot)

/-- An error of a bulk engine or its DMA master: the job runs once more, or its request is answered; a request whose address
faulted is answered PROTECTION_FAULT (R218, R326). -/
def errorOnBk (s : State) (e kind : Nat) : State :=
  match s.jobSlot e with
  | none => s
  | some k =>
    if kind = 6 then faultRequest s k
    else
      let r := rerunJob s e
      match r.2 with
      | some j => accept (stopSlot r.1 j) j stDeadlineShed []
      | none => r.1

/-- The detected errors of each unit (Table 18.6): those that this command brings. -/
def detects (unit kind : Nat) : Bool :=
  if 0x80 ≤ unit ∧ unit ≤ 0xFF then kind == 1 || kind == 2
  else if 0x40 ≤ unit ∧ unit ≤ 0x7F then kind == 1 || kind == 5
  else if 0x2C ≤ unit ∧ unit ≤ 0x3B then kind == 1 || kind == 6 || kind == 7
  else if 0x08 ≤ unit ∧ unit ≤ 0x0B then kind == 1 || kind == 2
  else if 0x11 ≤ unit ∧ unit ≤ 0x1A then kind == 2 || kind == 6
  else false

/-- Stop what the unit works on; `req` is the request that a mover handled. -/
def stopWork (s : State) (unit kind : Nat) (req : Option Nat) : State :=
  if 0x80 ≤ unit ∧ unit ≤ 0xFF then errorOnCore s (unit - 0x80) kind
  else if 0x40 ≤ unit ∧ unit ≤ 0x7F then errorOnBn s (unit - 0x40) kind
  else if 0x2C ≤ unit ∧ unit ≤ 0x3B then errorOnBk s (unit - 0x2C) kind
  else if kind = 6 then
    match req with
    | some k => faultRequest s k
    | none => s
  else s

/-- The unit's test has begun: it is withdrawn, its district is up, and a big-number engine's handles are released (R471, R474). -/
def State.testing (s : State) (unit : Nat) : Bool :=
  decide (unit ∈ s.faults.withdrawn) &&
    (match unitDistrict unit with
     | some d => s.districtUp d
     | none => true) &&
    (if 0x40 ≤ unit ∧ unit ≤ 0x7F then (s.engine (unit - 0x40)).owner.isNone else true)

/-- The unit's test fails at `step`: quarantine at the next tick (R472). -/
def failTest (s : State) (unit step : Nat) : State :=
  let f := s.faults
  { s with faults := { f with toQuarantine := f.toQuarantine.filter (fun (p : Nat × Nat) => decide (p.1 ≠ unit)) ++ [(unit, 0)] } }.raise
    evTestFailed unit 0 (items [(1, step)])

/-- The unit's test passes: it counts again from the next tick (R118, R471). -/
def passTest (s : State) (unit : Nat) : State :=
  { s with faults := { s.faults with returning := s.faults.returning.filter (· ≠ unit) ++ [unit] } }.raise
    evTestPassed unit 0 (items [(8, s.folio.now)])

/-- A detected error of one unit. The invariant error of a job is counted when the job completes (R296); an error in a unit under
test fails the test (R474). -/
def errorOn (s : State) (unit kind : Nat) (req : Option Nat) : State :=
  let s1 := stopWork s unit kind req
  if kind = 5 then s1
  else
    let s2 := s1.unitError unit kind
    if s.testing unit then failTest s2 unit 0 else s2

/-- A corrected error of a unit: counted, and event 0xA7 at the 1,025th in a second (R164, Table 18.9). -/
def correctedError (s : State) (unit : Nat) : State :=
  let s1 := if 0x80 ≤ unit ∧ unit ≤ 0xFF then s.tcCnt (unit - 0x80) 6 1 else s
  let old := tabGet (0, 0) s1.faults.corrected unit
  let n := if old.1 = s1.second then old.2 + 1 else 1
  let s2 := { s1 with faults := { s1.faults with corrected := tabPut (0, 0) s1.faults.corrected unit (s1.second, n) } }
  if n = 1025 then s2.raise evEccCorrectedRate unit 0 (items [(4, n)]) else s2

/-- An uncorrectable error in a request-memory cell or a table entry of slot `k` (R473). -/
def requestMemoryError (s : State) (k cell : Nat) : State :=
  if ¬ (s.slot k).live then s
  else
    { s with faults := { s.faults with memErrors := s.faults.memErrors.filter (· ≠ k) ++ [k] } }.raise evRequestMemoryError
      srcSquare (s.slot k).tenant (items [(2, k), (4, cell)])

/-- DETECTED_ERROR. `unit`: a source code of Table 18.1; 0x100 + b core block b, whose eight cores are then in error; 0x1_0000 + k
request slot k, with the cell as `kind`. `kind`: in its low byte 0 for a corrected error, or the kind of event 0xA0; above it,
for a mover, one more than the slot of the request it handled. -/
def execDetectedError (unit kind : Nat) (s : State) : Host.Outcome State Fault Refusal :=
  let low := kind % 256
  let req := if 256 ≤ kind then some (kind / 256 - 1) else none
  if ¬ s.folioRuns then .next s
  else if 0x10000 ≤ unit then .next (requestMemoryError s (unit - 0x10000) kind)
  else if 0x100 ≤ unit then
    if unit < 0x110 ∧ (low = 1 ∨ low = 2) then
      .next ((List.range 8).foldl (fun s i => errorOn s (srcTc (8 * (unit - 0x100) + i)) low none) s)
    else .next s
  else if low = 0 then .next (correctedError s unit)
  else if detects unit low ∧ ¬ s.quarantined unit then .next (errorOn s unit low req)
  else .next s

/-- TARGETED_TEST_COMPLETE (R471, R472). -/
def execTargetedTestComplete (unit : Nat) (pass : Bool) (failStep : Nat) (s : State) : Host.Outcome State Fault Refusal :=
  if ¬ s.testing unit ∨ unit ∈ s.faults.returning ∨ s.faults.toQuarantine.any (fun (p : Nat × Nat) => p.1 == unit) then .next s
  else if pass then .next (passTest s unit)
  else .next (failTest s unit failStep)

/-- What the test of an OFF wake finds: the failing units, each with the step of its test, are quarantined; withdrawn units that
waited for their district pass (R472, R474, R477). -/
def wakeTest (s : State) (d : Nat) (failing : List (Nat × Nat)) : State :=
  let bad := failing.filter (fun (p : Nat × Nat) => (districtUnits d).contains p.1 && !s.quarantined p.1)
  let s1 := bad.foldl (fun s p => failTest s p.1 p.2) s
  let s2 := (s.faults.withdrawn.filter (fun u => (districtUnits d).contains u && !bad.any (fun p => p.1 == u))).foldl passTest s1
  if bad.isEmpty then s2
  else
    { s2 with pwr := { s2.pwr with counters := bump s2.pwr.counters 3 1 } }.raise evWakeTestFailed srcPower 0
      (items ((1, d) :: bad.map (fun (p : Nat × Nat) => ((1, p.1) : Nat × Nat))))

/-- DISTRICT_WAKE_COMPLETE (R110, R475, R477). Each number of `failing` is a unit's source code, with the failing step of its test
above the low byte. -/
def execDistrictWakeComplete (district : Nat) (failing : List Nat) (cycles : Nat) (s : State) : Host.Outcome State Fault Refusal :=
  let x := s.district district
  if ¬ x.waking then .next s
  else
    let s1 := (s.putDistrict district { x with state := .active, waking := false, late := false, busy := true }).raise
      evDistrictWake srcPower 0 (items [(1, district), (1, x.state.code), (4, cycles)])
    if x.state = .off then .next (wakeTest s1 district (failing.map (fun f => (f % 256, f / 256)))) else .next s1

end Sys2Proof.Machine
end

