-- ==== Sys2Proof/Machine/Graph.lean ====
section
/-! DEFINITION. Graph requests as one function (R147, R149): the Square gives the ready nodes of a slot to the cores of its block,
and the cores run their programs. -/

namespace Sys2Proof.Machine

/-- The next thing that a core does on its own: an access that is due, or the bundle at its pc; a satisfied wait ends, a budget
that has run out stops the task. -/
def advanceCore (s : State) (core : Nat) : Option State :=
  let c := s.core core
  let due := c.nextAccess.filter (fun x => decide (x.due < c.time ∨ c.stall ≠ .none))
  match due with
  | some x => some (performAccess s core x)
  | none =>
    if s.budgetOut core then
      match execBudgetExpiry core s with
      | .next t => some t
      | _ => none
    else
      match c.stall with
      | .none =>
        if ¬ s.coreRuns core then none
        else
          match issueBundle s core with
          | .next t => if t = s then (c.nextAccess).map (performAccess s core) else some t
          | _ => none
      | .waitf .. =>
        match execWaitfSatisfied core 0 s with
        | .next t => if t = s then none else some t
        | _ => none
      | _ => none

/-- One thing that happens to the nodes of slot `k`: a core that runs one of them goes on, or the Square gives a core the first
ready entry of the block, when it is one of them (R137, R138). -/
def graphAdvance (s : State) (k : Nat) : Option State :=
  match (s.coresOf k).findSome? (fun c => advanceCore s c) with
  | some t => some t
  | none =>
    let b := ((s.slot k).block).getD 0
    match s.readyFor b, s.taker b with
    | some e, some core => if e.slot = k then some (giveTask s core e) else none
    | _, _ => none

/-- Go on until the request has its commit point, or nothing of it can go on by itself. -/
def runGraph : Nat → State → Nat → State
  | 0, s, _ => s
  | n + 1, s, k =>
    if (s.slot k).commit.isSome ∨ ¬ (s.slot k).live then s
    else
      match graphAdvance s k with
      | some t => runGraph n t k
      | none => s

/-- The slot holds an admitted graph request. -/
def State.graphRuns (s : State) (k : Nat) : Bool :=
  isGraph (s.slot k).func && (s.slot k).wasAdmitted && (s.slot k).commit.isNone

/-- GRAPH_FUNCTION (R147): the node programs run under the one admission of the request. Its charge bounds the cycles of every
node, and so what the cores do: at most a bundle with its accesses in each. -/
def execGraphFunction (slot : Nat) (s : State) : Host.Outcome State Fault Refusal :=
  if s.graphRuns slot then .next (runGraph (16 * ((s.slot slot).cost.core + 4096)) s slot) else .next s

end Sys2Proof.Machine
end

