-- ==== Sys2Proof/Machine/Dispatch.lean ====
section
/-! DEFINITION. One arm for each command: the direct call of its meaning. -/

namespace Sys2Proof.Machine

def exec (i : Instr) (s : State) : Host.Outcome State Fault Refusal :=
  match i with
  | .startBegin env => Sys2Proof.Machine.execStartBegin env s
  | .startStepTimeout => Sys2Proof.Machine.execStartStepTimeout s
  | .acquireWaitEnd => Sys2Proof.Machine.execAcquireWaitEnd s
  | .internalRestart env => Sys2Proof.Machine.execInternalRestart env s
  | .resetAsserted pin => Sys2Proof.Machine.execResetAsserted pin s
  | .mainRailsRemoved => Sys2Proof.Machine.execMainRailsRemoved s
  | .mainRailsPresent => Sys2Proof.Machine.execMainRailsPresent s
  | .coverMeshPatrol diff0 diff1 diff2 diff3 => Sys2Proof.Machine.execCoverMeshPatrol diff0 diff1 diff2 diff3 s
  | .encMeshPatrol k diff => Sys2Proof.Machine.execEncMeshPatrol k diff s
  | .switchSample k high => Sys2Proof.Machine.execSwitchSample k high s
  | .vmonExcursion rail above => Sys2Proof.Machine.execVmonExcursion rail above s
  | .supplyGlitch which => Sys2Proof.Machine.execSupplyGlitch which s
  | .clockFreq which khz => Sys2Proof.Machine.execClockFreq which khz s
  | .clockGlitch which => Sys2Proof.Machine.execClockGlitch which s
  | .light detector present => Sys2Proof.Machine.execLight detector present s
  | .laser detector present => Sys2Proof.Machine.execLaser detector present s
  | .em detector present => Sys2Proof.Machine.execEm detector present s
  | .tempReading t0 t1 t2 t3 t4 => Sys2Proof.Machine.execTempReading t0 t1 t2 t3 t4 s
  | .crystalStop => Sys2Proof.Machine.execCrystalStop s
  | .tamperRecordWrite => Sys2Proof.Machine.execTamperRecordWrite s
  | .gutterFrameReceive toCompute count frame => Sys2Proof.Machine.execGutterFrameReceive toCompute count frame s
  | .tick => Sys2Proof.Machine.execTick s
  | .delayListRelease k => Sys2Proof.Machine.execDelayListRelease k s
  | .ptpSyncReceive lport m => Sys2Proof.Machine.execPtpSyncReceive lport m s
  | .ptpFollowUpReceive lport domain source seq t1 => Sys2Proof.Machine.execPtpFollowUpReceive lport domain source seq t1 s
  | .ptpDelayRespReceive lport domain source t3 t4 => Sys2Proof.Machine.execPtpDelayRespReceive lport domain source t3 t4 s
  | .ptpAnnounceReceive lport m => Sys2Proof.Machine.execPtpAnnounceReceive lport m s
  | .ppsInEdge t => Sys2Proof.Machine.execPpsInEdge t s
  | .syncHoldoverTimeout => Sys2Proof.Machine.execSyncHoldoverTimeout s
  | .linkUp lport speed => Sys2Proof.Machine.execLinkUp lport speed s
  | .linkDown lport => Sys2Proof.Machine.execLinkDown lport s
  | .frameReceive lport f => Sys2Proof.Machine.execFrameReceive lport f s
  | .mkaFrameReceive lport m => Sys2Proof.Machine.execMkaFrameReceive lport m s
  | .macsecPeerLost lport sci => Sys2Proof.Machine.execMacsecPeerLost lport sci s
  | .arpRequestReceive lport mac ip target => Sys2Proof.Machine.execArpRequestReceive lport mac ip target s
  | .neighbourSolicitationReceive lport mac ip target => Sys2Proof.Machine.execNeighbourSolicitationReceive lport mac ip target s
  | .neighbourEntryExpiry lport ip => Sys2Proof.Machine.execNeighbourEntryExpiry lport ip s
  | .icmpEchoReceive lport src data => Sys2Proof.Machine.execIcmpEchoReceive lport src data s
  | .hs1Receive lport => Sys2Proof.Machine.execHs1Receive lport s
  | .hs3Receive lport => Sys2Proof.Machine.execHs3Receive lport s
  | .reqDatagramReceive lport => Sys2Proof.Machine.execReqDatagramReceive lport s
  | .mgmtDatagramReceive lport => Sys2Proof.Machine.execMgmtDatagramReceive lport s
  | .bulkDatagramReceive lport => Sys2Proof.Machine.execBulkDatagramReceive lport s
  | .hs2Receive lport => Sys2Proof.Machine.execHs2Receive lport s
  | .handshakeTimeout chan => Sys2Proof.Machine.execHandshakeTimeout chan s
  | .channelIdleTimeout chan => Sys2Proof.Machine.execChannelIdleTimeout chan s
  | .repForm chan => Sys2Proof.Machine.execRepForm chan s
  | .replyFrameLeft lport => Sys2Proof.Machine.execReplyFrameLeft lport s
  | .taskGive block => Sys2Proof.Machine.execTaskGive block s
  | .bundleIssue core => Sys2Proof.Machine.execBundleIssue core s
  | .delayedAccessPerform core => Sys2Proof.Machine.execDelayedAccessPerform core s
  | .btestComplete core pass => Sys2Proof.Machine.execBtestComplete core pass s
  | .waitfSatisfied core cycles => Sys2Proof.Machine.execWaitfSatisfied core cycles s
  | .waitBoundExpiry core => Sys2Proof.Machine.execWaitBoundExpiry core s
  | .budgetExpiry core => Sys2Proof.Machine.execBudgetExpiry core s
  | .take core => Sys2Proof.Machine.execTake core s
  | .flagClr core value => Sys2Proof.Machine.execFlagClr core value s
  | .delay core value => Sys2Proof.Machine.execDelay core value s
  | .doneTask core value => Sys2Proof.Machine.execDoneTask core value s
  | .missPoint slot => Sys2Proof.Machine.execMissPoint slot s
  | .winSet core value => Sys2Proof.Machine.execWinSet core value s
  | .winClr core value => Sys2Proof.Machine.execWinClr core value s
  | .detectedError unit kind => Sys2Proof.Machine.execDetectedError unit kind s
  | .targetedTestComplete unit pass failStep => Sys2Proof.Machine.execTargetedTestComplete unit pass failStep s
  | .districtWakeComplete district failing cycles => Sys2Proof.Machine.execDistrictWakeComplete district failing cycles s
  | .klook core value => Sys2Proof.Machine.execKlook core value s
  | .kunwrap core value => Sys2Proof.Machine.execKunwrap core value s
  | .kdlook core value => Sys2Proof.Machine.execKdlook core value s
  | .kdstore core value => Sys2Proof.Machine.execKdstore core value s
  | .cadv core value => Sys2Proof.Machine.execCadv core value s
  | .krel core value => Sys2Proof.Machine.execKrel core value s
  | .keyRequestComplete core => Sys2Proof.Machine.execKeyRequestComplete core s
  | .unwrapComplete core => Sys2Proof.Machine.execUnwrapComplete core s
  | .maskRefreshStep => Sys2Proof.Machine.execMaskRefreshStep s
  | .keySramError resident unit => Sys2Proof.Machine.execKeySramError resident unit s
  | .residentReloadComplete unit => Sys2Proof.Machine.execResidentReloadComplete unit s
  | .vaultBatchWrite => Sys2Proof.Machine.execVaultBatchWrite s
  | .vaultOldBatchErase => Sys2Proof.Machine.execVaultOldBatchErase s
  | .bopen core handle value => Sys2Proof.Machine.execBopen core handle value s
  | .bptr core handle value => Sys2Proof.Machine.execBptr core handle value s
  | .bin core handle value => Sys2Proof.Machine.execBin core handle value s
  | .bout core handle => Sys2Proof.Machine.execBout core handle s
  | .bgo core handle value => Sys2Proof.Machine.execBgo core handle value s
  | .babort core handle => Sys2Proof.Machine.execBabort core handle s
  | .brel core handle => Sys2Proof.Machine.execBrel core handle s
  | .bnSliceEnd engine progress => Sys2Proof.Machine.execBnSliceEnd engine progress s
  | .rsaPub engine => Sys2Proof.Machine.execRsaPub engine s
  | .rsaPriv engine => Sys2Proof.Machine.execRsaPriv engine s
  | .mlKemKeygen engine => Sys2Proof.Machine.execMlKemKeygen engine s
  | .bnMlKemEncaps engine => Sys2Proof.Machine.execBnMlKemEncaps engine s
  | .bnMlKemDecaps engine => Sys2Proof.Machine.execBnMlKemDecaps engine s
  | .mlDsaKeygen engine => Sys2Proof.Machine.execMlDsaKeygen engine s
  | .bnMlDsaSign engine => Sys2Proof.Machine.execBnMlDsaSign engine s
  | .bnMlDsaVerify engine => Sys2Proof.Machine.execBnMlDsaVerify engine s
  | .ecdsaSign engine => Sys2Proof.Machine.execEcdsaSign engine s
  | .ecdsaVerify engine => Sys2Proof.Machine.execEcdsaVerify engine s
  | .ecdh engine => Sys2Proof.Machine.execEcdh engine s
  | .ecKeygen engine => Sys2Proof.Machine.execEcKeygen engine s
  | .ecPointCheck engine => Sys2Proof.Machine.execEcPointCheck engine s
  | .mlDsaIteration engine => Sys2Proof.Machine.execMlDsaIteration engine s
  | .bnJobComplete engine => Sys2Proof.Machine.execBnJobComplete engine s
  | .bankClearComplete engine bank => Sys2Proof.Machine.execBankClearComplete engine bank s
  | .curveValidationComplete engine => Sys2Proof.Machine.execCurveValidationComplete engine s
  | .bksub core value => Sys2Proof.Machine.execBksub core value s
  | .bulkSubmissionAnswer core => Sys2Proof.Machine.execBulkSubmissionAnswer core s
  | .bulkJobStart => Sys2Proof.Machine.execBulkJobStart s
  | .bulkJobComplete slot => Sys2Proof.Machine.execBulkJobComplete slot s
  | .rreq core value => Sys2Proof.Machine.execRreq core value s
  | .rten core value => Sys2Proof.Machine.execRten core value s
  | .randomDrawComplete core => Sys2Proof.Machine.execRandomDrawComplete core s
  | .sourceWindowEnd source samples => Sys2Proof.Machine.execSourceWindowEnd source samples s
  | .sourceTestFailure source test value => Sys2Proof.Machine.execSourceTestFailure source test value s
  | .sourceEstimate source ones sums => Sys2Proof.Machine.execSourceEstimate source ones sums s
  | .drbgScheduledReseed instance_ => Sys2Proof.Machine.execDrbgScheduledReseed instance_ s
  | .forcedReseedComplete cycles => Sys2Proof.Machine.execForcedReseedComplete cycles s
  | .tenantPoolFull => Sys2Proof.Machine.execTenantPoolFull s
  | .drbgInstanceError instance_ => Sys2Proof.Machine.execDrbgInstanceError instance_ s
  | .drbgInstanceReturn instance_ katOk => Sys2Proof.Machine.execDrbgInstanceReturn instance_ katOk s
  | .rngCtrlReseed chan => Sys2Proof.Machine.execRngCtrlReseed chan s
  | .rngRandomRead chan word => Sys2Proof.Machine.execRngRandomRead chan word s
  | .hiRegisterRead chan addr => Sys2Proof.Machine.execHiRegisterRead chan addr s
  | .pmcCtrlSnap => Sys2Proof.Machine.execPmcCtrlSnap s
  | .pmcSelWrite counter event => Sys2Proof.Machine.execPmcSelWrite counter event s
  | .mgmtRead slot => Sys2Proof.Machine.execMgmtRead slot s
  | .mgmtWrite slot => Sys2Proof.Machine.execMgmtWrite slot s
  | .mgmtCommit slot => Sys2Proof.Machine.execMgmtCommit slot s
  | .hsRespond slot => Sys2Proof.Machine.execHsRespond slot s
  | .hsFinish slot => Sys2Proof.Machine.execHsFinish slot s
  | .pinVerifyOffset slot => Sys2Proof.Machine.execPinVerifyOffset slot s
  | .pinTranslate slot => Sys2Proof.Machine.execPinTranslate slot s
  | .pinVerifyPvv slot => Sys2Proof.Machine.execPinVerifyPvv slot s
  | .pinOffsetGenerate slot => Sys2Proof.Machine.execPinOffsetGenerate slot s
  | .pvvGenerate slot => Sys2Proof.Machine.execPvvGenerate slot s
  | .macGenerate slot => Sys2Proof.Machine.execMacGenerate slot s
  | .macVerify slot => Sys2Proof.Machine.execMacVerify slot s
  | .macGenerateLong slot => Sys2Proof.Machine.execMacGenerateLong slot s
  | .macVerifyLong slot => Sys2Proof.Machine.execMacVerifyLong slot s
  | .cvvGenerate slot => Sys2Proof.Machine.execCvvGenerate slot s
  | .cvvVerify slot => Sys2Proof.Machine.execCvvVerify slot s
  | .arqcVerify slot => Sys2Proof.Machine.execArqcVerify slot s
  | .arqcVerifyArpc slot => Sys2Proof.Machine.execArqcVerifyArpc slot s
  | .smMac slot => Sys2Proof.Machine.execSmMac slot s
  | .smEncrypt slot => Sys2Proof.Machine.execSmEncrypt slot s
  | .smPinChange slot => Sys2Proof.Machine.execSmPinChange slot s
  | .arqcVerifyTracked slot => Sys2Proof.Machine.execArqcVerifyTracked slot s
  | .dukptMacVerify slot => Sys2Proof.Machine.execDukptMacVerify slot s
  | .dukptMacGenerate slot => Sys2Proof.Machine.execDukptMacGenerate slot s
  | .dukptPinTranslate slot => Sys2Proof.Machine.execDukptPinTranslate slot s
  | .dukptDataDecrypt slot => Sys2Proof.Machine.execDukptDataDecrypt slot s
  | .dukptDataEncrypt slot => Sys2Proof.Machine.execDukptDataEncrypt slot s
  | .dukptPinTranslateTracked slot => Sys2Proof.Machine.execDukptPinTranslateTracked slot s
  | .keyImport slot => Sys2Proof.Machine.execKeyImport slot s
  | .keyExport slot => Sys2Proof.Machine.execKeyExport slot s
  | .keyTranslate slot => Sys2Proof.Machine.execKeyTranslate slot s
  | .keyGenerate slot => Sys2Proof.Machine.execKeyGenerate slot s
  | .keyCheckValue slot => Sys2Proof.Machine.execKeyCheckValue slot s
  | .keyImportLarge slot => Sys2Proof.Machine.execKeyImportLarge slot s
  | .keyLoadResident slot => Sys2Proof.Machine.execKeyLoadResident slot s
  | .keyDeleteResident slot => Sys2Proof.Machine.execKeyDeleteResident slot s
  | .tr34Import slot => Sys2Proof.Machine.execTr34Import slot s
  | .tr34Export slot => Sys2Proof.Machine.execTr34Export slot s
  | .ecKeypairGenerate slot => Sys2Proof.Machine.execEcKeypairGenerate slot s
  | .mlKemKeypair slot => Sys2Proof.Machine.execMlKemKeypair slot s
  | .mlDsaKeypair slot => Sys2Proof.Machine.execMlDsaKeypair slot s
  | .rsaPrivate slot => Sys2Proof.Machine.execRsaPrivate slot s
  | .rsaPublic slot => Sys2Proof.Machine.execRsaPublic slot s
  | .ecdsaSignFunction slot => Sys2Proof.Machine.execEcdsaSignFunction slot s
  | .ecdsaVerifyFunction slot => Sys2Proof.Machine.execEcdsaVerifyFunction slot s
  | .ecdhFunction slot => Sys2Proof.Machine.execEcdhFunction slot s
  | .mlKemEncaps slot => Sys2Proof.Machine.execMlKemEncaps slot s
  | .mlKemDecaps slot => Sys2Proof.Machine.execMlKemDecaps slot s
  | .mlDsaSign slot => Sys2Proof.Machine.execMlDsaSign slot s
  | .mlDsaVerify slot => Sys2Proof.Machine.execMlDsaVerify slot s
  | .randomShort slot => Sys2Proof.Machine.execRandomShort slot s
  | .randomLong slot => Sys2Proof.Machine.execRandomLong slot s
  | .hash slot => Sys2Proof.Machine.execHash slot s
  | .ff1Encrypt slot => Sys2Proof.Machine.execFf1Encrypt slot s
  | .ff1Decrypt slot => Sys2Proof.Machine.execFf1Decrypt slot s
  | .graphFunction slot => Sys2Proof.Machine.execGraphFunction slot s
  | .streamOpen slot => Sys2Proof.Machine.execStreamOpen slot s
  | .streamSegment slot => Sys2Proof.Machine.execStreamSegment slot s
  | .streamFinal slot => Sys2Proof.Machine.execStreamFinal slot s
  | .streamAbort slot => Sys2Proof.Machine.execStreamAbort slot s
  | .streamSegmentTdes slot => Sys2Proof.Machine.execStreamSegmentTdes slot s
  | .streamFinalTdes slot => Sys2Proof.Machine.execStreamFinalTdes slot s
  | .smkRewrap slot => Sys2Proof.Machine.execSmkRewrap slot s
  | .smkCreate slot => Sys2Proof.Machine.execSmkCreate slot s
  | .smkRotateBegin slot => Sys2Proof.Machine.execSmkRotateBegin slot s
  | .smkRotateComplete slot => Sys2Proof.Machine.execSmkRotateComplete slot s
  | .smkRotateAbort slot => Sys2Proof.Machine.execSmkRotateAbort slot s
  | .smkInvalidate slot => Sys2Proof.Machine.execSmkInvalidate slot s
  | .counterCreate slot => Sys2Proof.Machine.execCounterCreate slot s
  | .clientKeySet slot => Sys2Proof.Machine.execClientKeySet slot s
  | .colophon slot => Sys2Proof.Machine.execColophon slot s
  | .colophonTenant slot => Sys2Proof.Machine.execColophonTenant slot s
  | .certificates slot => Sys2Proof.Machine.execCertificates slot s
  | .curveLoad slot => Sys2Proof.Machine.execCurveLoad slot s
  | .curveQuery slot => Sys2Proof.Machine.execCurveQuery slot s
  | .curveDelete slot => Sys2Proof.Machine.execCurveDelete slot s
  | .authOpen slot => Sys2Proof.Machine.execAuthOpen slot s
  | .authSign slot => Sys2Proof.Machine.execAuthSign slot s
  | .authCardLocal slot => Sys2Proof.Machine.execAuthCardLocal slot s
  | .authQuery slot => Sys2Proof.Machine.execAuthQuery slot s
  | .authClose slot => Sys2Proof.Machine.execAuthClose slot s
  | .cardRegister slot => Sys2Proof.Machine.execCardRegister slot s
  | .cardRevoke slot => Sys2Proof.Machine.execCardRevoke slot s
  | .quorumSet slot => Sys2Proof.Machine.execQuorumSet slot s
  | .macsecCakSet slot => Sys2Proof.Machine.execMacsecCakSet slot s
  | .keyEnter slot => Sys2Proof.Machine.execKeyEnter slot s
  | .sessionExpiry index => Sys2Proof.Machine.execSessionExpiry index s
  | .cardExchangeComplete iface serial sig cmsg => Sys2Proof.Machine.execCardExchangeComplete iface serial sig cmsg s
  | .cardExchangeTimeout iface lost => Sys2Proof.Machine.execCardExchangeTimeout iface lost s
  | .cardPresenceChange iface present classA => Sys2Proof.Machine.execCardPresenceChange iface present classA s
  | .cardValidityChange entry => Sys2Proof.Machine.execCardValidityChange entry s
  | .lcTransition slot => Sys2Proof.Machine.execLcTransition slot s
  | .lcTransitionExecute => Sys2Proof.Machine.execLcTransitionExecute s
  | .lcDebugChallenge slot => Sys2Proof.Machine.execLcDebugChallenge slot s
  | .lcDebugAuth slot => Sys2Proof.Machine.execLcDebugAuth slot s
  | .lcDebugEnd slot => Sys2Proof.Machine.execLcDebugEnd slot s
  | .lcIdentity slot => Sys2Proof.Machine.execLcIdentity slot s
  | .lcCertLoad slot => Sys2Proof.Machine.execLcCertLoad slot s
  | .lcMailbox function payload => Sys2Proof.Machine.execLcMailbox function payload s
  | .dbgAccess write space addr data => Sys2Proof.Machine.execDbgAccess write space addr data s
  | .extest => Sys2Proof.Machine.execExtest s
  | .samplePreload pins preload => Sys2Proof.Machine.execSamplePreload pins preload s
  | .idcode => Sys2Proof.Machine.execIdcode s
  | .clamp => Sys2Proof.Machine.execClamp s
  | .highz => Sys2Proof.Machine.execHighz s
  | .bypass => Sys2Proof.Machine.execBypass s
  | .tapReset => Sys2Proof.Machine.execTapReset s
  | .reportFrame => Sys2Proof.Machine.execReportFrame s
  | .tmpLatchClear slot => Sys2Proof.Machine.execTmpLatchClear slot s
  | .recoveryStatus slot => Sys2Proof.Machine.execRecoveryStatus slot s
  | .devRestart slot => Sys2Proof.Machine.execDevRestart slot s
  | .drainEnd => Sys2Proof.Machine.execDrainEnd s
  | .imageLoadBegin slot => Sys2Proof.Machine.execImageLoadBegin slot s
  | .imageLoadData slot => Sys2Proof.Machine.execImageLoadData slot s
  | .imageLoadEnd slot => Sys2Proof.Machine.execImageLoadEnd slot s
  | .imageWriteComplete error => Sys2Proof.Machine.execImageWriteComplete error s
  | .pairStage slot => Sys2Proof.Machine.execPairStage slot s
  | .pairOffer slot => Sys2Proof.Machine.execPairOffer slot s
  | .pairAccept slot => Sys2Proof.Machine.execPairAccept slot s
  | .pairConfirm slot => Sys2Proof.Machine.execPairConfirm slot s
  | .pairHandover slot => Sys2Proof.Machine.execPairHandover slot s
  | .pairTakeover slot => Sys2Proof.Machine.execPairTakeover slot s
  | .pairLeave slot => Sys2Proof.Machine.execPairLeave slot s
  | .journalBatch slot => Sys2Proof.Machine.execJournalBatch slot s
  | .heartbeat slot => Sys2Proof.Machine.execHeartbeat slot s
  | .snapshot slot => Sys2Proof.Machine.execSnapshot slot s
  | .journalAck lport => Sys2Proof.Machine.execJournalAck lport s
  | .heartbeatReply lport => Sys2Proof.Machine.execHeartbeatReply lport s
  | .selfFence => Sys2Proof.Machine.execSelfFence s
  | .takeoverSilence => Sys2Proof.Machine.execTakeoverSilence s
  | .memberDrop memberSlot => Sys2Proof.Machine.execMemberDrop memberSlot s
  | .vaultConsolidate => Sys2Proof.Machine.execVaultConsolidate s
  | .recHead slot => Sys2Proof.Machine.execRecHead slot s
  | .recRead slot => Sys2Proof.Machine.execRecRead slot s
  | .recordWrite sectorFails => Sys2Proof.Machine.execRecordWrite sectorFails s
  | .recTokenGain => Sys2Proof.Machine.execRecTokenGain s
  | .operatingSecond => Sys2Proof.Machine.execOperatingSecond s
  | .arpReplyReceive lport mac ip => Sys2Proof.Machine.execArpReplyReceive lport mac ip s
  | .neighbourAdvertisementReceive lport mac ip => Sys2Proof.Machine.execNeighbourAdvertisementReceive lport mac ip s
  | .dadComplete lport j => Sys2Proof.Machine.execDadComplete lport j s
  | .fecDegraded lport corrected uncorrected => Sys2Proof.Machine.execFecDegraded lport corrected uncorrected s
  | .counterWrapped counter => Sys2Proof.Machine.execCounterWrapped counter s
  | .vsecApplied => Sys2Proof.Machine.execVsecApplied s
  | .vidValid => Sys2Proof.Machine.execVidValid s
  | .readyRepReceive lport => Sys2Proof.Machine.execReadyRepReceive lport s

end Sys2Proof.Machine
end

