-- ==== Sys2Proof/Safety.lean ====
section
/-! DEFINITION. What counts as a safe state and a safe step, in the terms that the statements use. -/

namespace Sys2Proof.Machine

/-- No stripe of either life-cycle word is damaged: each has every bit at 1 that the pattern 0x96 has at 1, so that every
transition begun can be completed (R374, R380, R381). -/
def State.stripesWhole (s : State) : Prop :=
  ∀ k, k < 8 → stripeDamaged s.lc.word0 k = false ∧ stripeDamaged s.lc.word1 k = false

/-- The tables of the Square, the cores, the key store, the engines and the channels are in canonical form (log entry 2). -/
def State.canonical (s : State) : Bool :=
  tabWf {} s.ports && tabWf {} s.srp.channels && tabWf {} s.sq.slots && tabWf {} s.cores.core && tabWf {} s.cores.mpu &&
    tabWf {} s.ks.resident && tabWf {} s.bn.engines && tabWf {} s.bulk.streams && tabWf {} s.dual.sessions &&
    tabWf {} s.dual.cards && tabWf {} s.pwr.districts

/-- A step is safe: it answers a next state, or it is refused by the one name that the spec backs (log entry 3). -/
def safeStep (o : Host.Outcome State Fault Refusal) : Prop :=
  (∃ t, o = .next t) ∨ o = .refused .firmwareIoUndescribed

/-! ### Functions: from which state one computes, and what becomes of its outcome -/

/-- The task of slot `k` has entered its program on a core; otherwise a control core serves the request (R504). -/
def State.taskEntered (s : State) (k : Nat) : Bool := (s.coresOf k).any (fun c => (s.core c).entered)

/-- The request of slot `k`, of a code in `codes`, waits for its result, and its task or a control core computes it now. -/
def State.mayCompute (s : State) (k : Nat) (codes : Nat → Bool) : Prop :=
  (s.slot k).unanswered = true ∧ codes (s.slot k).func = true ∧ (s.taskEntered k = true ∨ s.ccMay k (s.slot k) = true)

/-- The state in which the function of slot `k` computes: a control core marks the request as running, and one that was not
admitted by a tick takes the folio in progress as its own. -/
def State.computing (s : State) (k : Nat) : State :=
  let x := s.slot k
  if s.taskEntered k then s
  else s.putSlot k (if x.wasAdmitted then { x with state := .running } else { x with state := .running, admitTick := s.folio.now })

/-- The request that the function of slot `k` computes. -/
def State.asked (s : State) (k : Nat) : Slot := (s.computing k).slot k

/-- What becomes of the outcome `r` of the function of slot `k` in `t`: its DONE will hand it over, or the control core's reply
goes to the sequencer at once. -/
def State.ended (s : State) (k : Nat) (r : FnRes) (t : State) : State :=
  if s.taskEntered k then
    t.modSlot k (fun y => { y with outcome := some { status := r.status, result := r.result }, effects := r.effects })
  else accept (t.modSlot k (fun z => { z with effects := r.effects })) k r.status r.result

/-- The rest `f` of a function runs in `t`, and its outcome goes where it has to. -/
def State.endedBy (s : State) (k : Nat) (f : Fn FnRes) (t : State) : State :=
  let r := runFnOn f t
  s.ended k r.1 r.2

/-- The step `f` of a function, in `s`, answers `a` and leaves `t`. -/
def Fn.gives {α : Type} (f : Fn α) (s : State) (a : α) (t : State) : Prop := (f.run.run s : Except Nat α × State) = (.ok a, t)

end Sys2Proof.Machine
end

