-- ==== Sys2Proof/Certificates/Slice0/Obligations.lean ====
section
/-! DEFINITION. The statements for the provers, each a Prop over the model. -/

open Sys2Proof Sys2Proof.Machine

/-- For every state s, command c and queue rest: the step of s with c in front of rest is the command's own effect on s with rest
waiting. With no command waiting the block idles: the step answers the state unchanged (the model's choice, log entry 4). The
order of commands is the model's interface (log entry 1); each command is one happening of the spec. (opcode_table.json.) -/
def Obligations.StepRunsTheFrontCommand : Prop :=
  (∀ (s : State) (c : Instr) (rest : List Instr), step { s with pending := c :: rest } = exec c { s with pending := rest }) ∧
  (∀ s : State, s.pending = [] → step s = .next s)

/-- In State.reset every core has all its general, block and unit registers, operand ports and output ports at zero (R161);
FOLIO_PERIOD reads 0x003E800A, FOLIO_SYNC 0x300, FOLIO_SLEW 0x1000, SRP_CFG 0x0200B8CE, SRP_TIMEOUTS 0x025803E8, ADM_ALLOW
0x31F, SQ_CFG 0x10000804, RNG_STATE 0xC, DC_CFG 0x1000FF08, DC_LIFE_MAX 0x0ABA9500, both life-cycle words read all ones,
PAIR_CFG 0x040A8000, REC_STATUS 0x100000, PMC_CFG 0x04000002, PWR_IDLE 0x10, PWR_TMAX 0x8000 and DEV_UNITS 0x04104080, on every
channel. Every life-cycle stripe is whole, every table is canonical, no slot, channel, district or session is in use, and no
command waits. Values that the spec does not give are the model's (log entry 10) and are not stated here. (R161, R27, R80,
R374.) -/
def Obligations.ResetState : Prop :=
  (∀ i : Nat, let c := State.reset.core i
    c.g = [] ∧ c.w = [] ∧ c.alu = {} ∧ c.lsu = {} ∧ c.iou = {} ∧ c.bitu = {} ∧ c.sym = {} ∧ c.hash = {} ∧ c.pin = {} ∧
      c.task = none) ∧
  (∀ chan : Nat, ∀ p ∈ ([(0x4C, 0x04104080), (0x10000, 0x003E800A), (0x1000C, 0x300), (0x10014, 0x1000), (0x30000, 0x0200B8CE),
      (0x30004, 0x025803E8), (0x40000, 0x31F), (0x50000, 0x10000804), (0x600000, 0xC), (0x700000, 0x1000FF08), (0x700008, 0x0ABA9500),
      (0x800004, 0xFFFFFFFF), (0x800008, 0xFFFFFFFF), (0x80000C, 0xFFFFFFFF), (0x800010, 0xFFFFFFFF), (0xB00008, 0x040A8000),
      (0xC00000, 0x100000), (0xD00000, 0x04000002), (0xE00200, 0x10), (0xE00208, 0x8000)] : List (Nat × Nat)),
    regRead State.reset chan p.1 = (p.2, State.reset)) ∧
  State.reset.stripesWhole ∧ State.reset.canonical = true ∧ State.reset.pending = [] ∧
  (∀ k, (State.reset.slot k).state = .free ∧ (State.reset.chan k).state = .free ∧ (State.reset.session k).state = .free ∧
    (State.reset.district k).state = .active)

/-- For every state in which no stripe of either copy of the life-cycle word is damaged (has a bit at 0 where the pattern 0x96 has
1, R381), every next state that a step answers, whatever the command, is such a state too: programming turns bits from 1 to 0
only where the pattern has 0, so a transition begun can always be completed (R374, R380). That State.reset is such a state is
part of ResetState. The spec states the effect of programming; that it holds of every command is the model's inference from it.
(R374, R380, R381.) -/
def Obligations.LifeCycleStripesStayWhole : Prop :=
  ∀ s t : State, s.stripesWhole → step s = .next t → t.stripesWhole

/-- For every state the step answers a next state, or, where a bundle or access of a control or security core reaches the I/O space
that R151 calls internal to firmware and does not describe, the refusal of that name; it never faults, and no command is
rejected as not modelled. That what the manual calls a fault is an effect on the state and no stop of the machine is the model's
choice (log entry 3). (R151.) -/
def Obligations.EveryStepIsSafe : Prop :=
  ∀ s : State, safeStep (step s)

/-- For every state and slot whose request of code 0x0101 or 0x0104 may be computed now: where the payload has the layout of Table
8.5 with its fields in range, the PAN is valid, KV1 resolves to a TDES key of usage V1 and KPIN to a PIN key of the format, and
DTAB holds every decimal digit, the command answers a next state. PIN_VERIFY_OFFSET ends with OK where the customer's PIN, cut
to CHKLEN digits, is the natural PIN (the decimalised TDES encryption of VALDATA) plus OFFSET digit by digit modulo 10, and with
VERIFY_FAILED otherwise; PIN_OFFSET_GENERATE ends with the offset digits that make it so, padded with 0xF; both end with
PIN_BLOCK_INVALID where the block does not open and PIN_LENGTH where its PIN is outside LMIN..LMAX or shorter than CHKLEN. The
roles, the format checks and the padding of the reply are the model's reading of Tables 8.2 to 8.6. (R225, R226, R227, R231,
R233.) -/
def Obligations.PinOffsetFunctions : Prop :=
  ∀ (s : State) (k : Nat) (pan : List Nat) (kv kp : Handle) (s1 s2 : State),
    let x := s.asked k
    let p := x.payload
    let fmt := fld p 20 1
    let n := fld p 23 1
    let t := nibbles (slice p 52 8)
    let off := nibbles (slice p 68 6)
    let natural := ((nibbles (tdesEnc kv.key (slice p 60 8))).map (fun h => t.getD h 0)).take n
    let opened := fun (f : List Nat → FnRes) => match openPin kp.key fmt pan (slice p 36 16) with
      | none => ({ status := stPinBlockInvalid } : FnRes)
      | some pin =>
        if fld p 21 1 ≤ pin.length ∧ pin.length ≤ fld p 22 1 ∧ n ≤ pin.length then f (pin.take n) else { status := stPinLength }
    fmtOk fmt = true → lensOk (fld p 21 1) (fld p 22 1) = true → 4 ≤ n → n ≤ 12 → pinblkOk p 36 fmt = true →
    (Fn.pan p 24).gives (s.computing k) pan (s.computing k) →
    decimal t = true → (∀ d, d < 10 → t.contains d = true) →
    (s.mayCompute k (· == 0x0101) → payloadOk p 74 [(25, 1)] [4, 12] = true → offsetOk n off = true →
      (Fn.resolveRole x 4 { usages := [uV1], modes := [mC, mV], algs := [1, 2] }).gives (s.computing k) kv s1 →
      (Fn.resolveRole x 12 (pinIn fmt)).gives s1 kp s2 →
      exec (.pinVerifyOffset k) s = .next (s.ended k (opened (fun pin =>
        if pin = List.zipWith (fun a b => (a + b) % 10) natural off then {} else { status := stVerifyFailed })) s2)) ∧
    (s.mayCompute k (· == 0x0104) → payloadOk p 68 [(25, 1)] [4, 12] = true →
      (Fn.resolveRole x 4 { usages := [uV1], modes := [mC, mG], algs := [1, 2] }).gives (s.computing k) kv s1 →
      (Fn.resolveRole x 12 (pinIn fmt)).gives s1 kp s2 →
      exec (.pinOffsetGenerate k) s = .next (s.ended k (opened (fun pin =>
        let ds := List.zipWith (fun a b => (a + 10 - b) % 10) pin natural
        { result := packNibbles (ds ++ List.replicate (12 - ds.length) 15) ++ zeros 2 })) s2))

/-- For every state and slot whose request may be computed now, with fields in range, a valid PAN and resolving keys, the three
commands answer a next state. PIN_VERIFY_PVV ends with OK or VERIFY_FAILED as the four digits extracted from the encryption of
the transformed security parameter (the 11 account digits, PVKI and the first four PIN digits) equal the PVV given or not;
PVV_GENERATE ends with those digits; PIN_TRANSLATE, where the pair of formats is permitted and the fill of the outgoing format
is drawn, ends with the same PIN sealed in the outgoing format under the outgoing key. All three end with PIN_BLOCK_INVALID or
PIN_LENGTH where the incoming block does not open or its PIN is outside LMIN..LMAX. (R225, R226, R227, R231, R232, R234.) -/
def Obligations.PvvAndTranslateFunctions : Prop :=
  ∀ (s : State) (k : Nat) (pan : List Nat) (kv kp : Handle) (s1 s2 : State),
    let x := s.asked k
    let p := x.payload
    let fmt := fld p 20 1
    (Fn.pan p 24).gives (s.computing k) pan (s.computing k) →
    (let pvki := fld p 23 1
     let account := pan.dropLast
     let opened := fun (f : List Nat → FnRes) => match openPin kp.key fmt pan (slice p 36 16) with
       | none => ({ status := stPinBlockInvalid } : FnRes)
       | some pin => if fld p 21 1 ≤ pin.length ∧ pin.length ≤ fld p 22 1 then f pin else { status := stPinLength }
     let pvv := fun (pin : List Nat) =>
       (extractDigits (nibbles (tdesEnc kv.key (packNibbles (account.drop (account.length - 11) ++ [pvki] ++ pin.take 4))))).take 4
     fmtOk fmt = true → lensOk (fld p 21 1) (fld p 22 1) = true → pvki ≤ 6 → pinblkOk p 36 fmt = true →
     (s.mayCompute k (· == 0x0103) → payloadOk p 54 [(25, 1)] [4, 12] = true → decimal (nibbles (slice p 52 2)) = true →
       (Fn.resolveRole x 4 { usages := [uV2], modes := [mC, mV], algs := [1] }).gives (s.computing k) kv s1 →
       (Fn.resolveRole x 12 (pinIn fmt)).gives s1 kp s2 →
       exec (.pinVerifyPvv k) s = .next (s.ended k (opened (fun pin =>
         if pvv pin = nibbles (slice p 52 2) then {} else { status := stVerifyFailed })) s2)) ∧
     (s.mayCompute k (· == 0x0105) → payloadOk p 52 [(25, 1)] [4, 12] = true →
       (Fn.resolveRole x 4 { usages := [uV2], modes := [mC, mG], algs := [1] }).gives (s.computing k) kv s1 →
       (Fn.resolveRole x 12 (pinIn fmt)).gives s1 kp s2 →
       exec (.pvvGenerate k) s = .next (s.ended k (opened (fun pin => { result := packNibbles (pvv pin) ++ zeros 6 })) s2))) ∧
    (∀ (fill : Bytes) (s3 : State),
      let fout := fld p 21 1
      s.mayCompute k (· == 0x0102) → payloadOk p 52 [(25, 1)] [4, 12] = true → fmtOk fmt = true → fmtOk fout = true →
      lensOk (fld p 22 1) (fld p 23 1) = true → pinblkOk p 36 fmt = true →
      (Fn.resolveRole x 4 (pinIn fmt)).gives (s.computing k) kv s1 → (Fn.resolveRole x 12 (pinOut fout)).gives s1 kp s2 →
      s2.translates x.tenant fmt fout = true → (Fn.fill fout).gives s2 fill s3 →
      exec (.pinTranslate k) s = .next (s.ended k (match openPin kv.key fmt pan (slice p 36 16) with
        | none => { status := stPinBlockInvalid }
        | some pin => if fld p 22 1 ≤ pin.length ∧ pin.length ≤ fld p 23 1 then { result := sealPin kp.key fout pan pin fill }
          else { status := stPinLength }) s3))

/-- For every state and slot whose request may be computed now, with the layout and fields in range and a key that fits ALG,
MAC_GENERATE (DLEN to 384) and MAC_GENERATE_LONG (to 8,064) end with the first MACLEN bytes of the MAC of ALG over the data, and
MAC_VERIFY and MAC_VERIFY_LONG with OK where that prefix is the MAC given and VERIFY_FAILED otherwise; CVV_GENERATE ends with
the three digits extracted from the TDES computation over PAN, expiry date and service code, and CVV_VERIFY with OK or
VERIFY_FAILED as they equal the value given. VARIANT 1 takes the service code 999, and VARIANT 2 the four rightmost decimal
digits of the ATC in place of the date. (R225, R226, R227, R235.) -/
def Obligations.MacAndCvvFunctions : Prop :=
  ∀ (s : State) (k : Nat) (h : Handle) (s1 : State),
    let x := s.asked k
    let p := x.payload
    (let alg := fld p 12 1
     let pad := fld p 13 1
     let len := fld p 14 1
     macFieldsOk alg pad len = true →
     (∀ (n : Nat), n = fld p 16 2 → payloadOk p (18 + n) [(15, 1)] [4] = true →
       (Fn.resolve x 4 (macKeyOk alg [mC, mG])).gives (s.computing k) h s1 →
       let made := s.ended k { result := (macOf alg pad h.key (slice p 18 n)).take len } s1
       (s.mayCompute k (· == 0x0201) → n ≤ 384 → exec (.macGenerate k) s = .next made) ∧
       (s.mayCompute k (· == 0x0203) → n ≤ 8064 → exec (.macGenerateLong k) s = .next made)) ∧
     (∀ (n : Nat), n = fld p 48 2 → payloadOk p (50 + n) [(15, 1)] [4] = true →
       (Fn.resolve x 4 (macKeyOk alg [mC, mV])).gives (s.computing k) h s1 →
       let m := (macOf alg pad h.key (slice p 50 n)).take len
       let checked := s.ended k (if m = slice p 16 m.length then {} else { status := stVerifyFailed }) s1
       (s.mayCompute k (· == 0x0202) → n ≤ 384 → exec (.macVerify k) s = .next checked) ∧
       (s.mayCompute k (· == 0x0204) → n ≤ 8064 → exec (.macVerifyLong k) s = .next checked))) ∧
    (∀ (pan : List Nat),
      let v := fld p 12 1
      let expiry := nibbles (slice p 26 2)
      let service := nibbles (slice p 28 2)
      let given := nibbles (slice p 32 2)
      let ds := pan ++ (if v = 2 then decDigits 4 (fld p 30 2) else expiry) ++ (if v = 1 then [9, 9, 9] else service.drop 1)
      let b := packNibbles (ds ++ List.replicate (32 - ds.length) 0)
      let a := h.key.take 8
      let y := desEnc a (xorBytes (desEnc a (b.take 8)) (b.drop 8))
      let cvv := 0 :: (extractDigits (nibbles (desEnc a (desDec (slice h.key 8 8) y)))).take 3
      v ≤ 2 → decimal expiry = true → decimal service = true → service.take 1 = [0] →
      (Fn.pan p 14).gives (s.computing k) pan (s.computing k) →
      (s.mayCompute k (· == 0x0301) → payloadOk p 32 [(13, 1), (15, 1)] [4] = true →
        (Fn.resolveRole x 4 { usages := [uC0], modes := [mC, mG], algs := [1] }).gives (s.computing k) h s1 →
        exec (.cvvGenerate k) s = .next (s.ended k { result := packNibbles cvv ++ zeros 6 } s1)) ∧
      (s.mayCompute k (· == 0x0302) → payloadOk p 34 [(13, 1), (15, 1)] [4] = true → decimal given = true → given.take 1 = [0] →
        (Fn.resolveRole x 4 { usages := [uC0], modes := [mC, mV], algs := [1] }).gives (s.computing k) h s1 →
        exec (.cvvVerify k) s = .next (s.ended k (if cvv = given then {} else { status := stVerifyFailed }) s1)))

/-- For every state and slot whose request may be computed now, with layout and fields in range, a valid PAN and a resolving issuer
master key: ARQC_VERIFY, ARQC_VERIFY_ARPC and ARQC_VERIFY_TRACKED end with VERIFY_FAILED where the cryptogram differs from the
MAC of the data under the session key derived from card master key and ATC; where it agrees, the first ends with OK, the second
with the ARPC, and the third advances the named counter record by the ATC first, ending with the record's status where the
advance is refused and otherwise with the ARPC and the claim noted in its slot; SM_MAC ends with the first MACLEN bytes of the
MAC, zero to 16 bytes; SM_ENCRYPT with the CBC encryption of the padded data; SM_PIN_CHANGE with the PIN as a format 2 block
under the session key, or PIN_BLOCK_INVALID or PIN_LENGTH. The AES master key, the F0/0F forms and the second half of an AES
EPIN block are the model's (log entry 13). (R225, R226, R227, R236, R238.) -/
def Obligations.EmvFunctions : Prop :=
  ∀ (s : State) (k : Nat) (pan : List Nat) (h : Handle) (s1 : State),
    let x := s.asked k
    let p := x.payload
    (let scheme := fld p 12 1
     let master := emvMaster scheme h.key pan (fld p 13 1)
     scheme ≤ 1 → (Fn.pan p 16).gives (s.computing k) pan (s.computing k) →
     (let sk := emvSession scheme master (slice p 14 2)
      let judge := fun (off n : Nat) (o : Host.Outcome State Fault Refusal) =>
        if emvMac scheme sk (slice p off n) = slice p 28 8 then o else .next (s.ended k { status := stVerifyFailed } s1)
      (Fn.resolveRole x 4 (emvRole uE0 scheme)).gives (s.computing k) h s1 →
      (∀ n, s.mayCompute k (· == 0x0401) → n = fld p 36 2 → n ≤ 256 → payloadOk p (38 + n) [] [4] = true →
        exec (.arqcVerify k) s = judge 38 n (.next (s.ended k {} s1))) ∧
      (∀ n, s.mayCompute k (· == 0x0402) → n = fld p 56 2 → n ≤ 256 → payloadOk p (58 + n) arpcReserved [4] = true →
        arpcFieldsOk p = true → exec (.arqcVerifyArpc k) s = judge 58 n (.next (s.ended k { result := arpcOf p sk } s1))) ∧
      (∀ n, s.mayCompute k (· == 0x0410) → n = fld p 60 2 → n ≤ 256 → payloadOk p (62 + n) arpcReserved [4] = true →
        arpcFieldsOk p = true →
        let unit := fld p 56 4
        let a := advance s1 x.tenant x.admitTick x.req unit (fld p 14 2) (fld p 13 1) pan.length (slice p 18 10)
        exec (.arqcVerifyTracked k) s = judge 62 n (.next (
          if a.1 = stOk then
            s.ended k { result := arpcOf p sk } (a.2.modSlot k (fun y => { y with claims := y.claims ++ [(unit, fld p 14 2)] }))
          else s.ended k { status := a.1 } a.2)))) ∧
     (let sk := emvSession scheme master (slice p 28 8)
      ∀ n, n = fld p 36 2 → n ≤ 1024 →
      (s.mayCompute k (· == 0x0403) → payloadOk p (38 + n) [(15, 1)] [4] = true → 4 ≤ fld p 14 1 → fld p 14 1 ≤ 8 →
        (Fn.resolveRole x 4 (emvRole uE2 scheme)).gives (s.computing k) h s1 →
        exec (.smMac k) s = .next (s.ended k { result := padTo 16 ((emvMac scheme sk (slice p 38 n)).take (fld p 14 1)) } s1)) ∧
      (s.mayCompute k (· == 0x0404) → payloadOk p (38 + n) [(14, 2)] [4] = true →
        (Fn.resolveRole x 4 (emvRole uE1 scheme)).gives (s.computing k) h s1 →
        let c := emvCipher scheme sk
        let e := cbcEnc c (zeros c.size) (isoPad 2 c.size (slice p 38 n))
        exec (.smEncrypt k) s = .next (s.ended k { result := beBytes 2 e.length ++ zeros 6 ++ e } s1)))) ∧
    (∀ (kp : Handle) (s2 : State),
      let scheme := fld p 20 1
      let fmt := fld p 22 1
      let sk := emvSession scheme (emvMaster scheme h.key pan (fld p 21 1)) (slice p 40 8)
      s.mayCompute k (· == 0x0405) → payloadOk p 64 [(25, 3)] [4, 12] = true → scheme ≤ 1 → fmtOk fmt = true →
      lensOk (fld p 23 1) (fld p 24 1) = true → pinblkOk p 48 fmt = true →
      (Fn.pan p 28).gives (s.computing k) pan (s.computing k) →
      (Fn.resolveRole x 4 (emvRole uE1 scheme)).gives (s.computing k) h s1 → (Fn.resolveRole x 12 (pinIn fmt)).gives s1 kp s2 →
      exec (.smPinChange k) s = .next (s.ended k (match openPin kp.key fmt pan (slice p 48 16) with
        | none => { status := stPinBlockInvalid }
        | some pin =>
          if fld p 23 1 ≤ pin.length ∧ pin.length ≤ fld p 24 1 then
            let b := beBytes 8 (clearBlock 2 pin (fun _ => 15))
            { result := if scheme = 0 then padTo 16 (tdesEnc sk b) else aesEnc sk (b ++ bytes64 Config.format2Tail) }
          else { status := stPinLength }) s2))

/-- For every state and slot whose request may be computed now, with layout and fields in range, a resolving base derivation key,
WKLEN and KSN within the key kind's limits and a counter within its limits, so that the working key d of the function's purpose
is derived: DUKPT_MAC_VERIFY ends with OK or VERIFY_FAILED as the MAC given is the first MACLEN bytes of the MAC under d
(AES-CMAC, or MAC algorithm 3 for TDES) or not; DUKPT_MAC_GENERATE ends with those bytes; DUKPT_DATA_DECRYPT and
DUKPT_DATA_ENCRYPT end with the CBC decryption and encryption of the data under d; DUKPT_PIN_TRANSLATE and
DUKPT_PIN_TRANSLATE_TRACKED end with the PIN resealed under the outgoing key, the second after advancing its counter record by
the KSN's counter (the record's status where it is refused), and with PIN_BLOCK_INVALID or PIN_LENGTH where the incoming block
does not give a PIN of an accepted length. The derivation data are those of the standards the spec names (log entry 13). (R225,
R226, R227, R231, R232, R237, R238.) -/
def Obligations.DukptFunctions : Prop :=
  ∀ (s : State) (k : Nat) (h : Handle) (s1 : State) (d : Dukpt),
    let x := s.asked k
    let p := x.payload
    (let wk := fld p 24 1
     (Fn.resolveRole x 4 bdkRole).gives (s.computing k) h s1 → wk ≤ 2 → wklenOk h wk (slice p 12 12) = true →
     (let len := fld p 26 1
      let mac := fun (data : Bytes) => (if d.aes then cmac (aesCipher d.key) data else mac3 d.key (isoPad 1 8 data)).take len
      4 ≤ len → len ≤ 16 → (3 ≤ h.attr.alg ∨ len ≤ 8) →
      (∀ n, s.mayCompute k (· == 0x0501) → n = fld p 44 2 → n ≤ 384 → payloadOk p (46 + n) [(25, 1), (27, 1)] [4] = true →
        (Fn.dukpt h wk (slice p 12 12) .macRequest).gives s1 d s1 →
        let m := mac (slice p 46 n)
        exec (.dukptMacVerify k) s = .next (s.ended k (if m = slice p 28 m.length then {} else { status := stVerifyFailed }) s1)) ∧
      (∀ n, s.mayCompute k (· == 0x0502) → n = fld p 28 2 → n ≤ 384 → payloadOk p (30 + n) [(25, 1), (27, 1)] [4] = true →
        (Fn.dukpt h wk (slice p 12 12) .macResponse).gives s1 d s1 →
        exec (.dukptMacGenerate k) s = .next (s.ended k { result := mac (slice p 30 n) } s1))) ∧
     (∀ n, n = fld p 44 2 → payloadOk p (46 + n) [(25, 3)] [4] = true → 16 ≤ n → n ≤ 1024 → n % 8 = 0 →
      (h.attr.alg < 3 ∨ n % 16 = 0) →
      let c := if d.aes then aesCipher d.key else tdesCipher d.key
      let answer := fun (out : Bytes) => s.ended k { result := beBytes 2 out.length ++ zeros 6 ++ out } s1
      (s.mayCompute k (· == 0x0504) → (Fn.dukpt h wk (slice p 12 12) .dataRequest).gives s1 d s1 →
        exec (.dukptDataDecrypt k) s = .next (answer (cbcDec c (slice p 28 c.size) (slice p 46 n)))) ∧
      (s.mayCompute k (· == 0x0505) → (Fn.dukpt h wk (slice p 12 12) .dataResponse).gives s1 d s1 →
        exec (.dukptDataEncrypt k) s = .next (answer (cbcEnc c (slice p 28 c.size) (slice p 46 n)))))) ∧
    (∀ (pan : List Nat) (ko : Handle) (s2 : State) (fill : Bytes) (s3 : State),
      let wk := fld p 32 1
      let fin := fld p 33 1
      let fout := fld p 34 1
      let opened := fun (f : Bytes → State) => match openPin d.key fin pan (slice p 52 16) with
        | none => s.ended k { status := stPinBlockInvalid } s3
        | some pin =>
          if fld p 35 1 ≤ pin.length ∧ pin.length ≤ fld p 36 1 then f (sealPin ko.key fout pan pin fill)
          else s.ended k { status := stPinLength } s3
      wk ≤ 2 → fmtOk fin = true → fmtOk fout = true → lensOk (fld p 35 1) (fld p 36 1) = true → pinblkOk p 52 fin = true →
      (Fn.pan p 40).gives (s.computing k) pan (s.computing k) → (Fn.resolveRole x 4 bdkRole).gives (s.computing k) h s1 →
      (Fn.resolveRole x 12 (pinOut fout)).gives s1 ko s2 → wklenOk h wk (slice p 20 12) = true → (fin = 4 ↔ 3 ≤ h.attr.alg) →
      s2.translates x.tenant fin fout = true → (Fn.dukpt h wk (slice p 20 12) .pin).gives s2 d s2 → (Fn.fill fout).gives s2 fill s3 →
      (s.mayCompute k (· == 0x0503) → payloadOk p 68 [(37, 3)] [4, 12] = true →
        exec (.dukptPinTranslate k) s = .next (opened (fun b => s.ended k { result := b } s3))) ∧
      (s.mayCompute k (· == 0x0510) → payloadOk p 72 [(37, 3)] [4, 12] = true →
        let unit := fld p 68 4
        let a := advance s3 x.tenant x.admitTick x.req unit d.counter 0 0 d.id
        exec (.dukptPinTranslateTracked k) s = .next (opened (fun b =>
          if a.1 = stOk then
            s.ended k { result := b } (a.2.modSlot k (fun y => { y with claims := y.claims ++ [(unit, d.counter)] }))
          else s.ended k { status := a.1 } a.2))))

/-- For every state and slot whose request may be computed now, with the layout and fields in range and key-encryption keys that
resolve: KEY_IMPORT and KEY_IMPORT_LARGE (incoming blocks to 248 and 4,000 bytes) answer with the outcome of reading the
incoming block under KEK and wrapping its key under the generation of the SMK slot that new blocks use; KEY_EXPORT, for a key
that may leave under KEK, not stronger than it and of a format that fits, with the key wrapped under KEK; KEY_TRANSLATE with the
outcome of reading the block under the incoming key, checking exportability and strength against the outgoing key, and wrapping
it under that; KEY_GENERATE, with and without a key-encryption key, with a fresh key of the named algorithm wrapped under the
SMK and, where named, under KEK; KEY_CHECK_VALUE with the key's check value and two zero bytes. The order of the checks is the
model's reading (log entry 13). (R226, R227, R228, R239, R272.) -/
def Obligations.KeyBlockFunctions : Prop :=
  ∀ (s : State) (k : Nat) (h : Handle) (s1 : State),
    let x := s.asked k
    let p := x.payload
    (∀ (g : SmkGen),
      let format := fld p 13 1
      let n := fld p 16 2
      payloadOk p (18 + n) [(14, 2)] [4] = true → fld p 12 1 ≤ 7 → format ≤ 2 → format ≠ 0 →
      (Fn.resolveRole x 4 (kekRole [mD, mB])).gives (s.computing k) h s1 → (Fn.producing x (fld p 12 1)).gives s1 g s1 →
      incomingOk h (slice p 18 n) = true →
      (s.mayCompute k (· == 0x0601) → n ≤ 248 → exec (.keyImport k) s = .next (s.endedBy k (do
        let r ← Fn.incoming h (slice p 18 n)
        Fn.done (← Fn.wrapSmk g format r.1 r.2 248)) s1)) ∧
      (s.mayCompute k (· == 0x0606) → n ≤ 4000 → exec (.keyImportLarge k) s = .next (s.endedBy k (do
        let r ← Fn.incoming h (slice p 18 n)
        Fn.done (← Fn.wrapSmk g format r.1 r.2 4088)) s1))) ∧
    (∀ (key : Handle) (s2 : State),
      let format := fld p 20 1
      s.mayCompute k (· == 0x0602) → payloadOk p 24 [(21, 3)] [4, 12] = true → format ≤ 2 →
      (Fn.resolveRole x 4 (kekRole [mE, mB])).gives (s.computing k) h s1 → (Fn.resolve x 12 (fun _ => true)).gives s1 key s2 →
      exportOk key.attr h = true → strengthOf key.attr key.key ≤ strengthOf h.attr h.key → formatFits format h.attr.alg = true →
      (format = 0 → key.attr.alg ≤ 2) →
      exec (.keyExport k) s = .next (s.endedBy k (do Fn.done (← Fn.wrap h.key format key.attr key.key none 248)) s2)) ∧
    (∀ (ho : Handle) (s2 : State),
      let format := fld p 20 1
      let n := fld p 24 2
      s.mayCompute k (· == 0x0603) → payloadOk p (26 + n) [(21, 3)] [4, 12] = true → format ≤ 2 → n ≤ 248 →
      (Fn.resolveRole x 4 (kekRole [mD, mB])).gives (s.computing k) h s1 →
      (Fn.resolveRole x 12 (kekRole [mE, mB])).gives s1 ho s2 →
      incomingOk h (slice p 26 n) = true → formatFits format ho.attr.alg = true →
      exec (.keyTranslate k) s = .next (s.endedBy k (do
        let r ← Fn.incoming h (slice p 26 n)
        Fn.need (exportOk r.1 ho) stUsageDenied
        Fn.need (decide (strengthOf r.1 r.2 ≤ strengthOf ho.attr ho.key)) stKekTooWeak
        Fn.done (← Fn.wrap ho.key format r.1 r.2 none 248)) s2)) ∧
    (∀ (g : SmkGen),
      let o := outAttrAt p 4
      let format := fld p 20 1
      let n := keyLength o.attr.alg
      s.mayCompute k (· == 0x0604) → outAttrOk p 4 [1, 2, 3, 4, 5, 6] = true → format ≤ 2 → o.format ≠ 0 →
      (fld p 12 1 = 0 → payloadOk p 24 [(21, 3)] [] = true → (Fn.producing x o.smk).gives (s.computing k) g (s.computing k) →
        exec (.keyGenerate k) s = .next (s.endedBy k (do
          let b ← Fn.draw n
          Fn.done (← Fn.wrapSmk g o.format o.attr (withParity o.attr.alg b) 248)) (s.computing k))) ∧
      (fld p 12 1 ≠ 0 → payloadOk p 24 [(21, 3)] [12] = true →
        (Fn.resolveRole x 12 (kekRole [mE, mB])).gives (s.computing k) h s1 → (Fn.producing x o.smk).gives s1 g s1 →
        strengthOf o.attr (zeros n) ≤ strengthOf h.attr h.key → formatFits format h.attr.alg = true →
        (format = 0 → o.attr.alg ≤ 2) →
        exec (.keyGenerate k) s = .next (s.endedBy k (do
          let b ← Fn.draw n
          let w ← Fn.wrapSmk g o.format o.attr (withParity o.attr.alg b) 248
          Fn.done (w ++ (← Fn.wrap h.key format o.attr (withParity o.attr.alg b) none 248))) s1))) ∧
    (s.mayCompute k (· == 0x0605) → payloadOk p 12 [] [4] = true →
      (Fn.resolve x 4 (fun _ => true)).gives (s.computing k) h s1 →
      exec (.keyCheckValue k) s = .next (s.ended k { result := kcvOf h.attr h.key ++ zeros 2 } s1))

/-- For every state and slot whose request may be computed now, with the layout and fields in range and keys that resolve:
KEY_LOAD_RESIDENT ends with the unit its run takes and the key's check value, and with a load effect whose binding holds the key
in two fresh shares under the request's tenant and LIMIT; KEY_DELETE_RESIDENT of an own slot that is not retiring arms its
retirement; TR34_IMPORT checks the token's parts in order (INVALID stops with TOKEN_INVALID) and wraps its key; TR34_EXPORT
builds and signs a token for the key; EC_KEYPAIR_GENERATE, ML_KEM_KEYPAIR and ML_DSA_KEYPAIR run the key-generation job and
answer with the public key and the wrapped private key. The token's CMS encoding and the private-key layouts inside a block are
constants of the configuration (log entries 5 and 13). (R226, R227, R240, R241, R257, R505.) -/
def Obligations.ResidentAndTokenFunctions : Prop :=
  ∀ (s : State) (k : Nat) (h : Handle) (s1 : State),
    let x := s.asked k
    let p := x.payload
    (∀ (u : Nat),
      let limit := fld p 12 4
      let n := unitsOf (bindingBytes h.attr h.key)
      let sh := s1.shares h.attr.isPublic h.key
      s.mayCompute k (· == 0x0610) → payloadOk p 20 [(17, 3)] [4] = true → (krefAt p 4).kind = 2 → fld p 16 1 ≤ 1 →
      (Fn.resolve x 4 (fun _ => true)).gives (s.computing k) h s1 → (Fn.residentRun x.tenant n).gives s1 u s1 →
      exec (.keyLoadResident k) s = .next (s.ended k
        { result := beBytes 4 u ++ kcvOf h.attr h.key ++ zeros 6
          effects := [.loadResident u { kind := .key, tenant := x.tenant, units := n, attr := h.attr, shareA := sh.1, shareB := sh.2.1,
                                        useLimited := limit != 0, limit := limit, resetExpiry := fld p 16 1 == 1,
                                        rootSlot := h.rootSlot, rootGen := h.rootGen }] } sh.2.2)) ∧
    (let u := fld p 4 4
     let r := (s.computing k).resident u
     s.mayCompute k (· == 0x0611) → layoutOk p 12 [(8, 4)] = true → 8256 ≤ u → u < 65536 → r.kind ≠ .free → r.tenant = x.tenant →
     folioReached x.admitTick r.from_ = true → r.kind ≠ .retiring → (∀ e ∈ s.folio.effects, e.effect ≠ .residentDelete u) →
     ∃ t, (Fn.armNow k (.residentDelete u)).gives (s.computing k) () t ∧ exec (.keyDeleteResident k) s = .next (s.ended k {} t) ∧
       t.folio.effects = s.folio.effects ++ [{ folio := none, slot := some k, effect := .residentDelete u }]) ∧
    (∀ (kd : Handle) (s2 : State),
      (∀ (g : SmkGen),
        let format := fld p 21 1
        let n := fld p 24 2
        s.mayCompute k (· == 0x0620) → payloadOk p (26 + n) [(22, 2)] [4, 12] = true → fld p 20 1 ≤ 7 → format ≤ 2 → format ≠ 0 →
        n ≤ 4000 → (Fn.resolveRole x 4 { usages := [uK2], modes := [mD], algs := [7] }).gives (s.computing k) h s1 →
        (Fn.resolveRole x 12 (kdhRole mV)).gives s1 kd s2 → (Fn.producing x (fld p 20 1)).gives s2 g s2 →
        exec (.tr34Import k) s = .next (s.endedBy k (do
          let (tbs, scheme, sig, wrapped, alg, iv, ct) ← Fn.get! (Config.tr34Parse (slice p 26 n)) stTokenInvalid
          Fn.need (decide ((scheme = 1 ∨ scheme = 2) ∧ sig.length = 256 ∧ wrapped.length = 256)) stTokenInvalid
          let (e, modulus) := rsaPublicOf kd.key
          Fn.need (← Fn.rsaVerify e modulus scheme 1 (sha256B tbs) sig) stTokenInvalid
          let em ← Fn.rsaPrivate h 256 wrapped
          let ck ← Fn.get! (oaepDecode 1 256 em) stTokenInvalid
          let c ← Fn.get! (tokenCipher alg ck) stTokenInvalid
          Fn.need (decide (iv.length = c.size ∧ ct.length % c.size = 0)) stTokenInvalid
          let content ← Fn.get! (unpad c.size (cbcDec c iv ct)) stTokenInvalid
          let (usage, ac, mode, exp, key) ← Fn.get! (Config.tr34Key content) stTokenInvalid
          let hdr : BlockHdr := { version := verD, usage := usage, alg := ac, mode := mode, exportability := exp, opts := [], len := 16 }
          let (a, raw) ← Fn.get! (attrOf hdr key) stTokenInvalid
          Fn.need (a.alg != 0) stTokenInvalid
          Fn.done (← Fn.wrapSmk g format a raw 248)) s2)) ∧
      (∀ (rnd : Bytes) (s3 : State),
        let n := fld p 24 2
        s.mayCompute k (· == 0x0621) → payloadOk p (26 + n) [] [4, 12] = true → (fld p 20 4 = 3 ∨ fld p 20 4 = 65537) → n = 256 →
        (Fn.resolveRole x 4 (kdhRole mS)).gives (s.computing k) h s1 → (Fn.resolve x 12 (fun _ => true)).gives s1 kd s2 →
        (Fn.draw 64).gives s2 rnd s3 →
        let content := Config.tr34Content kd.attr.usage (algChar kd.attr.alg) kd.attr.mode kd.attr.exportability
          (blockKeyData kd.attr kd.key)
        let pad := 16 - content.length % 16
        let ct := cbcEnc (aesCipher (rnd.take 16)) (slice rnd 16 16) (content ++ List.replicate pad (BitVec.ofNat 8 pad))
        exec (.tr34Export k) s = .next (s.endedBy k (do
          let wrapped ← Fn.rsaPublic (fld p 20 4) (slice p 26 n) (oaepEncode 1 256 (rnd.take 16) (rnd.drop 32))
          let tbs := Config.tr34Signed wrapped (slice rnd 16 16) ct (slice p 26 n)
          let sig ← Fn.rsaSign h 256 2 1 (sha256B tbs)
          Fn.need (decide ((Config.tr34Token tbs sig).length ≤ 4088)) stKeyBlockFormat
          Fn.done (beBytes 2 (Config.tr34Token tbs sig).length ++ zeros 6 ++ Config.tr34Token tbs sig)) s3))) ∧
    (∀ (g : SmkGen),
      let o := outAttrAt p 4
      o.format ≠ 0 → (Fn.producing x o.smk).gives (s.computing k) g (s.computing k) →
      (∀ (c : Curve) (row : Nat),
        let code := fld p 12 1
        s.mayCompute k (· == 0x0630) → payloadOk p 20 [(13, 3)] [] = true → outAttrOk p 4 [16] = true → 1 ≤ code → code ≤ 4 →
        handleOk code (fld p 16 4) = true → (Fn.curve x code (fld p 16 4)).gives (s.computing k) (c, row) (s.computing k) →
        exec (.ecKeypairGenerate k) s = .next (s.endedBy k (do
          let m ← Fn.job (curveJob 0x13 code c none []) row
          Fn.keyPair x o g ([0x04] ++ beBytes c.pLen (beNat (memRead m 0x80 c.size)) ++ beBytes c.pLen (beNat (memRead m 0x100 c.size)))
            (beBytes c.size (beNat (memRead m 0x380 c.size))) code) (s.computing k))) ∧
      (payloadOk p 12 [] [] = true →
        (s.mayCompute k (· == 0x0631) → outAttrOk p 4 [17] = true → exec (.mlKemKeypair k) s = .next (s.endedBy k (do
          let m ← Fn.job { x := { op := 0x20 }, mem := [], key := [], curve := p256 } 0
          Fn.keyPair x o g (memRead m 0 1184) (memRead m 0x1000 64) 0) (s.computing k))) ∧
        (s.mayCompute k (· == 0x0632) → outAttrOk p 4 [18] = true → exec (.mlDsaKeypair k) s = .next (s.endedBy k (do
          let m ← Fn.job { x := { op := 0x28 }, mem := [], key := [], curve := p256 } 0
          Fn.keyPair x o g (memRead m 0 1952) (memRead m 0x1000 32) 0) (s.computing k)))))

/-- For every state and slot whose request may be computed now: RANDOM_SHORT (1 to 64 bytes) and RANDOM_LONG (1 to 4,096) end, where
the tenant pool may be drawn from, with the first n bytes of ceil(n / 16) blocks drawn for the tenant; HASH ends with the
SHA-256, SHA-384, SHA-512 or SHA3-256 digest of its data by ALG; FF1_ENCRYPT and FF1_DECRYPT, for an AES data key and a numeral
string of radix 10 (6 to 56 digits) or 36 (4 to 36), end with the characters of the FF1 encryption and decryption of the
numerals under the tweak. Digests and AES are constants of the configuration (log entry 5). (R225, R226, R227, R245, R339,
R342.) -/
def Obligations.RandomHashAndFf1Functions : Prop :=
  ∀ (s : State) (k : Nat),
    let x := s.asked k
    let p := x.payload
    (∀ n, n = fld p 4 2 → layoutOk p 8 [(6, 2)] = true → 1 ≤ n → (s.computing k).drawStatus true = stOk →
      let d := drawBlocks (s.computing k) true (ceilDiv n 16)
      (s.mayCompute k (· == 0x0901) → n ≤ 64 → exec (.randomShort k) s = .next (s.ended k { result := d.1.take n } d.2)) ∧
      (s.mayCompute k (· == 0x0902) → n ≤ 4096 → exec (.randomLong k) s = .next (s.ended k { result := d.1.take n } d.2))) ∧
    (∀ n, n = fld p 6 2 → s.mayCompute k (· == 0x0910) → layoutOk p (8 + n) [(5, 1)] = true → n ≤ 8180 →
      (fld p 4 1 = 0 → exec (.hash k) s = .next (s.ended k { result := sha256B (p.drop 8) } (s.computing k))) ∧
      (fld p 4 1 = 1 → exec (.hash k) s = .next (s.ended k { result := sha384B (p.drop 8) } (s.computing k))) ∧
      (fld p 4 1 = 2 → exec (.hash k) s = .next (s.ended k { result := sha512B (p.drop 8) } (s.computing k))) ∧
      (fld p 4 1 = 3 → exec (.hash k) s = .next (s.ended k { result := sha3_256B (p.drop 8) } (s.computing k)))) ∧
    (∀ (h : Handle) (s1 : State),
      let radix := fld p 12 1
      let n := fld p 13 1
      let t := fld p 14 1
      let l := (slice p (16 + t) n).map numeralOf
      payloadOk p (16 + t + n) [(15, 1)] [4] = true → t ≤ 32 →
      ((radix = 10 ∧ 6 ≤ n ∧ n ≤ 56) ∨ (radix = 36 ∧ 4 ≤ n ∧ n ≤ 36)) → (∀ d ∈ l, d < radix) →
      (s.mayCompute k (· == 0x0920) →
        (Fn.resolveRole x 4 { usages := [uD0], modes := [mE, mB], algs := [3, 4, 5] }).gives (s.computing k) h s1 →
        exec (.ff1Encrypt k) s = .next (s.ended k { result := (ff1 true h.key (slice p 16 t) radix l).map charOf } s1)) ∧
      (s.mayCompute k (· == 0x0921) →
        (Fn.resolveRole x 4 { usages := [uD0], modes := [mD, mB], algs := [3, 4, 5] }).gives (s.computing k) h s1 →
        exec (.ff1Decrypt k) s = .next (s.ended k { result := (ff1 false h.key (slice p 16 t) radix l).map charOf } s1)))

/-- For every state and slot whose request (codes 0x0701 to 0x0703 for moduli of 256, 384 and 512 bytes; 0x0704 for 256 and 0x0705
for 384 and 512 bytes) may be computed now, with layout and fields in range and, for the private function, a key of the scheme's
role: RSA_PRIVATE answers, under SCHEME 1 or 2, with the signature of the digest, and under SCHEME 3 with the OAEP-decoded
message of the private operation (VERIFY_FAILED where it does not decode), length first; RSA_PUBLIC answers, under SCHEME 1 or
2, with OK or VERIFY_FAILED as the signature verifies or not, and under SCHEME 3 with the public operation on the OAEP encoding
under a fresh seed. Each runs its job on a ready big-number engine and ends with the job's status where that is not OK. (R226,
R227, R242, R289.) -/
def Obligations.RsaFunctions : Prop :=
  ∀ (s : State) (k : Nat),
    let x := s.asked k
    let p := x.payload
    (∀ (h : Handle) (s1 : State) (n : Nat),
      let scheme := fld p 12 1
      let hash := fld p 13 1
      let len := fld p 16 2
      s.mayCompute k [0x0701, 0x0702, 0x0703].contains →
      n = (if x.func = 0x0701 then 256 else if x.func = 0x0702 then 384 else 512) →
      payloadOk p (18 + len) [(14, 2)] [4] = true → 1 ≤ hash → hash ≤ 3 →
      ((scheme = 1 ∨ scheme = 2) → len = hashLen hash →
        (Fn.resolveRole x 4 { usages := [uS0], modes := [mS], algs := [7, 8, 9] }).gives (s.computing k) h s1 →
        exec (.rsaPrivate k) s = .next (s.endedBy k (do
          let out ← Fn.rsaSign h n scheme hash (slice p 18 len)
          Fn.done (beBytes 2 out.length ++ zeros 6 ++ out)) s1)) ∧
      (scheme = 3 → len = n →
        (Fn.resolveRole x 4 { usages := [uD1], modes := [mD], algs := [7, 8, 9] }).gives (s.computing k) h s1 →
        exec (.rsaPrivate k) s = .next (s.endedBy k (do
          let em ← Fn.rsaPrivate h n (slice p 18 len)
          let out ← Fn.get! (oaepDecode hash n em) stVerifyFailed
          Fn.done (beBytes 2 out.length ++ zeros 6 ++ out)) s1))) ∧
    (let scheme := fld p 4 1
     let hash := fld p 5 1
     let e := fld p 8 4
     let n := fld p 12 2
     let len := fld p (14 + n) 2
     let slen := fld p (16 + n + len) 2
     s.mayCompute k [0x0704, 0x0705].contains → (if x.func = 0x0704 then [256] else [384, 512]).contains n = true →
     payloadOk p (18 + n + len + slen) [(6, 2)] [] = true → 1 ≤ hash → hash ≤ 3 → (e = 3 ∨ e = 65537) →
     ((scheme = 1 ∨ scheme = 2) → len = hashLen hash → slen = n →
       exec (.rsaPublic k) s = .next (s.endedBy k (do
         Fn.need (← Fn.rsaVerify e (slice p 14 n) scheme hash (slice p (16 + n) len) (slice p (18 + n + len) slen)) stVerifyFailed
         Fn.done []) (s.computing k))) ∧
     (scheme = 3 → len + 2 * hashLen hash + 2 ≤ n → slen = 0 →
       exec (.rsaPublic k) s = .next (s.endedBy k (do
         let seed ← Fn.draw (hashLen hash)
         let out ← Fn.rsaPublic e (slice p 14 n) (oaepEncode hash n (slice p (16 + n) len) seed)
         Fn.done (beBytes 2 n ++ zeros 6 ++ out)) (s.computing k))))

/-- For every state and slot whose request may be computed now, with layout and fields in range, a supported curve and keys of their
roles: ECDSA_SIGN (0x0710 to 0x0713) answers with r and s of the digest cut to the length of n; ECDSA_VERIFY (0x0718 to 0x071B),
for an uncompressed point and a signature of the curve's length, with OK or VERIFY_FAILED; ECDH (0x0720 to 0x0723) with the
block of the key derived by the KDF from the x-coordinate; ML_KEM_ENCAPS with the ciphertext and the block of the shared secret;
ML_KEM_DECAPS with the block of the shared secret; ML_DSA_SIGN, for a 32-byte seed and a ready engine, with the hedged
signature; ML_DSA_VERIFY with OK or VERIFY_FAILED as MATCH is 1 or not. The job's status ends the function where it is not OK.
(R226, R227, R243, R244, R299.) -/
def Obligations.CurveAndLatticeFunctions : Prop :=
  ∀ (s : State) (k : Nat),
    let x := s.asked k
    let p := x.payload
    (∀ (h : Handle) (s1 : State) (c : Curve) (row : Nat),
      (let hlen := fld p 16 1
       s.mayCompute k [0x0710, 0x0711, 0x0712, 0x0713].contains → payloadOk p (20 + hlen) [(17, 3)] [4] = true →
       handleOk (x.func - 0x070F) (fld p 12 4) = true → 20 ≤ hlen → hlen ≤ 64 →
       (Fn.resolveRole x 4 { usages := [uS0], modes := [mS], algs := [16] }).gives (s.computing k) h s1 →
       (Fn.curve x (x.func - 0x070F) (fld p 12 4)).gives s1 (c, row) s1 →
       exec (.ecdsaSignFunction k) s = .next (s.endedBy k (do
         let m ← Fn.job (curveJob 0x10 (x.func - 0x070F) c (some h) [(0, digestInt c (slice p 20 hlen))]) row
         Fn.done (beBytes c.nLen (beNat (memRead m 0x200 c.size)) ++ beBytes c.nLen (beNat (memRead m 0x280 c.size)))) s1)) ∧
      (let hlen := fld p 8 1
       let plen := fld p 10 2
       let stop := 12 + plen + hlen
       let n := c.nLen
       s.mayCompute k [0x0718, 0x0719, 0x071A, 0x071B].contains → stop + 2 * n = p.length → 2 * n ≤ 144 → payloadOk p p.length [(9, 1)] [] = true →
       handleOk (x.func - 0x0717) (fld p 4 4) = true → 20 ≤ hlen → hlen ≤ 64 → plen = 1 + 2 * c.pLen → plen ≤ 145 → fld (slice p 12 plen) 0 1 = 4 →
       (slice p 12 plen).length = plen →
       (Fn.curve x (x.func - 0x0717) (fld p 4 4)).gives (s.computing k) (c, row) (s.computing k) →
       exec (.ecdsaVerifyFunction k) s = .next (s.endedBy k (do
         let m ← Fn.job (curveJob 0x11 (x.func - 0x0717) c none
           [(0, digestInt c (slice p (12 + plen) hlen)), (0x80, fld (slice p 12 plen) 1 c.pLen),
            (0x100, fld (slice p 12 plen) (1 + c.pLen) c.pLen), (0x180, fld p stop n), (0x200, fld p (stop + n) n)]) row
         Fn.need (beNat (memRead m 0x300 8) == 1) stVerifyFailed
         Fn.done []) (s.computing k))) ∧
      (∀ (g : SmkGen),
       let o := outAttrAt p 16
       let ilen := fld p 25 1
       let plen := fld p 28 2
       s.mayCompute k [0x0720, 0x0721, 0x0722, 0x0723].contains → payloadOk p (30 + plen + ilen) [(26, 2)] [4] = true →
       handleOk (x.func - 0x071F) (fld p 12 4) = true → outAttrOk p 16 [1, 2, 3, 4, 5, 6] = true → (fld p 24 1 = 1 ∨ fld p 24 1 = 2) →
       ilen ≤ 64 → plen ≤ 145 → o.format ≠ 0 →
       (Fn.resolveRole x 4 { usages := [uK3], modes := [mX], algs := [16] }).gives (s.computing k) h s1 →
       (Fn.producing x o.smk).gives s1 g s1 → (Fn.curve x (x.func - 0x071F) (fld p 12 4)).gives s1 (c, row) s1 →
       plen = 1 + 2 * c.pLen → fld (slice p 30 plen) 0 1 = 4 → (slice p 30 plen).length = plen →
       exec (.ecdhFunction k) s = .next (s.endedBy k (do
         let m ← Fn.job (curveJob 0x12 (x.func - 0x071F) c (some h)
           [(0x80, fld (slice p 30 plen) 1 c.pLen), (0x100, fld (slice p 30 plen) (1 + c.pLen) c.pLen)]) row
         let z := beBytes c.pLen (beNat (memRead m 0x300 c.size))
         Fn.done (← Fn.wrapSmk g o.format o.attr
           (withParity o.attr.alg (kdfBytes (fld p 24 1) z (slice p (30 + plen) ilen) (keyLength o.attr.alg))) 248)) s1))) ∧
    (∀ (g : SmkGen) (h : Handle) (s1 : State),
      (let o := outAttrAt p 4
       s.mayCompute k (· == 0x0730) → payloadOk p 1196 [] [] = true → outAttrOk p 4 [5, 6] = true → o.format ≠ 0 →
       (Fn.producing x o.smk).gives (s.computing k) g (s.computing k) →
       exec (.mlKemEncaps k) s = .next (s.endedBy k (do
         let m ← Fn.job { x := { op := 0x21 }, mem := bankOf [(0, slice p 12 1184)], key := [], curve := p256 } 0
         let kb ← Fn.wrapSmk g o.format o.attr (memRead m 0x1000 32) 256
         Fn.done (memRead m 0x800 1088 ++ kb)) (s.computing k))) ∧
      (let o := outAttrAt p 12
       s.mayCompute k (· == 0x0731) → payloadOk p 1108 [] [4] = true → outAttrOk p 12 [5, 6] = true → o.format ≠ 0 →
       (Fn.resolveRole x 4 { usages := [uK3], modes := [mX], algs := [17] }).gives (s.computing k) h s1 →
       (Fn.producing x o.smk).gives s1 g s1 →
       exec (.mlKemDecaps k) s = .next (s.endedBy k (do
         let m ← Fn.job { x := { op := 0x22, hasKey := true, keyAttr := h.attr }, mem := bankOf [(0x800, slice p 20 1088)],
                          key := h.key, curve := p256 } 0
         Fn.done (← Fn.wrapSmk g o.format o.attr (memRead m 0x1000 32) 248)) s1)) ∧
      (∀ (e : Nat),
       let clen := fld p 12 1
       let mlen := fld p 14 2
       s.mayCompute k (· == 0x0738) → payloadOk p (16 + clen + mlen) [(13, 1)] [4] = true → mlen ≤ 4096 → h.key.length = 32 →
       (Fn.resolveRole x 4 { usages := [uS0], modes := [mS], algs := [18] }).gives (s.computing k) h s1 → (Fn.engine false).gives s1 e s1 →
       exec (.mlDsaSign k) s = .next (s.endedBy k (do
         Fn.done (← Fn.mlDsaSign h.key (slice p 16 clen) (slice p (16 + clen) mlen))) s1))) ∧
    (let clen := fld p 4 1
     let mlen := fld p 6 2
     s.mayCompute k (· == 0x0739) → payloadOk p (5269 + clen + mlen) [(5, 1)] [] = true → mlen ≤ 2048 →
     exec (.mlDsaVerify k) s = .next (s.endedBy k (do
       let m ← Fn.job { x := { op := 0x2A, mlen := mlen, ctxlen := clen },
                        mem := bankOf [(0, slice p 8 1952), (0x800, slice p 1960 3309), (0x1500, p.drop 5269)], key := [],
                        curve := p256 } 0
       Fn.need (beNat (memRead m 0x1E00 8) == 1) stVerifyFailed
       Fn.done []) (s.computing k)))

/-- For every state and slot whose request may be computed now: STREAM_OPEN (with its layout in order and the keys of its used sides
resolving to their roles), STREAM_SEGMENT and STREAM_SEGMENT_TDES (LAYOUT 1), STREAM_FINAL and STREAM_FINAL_TDES (LAYOUT 1 and
at least 20 bytes) and STREAM_ABORT (its 4-byte layout) submit their operation. Where the engines accept it, the command answers
the next state in which the job stands accepted, every core of the request shows the accepted submission in BKSTAT, and the
function ends with OK and no result of its own; where they refuse it, the function ends with the status of the refusal, which
the cores show. (R310, R314, R315, R316, R317, R320.) -/
def Obligations.StreamFunctions : Prop :=
  ∀ (s : State) (k : Nat),
    let x := s.asked k
    let p := x.payload
    let shown := fun (st : Nat) (t : State) =>
      (t.coresOf k).foldl (fun t c => t.putBulkStat c { status := st, accepted := st = stOk, submitted := true }) t
    let answers := fun (c : Instr) (a : Nat × State) =>
      (a.1 = stOk → exec c s = .next (s.ended k {} (shown stOk a.2))) ∧
      (a.1 ≠ stOk → exec c s = .next (s.ended k { status := a.1 } (shown a.1 a.2)))
    (∀ (kin kout : Handle) (s1 s2 : State),
      let f := openFields p
      s.mayCompute k (· == 0x0801) → openLayoutOk p = true →
      (if f.modeIn = 0 then kin = {} ∧ s1 = s.computing k
        else (Fn.resolveRole x 4 (sideRole f.modeIn false)).gives (s.computing k) kin s1) →
      (if f.modeOut = 0 then kout = {} ∧ s2 = s1 else (Fn.resolveRole x 12 (sideRole f.modeOut true)).gives s1 kout s2) →
      answers (.streamOpen k) (bulkAnswer s2 k .openOp kin kout)) ∧
    (prologueOk p 0 = true →
      (s.mayCompute k (· == 0x0802) → answers (.streamSegment k) (bulkAnswer (s.computing k) k .segment {} {})) ∧
      (s.mayCompute k (· == 0x0812) → answers (.streamSegmentTdes k) (bulkAnswer (s.computing k) k .segment {} {})) ∧
      (20 ≤ p.length →
        (s.mayCompute k (· == 0x0803) → answers (.streamFinal k) (bulkAnswer (s.computing k) k .final {} {})) ∧
        (s.mayCompute k (· == 0x0813) → answers (.streamFinalTdes k) (bulkAnswer (s.computing k) k .final {} {})))) ∧
    (s.mayCompute k (· == 0x0804) → layoutOk p 4 [] = true →
      answers (.streamAbort k) (bulkAnswer (s.computing k) k .abort {} {}))

/-- For every state and slot whose request may be computed now: CURVE_LOAD, with its fields in range, room in the tenant's curve
quota and a free record i not promised to another task, ends with the handle of the record in its next generation and an effect
that loads it as VALIDATING with the request's parameters; CURVE_QUERY of a built-in curve (handles 1, 2 and 3) ends with VALID,
100 percent, cofactor 1 and the number of bits, and of an own record that is not deleted at the request's admission tick with
that record's state, failed check, progress, cofactor and bits; CURVE_DELETE of such a record ends with OK and arms its
deletion. (R301, R303.) -/
def Obligations.CurveRecordFunctions : Prop :=
  ∀ (s : State) (k : Nat),
    let x := s.asked k
    let p := x.payload
    let t := s.computing k
    (∀ (i : Nat),
      let pbits := fld p 4 2
      let h := fld p 6 1
      let v := fun (j : Nat) => fld p (8 + 72 * j) 72
      let c : CurveRec := { state := .validating, tenant := x.tenant, gen := if 65535 ≤ (t.curve i).gen then 1 else (t.curve i).gen + 1,
                            h := h, pbits := pbits, p := v 0, a := v 1, b := v 2, gx := v 3, gy := v 4, n := v 5 }
      s.mayCompute k (· == 0x50) → layoutOk p 440 [(7, 1)] = true → 192 ≤ pbits → pbits ≤ 576 → 1 ≤ h → h ≤ 4 →
      (t.bn.curves.filter (fun q => decide (q.2.state ≠ .free ∧ q.2.tenant = x.tenant))).length +
          (t.pendingCurves.filter (fun q => q.2 == x.tenant)).length
        < (tabGet ({} : TenantImage) t.image.tenants x.tenant).curveQuota →
      (List.range 256).find? (fun i => decide ((t.curve i).state = .free) && t.pendingCurves.all (fun q => q.1 != i)) = some i →
      exec (.curveLoad k) s = .next (s.ended k { result := beBytes 4 (curveHandle i c) ++ zeros 4, effects := [.curveLoad i c] } t)) ∧
    (layoutOk p 12 [(8, 4)] = true →
      (∀ b, s.mayCompute k (· == 0x51) → builtinBits (fld p 4 4) = some b →
        exec (.curveQuery k) s = .next (s.ended k { result := [2, 0, 100, 1] ++ beBytes 2 b ++ zeros 2 } t)) ∧
      (∀ i, t.curveNamed x.tenant (fld p 4 4) = some i →
        (∀ d, (t.curve i).deletedAt = some d → folioReached x.admitTick d = false) →
        let c := t.curve i
        (s.mayCompute k (· == 0x51) → builtinBits (fld p 4 4) = none →
          exec (.curveQuery k) s = .next (s.ended k
            { result := beBytes 1 (curveStateCode c.state) ++ beBytes 1 c.check ++ beBytes 1 c.progress ++ beBytes 1 c.h ++
                beBytes 2 c.pbits ++ zeros 2 } t)) ∧
        (s.mayCompute k (· == 0x52) →
          exec (.curveDelete k) s = .next (s.ended k { effects := [.arm (.curveDelete i)] } t))))

/-- For every state and slot whose request may be computed now, with its layout, its session granted (R359), and the SMK slot, as it
stands with the changes already armed, in the state the command needs: SMK_CREATE (no current and no pending generation) and
SMK_ROTATE_BEGIN (a current and no pending one), below generation 65,535 and with SOURCE 0, end with the next generation's
number and check value of a drawn key, and arm that generation in two shares whose exclusive or is the key; SMK_ROTATE_COMPLETE
and SMK_ROTATE_ABORT (a pending one) and SMK_INVALIDATE (a current one) arm their change, the first answering the pending
generation's number. With SOURCE 1 the key is the one assembled from the session's components. SMK_REWRAP of an inline block
ends with its key wrapped under the generation that new blocks use, in the format it came in. (R253, R254, R255, R359, R505.) -/
def Obligations.SmkFunctions : Prop :=
  ∀ (s : State) (k : Nat),
    let x := s.asked k
    let p := x.payload
    let j := fld p 4 1
    let fresh := fun (y : SmkSlot) (key m : Bytes) => ({ gen := y.lastGen + 1, shareA := m, shareB := xorBytes key m } : SmkGen)
    let made := fun (c : Instr) (code : Nat) (ready : SmkSlot → Prop) (mk : SmkGen → TickEffect) =>
      ∀ (i : Nat) (s1 s2 s3 s4 : State) (y : SmkSlot) (key m : Bytes),
        s.mayCompute k (· == code) → layoutOk p 12 [(6, 2)] = true → j ≤ 7 → fld p 5 1 ≤ 1 →
        (Fn.auth k x code (fld p 5 1) (32 * fld p 5 1) 8).gives (s.computing k) i s1 → y = s1.smkArmed x.tenant j → ready y →
        y.lastGen < 0xFFFF →
        (if fld p 5 1 = 0 then (Fn.draw 32).gives s1 key s2 else (Fn.assembledKey i false).gives s1 key s2) →
        (Fn.draw 32).gives s2 m s3 → (Fn.armNow k (mk (fresh y key m))).gives s3 () s4 →
        exec c s = .next (s.ended k { result := beBytes 2 (y.lastGen + 1) ++ kcvOf { alg := 5 } key } s4)
    let changed := fun (c : Instr) (code : Nat) (ready : SmkSlot → Prop) (e : TickEffect) (answer : SmkSlot → Bytes) =>
      ∀ (i : Nat) (s1 s2 : State) (y : SmkSlot),
        s.mayCompute k (· == code) → layoutOk p 12 [(5, 3)] = true → j ≤ 7 →
        (Fn.auth k x code 0 0 8).gives (s.computing k) i s1 → y = s1.smkArmed x.tenant j → ready y →
        (Fn.armNow k e).gives s1 () s2 → exec c s = .next (s.ended k { result := answer y } s2)
    made (.smkCreate k) 0x41 (fun y => y.current = none ∧ y.pending = none) (.smkCreate x.tenant j) ∧
    made (.smkRotateBegin k) 0x42 (fun y => y.current ≠ none ∧ y.pending = none) (.smkBegin x.tenant j) ∧
    changed (.smkRotateComplete k) 0x43 (fun y => y.pending ≠ none) (.smkComplete x.tenant j)
      (fun y => beBytes 2 ((y.pending.map (·.gen)).getD 0) ++ zeros 6) ∧
    changed (.smkRotateAbort k) 0x44 (fun y => y.pending ≠ none) (.smkAbort x.tenant j) (fun _ => []) ∧
    changed (.smkInvalidate k) 0x45 (fun y => y.current ≠ none) (.smkInvalidate x.tenant j) (fun _ => []) ∧
    (∀ (h : Handle) (g : SmkGen) (s1 : State) (f : Nat),
      s.mayCompute k (· == 0x40) → payloadOk p 12 [] [4] = true → (krefAt p 4).kind = 2 →
      (Fn.resolve x 4 (fun _ => true)).gives (s.computing k) h s1 → (Fn.producing x (krefAt p 4).smk).gives s1 g s1 →
      f = (versionFormat (fld p (krefAt p 4).at_ 1)).getD 0 →
      exec (.smkRewrap k) s = .next (s.endedBy k (do Fn.done (← Fn.wrapSmk g f h.attr h.key 248)) s1))

/-- For every state and slot whose request may be computed now: COUNTER_CREATE, with its fields in range and a unit free in the
tenant's quota, ends with the unit and loads a counter record of the TYPE, PSN, DIGITS, IDENT and START given with no claims;
CLIENT_KEY_SET, with its session granted and a valid key of ALG (0 removes), ends with OK and arms the client key with the
SHA-384 digest of its public key; COLOPHON and COLOPHON_TENANT, for a nonce of 16 to 64 bytes and, for the second, the sender's
own tenant or any under T0, sign the colophon map of the admission tick and answer it length first with event COLOPHON_ISSUED at
the commit point; CERTIFICATES ends with the three certificates and their lengths. (R240, R263, R269, R270, R271, R359.) -/
def Obligations.IdentityAndRecordFunctions : Prop :=
  ∀ (s : State) (k : Nat),
    let x := s.asked k
    let p := x.payload
    let t := s.computing k
    (∀ (u : Nat),
      let type := fld p 4 1
      s.mayCompute k (· == 0x46) → layoutOk p 24 [(7, 1), (18, 2)] = true → 1 ≤ type → type ≤ 3 →
      (type = 1 → 12 ≤ fld p 6 1 ∧ fld p 6 1 ≤ 19) → (type ≠ 1 → fld p 5 1 = 0 ∧ fld p 6 1 = 0) →
      (Fn.residentRun x.tenant 1).gives t u t →
      exec (.counterCreate k) s = .next (s.ended k
        { result := beBytes 4 u ++ zeros 4
          effects := [.loadResident u
            { kind := .counter, tenant := x.tenant, units := 1,
              record := { type := type, psn := fld p 5 1, digits := fld p 6 1, id := slice p 8 10, s := fld p 20 4 } }] } t)) ∧
    (∀ (i : Nat) (s1 : State),
      let alg := fld p 5 1
      let pub := p.drop 12
      s.mayCompute k (· == 0x47) → fld p 4 1 ≤ 63 → alg ≤ 2 →
      fld p 6 2 = (if alg = 0 then 0 else if alg = 1 then 97 else 1952) → layoutOk p (12 + fld p 6 2) [] = true →
      (alg = 1 → fld pub 0 1 = 4 ∧ fld pub 1 48 < p384.p ∧ fld pub 49 48 < p384.p ∧ p384.has (fld pub 1 48) (fld pub 49 48) = true) →
      (Fn.auth k x 0x47 0 0 8).gives t i s1 →
      exec (.clientKeySet k) s = .next (s.ended k
        { effects := [.arm (.clientKeySet x.tenant (fld p 4 1)
            (if alg = 0 then {} else { alg := alg, pub := pub, digest := sha384B pub }))] } s1)) ∧
    (let signed := fun (payload : Bytes) => (do
       let c ← Fn.coseSign payload
       Fn.done (beBytes 2 c.length ++ zeros 6 ++ c)
         [.eventOnCommit evColophonIssued srcSecurity x.tenant (items [(2, x.tenant), (8, x.admitTick * 65536)])] : Fn FnRes)
     (∀ n, s.mayCompute k (· == 0x48) → n = fld p 4 1 → layoutOk p (8 + n) [(5, 3)] = true → 16 ≤ n → n ≤ 64 →
       exec (.colophon k) s = .next (s.endedBy k (signed (colophonMap t x.admitTick (p.drop 8) none)) t)) ∧
     (∀ n, s.mayCompute k (· == 0x49) → n = fld p 6 1 → layoutOk p (8 + n) [(7, 1)] = true → 16 ≤ n → n ≤ 64 →
       fld p 4 2 ≤ 512 → (x.tenant = 0 ∨ fld p 4 2 = x.tenant) →
       exec (.colophonTenant k) s = .next (s.endedBy k (signed (colophonMap t x.admitTick (p.drop 8) (some (fld p 4 2)))) t))) ∧
    (s.mayCompute k (· == 0x4A) → layoutOk p 4 [] = true →
      let c := [tabGet [] t.ks.certs 0, tabGet [] t.ks.certs 1, tabGet [] t.ks.certs 2]
      exec (.certificates k) s = .next (s.ended k { result := c.flatMap (fun b => beBytes 2 b.length) ++ zeros 2 ++ c.flatten } t))

/-- For every state and slot whose request may be computed now: AUTH_OPEN for a row of the command table, a lifetime within the
limit and room among the sessions opens the session i in its next generation, with the payload digest, the role's quorum, a
drawn challenge and, where the row takes components, a fresh ephemeral key, and answers its identifier, challenge and public
key; AUTH_SIGN for a session of the sender's tenant counts a signature that passes the checks of R358 and answers the count, M
and the component's check value, and otherwise raises the refusal and ends with the first failed check's status; AUTH_CARD_LOCAL
for an unexpired OPEN or GRANTED session and a free interface ends with OK and starts the exchange at its commit point;
AUTH_QUERY answers state, M, the signatures in effect, the local status and the expiry; AUTH_CLOSE of an OPEN or GRANTED session
closes it at its commit point. (R355, R356, R357, R358, R360, R364, R366.) -/
def Obligations.SessionFunctions : Prop :=
  ∀ (s : State) (k : Nat),
    let x := s.asked k
    let p := x.payload
    let t := s.computing k
    (∀ (i : Nat) (challenge eph : Bytes) (s1 s2 : State),
      let command := fld p 4 2
      let compLen := fld p 6 1
      let role := fld p 7 1
      let life := fld p 8 4
      let y : Session := { gen := if 0xFFFFFF ≤ (t.session i).gen then 1 else (t.session i).gen + 1, scope := x.tenant, command := command,
                           role := role, compLen := compLen, pdigest := slice p 12 48, m := t.quorum x.tenant role, expires := life,
                           challenge := challenge, ephemeral := if compLen = 0 then [] else scalar384 eph }
      s.mayCompute k (· == 0x60) → layoutOk p 60 [] = true → rowNamed x.tenant command role compLen = true → 1 ≤ life →
      life ≤ t.dual.lifeMax → t.sessionsOpen (some x.tenant) < 8 → t.sessionsOpen none < 256 → t.pickSession = some i →
      (Fn.draw 32).gives t challenge s1 → (if compLen = 0 then s2 = s1 else (Fn.draw 56).gives s1 eph s2) →
      exec (.authOpen k) s = .next (s.ended k
        { result := beBytes 4 (sessionId i y) ++ challenge ++
            (if y.ephemeral = [] then zeros 97 else [0x04] ++ public384 y.ephemeral) ++ zeros 3
          effects := [.sessionOpen i y] } s2)) ∧
    (∀ (i : Nat),
      let serial := fld p 8 8
      let clen := fld p 112 2
      t.sessionNamed x.tenant (fld p 4 4) false = some i →
      s.mayCompute k (· == 0x61) → layoutOk p (116 + clen) [(114, 2)] = true →
      clen = (if (t.session i).compLen = 0 then 0 else 97 + (t.session i).compLen + 16) →
      exec (.authSign k) s = .next (match signatureStatus t (some i) x.admitTick serial (slice p 16 96) (p.drop 116) with
        | (_, some (e, comp)) =>
          let t1 := countSignature t i serial e comp (some k) none
          let y := t1.session i
          s.ended k
            { result := beBytes 1 y.counted.length ++ beBytes 1 y.m ++ zeros 8 ++ (if comp = [] then zeros 6 else componentKcv comp)
              effects := [.signature i serial] } t1
        | (st, none) =>
          s.ended k { status := if st = stOk then stAuthRequired else st } (refuseSignature t x.tenant (fld p 4 4) serial st))) ∧
    (∀ (i : Nat),
      let y := t.session i
      t.sessionNamed x.tenant (fld p 4 4) (x.tenant == 0) = some i →
      (s.mayCompute k (· == 0x62) → layoutOk p 12 [(9, 3)] = true → fld p 8 1 ≤ 1 → (y.state = .open ∨ y.state = .granted) →
        State.pastE y x.admitTick = false → (t.iface (fld p 8 1)).exchange = none →
        (∀ q ∈ t.sq.slots, ∀ j, .cardLocal j (fld p 8 1) ∉ q.2.effects) →
        exec (.authCardLocal k) s = .next (s.ended k { effects := [.cardLocal i (fld p 8 1)] } t)) ∧
      (s.mayCompute k (· == 0x63) → layoutOk p 12 [(8, 4)] = true →
        exec (.authQuery k) s = .next (s.ended k
          { result := beBytes 1 y.state.code ++ beBytes 1 y.m ++ beBytes 1 (t.countedNow y).length ++ [0] ++ beBytes 2 y.localStatus ++
              zeros 2 ++ beBytes 8 y.expires } t))) ∧
    (∀ (i : Nat),
      t.sessionNamed x.tenant (fld p 4 4) false = some i → s.mayCompute k (· == 0x64) → layoutOk p 12 [(8, 4)] = true →
      ((t.session i).state = .open ∨ (t.session i).state = .granted) →
      exec (.authClose k) s = .next (s.ended k { effects := [.sessionClose i] } t))

/-- For every state and slot whose request may be computed now, with its layout and fields in range and its session granted (R359):
CARD_REGISTER for a scope the sender may name answers as its certificate reads: SIGNATURE_INVALID where it does not or is valid
longer than eight years, CARD_DUPLICATE, CARD_REGISTRY_FULL, or OK with the card to be registered ACTIVE; CARD_REVOKE of a
registered card in a scope the sender may name ends with OK and arms its revocation where the role keeps at least its quorum;
QUORUM_SET ends with OK and arms the new M where enough cards hold the role; MACSEC_CAK_SET arms the assembled CAK and its name
on the logical port; KEY_ENTER wraps the assembled key, with odd parity where it is a TDES key, under the SMK. (R352, R355,
R359, R361, R362, R367, R368.) -/
def Obligations.RegistryFunctions : Prop :=
  ∀ (s : State) (k i : Nat) (s1 : State),
    let x := s.asked k
    let p := x.payload
    let t := s.computing k
    (let scope := fld p 4 2
     let role := fld p 6 1
     let n := fld p 12 2
     s.mayCompute k (· == 0x65) → layoutOk p (16 + n) [(7, 1), (14, 2)] = true → scope ≤ 512 → role ≤ 3 →
     (Fn.auth k x 0x65 0 0 8).gives t i s1 → s1.mayName x.tenant scope role true = true →
     exec (.cardRegister k) s = .next (s.ended k (match Config.readCard (p.drop 16) with
       | none => { status := stSignatureInvalid }
       | some (serial, nb, na, pub) =>
         if ¬ (nb ≤ na ∧ na - nb ≤ eightYears) then { status := stSignatureInvalid }
         else if (s1.cardOf serial).isSome ∨ s1.pendingCards.any (fun c => c.serial == serial) then { status := stCardDuplicate }
         else if s1.scopeCards scope + (s1.pendingCards.filter (fun c => c.scope == scope)).length < 32 ∧
             (s1.dual.cards.filter (fun q => q.2.state != .free)).length + s1.pendingCards.length < 4096 then
           { effects := [.cardRegister { state := .active, serial := serial, scope := scope, role := role, usesLeft := 200000,
                                         notBefore := nb, notAfter := na, pub := pub }] }
         else { status := stCardRegistryFull }) s1)) ∧
    (∀ (e : Nat),
      let serial := fld p 4 8
      let c := s1.card e
      s.mayCompute k (· == 0x66) → layoutOk p 20 [(16, 4)] = true → (Fn.auth k x 0x66 0 0 12).gives t i s1 →
      s1.cardOf serial = some e → s1.mayName x.tenant c.scope c.role false = true → c.state ≠ .revoked →
      .cardRevoke serial ∉ s1.comingEffects →
      s1.comingQuorum c.scope c.role ≤ s1.comingCards c.scope c.role - (if c.state = .active ∨ c.state = .warned then 1 else 0) →
      exec (.cardRevoke k) s = .next (s.ended k { effects := [.arm (.cardRevoke serial)] } s1)) ∧
    (let scope := fld p 4 2
     let role := fld p 6 1
     let m := fld p 7 1
     s.mayCompute k (· == 0x67) → layoutOk p 12 [] = true → scope ≤ 512 → role ≤ 3 → quorumRange role m = true →
     (Fn.auth k x 0x67 0 0 8).gives t i s1 → s1.mayName x.tenant scope role true = true → m ≤ s1.comingCards scope role →
     exec (.quorumSet k) s = .next (s.ended k { effects := [.arm (.quorumSet scope role m)] } s1)) ∧
    (∀ (key : Bytes) (s2 : State),
      (let n := fld p 5 1
       s.mayCompute k (· == 0x68) → layoutOk p (12 + n) [(6, 2)] = true → fld p 4 1 ≤ 15 → 1 ≤ n → n ≤ 32 →
       (Fn.auth k x 0x68 1 32 8).gives t i s1 → (Fn.assembledKey i false).gives s1 key s2 →
       exec (.macsecCakSet k) s = .next (s.ended k { effects := [.arm (.cakSet (fld p 4 1) (p.drop 12) key)] } s2)) ∧
      (∀ (g : SmkGen),
       let o := outAttrAt p 4
       s.mayCompute k (· == 0x69) → layoutOk p 20 [(16, 4)] = true → outAttrOk p 4 [1, 2, 3, 4, 5, 6] = true → o.format ≠ 0 →
       (Fn.auth k x 0x69 1 (keyLength o.attr.alg) 12).gives t i s1 → (Fn.producing x o.smk).gives s1 g s1 →
       (Fn.assembledKey i (decide (o.attr.alg ≤ 2))).gives s1 key s2 →
       exec (.keyEnter k) s = .next (s.endedBy k (do Fn.done (← Fn.wrapSmk g o.format o.attr key 248)) s2)))

/-- For every state and slot whose request may be computed now, each ending with OK also in LC_LAST: LC_TRANSITION to a target of
the present state whose stripe is free, with the token of its digest slot, the certificates where PROVISIONED is the target and,
where the row needs a quorum, a granted session and no mailbox, writes the intent record of its row and ends with the
transition's effect; in INVALID with a live intent and an undamaged stripe the same target resumes it; LC_DEBUG_CHALLENGE
outside INVALID and SCRAPPED answers a drawn nonce that it keeps, with serial number and state; LC_DEBUG_AUTH, for a challenge
given and a session where DEPLOYED, ends with OK and the armed record, or with DEBUG_SIGNATURE_INVALID and event DEBUG_REFUSED,
as both grant signatures verify or not, and uses the nonce up; LC_DEBUG_END ends the record; LC_IDENTITY and LC_CERT_LOAD, by
the mailbox in TEST, answer the public keys and store a certificate. (R377, R380, R381, R384, R385, R388.) -/
def Obligations.LifeCycleFunctions : Prop :=
  ∀ (s : State) (k : Nat),
    let x := s.asked k
    let p := x.payload
    let t := s.computing k
    let l := t.lc
    let n := min (stripes l.word0) (stripes l.word1)
    (let target := fld p 4 1
     let token := slice p 12 32
     s.mayCompute k (· == 0x70) → layoutOk p 44 [(5, 3)] = true → l.inProgress = false →
     (∀ (r : Nat × Nat × Bool) (s1 : State) (session : Nat),
       let slot := if target = 5 then (if tabGet [] l.digests 7 = sha384B token then 7 else 8) else r.2.1
       (l.state ≠ .invalid ∨ l.liveIntent = none) → transitionRow l.state n target = some r → r.1 < 8 →
       (r.1 = 7 → stripe l.word0 7 ≠ stripePattern) →
       (if r.2.2 = true then x.mailbox = false ∧ (Fn.auth k x 0x70 0 0 8).gives t session s1 else fld p 8 4 = 0 ∧ s1 = t) →
       (target = 2 → t.certsMatch = true) → tabGet [] l.digests slot = sha384B token →
       exec (.lcTransition k) s = .next (s.ended k { effects := [.lcTransition] }
         (lcLast { s1 with lc := { s1.lc with intents := s1.lc.intents ++
             [{ source := l.state.code, target := target, stripe := r.1, slot := slot, quorum := r.2.2, valid := false }] } } x stOk))) ∧
     (∀ (i : Intent),
       l.state = .invalid → l.liveIntent = some i → target = i.target → fld p 8 4 = 0 → tabGet [] l.digests i.slot = sha384B token →
       stripeDamaged l.word0 i.stripe = false → stripeDamaged l.word1 i.stripe = false →
       exec (.lcTransition k) s = .next (s.ended k { effects := [.lcTransition] }
         (lcLast (t.raise evLcResumed srcSecurity 0 (items [(1, i.target), (1, i.stripe)])) x stOk)))) ∧
    (let nonce := (t.random 32).1
     s.mayCompute k (· == 0x71) → layoutOk p 8 [(4, 4)] = true → l.state ≠ .invalid → l.state ≠ .scrapped →
     ∃ u : State, u.lc.dbg.challenge = some nonce ∧ u.lc.lastStatus = stOk ∧ u.rng = (t.random 32).2.rng ∧
       exec (.lcDebugChallenge k) s = .next (s.ended k
         { result := nonce ++ beBytes 8 Config.serial.toNat ++ beBytes 1 l.state.code ++ zeros 7 } u)) ∧
    (∀ (nonce : Bytes) (s1 : State) (session : Nat),
      let starts := fld p 4 1
      let quorum := l.state == .deployed
      let used := { t with lc := { l with dbg := { l.dbg with challenge := none } } }
      let g := sha384B (ascii "SKZ2 debug" ++ beBytes 8 Config.serial.toNat ++ beBytes 1 l.state.code ++ nonce ++ beBytes 1 starts)
      s.mayCompute k (· == 0x72) → layoutOk p 3417 [(5, 3)] = true → 1 ≤ starts → starts ≤ 16 → l.state ≠ .invalid → l.state ≠ .scrapped →
      l.dbg.challenge = some nonce →
      (if quorum then x.mailbox = false ∧ (Fn.auth k x 0x72 0 0 8).gives used session s1 else fld p 8 4 = 0 ∧ s1 = used) →
      exec (.lcDebugAuth k) s = .next (
        if verify384 Config.debugKeyEc g (slice p 12 96) && mlDsaVerify Config.debugKeyPq [] g (slice p 108 3309) then
          s.ended k { effects := [.debugArm starts l.state.code quorum] } (lcLast s1 x stOk)
        else s.ended k { status := stDebugSignatureInvalid }
          (lcLast (s1.raise evDebugRefused srcSecurity 0 (items [(2, stDebugSignatureInvalid)])) x stDebugSignatureInvalid))) ∧
    (layoutOk p 8 [(4, 4)] = true →
      (s.mayCompute k (· == 0x73) → exec (.lcDebugEnd k) s = .next (s.ended k { effects := [.debugEnd] } (lcLast t x stOk))) ∧
      (s.mayCompute k (· == 0x74) → x.mailbox = true → l.state = .test →
        exec (.lcIdentity k) s = .next (s.ended k
          { result := padTo 97 (t.devicePublic.getD 0 []) ++ padTo 97 (t.devicePublic.getD 1 []) ++ zeros 2 ++
              padTo 1952 (t.devicePublic.getD 2 []) } (lcLast t x stOk)))) ∧
    (∀ len, s.mayCompute k (· == 0x75) → len = fld p 6 2 → layoutOk p (8 + len) [(5, 1)] = true → fld p 4 1 ≤ 2 → len ≤ 8188 →
      x.mailbox = true → l.state = .test →
      exec (.lcCertLoad k) s = .next (s.ended k { effects := [.certLoad (fld p 4 1) (p.drop 8)] } (lcLast t x stOk)))

/-- For every state and slot whose request may be computed now: TMP_LATCH_CLEAR of T0 on Port M with the latch set, its session
granted and no erase sensor active ends with the latch's clearing; RECOVERY_STATUS answers the cause record; DEV_RESTART, with
nothing draining, writing or in transition, restarts at once in RECOVERY (TARGET 0) and otherwise, with its session granted,
arms a drain for TARGET 0 or 1, with event RESTART_COMMANDED; IMAGE_LOAD_BEGIN of a length within the limit starts an empty load
of that length and digest; IMAGE_LOAD_DATA of cells inside the load writes them; IMAGE_LOAD_END of a complete load ends with
IMAGE_DIGEST where the digest differs, with the start of the NVM write where the image passes its checks, and otherwise with
IMAGE_REFUSED, its cause and event IMAGE_REFUSED. (R404, R424, R425, R426.) -/
def Obligations.RecoveryFunctions : Prop :=
  ∀ (s : State) (k : Nat),
    let x := s.asked k
    let p := x.payload
    let t := s.computing k
    (∀ (i : Nat) (s1 : State),
      s.mayCompute k (· == 0x80) → layoutOk p 12 [(8, 4)] = true → x.mailbox = false → x.tenant = 0 → x.lport = 16 → t.tmp.latch = true →
      (Fn.auth k x 0x80 0 0 4).gives t i s1 → s1.eraseActive = false →
      exec (.tmpLatchClear k) s = .next (s.ended k { effects := [.latchClear (fld p 4 4)] } s1)) ∧
    (let c := t.boot.cause
     s.mayCompute k (· == 0x90) → layoutOk p 8 [(4, 4)] = true →
     exec (.recoveryStatus k) s = .next (s.ended k
       { result := beBytes 1 c.reason ++ beBytes 1 c.cause ++ beBytes 1 c.step ++ beBytes 1 c.attempt ++ beBytes 4 c.data ++
           beBytes 5 c.seconds ++ beBytes 3 c.cycles ++ zeros 8 } t)) ∧
    (let target := fld p 4 1
     let note : Effect := .eventOnCommit evRestartCommanded srcSecurity 0 (items [(1, target), (4, chanId x.chan (t.chan x.chan))])
     s.mayCompute k (· == 0x91) → layoutOk p 12 [(5, 3)] = true → t.boot.drain = none → t.boot.load.state ≠ 2 → t.lc.inProgress = false →
     (t.dev.state = .recovery → target = 0 → fld p 8 4 = 0 →
       exec (.devRestart k) s = .next (s.ended k { effects := [note, .restartNow false] } t)) ∧
     (∀ (i : Nat) (s1 : State), t.dev.state ≠ .recovery → target ≤ 1 → (Fn.auth k x 0x91 3 0 8).gives t i s1 →
       exec (.devRestart k) s = .next (s.ended k { effects := [note, .arm (.drainBegin (target == 1))] } s1))) ∧
    (s.mayCompute k (· == 0x92) → layoutOk p 60 [(8, 4)] = true → fld p 4 4 ≤ maxImage →
      exec (.imageLoadBegin k) s = .next (s.ended k {} { t with boot := { t.boot with load := { t.boot.load with
        state := 1, percent := 0, len := fld p 4 4, digest := slice p 12 48, mem := [], cells := [] } } })) ∧
    (let off := fld p 4 4
     let n := fld p 8 2
     let l := t.boot.load
     s.mayCompute k (· == 0x93) → layoutOk p (12 + n) [(10, 2)] = true → n ≤ 7936 → l.state = 1 → off % 256 = 0 → off + n ≤ l.len →
     (n % 256 = 0 ∨ off + n = l.len) →
     exec (.imageLoadData k) s = .next (s.ended k {} { t with boot := { t.boot with load := { l with
       mem := memWrite l.mem off (p.drop 12)
       cells := (l.cells ++ (List.range (ceilDiv n 256)).map (off / 256 + ·)).eraseDups } } })) ∧
    (let l := t.boot.load
     let b := memRead l.mem 0 l.len
     s.mayCompute k (· == 0x94) → layoutOk p 8 [(4, 4)] = true → l.state = 1 → ceilDiv l.len 256 ≤ l.cells.length →
     exec (.imageLoadEnd k) s = .next (
       if sha384B b = l.digest then
         match imageCheck t b with
         | .ok _ => s.ended k { effects := [.imageWrite] } t
         | .error (c, _) => s.ended k { status := stImageRefused, result := beBytes 1 c ++ zeros 7 }
             ({ t with boot := { t.boot with load := { l with cause := c } } }.raise evImageRefused (srcCc 0) 0 (items [(1, c)]))
       else s.ended k { status := stImageDigest } t))

/-- For every state and slot whose request may be computed now, with its layout and, but for PAIR_STAGE, its session granted (R359):
PAIR_STAGE writes its data and range into the staged object of its kind, begun anew where TOTAL differs; PAIR_OFFER, where the
device may offer, signs the OFFER of fresh keys, settings, record and colophon and keeps it at the commit point; PAIR_ACCEPT of
an unpaired SERVICE device without unsealed tenants, with the four objects staged, goes on to check the peer and answers the
signed ANSWER with the new record and pair key as its effect; PAIR_CONFIRM of the offer in force, with the five objects staged,
checks the answer and answers the pair key's check value; both clear the staging area whatever they answer; PAIR_HANDOVER on a
paired active without a drain, PAIR_TAKEOVER on a standby at position 1 and PAIR_LEAVE arm or effect their change. (R433, R434,
R435, R436, R437, R451, R452.) -/
def Obligations.PairingFunctions : Prop :=
  ∀ (s : State) (k i : Nat) (s1 : State),
    let x := s.asked k
    let p := x.payload
    let t := s.computing k
    (let kind := fld p 4 1
     let total := fld p 6 2
     let off := fld p 8 2
     let n := fld p 10 2
     let g : Staged := if (t.staged kind).total = total then t.staged kind else { total := total }
     s.mayCompute k (· == 0xA0) → layoutOk p (12 + n) [(5, 1)] = true → 1 ≤ kind → kind ≤ 5 → total ≤ 8192 → n ≤ 8000 → off + n ≤ total →
     let g1 := { g with mem := memWrite g.mem off (p.drop 12), covered := g.covered ++ [(off, n)] }
     exec (.pairStage k) s = .next (s.ended k {} { t with pair := { t.pair with staging := tabPut {} t.pair.staging kind g1 } })) ∧
    (layoutOk p 12 [(8, 4)] = true →
      (s.mayCompute k (· == 0xA1) → (Fn.auth k x 0xA1 0 0 4).gives t i s1 → s1.mayOffer = true →
        exec (.pairOffer k) s = .next (s.endedBy k (do
          let rnd ← Fn.draw 144
          let col ← Fn.colophon x.admitTick (rnd.take 32) none
          let u ← get
          let body := [1] ++ zeros 3 ++ beBytes 4 u.pair.epoch ++ beBytes 8 Config.serial.toNat ++ rnd.take 32 ++ [4] ++
            public384 (slice rnd 32 48) ++ zeros 3 ++ padTo 1184 (mlKemPublic (rnd.drop 80)) ++ u.pairSettings ++
            u.offeredRecord ++ beBytes 2 col.length ++ zeros 2 ++ col
          let sig ← Fn.ecdsaSign p384 (beNat u.ks.idk) (sha384B (ascii "SKZ2 pair offer" ++ body))
          Fn.done (body ++ sig) [.pairOffer (body ++ sig) (slice rnd 32 48 ++ rnd.drop 80) (rnd.take 32)]) s1)) ∧
      (s.mayCompute k (· == 0xA2) → (Fn.auth k x 0xA2 0 0 4).gives t i s1 → s1.dev.state = .service → s1.unsealedTenants = 0 →
        [1, 2, 3, 5].all (fun i => (s1.staged i).complete) = true →
        exec (.pairAccept k) s = .next (s.endedBy k (Fn.orRefuse (do
          let (idk, akEc, akPq) ← Fn.get! (stagedKeys s1) stPairPeerInvalid
          let o := (s1.staged 5).bytes
          let n := fld o 1868 2
          let nonce := slice o 16 32
          let c ← Fn.get! (readColophon akEc akPq (slice o 1872 n)) stPairPeerInvalid
          Fn.need (fld o 0 1 == 1 && decide (o.length = 1968 + n) &&
            verify384 (idk.drop 1) (sha384B (ascii "SKZ2 pair offer" ++ o.take (1872 + n))) (o.drop (1872 + n)) && peerOk idk c nonce)
            stPairPeerInvalid
          Fn.need (s1.pair.peers == [] || s1.pair.peers.contains c.idHash) stPairPeerInvalid
          let rec_ := slice o 1348 520
          let members := fld rec_ 4 1
          Fn.need (slice o 1332 16 == s1.pairSettings && s1.lagAllows (members + 1)) stPairSettings
          let rnd ← Fn.draw 80
          let eph := rnd.take 48
          let (ct, ss) := mlKemEncaps (slice o 148 1184) (rnd.drop 48)
          let z ← Fn.get! (ecdhX eph (slice o 48 97)) stPairPeerInvalid
          let ey := [4] ++ public384 eph
          let serialX := fld o 8 8
          let key := pairKeyOf o z ss serialX Config.serial.toNat ey
          let col ← Fn.colophon x.admitTick nonce none
          let u ← get
          let ans := [1] ++ zeros 3 ++ beBytes 8 Config.serial.toNat ++ ey ++ zeros 3 ++ padTo 1088 ct ++ beBytes 2 col.length ++
            zeros 2 ++ col ++ kcvOf { alg := 5 } key ++ zeros 2
          let sig ← Fn.ecdsaSign p384 (beNat u.ks.idk) (sha384B (ascii "SKZ2 pair answer" ++ sha384B o ++ ans))
          let own : Member := { serial := Config.serial.toNat, position := members, state := 2, idHash := u.idHash }
          let free := ((List.range 8).find? (fun j => fld rec_ (17 + 64 * j) 1 == 0)).getD 7
          let m := fun (j : Nat) => if j = free then own else
            ({ serial := fld rec_ (8 + 64 * j) 8, position := fld rec_ (16 + 64 * j) 1, state := fld rec_ (17 + 64 * j) 1,
               idHash := slice rec_ (24 + 64 * j) 48 } : Member)
          Fn.change clearStaging
          Fn.done (ans ++ sig) [.pairAccept (chainRecordBytes (fld rec_ 0 4 + 1) (members + 1) m) key serialX (fld rec_ 0 4 + 1)
            (padTo 97 idk ++ padTo 97 akEc ++ padTo 1952 akPq)]) (fun _ u => clearStaging u)) s1)) ∧
      (s.mayCompute k (· == 0xA3) → (Fn.auth k x 0xA3 0 0 4).gives t i s1 → s1.pair.offer ≠ [] → s1.mayOffer = true →
        s1.pair.epoch = s1.pair.offerEpoch → [1, 2, 3, 4, 5].all (fun i => (s1.staged i).complete) = true →
        exec (.pairConfirm k) s = .next (s.endedBy k (Fn.orRefuse (do
          let (idk, akEc, akPq) ← Fn.get! (stagedKeys s1) stPairPeerInvalid
          let a := (s1.staged 5).bytes
          let n := fld a 1200 2
          let c ← Fn.get! (readColophon akEc akPq (slice a 1204 n)) stPairPeerInvalid
          let c4 ← Fn.get! (readColophon akEc akPq (s1.staged 4).bytes) stPairPeerInvalid
          Fn.need (fld a 0 1 == 1 && decide (a.length = 1308 + n) && peerOk idk c s1.pair.offerNonce &&
            peerOk idk c4 s1.pair.offerNonce &&
            verify384 (idk.drop 1) (sha384B (ascii "SKZ2 pair answer" ++ sha384B s1.pair.offer ++ a.take (1212 + n))) (a.drop (1212 + n)))
            stPairPeerInvalid
          Fn.need (s1.pair.peers == [] || s1.pair.peers.contains c.idHash) stPairPeerInvalid
          let ey := slice a 12 97
          let z ← Fn.get! (ecdhX (s1.pair.offerKeys.take 48) ey) stPairPeerInvalid
          let ss := mlKemDecaps (s1.pair.offerKeys.drop 48) (slice a 112 1088)
          let serialY := fld a 4 8
          let key := pairKeyOf s1.pair.offer z ss Config.serial.toNat serialY ey
          let kcv := kcvOf { alg := 5 } key
          Fn.need (slice a (1204 + n) 6 == kcv) stPairPeerInvalid
          Fn.change clearStaging
          Fn.done (kcv ++ zeros 2) [.pairConfirm key serialY c.idHash (padTo 97 idk ++ padTo 97 akEc ++ padTo 1952 akPq)])
          (fun _ u => clearStaging u)) s1)) ∧
      (s.mayCompute k (· == 0xA4) → (Fn.auth k x 0xA4 0 0 4).gives t i s1 → s1.paired = true → s1.dev.state = .service →
        s1.position = 0 → s1.soleActive = false → s1.boot.drain = none →
        exec (.pairHandover k) s = .next (s.ended k { effects := [.arm .handoverDrain] } s1)) ∧
      (s.mayCompute k (· == 0xA5) → (Fn.auth k x 0xA5 0 0 4).gives t i s1 → s1.paired = true → s1.dev.state = .standby →
        s1.position = 1 → (s1.member s1.pair.slot).state = 1 →
        exec (.pairTakeover k) s = .next (s.ended k { effects := [.arm (.declareTakeover 2)] } s1))) ∧
    (s.mayCompute k (· == 0xA6) → layoutOk p 12 [(5, 3)] = true → fld p 4 1 ≤ 1 → (Fn.auth k x 0xA6 0 0 8).gives t i s1 →
      s1.paired = true → (fld p 4 1 = 1 ∨ (s1.position = 0 ∧ s1.pair.confirmed = false)) →
      exec (.pairLeave k) s = .next (s.ended k { effects := [.pairLeave (fld p 4 1 == 1)] } s1))

/-- For every state and slot whose request may be computed now, with its layout: JOURNAL_BATCH of no lower epoch on a paired
standby, a part not yet held, is noted as heard from ahead, kept, forwarded on both paths to the successor where there is one,
and appended once its batch is complete and the vault holds a folio, and a part already held only counts as a repeat; HEARTBEAT
of no lower epoch is noted as heard, updates the sender's held folio where the sender is a member, and answers the device's own
heartbeat; SNAPSHOT on a syncing standby keeps the part and, when it is the last missing one, takes the snapshot and appends the
batches that follow it. The first and the last answer the folio held. (R438, R440, R443, R445, R449.) -/
def Obligations.MemberFunctions : Prop :=
  ∀ (s : State) (k : Nat),
    let x := s.asked k
    let p := x.payload
    let t := s.computing k
    (let b : BatchPart := { folio := fld p 8 6, part := fld p 14 1, parts := fld p 15 1, records := p }
     let u := heardAhead t x false
     let answers := fun (w : State) =>
       exec (.journalBatch k) s = .next (s.ended k { result := beBytes 6 w.vault.heldFolio ++ zeros 2 } w)
     s.mayCompute k (· == 0xA8) → 20 ≤ p.length → prologueOk p 0 = true → zeroAt p 18 2 = true → 1 ≤ fld p 15 1 → fld p 15 1 ≤ 16 →
     fld p 14 1 < fld p 15 1 → t.pair.epoch ≤ fld p 4 4 → t.paired = true → t.dev.state = .standby →
     ((∃ q ∈ t.pair.parts, q.folio = b.folio ∧ q.part = b.part) → answers (u.pairCnt 2 1)) ∧
     ((∀ q ∈ t.pair.parts, ¬ (q.folio = b.folio ∧ q.part = b.part)) →
       let kept := keepPart u b
       let sent := match kept.slotAt (kept.position + 1) with
         | some j => sendBoth kept j 0xA8 p
         | none => kept
       (sent.vault.heldFolio = 0 → answers sent) ∧
       (sent.vault.heldFolio ≠ 0 → answers (appendComplete sent.folioGap sent)))) ∧
    (s.mayCompute k (· == 0xA9) → layoutOk p 20 [(10, 2), (18, 2)] = true → fld p 8 1 ≤ 7 → t.pair.epoch ≤ fld p 4 4 →
      let u := heardAhead t x true
      let j := fld p 8 1
      let w := if (u.member j).state = 0 then u else u.putMember j { u.member j with held := fld p 12 6 }
      exec (.heartbeat k) s = .next (s.ended k { result := w.heartbeatBytes } w)) ∧
    (let part := fld p 4 4
     let parts := fld p 8 4
     s.mayCompute k (· == 0xAA) → 12 ≤ p.length → part < parts → prologueOk p 0 = true → t.paired = true → t.dev.state = .standby →
     (t.member t.pair.slot).state = 2 →
     let u := heardAhead t x false
     let got := tabPut [] (if u.pair.snapshotParts = parts then u.pair.snapshot else []) part (p.drop 12)
     let v := { u with pair := { u.pair with snapshot := got, snapshotParts := parts } }
     let w := if got.length = parts then
         let q := takeSnapshot v (got.flatMap (·.2))
         appendComplete q.folioGap { q with pair := { q.pair with snapshot := [], snapshotParts := 0 } }
       else v
     exec (.snapshot k) s = .next (s.ended k { result := beBytes 6 w.vault.heldFolio ++ zeros 2 } w))

/-- For every state and slot whose request may be computed now, with the lengths of Table 3.8: MGMT_READ of 1 to 256 aligned defined
registers without RNG_RANDOM among them ends with the big-endian words read in address order, each read acting on the state the
one before left; MGMT_WRITE of such a range whose commit groups are not armed ends with OK and writes its words at its commit
point; MGMT_COMMIT of groups 1 to 4 discards the staged copy under flag 0, answers EFFECTIVE 0 for a clean group, and arms a
dirty group whose rules hold for the earliest target tick, or for the one given where flag 1 asks for one not before it and at
most 2^20 ahead, not before any armed group's, and answers that tick; in a chain it is journalled. (R45, R46, R47, R48, R49,
R86.) -/
def Obligations.ManagementFunctions : Prop :=
  ∀ (s : State) (k : Nat),
    let x := s.asked k
    let p := x.payload
    let t := s.computing k
    (let addr := fld p 0 4
     let n := fld p 4 2
     1 ≤ n → n ≤ 256 → addr % 4 = 0 → (∀ i, i < n → undefinedAddr (addr + 4 * i) = false) →
     (∀ words, s.mayCompute k (· == 1) → p.length = 8 → (∀ i, i < n → isRandomReg (addr + 4 * i) = false) →
       words = (List.range n).foldl (fun (q : Bytes × State) i =>
         let r := regRead q.2 x.chan (addr + 4 * i)
         (q.1 ++ beBytes 4 r.1, r.2)) ([], t) →
       exec (.mgmtRead k) s = .next (s.ended k { result := words.1 } words.2)) ∧
     (s.mayCompute k (· == 2) → p.length = 8 + 4 * n → (∀ g ∈ groupsOf addr n, (t.group g).state ≠ .armed) →
       exec (.mgmtWrite k) s = .next (s.ended k
         { effects := [.mgmtWrite addr ((chunks 4 (p.drop 8)).map (fun w => fld w 0 4)) x.chan] } t))) ∧
    (let g := fld p 0 1
     let flags := fld p 1 1
     let y := t.group g
     s.mayCompute k (· == 3) → p.length = 8 → 1 ≤ g → g ≤ 4 → y.state ≠ .armed →
     (flags.testBit 0 = true →
       exec (.mgmtCommit k) s = .next (s.ended k { result := zeros 12 }
         (t.putGroup g { y with state := .clean, staged := [], writes := 0, lastRefused := false }))) ∧
     (flags.testBit 0 = false → y.state = .clean →
       exec (.mgmtCommit k) s = .next (s.ended k { result := zeros 12 } (t.putGroup g { y with lastRefused := false }))) ∧
     (flags.testBit 0 = false → y.state = .dirty →
       let early := folioAdd t.folio.now t.commitLead
       let target := if flags.testBit 1 then fld p 2 6 else early
       folioReached target early = true → folioDiff target t.folio.now ≤ 2 ^ 20 →
       (∀ h, h < 5 → (t.group h).state = .armed → folioReached target (t.group h).folio = true) → t.ruleFails g = none →
       let u := t.putGroup g { y with state := .armed, folio := target, lastRefused := false }
       let e : ArmedEffect := { folio := some target, slot := some k, effect := .commitGroup g }
       let v := { u with folio := { u.folio with effects := u.folio.effects ++ [e] } }
       exec (.mgmtCommit k) s = .next (s.ended k { result := beBytes 6 target ++ zeros 6 }
         (if v.paired then v.journal 7 (configBody g target y.staged) else v))))

/-- For every state and slot whose request may be computed now: HS_RESPOND, for a reduced ML-KEM key and a valid ephemeral point in
HS1 and randomness drawn, forms HS2 with the device's ephemeral key and ciphertext, signs it with both attestation keys, seals
the signatures, and ends with OK and HS2 with the handshake keys as its effect; HS_FINISH, for a registered key that passes its
checks, ends with OK, with the opening of the channel under both traffic keys where the client's signature verifies and with its
refusal where it does not; REC_HEAD for a nonce of 16 to 64 bytes signs the map of the heads of its admission tick; REC_READ
answers the records of its area among the 8 numbers from INDEX on that the sender may see. (R77, R78, R79, R269, R467.) -/
def Obligations.HandshakeAndRecorderFunctions : Prop :=
  ∀ (s : State) (k : Nat),
    let x := s.asked k
    let p := x.payload
    let t := s.computing k
    (∀ (rnd : Bytes) (s1 : State),
      let c := t.chan x.chan
      let ek := slice p 164 1184
      let eph := slice rnd 32 48
      let kem := mlKemEncaps ek (rnd.drop 80)
      let clear := rnd.take 32 ++ [4] ++ public384 eph ++ padTo 1088 kem.1
      let h := srpHeader 4 false 0 c.tenant (chanId x.chan c) (fld p 8 8) []
      let msg := deviceMessage p (h ++ clear)
      s.mayCompute k (· == 0xC0) → ekUnreduced (ek.take 1152) = false → (Fn.draw 112).gives t rnd s1 →
      exec (.hsRespond k) s = .next (s.endedBy k (do
        let z ← Fn.get! (ecdhX eph (slice p 64 97)) stPointNotOnCurve
        let prk := handshakePrk p z kem.2
        let key := handshakeKey prk "SKZ2 hs d2c"
        let ec ← Fn.ecdsaSign p384 (beNat t.ks.akEc) (sha384B msg)
        let pq ← Fn.mlDsaSign t.ks.akPq [] msg
        let sealed := gcmSeal key (zeros 12) (h ++ clear) (padTo 48 t.ks.attestId ++ ec ++ pq)
        Fn.done [] [.hs2 x.chan (h ++ clear ++ sealed.1 ++ sealed.2) prk (handshakeKey prk "SKZ2 hs c2d") key]) s1)) ∧
    (let n := (p.length - 48) / 2
     let c := t.chan x.chan
     let key := t.clientKey c.tenant c.clientKey
     let hs3 := p.take 32 ++ p.drop (32 + n)
     s.mayCompute k (· == 0xC1) → sha384B key.pub = key.digest →
     (key.alg = 1 → fld key.pub 0 1 = 4 ∧ fld key.pub 1 48 < p384.p ∧ fld key.pub 49 48 < p384.p ∧
       p384.has (fld key.pub 1 48) (fld key.pub 49 48) = true) →
     exec (.hsFinish k) s = .next (s.ended k
       { effects := [if clientSigned key (clientMessage c.hs1 c.hs2) (slice p 32 n) then
           .channelOpen x.chan (trafficKey c.prk "SKZ2 c2d" c.hs1 c.hs2 hs3) (trafficKey c.prk "SKZ2 d2c" c.hs1 c.hs2 hs3)
         else .channelRefuse x.chan] } t)) ∧
    (∀ n, s.mayCompute k (· == 0xB0) → n = fld p 4 1 → layoutOk p (8 + n) [(5, 3)] = true → 16 ≤ n → n ≤ 64 →
      let h := x.head.getD t.recHead
      exec (.recHead k) s = .next (s.endedBy k (do
        let c ← Fn.coseSign (recHeadMap t x h (p.drop 8))
        Fn.done (beBytes 2 c.length ++ zeros 6 ++ c)
          [.eventOnCommit evRecHeadIssued srcRecorder x.tenant (items [(4, h.next), (8, x.admitTick * 65536)])]) t)) ∧
    (s.mayCompute k (· == 0xB1) → layoutOk p 12 [(5, 3)] = true → fld p 4 1 ≤ 1 →
      let l := if fld p 4 1 = 0 then t.recorder.tail else t.recorder.front
      let seen := l.filter (fun q => decide (fld p 8 4 ≤ q.1 ∧ q.1 < fld p 8 4 + 8) && (x.tenant == 0 || q.2.tenant == x.tenant))
      exec (.recRead k) s = .next (s.ended k
        { result := beBytes 1 seen.length ++ zeros 7 ++ seen.flatMap (fun q => beBytes 4 q.1 ++ zeros 4 ++ recordBytes q.2) } t))

/-- In guarded mode the guard of a slot is the value of its predicate (local bit PRED; p0 is true), inverted if INV is 1, so that
guard 0000 always executes and guard 1000 never does. The predicate values are those of the core before the bundle's writes
(c0), whatever the moves before this one have done (acc). A move whose guard is false leaves everything as it was: it writes
nothing, starts nothing and raises no fault. Whether a slot's guard holds takes no part in the decoding of a bundle, so that a
guarded-off slot's long immediate is skipped like any other: where every guard of a bundle is false and no loop ends at it, the
next bundle is the one that the decoding names, one cycle later. (R159.) -/
def Obligations.GuardFalseDoesNothing : Prop :=
  (∀ (env : IssueEnv) (pc t next : Nat) (c0 : Core) (acc : Acc) (m : Move), c0.guard m = false →
    applyMove env pc t next c0 acc m = acc) ∧
  (∀ (c0 : Core) (m : Move), m.pred < 8 →
    c0.guard m = xor (if m.pred = 0 then true else tabGet false c0.bits m.pred) m.inv) ∧
  (∀ (c0 : Core) (m : Move), m.pred = 0 → c0.guard m = !m.inv) ∧
  (∀ (env : IssueEnv) (c0 : Core) (ms : List Move) (next : Nat), c0.ctl.guarded = true → (∀ m ∈ ms, (c0.mature c0.time).guard m = false) →
    waitMask (c0.mature c0.time) env.kind ms = none → c0.ctl.loops = [] →
    ∃ a, issue env c0 ms next = .ok a ∧ a.c.pc = next ∧ a.c.time = c0.time + 1 ∧ a.fault = none ∧ a.enter = none ∧
      a.c.g = c0.g ∧ a.c.w = c0.w ∧ a.c.dmem = c0.dmem ∧ a.c.accesses = c0.accesses)

/-- For every state and transaction core, BUNDLE_ISSUE and WAITF_SATISFIED answer a next state. Where the core runs, does not stall,
its bundle decodes, and neither an access due before it nor the end of the budget comes first: a bundle whose moves take effect
leaves the core as those moves leave it, and the rest of the block as it was, performance counters and their events apart; a
move to ENTER enters the task; a WAITF whose mask is not satisfied makes the core wait; an illegal bundle or move, or a fault in
its cycle, stops the core. Where the core does not run or stalls, nothing happens. WAITF_SATISFIED issues the bundle of a
waiting core after the cycles waited, where its task's flags satisfy the mask within the bound and the budget. (R152, R154,
R159, R165, R167, R183, R186, R193.) -/
def Obligations.BundleIssueCompletes : Prop :=
  ∀ (s : State) (core : Nat), core < 128 →
    let c := s.core core
    let word := fun i => tabGet 0 c.imem i
    (∀ cycles, ∃ u : State, exec (.waitfSatisfied core cycles) s = .next u) ∧
    (∃ u : State, exec (.bundleIssue core) s = .next u) ∧
    (s.coreRuns core = false ∨ c.stall ≠ .none → exec (.bundleIssue core) s = .next s) ∧
    (∀ (ms : List Move) (next : Nat), s.coreRuns core = true → c.stall = .none → decodeBundle word c.pc = some (ms, next) →
      (let t := stallTo c ms c.time
       (∀ x ∈ c.accesses, t ≤ x.due) → (c.entered = true → t - c.time < c.budget) →
       match issue (s.issueEnv core) (c.pass (t - c.time)) ms next with
       | .ok a => ∃ u : State, u = { s with pmc := u.pmc, recorder := u.recorder, rng := u.rng } ∧ exec (.bundleIssue core) s =
           match a.fault, a.enter with
           | some f, _ => .next (stopCore (u.putCore core a.c) core (.protection f.kind) c.pc f)
           | none, some _ => .next (enterTask u core a.c)
           | none, none => .next (u.putCore core a.c)
       | .waiting mask => exec (.bundleIssue core) s =
           .next (s.putCore core { (c.pass (t - c.time)) with stall := .waitf mask (t + c.ctl.wb) })
       | .illegalBundle => exec (.bundleIssue core) s = .next (stopCore s core .bundle c.pc noAddress)
       | .illegalMove => exec (.bundleIssue core) s = .next (stopCore s core .move c.pc noAddress))) ∧
    (∀ (mask : BitVec 32) (last cycles : Nat), c.stall = .waitf mask last → s.coreRuns core = true → s.satisfies core mask = true →
      c.time + cycles ≤ last → (c.entered = true → cycles < c.budget) → (∀ x ∈ c.accesses, c.time + cycles ≤ x.due) →
      ∃ u : State, u = { s with pmc := u.pmc, recorder := u.recorder } ∧
        exec (.waitfSatisfied core cycles) s = issueBundle (u.putCore core { (c.pass cycles) with stall := .none }) core)

/-- For every state and core: where the core waits at WAITF, its mask is not satisfied and the bound does not come after the end of
an entered task's budget, WAIT_BOUND_EXPIRY stops the core at its bundle with the cause wait, the cycles to the bound having
passed; where the budget of the core's task has run out, or runs out while it waits or stands at issue, BUDGET_EXPIRY stops it
with the cause overrun; where the core tests its bit space, BTEST_COMPLETE ends the test after 10,240 cycles with every local
bit zero and BTEST_PASS as the result says. Otherwise each answers the state unchanged. (R115, R183, R185, R187.) -/
def Obligations.WaitsAndBudgets : Prop :=
  ∀ (s : State) (core : Nat), let c := s.core core
    (∀ mask last, c.stall = .waitf mask last → s.satisfies core mask = false → (c.entered = true → last - c.time ≤ c.budget) →
      exec (.waitBoundExpiry core) s = .next (stopCore (s.putCore core (c.pass (last - c.time))) core .wait c.pc noAddress)) ∧
    exec (.budgetExpiry core) s =
      .next (if s.budgetOut core then stopCore (s.putCore core (c.pass c.budget)) core .overrun c.pc noAddress else s) ∧
    (∀ pass, c.stall = .btest → ∃ u : Core, exec (.btestComplete core pass) s = .next (s.putCore core u) ∧ u.stall = .none ∧ u.bits = [] ∧
      u.time = c.time + 10240 ∧ u.ctl = { c.ctl with btestPass := pass } ∧ u.g = c.g ∧ u.w = c.w ∧ u.dmem = c.dmem ∧
      u.imem = c.imem ∧ u.task = c.task ∧ u.pc = c.pc) ∧
    (∀ pass, c.stall ≠ .btest → exec (.btestComplete core pass) s = .next s) ∧
    ((∀ mask last, c.stall ≠ .waitf mask last) → exec (.waitBoundExpiry core) s = .next s)

/-- For every state and core whose next access is due before its next bundle, or which stalls: DELAYED_ACCESS_PERFORM takes the
access off the core and answers a next state. A store that no address refuses writes its bytes there, least significant byte at
the lowest address, takes the reservations of the other cores of the block that it meets, and changes nothing else; a load puts
the bytes of permitted addresses on the LD port at its ready cycle; a store-conditional stores and answers 0 where the
reservation stands and answers 1 otherwise, and clears the reservation; a write of a port outside the request-memory window does
what the port does. An access that an address refuses stops the task with a protection fault of the kind found, at the lowest
address refused. Where no access is due the command leaves the state unchanged. (R167, R169, R170, R171, R211, R216.) -/
def Obligations.DelayedAccesses : Prop :=
  ∀ (s : State) (core : Nat) (x : Access), (s.core core).nextAccess = some x →
    (¬ (x.due < (s.core core).time ∨ (s.core core).stall ≠ .none) → exec (.delayedAccessPerform core) s = .next s) ∧
    (x.due < (s.core core).time ∨ (s.core core).stall ≠ .none →
      (let s0 := s.modCore core (fun c => { c with accesses := c.accesses.erase x })
       let fits := fun (sp : Space) (write : Bool) (n : Nat) => accessFault s0 core x sp write n
       (∃ u : State, exec (.delayedAccessPerform core) s = .next u) ∧
       (∀ n v, x.op = .store n v → fits .data true n = none →
         exec (.delayedAccessPerform core) s = .next (farStore s0 core x.addr (beBytes n v.toNat))) ∧
       (∀ n v f, x.op = .store n v → fits .data true n = some f →
         exec (.delayedAccessPerform core) s = .next (stopCore s0 core (.protection f.kind) x.pc f)) ∧
       (∀ n, x.op = .load n → fits .data false n = none → exec (.delayedAccessPerform core) s =
         .next (s0.result core .lsuLd x.ready (BitVec.ofNat 128 (beNat (farRead s0 core
           (fun y => (s0.checkAt core x.windows .data false y).isNone) x.addr n))))) ∧
       (∀ v, x.op = .storeConditional v → fits .data true 8 = none →
         (let s1 := s0.modCore core (fun c => { c with reservation := none })
          exec (.delayedAccessPerform core) s = .next
            (if (s0.core core).reservation.isSome then (farStore s1 core x.addr (bytes64 v)).result core .lsuSc x.ready 0
             else s1.result core .lsuSc x.ready 1))) ∧
       (∀ v, x.op = .ioWrite 16 v → x.computed = false → inWindow x.addr = false → fits .io true 1 = none →
         exec (.delayedAccessPerform core) s =
           .next (match portWrite s0 core x.pc x.addr v with
             | (u, some kind) => stopCore u core (.protection kind) x.pc { kind := kind, addr := x.addr, space := .io, write := true }
             | (u, none) => u))))

/-- For every state: a TAKE of a free transaction core in guarded mode puts the core at the end of those waiting, at TAKE; TASK_GIVE
gives the first ready entry of a block to the core that has waited longest: that core holds the task, no longer stalls, and
reads the task word of Table 5.4 from IOR, local memory and bits cleared where the tenant changes, while the slot is RUNNING and
the entry and the core leave their lists; FLAG_CLR clears the flags 3 to 11 that are 1 in the value, and no other; a DELAY of 0
sets the DELAY flag at once, another clears it and enters the time, so many delay ticks on; a DONE within the declared length
ends the task with the status and the bytes of the window that it names, or those its function computed, unless the task's bulk
job is handed to the engines. Tables are taken in canonical form, the form that every operation on them keeps. (R137, R138,
R139, R140, R141, R142, R188.) -/
def Obligations.TasksComeAndGo : Prop :=
  ∀ (s : State) (core : Nat), s.canonical = true →
    (core < 128 → (s.core core).ctl.guarded = true → (s.core core).task = none → (s.core core).stall ≠ .halted →
      (s.core core).stall ≠ .held → ∃ u : State, exec (.take core) s = .next u ∧ u = { s with cores := u.cores, sq := u.sq } ∧
        u.core core = { s.core core with stall := .take, resume := (s.core core).pc } ∧
        u.sq = { s.sq with takers := s.sq.takers.filter (fun i => decide (i ≠ core)) ++ [core] }) ∧
    (∀ (block : Nat) (e : ReadyEntry), s.readyFor block = some e → s.taker block = some core → (s.slot e.slot).live = true →
      ∃ u : State, exec (.taskGive block) s = .next u ∧ (u.core core).task = some { slot := e.slot, node := e.node, req := (s.slot e.slot).req } ∧
        (u.core core).stall = .none ∧ (u.core core).entered = false ∧
        (u.core core).iou.ior = (taskWordOf (s.slot e.slot) e.slot e.node).zeroExtend 128 ∧ (u.slot e.slot).state = .running ∧
        (u.core core).dmem = (if (s.core core).lastTenant = some (s.slot e.slot).tenant then (s.core core).dmem else []) ∧
        core ∉ u.sq.takers ∧ u.ks = s.ks ∧ u.folio = s.folio ∧ u.lc = s.lc) ∧
    (∀ (k n : Nat) (x : Slot) (v : Word64), s.taskOf core = some (k, x, n) →
      exec (.flagClr core v) s =
        .next (s.modSlot k (fun x => x.modNode n (fun d => { d with flags := d.flags &&& ~~~ (v.truncate 32 &&& 0xFF8) }))) ∧
      exec (.delay core v) s = .next (
        let s1 := s.dropDelay k (some n)
        if v.toNat % 65536 = 0 then s1.setFlag k n flagDelay
        else (s1.clearFlag k n flagDelay).addDelay { time := (s.delayTime + v.toNat % 65536) % 2 ^ 54, slot := k, node := some n }) ∧
      (s.jobOf k = none → x.outcome = none → bitsOf v.toNat 13 0 ≤ (if n = x.lastNode then x.cost.lmax else 0) →
        exec (.doneTask core v) s =
          .next (nodeEnd s core k n (bitsOf v.toNat 31 16) (memRead x.window 0 (bitsOf v.toNat 13 0)))) ∧
      (∀ o, s.jobOf k = none → x.outcome = some o → exec (.doneTask core v) s = .next (nodeEnd s core k n o.status o.result)))

/-- For every state and slot of an admitted request at its miss point without a commit point, MISS_POINT answers a next state: the
requests before it in its order that are still open are ended first, then its own tasks are stopped and it is committed with
DEADLINE_MISSED and no result, and the held replies that this frees follow. A reply that has its commit point and still waits
for its journal acknowledgement becomes DEADLINE_MISSED, keeping its stamp. A request not at its miss point, or committed and
not held for the journal, is left as it is. (R114, R145, R444.) -/
def Obligations.MissPoints : Prop :=
  ∀ (s : State) (k : Nat), let x := s.slot k
    (x.wasAdmitted = true → s.atMissPoint x = true → x.journalHeld = false → x.commit = none →
      (∃ u : State, exec (.missPoint k) s = .next (releaseHeld (u.sq.slots.length + 1) u) ∧
        (s.earlierOpen x = [] → u = commitNow (stopSlot s k) k stDeadlineMissed []))) ∧
    (x.wasAdmitted = true → s.atMissPoint x = true → x.journalHeld = true →
      ∃ u : State, exec (.missPoint k) s = .next u ∧ u = { s with sq := u.sq, adm := u.adm, pmc := u.pmc, recorder := u.recorder, pair := u.pair } ∧
        u.slot k = { x with status := stDeadlineMissed, result := [], journalHeld := false, state := .sending }) ∧
    (x.wasAdmitted = false ∨ s.atMissPoint x = false ∨ (x.commit.isSome = true ∧ x.journalHeld = false) →
      exec (.missPoint k) s = .next s)

/-- For every state and core: WIN_SET of a space, a base and a limit that are aligned (8 bytes, or 64 bits in bit space), rising,
and both inside one segment of the core's protection unit sets the named window with those bounds and the permissions asked for
that the segment has, and leaves every other window, every segment and the rest of the block alone; a space code of 3, a
misaligned or falling pair of bounds, or bounds that no one segment holds stop the task with a protection fault of kind
WINDOW_INVALID; WIN_CLR clears exactly the windows whose bits are 1. Read through the unit's table in canonical form. (R210,
R214, R215.) -/
def Obligations.WindowsAndFlags : Prop :=
  ∀ (s : State) (core : Nat), tabWf {} s.cores.mpu = true →
    (∀ (v : Word128) (sp : Space) (p : Nat × Region),
      let base := bitsOf v.toNat 127 96
      let limit := bitsOf v.toNat 95 64
      let g := if sp = .bit then 64 else 8
      spaceOf (bitsOf v.toNat 5 4) = some sp → base % g = 0 → (limit + 1) % g = 0 → base ≤ limit →
      (s.mpu core).segments.find? (fun p => p.2.has sp base && p.2.has sp limit) = some p →
      ∃ u : State, exec (.winSet core v) s = .next u ∧ u = { s with cores := { s.cores with mpu := u.cores.mpu } } ∧
        (u.mpu core).segments = (s.mpu core).segments ∧ (∀ i, i ≠ core → u.mpu i = s.mpu i) ∧
        tabGet {} (u.mpu core).windows (bitsOf v.toNat 10 8) =
          { valid := true, space := sp, base := base, limit := limit, r := v.getLsbD 0 && p.2.r, w := v.getLsbD 1 && p.2.w } ∧
        ∀ w, w ≠ bitsOf v.toNat 10 8 → tabGet {} (u.mpu core).windows w = tabGet {} (s.mpu core).windows w) ∧
    (∀ (v : Word128), winSetOp s core v = none →
      exec (.winSet core v) s = .next (stopCore s core (.protection 4) (s.core core).pc { kind := 4, addr := 0x68, space := .io, write := true })) ∧
    (∀ (v : Word64), ∃ u : State, exec (.winClr core v) s = .next u ∧ u = { s with cores := { s.cores with mpu := u.cores.mpu } } ∧
      (∀ i, i ≠ core → u.mpu i = s.mpu i) ∧ (u.mpu core).segments = (s.mpu core).segments ∧
      ∀ w, tabGet {} (u.mpu core).windows w = if v.getLsbD w then {} else tabGet {} (s.mpu core).windows w)

/-- For every state and core that runs a task: KLOOK looks up the key reference at the payload offset named, for the task's tenant
as of its admission tick, binds the handle named to what was found, and marks the request submitted with KEY_RESIDENT clear;
KUNWRAP, with none before it open, marks its handle and clears UNWRAP_DONE, and one before UNWRAP_DONE is a protection fault of
kind SUBMISSION; UNWRAP_COMPLETE binds that handle to the key the block opens to, or its status, and sets UNWRAP_DONE; KDLOOK
binds a handle to the cached child of another; KDSTORE caches a child; CADV advances the use counter over the 64 bits written
and leaves its status; KREL frees a handle; KEY_REQUEST_COMPLETE sets KEY_RESIDENT of a submitted request. (R259, R260, R264,
R265, R266.) -/
def Obligations.KeyPorts : Prop :=
  ∀ (s : State) (core k n : Nat) (x : Slot) (v : Word64), s.taskOf core = some (k, x, n) →
    (let r := lookupRef s x.tenant x.admitTick x.payload (krefAt x.payload (v.toNat % 65536))
     exec (.klook core v) s = .next ((r.2.putHandle core (bitsOf v.toNat 17 16) r.1).keySubmitted core)) ∧
    (tabGet 0 s.cores.unwrap core = 0 → exec (.kunwrap core v) s = .next
      ({ s with cores := { s.cores with unwrap := tabPut 0 s.cores.unwrap core (bitsOf v.toNat 17 16 + 1) } }.taskFlag core
        flagUnwrapDone false)) ∧
    (tabGet 0 s.cores.unwrap core ≠ 0 → exec (.kunwrap core v) s = .next (portFault s core 8 0x108)) ∧
    (∀ h, tabGet 0 s.cores.unwrap core = h + 1 → (s.handle core h).missed ≠ [] →
      (let r := unwrapBlock s x.tenant x.admitTick (s.handle core h).missedSlot (s.handle core h).missed
       exec (.unwrapComplete core) s = .next (({ r.2 with cores := { r.2.cores with unwrap := tabPut 0 r.2.cores.unwrap core 0 } }.putHandle
         core h r.1).taskFlag core flagUnwrapDone true))) ∧
    (let r := lookupChild s (s.handle core (bitsOf v.toNat 17 16)) (s.kdigOf core)
     exec (.kdlook core v) s = .next ((r.2.putHandle core (bitsOf v.toNat 19 18) r.1).keySubmitted core)) ∧
    exec (.kdstore core v) s = .next (storeChild s (s.handle core (bitsOf v.toNat 17 16)) (s.handle core (bitsOf v.toNat 19 18))
      (s.kdigOf core) (bitsOf v.toNat 22 20)) ∧
    (let iod := BitVec.ofNat 128 ((s.core core).iou.iod.toNat / 2 ^ 64 * 2 ^ 64 + v.toNat)
     let w := iod.toNat
     let r := advance s x.tenant x.admitTick x.req (w % 65536) (bitsOf w 63 32) (bitsOf w 127 120) (bitsOf w 119 112) (beBytes 10 (bitsOf w 111 32))
     let t := if r.1 = stOk then r.2.modSlot k (fun y => { y with claims := y.claims ++ [(w % 65536, bitsOf w 63 32)] }) else r.2
     exec (.cadv core v) s = .next ({ t with cores := { t.cores with cstat := tabPut 0 t.cores.cstat core r.1 } }.keySubmitted core)) ∧
    exec (.krel core v) s = .next (s.putHandle core (v.toNat % 4) {}) ∧
    (tabGet false s.cores.keyBusy core = true → exec (.keyRequestComplete core) s =
      .next ({ s with cores := { s.cores with keyBusy := tabPut false s.cores.keyBusy core false } }.taskFlag core flagKeyResident true))

/-- For every state and core that runs a task: an RREQ whose n (bits 3:0) lies outside 1 to 8, an RTEN whose n (bits 8:0) lies
outside 1 to 256, an RTEN whose offset (bits 31:16) is not a multiple of 16 or whose blocks extend past the result window, an
RTEN from a function outside the 0x09xx group, and any RREQ or RTEN issued while the task's previous draw has not yet set
RANDOM_READY, stop the task with a protection fault of kind SUBMISSION (8). Every other RREQ or RTEN is taken: the core's draw
is pending, RANDOM_READY is clear, and nothing else of the block changes. (R340.) -/
def Obligations.RandomSubmissions : Prop :=
  ∀ (s : State) (core k n : Nat) (x : Slot) (v : Word64), s.taskOf core = some (k, x, n) →
    let busy := (s.randPort core).draw.isSome
    let fault := fun (a : Nat) => Host.Outcome.next (stopCore s core (.protection 8) (s.core core).pc
      { kind := 8, addr := a, space := .io, write := true })
    let taken := fun (d : Bool × Nat × Nat) =>
      Host.Outcome.next ((s.putRandPort core { s.randPort core with draw := some d }).taskFlag core flagRandomReady false)
    (let m := bitsOf v.toNat 3 0
     (m < 1 ∨ 8 < m ∨ busy = true → exec (.rreq core v) s = fault 0x200) ∧
     (1 ≤ m → m ≤ 8 → busy = false → exec (.rreq core v) s = taken (false, m, 0))) ∧
    (let m := bitsOf v.toNat 8 0
     let off := bitsOf v.toNat 31 16
     (m < 1 ∨ 256 < m ∨ off % 16 ≠ 0 ∨ x.windowSize < off + 16 * m ∨ x.func / 256 ≠ 0x09 ∨ busy = true →
       exec (.rten core v) s = fault 0x208) ∧
     (1 ≤ m → m ≤ 256 → off % 16 = 0 → off + 16 * m ≤ x.windowSize → x.func / 256 = 0x09 → busy = false →
       exec (.rten core v) s = taken (true, m, off)))

/-- For every state and core that runs a task and handle 0 to 3: BOPEN of a defined, unpaired OP with a fitting curve on a FREE
handle opens it with the engine that R280 picks, whose owner it becomes, in a clean bank, or REFUSED where no engine is ready;
on a handle that is not FREE it is a protection fault. BPTR sets the pointer of an OPEN or DONE handle to a multiple of 16 below
8,192. BIN changes only bank bytes at the pointer inside the areas of the OP and moves the pointer on; on a handle not OPEN it
is a protection fault. BOUT reads zero unless the handle is DONE with OK, zero outside the OP's areas, and moves the pointer on.
BGO starts the job of an OPEN unpaired handle, or ends a REFUSED one with ENGINE_UNAVAILABLE. BABORT and BREL leave a FREE
handle as it is, BREL frees one that is DONE and clears its bank. (R280, R282, R283, R284, R285, R289, R297.) -/
def Obligations.BnPortsWork : Prop :=
  ∀ (s : State) (core k n h : Nat) (sl : Slot), s.taskOf core = some (k, sl, n) → h < 4 →
    let x := s.bnHandle core h
    let fault := fun (o : Nat) => Host.Outcome.next (portFault s core 8 (0x400 + 0x40 * h + o))
    (∀ v : Word64, x.state = .free → opDefined (v.toNat % 256) = true → isEcOp (v.toNat % 256) = false → bitsOf v.toNat 15 8 = 0 →
      isPairedOp (v.toNat % 256) = false →
      (∀ e, s.pickEngine none = some e → ∃ u : State, exec (.bopen core h v) s = .next u ∧ (u.bnHandle core h).state = .open ∧
        (u.bnHandle core h).refused = false ∧ (u.bnHandle core h).engine = e ∧ (u.bnHandle core h).op = v.toNat % 256 ∧
        (u.engine e).owner = some (core, h) ∧ (u.engine e).tenant = sl.tenant ∧
        ((u.engine e).bank (u.bnHandle core h).bank) = { state := .fgOpen } ∧ u.sq = s.sq ∧ u.ks = s.ks) ∧
      (s.pickEngine none = none → ∃ u : State, exec (.bopen core h v) s = .next u ∧ (u.bnHandle core h).state = .open ∧
        (u.bnHandle core h).refused = true ∧ u.bn.engines = s.bn.engines)) ∧
    (∀ v : Word64, x.state ≠ .free → exec (.bopen core h v) s = fault 0) ∧
    (∀ v : Word64, (x.state = .open ∨ x.state = .done → exec (.bptr core h v) s =
        .next (s.putBnHandle core h { x with ptr := v.toNat % 8192 / 16 * 16 })) ∧
      (x.state = .free ∨ x.state = .running → exec (.bptr core h v) s = fault 8)) ∧
    (∀ v : Word128, (x.state = .open → x.refused = false → ((s.engine x.engine).bank x.bank).state = .fgOpen → ∃ u : State, exec (.bin core h v) s = .next u ∧
        (u.bnHandle core h).ptr = (x.ptr + 16) % 8192 ∧ (∀ a, inAreas (binAreas x.op (s.elemSize core x)) a = false ∨ a < x.ptr ∨ x.ptr + 16 ≤ a →
          tabGet 0 ((u.engine x.engine).bank x.bank).mem a = tabGet 0 ((s.engine x.engine).bank x.bank).mem a)) ∧
      (x.state ≠ .open → exec (.bin core h v) s = fault 0x10)) ∧
    (core < 128 → x.state ≠ .free → ∃ w : Word128, exec (.bout core h) s =
        .next ((s.putBnHandle core h { x with ptr := (x.ptr + 16) % 8192 }).result core .iouIor ((s.core core).time + 8) w) ∧
      (x.state ≠ .done ∨ x.status ≠ stOk → w = 0) ∧
      ((∀ i, i < 16 → inAreas (boutAreas x.op (s.elemSize core x)) (x.ptr + i) = false) → w = 0)) ∧
    (∀ v : Word64, x.state = .open → x.odd = false → x.paired = false → isEcOp x.op = false →
      ∃ u : State, exec (.bgo core h v) s = .next u ∧
        (x.refused = false → (u.bnHandle core h).state = .running ∧ (u.bnHandle core h).started = !(s.engine x.engine).sliceRunning ∧
          (u.bnHandle core h).hasKey = (v.getLsbD 2 && (s.handle core (v.toNat % 4)).bound)) ∧
        (x.refused = true → (u.bnHandle core h).state = .done ∧ (u.bnHandle core h).status = stEngineUnavailable)) ∧
    (x.state = .free → exec (.babort core h) s = .next s ∧ exec (.brel core h) s = .next s) ∧
    (x.state = .running → x.paired = false → x.abortStatus = none → ∃ u : State, exec (.babort core h) s = .next u ∧
      (u.bnHandle core h).abortStatus = some stAborted ∧ (u.bnHandle core h).outcome = none ∧
      ((u.engine x.engine).bank x.bank) = { state := .clearing }) ∧
    (x.state = .done → x.refused = false → tabWf {} (tabGet [] s.cores.bn core) = true → tabWf [] s.cores.bn = true →
      ∃ u : State, exec (.brel core h) s = .next u ∧ u.bnHandle core h = {} ∧
        (u.engine x.engine).owner = none ∧ ((u.engine x.engine).bank x.bank) = { state := .clearing })

/-- For every state and engine on which a job is started, and each operation command with an OP of its own: where the inputs pass
the checks of Table 10.6 and the generator serves (or the OP needs neither a private key nor random data), the command answers a
next state in which the job's outcome is the computed status and the bank holds the computed result at the addresses of Table
10.5, nothing else of the bank changed; where a check fails the outcome is the status of the first that does, and the bank is
untouched; where the generator has FAILED and the OP needs it, RANDOM_UNAVAILABLE. A job of another OP, or none, is left as it
is. The results of RSA are stated: v to the power e modulo n for RSA_PUB, and for RSA_PRIV the CRT result where it raised to a
public exponent gives v back. (R287, R293, R294, R295, R296, R298, R299, R300.) -/
def Obligations.BnOperations : Prop :=
  ∀ (s : State) (e : Nat), ∀ p ∈ ([(.rsaPub e, [1, 2, 3]), (.rsaPriv e, [5, 6, 7]), (.mlKemKeygen e, [0x20]), (.bnMlKemEncaps e, [0x21]),
      (.bnMlKemDecaps e, [0x22]), (.mlDsaKeygen e, [0x28]), (.bnMlDsaSign e, [0x29]), (.bnMlDsaVerify e, [0x2A]), (.ecdsaSign e, [0x10]),
      (.ecdsaVerify e, [0x11]), (.ecdh e, [0x12]), (.ecKeygen e, [0x13]), (.ecPointCheck e, [0x14])] : List (Instr × List Nat)),
    (s.jobOn e = none → exec p.1 s = .next s) ∧
    (∀ (core h : Nat) (j : BnJob), s.jobOn e = some (core, h, j) → j.x.op ∈ p.2 → ((s.engine e).bank j.x.bank).state = .fgOpen →
      (s.rng.state = .failed → opUsesRandom j.x.op = true →
        exec p.1 s = .next (s.putBnHandle core h { j.x with outcome := some stRandomUnavailable, refusedInput := true })) ∧
      (¬ (s.rng.state = .failed ∧ opUsesRandom j.x.op = true) → bnValidate j ≠ stOk →
        exec p.1 s = .next (s.putBnHandle core h { j.x with outcome := some (bnValidate j), refusedInput := true })) ∧
      (¬ (s.rng.state = .failed ∧ opUsesRandom j.x.op = true) → bnValidate j = stOk →
        let r := bnCompute j (s.random (randomNeed j)).1
        ∃ u : State, exec p.1 s = .next u ∧ (u.bnHandle core h).outcome = some r.status ∧ (u.bnHandle core h).refusedInput = j.x.refusedInput ∧
          ((u.engine e).bank j.x.bank).mem = r.out.foldl (fun m p => memWrite m p.1 p.2) ((s.engine e).bank j.x.bank).mem ∧
          u = { s with bn := u.bn, cores := u.cores, rng := u.rng } ∧
          (j.x.op = 1 → r = { out := [(0x400, beBytes 256 (powMod (j.num 0x200 256) j.x.e (j.num 0 256)))] }) ∧
          (j.x.op = 5 → powMod ((rsaKeyOf j.key).crt (j.num 0x200 256)) 65537 (rsaKeyOf j.key).n = j.num 0x200 256 →
            r = { out := [(0x400, beBytes 256 ((rsaKeyOf j.key).crt (j.num 0x200 256)))] })))

/-- For every state and engine: ML_DSA_ITERATION of a signing job past its first iterations with enough reserve and time counts one
iteration more and draws on the folio's reserve, and without either the job is aborted with RETRY; BN_JOB_COMPLETE of a job
whose outcome is computed makes its handle DONE with that status, its bank kept only with OK; BANK_CLEAR_COMPLETE makes a
clearing bank clean; BN_SLICE_END of a running slice with no handle open records the progress of the validation and lets it run
on, and with an open handle suspends it; CURVE_VALIDATION_COMPLETE of a running context marks its curve record passed, or
REJECTED with the first check of Table 10.9 that fails, and ends the context. Where nothing of the kind is in progress the state
is unchanged. (R290, R292, R296, R297, R299, R302.) -/
def Obligations.BnEvents : Prop :=
  ∀ (s : State) (e : Nat),
    (∀ core h k n sl, (s.engine e).owner = some (core, h) → s.taskOf core = some (k, sl, n) →
      (let x := s.bnHandle core h
       let left := s.reserveLeft s.folio.now - s.bn.drawn
       x.state = .running → x.op = 0x29 → x.outcome.isSome = true → x.refusedInput = false → x.iterations < x.need →
       (3200 ≤ left → 23600 + 12800 ≤ s.toMissPoint sl → ∃ u : State, exec (.mlDsaIteration e) s = .next u ∧
         u.bn.drawn = s.bn.drawn + min left 23600 ∧ u.bnHandle core h = { x with iterations := x.iterations + 1 }) ∧
       (left < 3200 ∨ s.toMissPoint sl < 23600 + 12800 → exec (.mlDsaIteration e) s = .next (abortJob (countRetry s) core h stRetry)))) ∧
    (∀ core h st, (s.engine e).owner = some (core, h) →
      (let x := s.bnHandle core h
       x.outcome = some st → x.state = .running → x.abortStatus = none → x.op ≠ 0x29 → x.paired = false → x.engine = e →
       ∃ u : State, exec (.bnJobComplete e) s = .next u ∧ (u.bnHandle core h).state = .done ∧ (u.bnHandle core h).status = st ∧
         (u.bnHandle core h).outcome = none ∧ ((u.engine e).bank x.bank).state = .fgDone ∧ ((u.engine e).bank x.bank).key = [] ∧
         ((u.engine e).bank x.bank).mem = (if st = stOk then ((s.engine e).bank x.bank).mem else []))) ∧
    (∀ b, (((s.engine e).bank b).state = .clearing → (s.engine e).owner = none →
        exec (.bankClearComplete e b) s = .next (s.modBank e b (fun _ => {}))) ∧
      (((s.engine e).bank b).state ≠ .clearing → exec (.bankClearComplete e b) s = .next s)) ∧
    (∀ progress r b, (s.engine e).background = some (r, b) → (s.engine e).sliceRunning = true → (s.curve r).state = .validating →
      ∃ u : State, exec (.bnSliceEnd e progress) s = .next u ∧
        ((s.engine e).owner = none → (u.curve r) = { s.curve r with progress := min 100 progress } ∧ (u.engine e).sliceRunning = true) ∧
        (∀ core h, (s.engine e).owner = some (core, h) → (u.engine e).sliceRunning = false)) ∧
    (∀ progress, (s.engine e).background = none → exec (.bnSliceEnd e progress) s = .next s ∧ exec (.curveValidationComplete e) s = .next s) ∧
    (∀ r b, (s.engine e).background = some (r, b) → (s.engine e).sliceRunning = true → (s.curve r).state = .validating →
      (let q := s.bases 80
       let j := curveCheck (s.curve r) q.1
       ∃ u : State, exec (.curveValidationComplete e) s = .next u ∧ (j = 0 → (u.curve r).passed = true ∧ (u.curve r).progress = 100) ∧
         (j ≠ 0 → (u.curve r).state = .rejected ∧ (u.curve r).check = j) ∧ r ∉ u.bn.queue))

/-- For every state: BKSUB from a task of a 0x08xx function without a submission of its own joins the submissions waiting, with its
OP and key handles, and clears BULK_CREDIT; from another function, or a second one, it is a protection fault of kind SUBMISSION.
BULK_SUBMISSION_ANSWER takes the core's submission off the list, leaves its status, and sets BULK_CREDIT; an OP that Table 11.3
does not list is refused with MODE_INVALID (the model's choice). BULK_JOB_COMPLETE of a running job that its task has handed
over commits the reply with the status and result of the job; of any other it does nothing. BULK_JOB_START starts the next
waiting job on the lowest ready engines, two for a re-key, where so many are ready. (R320, R321, R323, R326.) -/
def Obligations.BulkJobs : Prop :=
  ∀ (s : State) (core k n : Nat) (x : Slot), s.taskOf core = some (k, x, n) →
    (∀ v : Word64, x.func / 256 = 8 → (s.bulkStat core).submitted = false →
      exec (.bksub core v) s = .next (
        let b : BulkSubmission := { core := core, op := v.toNat % 8, kin := bitsOf v.toNat 5 4, kout := bitsOf v.toNat 7 6 }
        ({ s with bulk := { s.bulk with submissions := s.bulk.submissions ++ [b] } }.putBulkStat core { submitted := true }).taskFlag core
          flagBulkCredit false)) ∧
    (∀ v : Word64, x.func / 256 ≠ 8 ∨ (s.bulkStat core).submitted = true → exec (.bksub core v) s = .next (portFault s core 8 0x800)) ∧
    (∀ b, s.bulk.submissions.find? (fun b => b.core == core) = some b →
      (let s0 := { s with bulk := { s.bulk with submissions := s.bulk.submissions.filter (fun c => decide (c.core ≠ core)) } }
       let answered := fun (r : Nat × State) (m : Nat) => Host.Outcome.next ((r.2.putBulkStat core
         { status := r.1, accepted := r.1 = stOk, next := m, submitted := true }).taskFlag core flagBulkCredit true)
       (∀ op, bulkOpOf b.op = some op →
         (let r := bulkAnswer s0 k op (s0.handle core b.kin) (s0.handle core b.kout)
          exec (.bulkSubmissionAnswer core) s = answered r (((r.2.streamNamed x).map (fun c => (r.2.stream c).next)).getD 0))) ∧
       (bulkOpOf b.op = none → exec (.bulkSubmissionAnswer core) s =
         answered (stModeInvalid, s0) (((s0.streamNamed x).map (fun c => (s0.stream c).next)).getD 0)))) ∧
    (∀ slot, (∀ j, s.jobOf slot = some j → j.running = true → j.handed = true →
        (let r := finishJob (countJob s j) j
         exec (.bulkJobComplete slot) s = .next (accept (removeJob r.2 j) slot r.1.status r.1.result))) ∧
      (s.jobOf slot = none → exec (.bulkJobComplete slot) s = .next s)) ∧
    (s.nextJob = none → exec .bulkJobStart s = .next s) ∧
    (∀ j, s.nextJob = some j →
      (let es := ((List.range 16).filter s.bulkReady).take (if j.rekey then 2 else 1)
       (es.length < (if j.rekey then 2 else 1) → exec .bulkJobStart s = .next s) ∧
       (es.length = (if j.rekey then 2 else 1) → ∃ u : State, exec .bulkJobStart s = .next u ∧
         u.bulk.jobs = replaceJob s.bulk.jobs { j with running := true, engines := es } ∧ u = { s with bulk := u.bulk, pwr := u.pwr })))

/-- For every state with its port table in canonical form: LINK_UP of a port that runs without link sets LINK, PCS_LOCK and FEC_OK,
its speed (a service port's mode; Port M's negotiated speed with interface 3) and PORT_EVENTS.LINK, IP_READY where no address
waits for Duplicate Address Detection, and leaves every other port alone; LINK_DOWN clears them and the address states, and
reads speed 7; FEC_DEGRADED of more than 16 uncorrected codewords clears FEC_OK, of fewer sets it; MACSEC_PEER_LOST of the last
live peer of a live port clears MACSEC_LIVE. Each touches only the ports and the recorder (LINK_UP and FEC_DEGRADED included);
on a port without link, or a peer that is not live, LINK_DOWN, FEC_DEGRADED and MACSEC_PEER_LOST change nothing. (R52, R58, R61,
R90.) -/
def Obligations.Links : Prop :=
  ∀ (s : State) (i : Nat), tabWf {} s.ports = true →
    let p := s.port i
    (∀ speed, s.portRuns i = true → p.link = false → ∃ u : State, exec (.linkUp i speed) s = .next u ∧
      (u.port i).link = true ∧ (u.port i).pcsLock = true ∧ (u.port i).fecOk = true ∧ (u.port i).cfg = p.cfg ∧
      (u.port i).speed = (if i < 16 then p.cfg.mode else if p.cfg.ifc = 3 then speed else 4) ∧ (u.port i).events = p.events ||| 1 ∧
      (p.cfg.ipv4 = [] → p.cfg.ipv6 = [] → (u.port i).ipReady = true) ∧ (∀ j, j ≠ i → u.port j = s.port j) ∧
      u = { s with ports := u.ports, recorder := u.recorder }) ∧
    (p.link = true → ∃ u : State, exec (.linkDown i) s = .next u ∧ (u.port i).link = false ∧ (u.port i).speed = 7 ∧
      (u.port i).ipReady = false ∧ (u.port i).fecOk = false ∧ (u.port i).addr6 = [] ∧ (u.port i).cfg = p.cfg ∧
      (∀ j, j ≠ i → u.port j = s.port j) ∧ u = { s with ports := u.ports, recorder := u.recorder }) ∧
    (∀ a b, p.link = true → ∃ u : State, exec (.fecDegraded i a b) s = .next u ∧ (u.port i).fecOk = decide (b ≤ 16) ∧
      (u.port i).link = true ∧ (∀ j, j ≠ i → u.port j = s.port j) ∧ u = { s with ports := u.ports, recorder := u.recorder }) ∧
    (∀ sci, p.cfg.macsec = true → p.peers = [sci] → p.macsecLive = true → ∃ u : State, exec (.macsecPeerLost i sci) s = .next u ∧
      (u.port i).peers = [] ∧ (u.port i).macsecLive = false ∧ (u.port i).events = p.events ||| 4 ∧
      u = { s with ports := u.ports, recorder := u.recorder }) ∧
    (∀ a b, p.link = false → exec (.linkDown i) s = .next s ∧ exec (.fecDegraded i a b) s = .next s) ∧
    (∀ sci, sci ∉ p.peers → exec (.macsecPeerLost i sci) s = .next s)

/-- For every state, port and frame: where the port does not run, has no link, or the device is SCRAPPED, nothing happens. Otherwise
a frame of a bad length counts in the port's counter 5 and one with a bad FCS in counter 4, and nothing else; a frame to an
address that the port does not accept is dropped and puts nothing into the ingress buffer; an untagged IPv4 UDP datagram to the
SRP port at an address that is the device's own, with its checksum good, joins the end of the port's ingress buffer with its
addresses. No frame changes anything but the ports, the performance counters and the recorder. (R53, R54, R56, R59, R60, R63,
R65.) -/
def Obligations.FramesArrive : Prop :=
  ∀ (s : State) (i : Nat) (f : RxFrame),
    let p := s.port i
    (s.portRuns i = false ∨ p.link = false ∨ s.lc.state = .scrapped → exec (.frameReceive i f) s = .next s) ∧
    (s.portRuns i = true → p.link = true → s.lc.state ≠ .scrapped →
      ∃ u : State, exec (.frameReceive i f) s = .next u ∧ u = { s with ports := u.ports, pmc := u.pmc, recorder := u.recorder } ∧
        (∀ j, j ≠ i → u.port j = s.port j) ∧
        (f.len < 64 ∨ 9216 < f.len → u = s.portCnt i 5 1) ∧
        (64 ≤ f.len → f.len ≤ 9216 → f.fcsOk = false → u = s.portCnt i 4 1) ∧
        (s.dstAccepted i f.dst = false → (u.port i).ingress = p.ingress) ∧
        (64 ≤ f.len → f.len ≤ 9216 → f.fcsOk = true → f.ethertype = 0x0800 → s.dstAccepted i f.dst = true → f.bufferFull = false →
          p.cfg.macsec = false → p.cfg.vlan = 0 → f.tags = [] → f.ipOk = true → f.proto = 17 → s.own4 i f.dstIp = true →
          f.udpSumOk = true → f.udpZeroSum = false → f.udpDst = s.srp.udpPort →
          (u.port i).ingress = p.ingress ++ [{ lport := i, bytes := f.payload, src :=
            { mac := f.srcMac, ip := f.srcIp, v6 := false, port := f.udpSrc, dstIp := f.dstIp, vlan := none } }]))

/-- For every state and port that takes part in IP traffic: an ARP request or a Neighbour Solicitation for an address of the
device's own is answered to its sender, within the status allowance, with the port's MAC address, and for any other address is
not; an ARP reply or Neighbour Advertisement for an address the port does not list enters the neighbour cache as its newest
entry, and one from another station for an own address reveals a conflict: IP_READY falls. DAD_COMPLETE of a probing address
makes it usable. An echo request to an own address is answered while fewer than 100 were in the second, and counted in counter
15 after that. NEIGHBOUR_ENTRY_EXPIRY removes an entry 300 s old. An MKA message that proves the port's CAK makes its sender a
live peer, and a SAK in it that unwraps under the CAK becomes the transmit SA. On a port that takes no part nothing changes.
(R57, R61, R62, R113.) -/
def Obligations.NeighboursAndMka : Prop :=
  ∀ (s : State) (i : Nat), let p := s.port i
    let count := fun (s : State) => s.portCnt i 19 1
    (s.ipRuns i = false → ∀ mac ip t src data j, exec (.arpRequestReceive i mac ip t) s = .next s ∧
      exec (.neighbourSolicitationReceive i mac ip t) s = .next s ∧ exec (.arpReplyReceive i mac ip) s = .next s ∧
      exec (.neighbourAdvertisementReceive i mac ip) s = .next s ∧ exec (.icmpEchoReceive i src data) s = .next s ∧
      exec (.dadComplete i j) s = .next s) ∧
    (s.ipRuns i = true → p.link = true → ∀ mac ip t,
      exec (.arpRequestReceive i mac ip t) s = .next (if s.own4 i t then (count s).sendAllowed i 64
        { bytes := arpPacket 2 p.cfg.mac t mac ip, dst := { mac := mac, ip := ip } } else count s) ∧
      exec (.neighbourSolicitationReceive i mac ip t) s = .next (if s.own6 i t then (count s).sendAllowed i 90
        { bytes := ndPacket 136 t p.cfg.mac, dst := { mac := mac, ip := ip, v6 := true } } else count s) ∧
      ((∀ e ∈ p.cfg.ipv4, e.2 ≠ ip) → ∃ u : State, exec (.arpReplyReceive i mac ip) s = .next u ∧
        (u.port i).neighbours.getLast? = some { addr := ip, mac := mac, since := s.second } ∧ u = { s with ports := u.ports }) ∧
      ((∀ e ∈ p.cfg.ipv6, e.2 ≠ ip) → ∃ u : State, exec (.neighbourAdvertisementReceive i mac ip) s = .next u ∧
        (u.port i).neighbours.getLast? = some { addr := ip, mac := mac, since := s.second } ∧ u = { s with ports := u.ports }) ∧
      (mac ≠ p.cfg.mac → s.own4 i ip = true → ∃ u : State, exec (.arpReplyReceive i mac ip) s = .next u ∧ (u.port i).ipReady = false ∧
        (u.port i).events = p.events ||| 8) ∧
      (mac ≠ p.cfg.mac → s.own6 i ip = true → ∃ u : State, exec (.neighbourAdvertisementReceive i mac ip) s = .next u ∧
        (u.port i).ipReady = false ∧ (u.port i).events = p.events ||| 8)) ∧
    (s.ipRuns i = true → p.link = true → ∀ j, tabGet .untested p.addr6 j = .probing → ∃ u : State, exec (.dadComplete i j) s = .next u ∧
      tabGet .untested (u.port i).addr6 j = .ok ∧ u = { s with ports := u.ports }) ∧
    (s.ipRuns i = true → p.link = true → ∀ src data, src.v6 = false → s.own4 i src.dstIp = true → p.second = s.second →
      (p.echoes < 100 → exec (.icmpEchoReceive i src data) s =
        .next (((s.modPort i (fun p => p.atSecond s.second)).modPort i (fun p => { p with echoes := p.echoes + 1 })).portCnt i 14 1
          |>.sendAllowed i (s.udpFrameLen i src data.length) { bytes := [0, 0, 0, 0] ++ data, dst := src })) ∧
      (100 ≤ p.echoes → exec (.icmpEchoReceive i src data) s = .next ((s.modPort i (fun p => p.atSecond s.second)).portCnt i 15 1))) ∧
    (∀ ip, p.link = true → ∃ u : State, exec (.neighbourEntryExpiry i ip) s = .next u ∧ u = { s with ports := u.ports } ∧
      ∀ n, n ∈ (u.port i).neighbours ↔ n ∈ p.neighbours ∧ ¬ (n.addr = ip ∧ n.since + 300 ≤ s.second)) ∧
    (∀ m : MkaMsg, s.portRuns i = true → p.link = true → p.cfg.macsec = true → p.cak ≠ [] → m.icvOk = true →
      ∃ u : State, exec (.mkaFrameReceive i m) s = .next u ∧ m.peer ∈ (u.port i).peers ∧
        (∀ an kn w, m.sak = some (an, kn, w) →
          (∀ k, keyUnwrap (mkaKek p.cak p.ckn) w = some k → (u.port i).macsecLive = true ∧
            (u.port i).txSa.map (fun a => (a.an, a.keyNumber, a.sak, a.nextPn)) = some (an, kn, k, 1)) ∧
          (keyUnwrap (mkaKek p.cak p.ckn) w = none → (u.port i).txSa = p.txSa))) ∧
    (∀ m : MkaMsg, m.icvOk = false → exec (.mkaFrameReceive i m) s = .next s)

/-- For every state and the datagram at the head of a port's ingress buffer: an HS1 that passes the checks of R76 takes the lowest
free channel, PENDING with its bytes, tenant and client key, and places a task of HS_RESPOND; one that fails any is dropped and
counted. An HS3 for a PENDING channel that passes the channel checks, opens under the client's handshake key and names the
channel's tenant is accepted and places a task of HS_FINISH with the signature it carries, where its COUNT is 0, its sequence is
below 2^48, no such task of the channel waits and there is room for it; with another COUNT it gets the NACK TYPE_NOT_PERMITTED
under the handshake key. An HS2 on a pending own channel of the device is checked (R79) and, where the check and the signature
succeed, answered with HS3. READY_REP_RECEIVE opens an own PENDING channel on a ready REP of sequence 1 without records.
HANDSHAKE_TIMEOUT frees a channel still PENDING after the timeout from its admission; CHANNEL_IDLE_TIMEOUT makes an OPEN channel
CLOSING after the idle time, 0 being none. (R76, R77, R78, R79, R80, R81, R439.) -/
def Obligations.Handshakes : Prop :=
  ∀ (s : State) (i : Nat),
    (s.head i = none → exec (.hs1Receive i) s = .next s ∧ exec (.hs2Receive i) s = .next s ∧ exec (.hs3Receive i) s = .next s) ∧
    (∀ d : Dgram, s.head i = some d → fld d.bytes 0 1 / 16 = 2 →
      (let b := d.bytes
       let t := fld b 2 2 % 1024
       let idx := fld b 161 1
       let im := tabGet ({} : TenantImage) s.image.tenants t
       let quota := if s.dev.state = .recovery then 4096 else im.channelQuota
       let c := firstFreeChan s.srp.channels 0
       let ok := b.length = 1348 ∧ t ≤ 512 ∧ idx ≤ 63 ∧ s.tenantChannels t < quota ∧ s.pendingChannels < 4096 ∧ s.hsBegun t < im.hsRate ∧
         (s.clientKey t (idx % 64)).alg ≠ 0 ∧ (s.clientKey t (idx % 64)).alg = fld b 162 1 ∧ s.acceptsHs t i = true ∧ c < 32768 ∧
         s.freeSlot < 65536 ∧ s.cellsUsed + ceilDiv b.length 256 + ceilDiv (s.hsCost 0xC0).lmax 256 ≤ 196608
       (dgramType b = 3 → ok → ∃ u : State, exec (.hs1Receive i) s = .next u ∧ (u.chan c).state = .pending ∧ (u.chan c).hs1 = b ∧
         (u.chan c).tenant = t ∧ (u.chan c).clientKey = idx ∧ (u.chan c).phys = physOf i ∧ (u.slot s.freeSlot).func = 0xC0 ∧
         (u.slot s.freeSlot).chan = c ∧ (u.slot s.freeSlot).state = .queued ∧ u.sq.placed = s.sq.placed + 1) ∧
       (dgramType b = 3 → ¬ ok → ∃ u : State, exec (.hs1Receive i) s = .next u ∧ u.srp.channels = s.srp.channels ∧ u.sq = s.sq)) ∧
      (∀ sig, dgramType d.bytes = 5 → 48 ≤ d.bytes.length →
        (let c := fld d.bytes 4 4 % 2 ^ 15
         let x := s.chan c
         let body := d.bytes.drop 32
         let n := body.length - 16
         (s.popIngress i).channelDrop d .pending = none → x.hsC ≠ [] → fld d.bytes 2 2 % 1024 = x.tenant →
         gcmOpen x.hsC (zeros 12) (d.bytes.take 32) (body.take n) (body.drop n) = some sig →
         (fld d.bytes 2 2 / 1024 ≠ 0 → exec (.hs3Receive i) s = .next ((s.popIngress i).nackHs c i d.src (fld d.bytes 8 8) 4)) ∧
         (fld d.bytes 2 2 / 1024 = 0 → fld d.bytes 8 8 < 2 ^ 48 →
           (∀ p ∈ s.sq.slots, ¬ (p.2.live = true ∧ p.2.func = 0xC1 ∧ p.2.chan = c ∧ p.2.chanGen = x.gen)) → s.freeSlot < 65536 →
           s.cellsUsed + ceilDiv body.length 256 + ceilDiv (s.hsCost 0xC1).lmax 256 ≤ 196608 →
           exec (.hs3Receive i) s = .next (((s.popIngress i).acceptHs3 i c d.src).placeHs c i d.src 0xC1 (fld d.bytes 8 8) body.length
             (d.bytes.take 32 ++ sig ++ body))))) ∧
      (∀ j, dgramType d.bytes = 4 → d.bytes.length = 4718 → fld d.bytes 8 8 < 16 →
        (let c := 32768 + fld d.bytes 8 8
         let x := s.chan c
         x.member = some j → x.state = .pending → x.hs2 = [] → x.phys = physOf i →
         exec (.hs2Receive i) s = .next (match checkHs2 (s.member j) x d.bytes with
           | none => ((s.popIngress i).putChan c {}).srpCnt 12 1
           | some prk =>
             match (Fn.ecdsaSign p384 (beNat s.ks.idk) (sha384B (clientMessage x.hs1 d.bytes))).run.run (s.popIngress i) with
             | (.ok sig, u) => sendHs3 u c x i d.src d.bytes prk sig
             | (.error _, u) => (u.putChan c {}).srpCnt 12 1)))) ∧
    ((∀ c x b pt u, takeRep s i .pending = (some (c, x, b, pt), u) → fld b 2 2 / 1024 = 0 → fld b 8 8 = 1 →
        ∃ v : State, exec (.readyRepReceive i) s = .next v ∧ (v.chan c).state = .open ∧ (v.chan c).hs1 = [] ∧ v.sq = u.sq) ∧
      (∀ u, takeRep s i .pending = (none, u) → exec (.readyRepReceive i) s = .next u)) ∧
    (∀ c a, (s.chan c).state = .pending → (s.chan c).admitted = some a →
      (s.srp.hsMs * 1000 ≤ folioDiff s.folio.now a * s.folio.periodUs → tabWf {} s.srp.channels = true →
        ∃ u : State, exec (.handshakeTimeout c) s = .next u ∧ (u.chan c) = { gen := ((s.chan c).gen + 1) % 2 ^ 17 }) ∧
      (folioDiff s.folio.now a * s.folio.periodUs < s.srp.hsMs * 1000 → exec (.handshakeTimeout c) s = .next s)) ∧
    (∀ c, (s.chan c).state = .open →
      (s.srp.idleS ≠ 0 → s.srp.idleS * 1000000 ≤ (s.chan c).idle * s.folio.periodUs →
        exec (.channelIdleTimeout c) s = .next ((s.putChan c { s.chan c with state := .closing, cause := 3 }).closeFinal c)) ∧
      (s.srp.idleS = 0 → exec (.channelIdleTimeout c) s = .next s))

/-- For every state and the REQ, MGMT or BULK datagram at the head of a port's ingress buffer that its own command takes: one that
passes the header, state, channel and length checks, opens under the channel's key and lies in its replay window leaves the
buffer and is accepted on its channel; one whose tag fails, or whose sequence number the window refuses, leaves the buffer and
places nothing. An accepted datagram of another tenant is answered with NACK 3, one of a wrong type or count with NACK 4, one
whose records do not fill its plaintext with NACK 2, one whose records do not all find slots and cells with NACK 1; otherwise
every record is placed, in order, and without CLOSE the channel's idle count starts again. A datagram of another type that a
client sends stays where it is; one of a type that no client sends, and that is no answer to the device's own handshakes or
datagrams, is dropped and counted. (R66, R67, R70, R71, R72, R73, R84.) -/
def Obligations.RequestDatagrams : Prop :=
  (∀ (s : State) (i : Nat) (d : Dgram), s.head i = some d → d.bytes.length ≥ 48 → fld d.bytes 0 1 / 16 = 2 →
    ∀ p ∈ ([(.reqDatagramReceive i, 1), (.mgmtDatagramReceive i, 6), (.bulkDatagramReceive i, 7)] : List (Instr × Nat)),
      let c := fld d.bytes 4 4 % 2 ^ 15
      let s0 := s.popIngress i
      (dgramType d.bytes = p.2 → s0.moverServes (srcIngress 0) i = true → s0.acceptsFrom (s0.chan c).tenant i = true →
        s0.channelDrop d .open = none →
        (∀ pt x, openDgram (s0.chan c).c2d d.bytes = some pt → (s0.chan c).window (fld d.bytes 8 8) = some x →
          exec p.1 s = .next (acceptDgram (s0.putChan c x) d c pt)) ∧
        (openDgram (s0.chan c).c2d d.bytes = none → ∃ u : State, exec p.1 s = .next u ∧ u.sq = s.sq) ∧
        (∀ pt, openDgram (s0.chan c).c2d d.bytes = some pt → (s0.chan c).window (fld d.bytes 8 8) = none →
          ∃ u : State, exec p.1 s = .next u ∧ u.sq = s.sq)) ∧
      (dgramType d.bytes ≠ p.2 → dgramType d.bytes ∈ [1, 3, 5, 6, 7] → exec p.1 s = .next s) ∧
      (dgramType d.bytes ∉ [1, 3, 5, 6, 7] → s.ownDgram i d.bytes = false → exec p.1 s = .next ((s0.srpCnt 2 1).dropped i 0))) ∧
  (∀ (s : State) (d : Dgram) (c : Nat) (pt : Bytes),
    let b := d.bytes
    let x := s.chan c
    let type := dgramType b
    let seq := fld b 8 8
    let count := fld b 2 2 / 1024
    let fits := ¬ ((type = 6 ∧ x.tenant ≠ 0) ∨ (type = 7 ∧ count ≠ 1) ∨ (type ≠ 7 ∧ (32 < count ∨ (count = 0 ∧ (fld b 1 1).testBit 7 = false))))
    (fld b 2 2 % 1024 ≠ x.tenant → ∃ u : State, acceptDgram s d c pt = u ∧ u = { s.nack c d.lport d.src seq 3 with recorder := u.recorder }) ∧
    (fld b 2 2 % 1024 = x.tenant → ¬ fits → acceptDgram s d c pt = s.nack c d.lport d.src seq 4) ∧
    (fld b 2 2 % 1024 = x.tenant → fits → seq < 2 ^ 48 → records count b pt = none →
      acceptDgram s d c pt = s.nack c d.lport d.src seq 2) ∧
    (∀ rs, fld b 2 2 % 1024 = x.tenant → fits → seq < 2 ^ 48 → records count b pt = some rs → s.placeable x type rs 0 0 = rs.length →
      x.state = .open → (acceptDgram s d c pt).sq.placed = s.sq.placed + rs.length ∧ ((fld b 1 1).testBit 7 = false →
        ((acceptDgram s d c pt).chan c).idle = 0 ∧ ((acceptDgram s d c pt).chan c).src = d.src)) ∧
    (∀ rs, fld b 2 2 % 1024 = x.tenant → fits → seq < 2 ^ 48 → records count b pt = some rs → s.placeable x type rs 0 0 < rs.length →
      (acceptDgram s d c pt).sq.placed = s.sq.placed ∧ (acceptDgram s d c pt).sq.slots = s.sq.slots))

/-- For every state: REP_FORM of a channel without a reply waiting changes nothing; with one, whose mover serves and whose port has
link, the first reply in stamp order, not of a stream, and those that gather with it, go out in one frame at the end of the
port's transmit queue, and are marked as formed; with the port down the first reply is dropped and its slot is free.
REPLY_FRAME_LEFT of a port with link, with egress released and, where the port uses MACsec, a transmit SA, removes the frame at
the head of the transmit queue and frees every slot it carried; in any other port state it changes nothing. (R69, R81, R82, R83,
R132, R399.) -/
def Obligations.Replies : Prop :=
  (∀ (s : State) (c : Nat), s.waitingReplies c = [] → exec (.repForm c) s = .next s) ∧
  (∀ (s : State) (c k : Nat) (x : Slot) (rest : List (Nat × Slot)), s.waitingReplies c = (k, x) :: rest → s.egressServes x.lport = true →
    ((s.port x.lport).link = true → x.bulk = false →
      ∃ u : State, exec (.repForm c) s = .next u ∧
        (let more := if x.noGather then [] else gather s x rest 1 (replyRecord x).length
         ∃ f : TxFrame, (u.port x.lport).tx = (s.port x.lport).tx ++ [f] ∧ f.slots = k :: more.map (·.1) ∧ f.dst = x.src) ∧
        (u.slot k).formed = true) ∧
    ((s.port x.lport).link = false → tabWf {} s.sq.slots = true → (s.chan c).state = .open →
      ∃ u : State, exec (.repForm c) s = .next u ∧ (u.slot k) = {} ∧ u.srp = s.srp)) ∧
  (∀ (s : State) (i : Nat), let p := s.port i
    (p.tx = [] ∨ p.link = false ∨ s.tmp.egress = false ∨ (p.cfg.macsec = true ∧ p.txSa = none) → exec (.replyFrameLeft i) s = .next s) ∧
    (∀ f rest, p.tx = f :: rest → p.link = true → s.tmp.egress = true → (p.cfg.macsec = true → p.txSa.isSome = true) →
      tabWf {} s.sq.slots = true → (∀ k ∈ f.slots, ∀ c, (s.slot k).chan = c → (s.chan c).state = .open) →
      ∃ u : State, exec (.replyFrameLeft i) s = .next u ∧ (u.port i).tx = rest ∧ (∀ k ∈ f.slots, u.slot k = {}) ∧
        (∀ k, k ∉ f.slots → u.slot k = s.slot k)))

/-- For every state: a Sync or Follow_Up of the parent clock on the port whose service runs gives an offset measurement (at once, or
when the Follow_Up of its sequence number comes) and in PTP mode an offset of T2 − T1 − delay − asymmetry; a Sync of another
clock changes nothing; a Delay_Resp to an open request sets the mean path delay; an Announce of the parent refreshes its rank,
one of a better clock makes it the parent; a PPS edge in PTP_PPS mode measures against the PTP second it marks. A measurement
more than four periods out is UNALIGNED in SERVICE and never steps the folio there; four in a row within 100 ns lock.
SYNC_HOLDOVER_TIMEOUT after 2 s without a measurement enters HOLDOVER. The first offset of a start ends its acquire wait
(acquired). In SERVICE none of these commands steps the folio number. (R27, R28, R29, R30, R64.) -/
def Obligations.TimeDiscipline : Prop :=
  (∀ (s : State) (i : Nat) (m : PtpSync),
    (s.ptpRuns i m.domain = true → s.folio.ptp.parent = some m.source →
      (m.twoStep = true → exec (.ptpSyncReceive i m) s =
        .next (acquired { s with folio := { s.folio with ptp := { s.folio.ptp with pendingSync := some (m.seq, m.t2) } } })) ∧
      (m.twoStep = false → exec (.ptpSyncReceive i m) s = .next (acquired (s.syncMeasured i m.t1 m.t2)))) ∧
    (s.ptpRuns i m.domain = false ∨ s.folio.ptp.parent ≠ some m.source → exec (.ptpSyncReceive i m) s = .next (acquired s))) ∧
  (∀ (s : State) (i domain source q : Nat) (t1 t2 : Int), s.ptpRuns i domain = true →
    s.folio.ptp.parent = some source → s.folio.ptp.pendingSync = some (q, t2) →
    exec (.ptpFollowUpReceive i domain source q t1) s = .next (acquired (s.syncMeasured i t1 t2))) ∧
  (∀ (s : State) (i domain source : Nat) (t3 t4 : Int), s.ptpRuns i domain = true → s.folio.ptp.parent = some source →
    s.folio.ptp.reqOpen = true → ∃ u : State, exec (.ptpDelayRespReceive i domain source t3 t4) s = .next u ∧
      u.folio.ptp.delay = (s.folio.ptp.t2 - s.folio.ptp.t1 + (t4 - t3)) / 2 ∧ u.folio.ptp.reqOpen = false ∧
      u = { s with folio := { s.folio with ptp := u.folio.ptp } }) ∧
  (∀ (s : State) (i : Nat) (m : PtpAnnounce), s.ptpRuns i m.domain = true →
    (s.folio.ptp.parent = some m.identity → ∃ u : State, exec (.ptpAnnounceReceive i m) s = .next u ∧
      u.folio.ptp = { s.folio.ptp with parentRank := announceRank m }) ∧
    (s.folio.ptp.parent = none ∨ (s.folio.ptp.parent ≠ some m.identity ∧ announceRank m < s.folio.ptp.parentRank) →
      ∃ u : State, exec (.ptpAnnounceReceive i m) s = .next u ∧ u.folio.ptp.parent = some m.identity ∧
        u.folio.ptp.parentRank = announceRank m ∧ u.folio.now = s.folio.now)) ∧
  (∀ (s : State) (t : Int), s.folio.mode = .ptpPps → s.folio.ptp.valid = true →
    (let tod := t - (s.folio.ptp.t2 - s.folio.ptp.t1 - s.folio.ptp.delay - s.image.asymmetry)
     let ref := (tod + 500000000) / 1000000000 * 1000000000
     exec (.ppsInEdge t) s = .next (acquired (s.measured (t - ref) ref)))) ∧
  (∀ (s : State) (off t : Int), s.dev.state = .service →
    (s.measured off t).folio.now = s.folio.now ∧
    (s.folio.sync = .locked → s.fourPeriods < off → (s.measured off t).folio.sync = .unaligned) ∧
    (s.folio.sync = .acquire → 0 < s.folio.periodUs → -100 ≤ off → off ≤ 100 → 3 ≤ s.folio.goodRun → (s.measured off t).folio.sync = .locked)) ∧
  (∀ s : State, (s.folio.sync = .acquire ∨ s.folio.sync = .locked) → 2000000 ≤ s.folio.sinceSync * s.folio.periodUs →
    ∃ u : State, exec .syncHoldoverTimeout s = .next u ∧ u.folio.sync = .holdover ∧ u.folio.now = s.folio.now)

/-- For every state: where no folio runs neither command changes anything. TICK answers the state of the next folio: unless
something that falls due at the tick puts the device into RESET or TAMPERED, its number is one more, modulo 2^48, and its delay
tick is 0. DELAY_LIST_RELEASE of a delay tick k that has not come, below 64, makes it the current one, releases every entry that
is due at it (none that remains on a list is due), and touches only the folio's delay tick, the Square, its counters and the
recorder; for any other k it changes nothing. (R25, R26, R43, R142.) -/
def Obligations.TicksAndTime : Prop :=
  ∀ s : State,
    (s.folioRuns = false → exec .tick s = .next s ∧ ∀ k, exec (.delayListRelease k) s = .next s) ∧
    (s.folioRuns = true → ∃ u : State, exec .tick s = .next u ∧ (u.dev.state ≠ .reset → u.dev.state ≠ .tampered →
      u.folio.now = folioAdd s.folio.now 1 ∧ u.folio.delayTick = 0 ∧ u.folio.ticks = s.folio.ticks + 1)) ∧
    (∀ k, s.folioRuns = true → s.folio.delayTick < k → k < 64 → ∃ u : State, exec (.delayListRelease k) s = .next u ∧
      u.folio = { s.folio with delayTick := k } ∧ (∀ p ∈ u.sq.delays, ∀ e ∈ p.2, u.due e = false) ∧
      u = { s with folio := u.folio, sq := u.sq, pmc := u.pmc, recorder := u.recorder }) ∧
    (∀ k, k ≤ s.folio.delayTick ∨ 64 ≤ k → exec (.delayListRelease k) s = .next s)

/-- For every state and environment: START_BEGIN in RESET with the main rails present and no restart owed, and INTERNAL_RESTART
where one is owed, enter START with everything that the compute die held cleared; in an environment where step 1 hangs, that
step is in progress. START_STEP_TIMEOUT fails the step in progress with cause 0x17 and the step's number: before the third
failure the device passes through an internal RESET into START, at the third it enters RECOVERY for reason 1. ACQUIRE_WAIT_END
lets step 12 go on: where a port fails, it fails with cause 0x16 and that port's number; where none does, an unpaired device
reaches SERVICE with its counter of attempts cleared. IMAGE_WRITE_COMPLETE leaves the image in the NVM, or with an error the
load without it. Out of place, each changes nothing. (R409, R413, R414, R424, R425, R426.) -/
def Obligations.Starts : Prop :=
  ∀ s : State,
    (∀ env : StartEnv, env.hang = some 1 →
      let begun := fun (u : State) => u.dev.state = .start ∧ u.boot.running = some 1 ∧ u.boot.restart = none ∧ u.boot.step = 0 ∧
        u.boot.env = env ∧ u.folio = {} ∧ u.sq = {} ∧ u.ks = {} ∧ u.cores = {} ∧ u.ports = [] ∧ u.vault.store = s.vault.store ∧
        u.lc.word0 = s.lc.word0
      (s.dev.state = .reset → s.dev.mainRails = true → s.boot.restart = none →
        ∃ u : State, exec (.startBegin env) s = .next u ∧ begun u ∧ u.dev.pwrGood = true ∧ u.dev.resetN = true) ∧
      (∀ r, s.dev.state = .reset → s.boot.restart = some r →
        ∃ u : State, exec (.internalRestart env) s = .next u ∧ begun u ∧ u.boot.commanded = decide (r = .recovery))) ∧
    (∀ env, s.dev.state ≠ .reset → exec (.startBegin env) s = .next s ∧ exec (.internalRestart env) s = .next s) ∧
    (∀ n, s.boot.running = some n → s.dev.state = .start → s.folio.acquiring = false → ∃ u : State, exec .startStepTimeout s = .next u ∧
      u.boot.cause.step = n ∧ u.boot.cause.cause = 0x17 ∧ u.boot.cause.data = n ∧ u.boot.running = none ∧
      (s.boot.attempts < 3 → u.dev.state = .reset ∧ u.boot.restart = some .start ∧ u.boot.attempts = s.boot.attempts) ∧
      (3 ≤ s.boot.attempts → u.dev.state = .recovery ∧ u.boot.cause.reason = 1)) ∧
    (s.boot.running = none → exec .startStepTimeout s = .next s) ∧
    (s.boot.running = some 12 → s.dev.state = .start → s.folio.acquiring = true → s.boot.env.hang = none →
      (∀ p, s.boot.env.portFail = some p → ∃ u : State, exec .acquireWaitEnd s = .next u ∧ u.boot.cause.step = 12 ∧
        u.boot.cause.cause = 0x16 ∧ u.boot.cause.data = p) ∧
      (s.boot.env.portFail = none → s.paired = false → ∃ u : State, exec .acquireWaitEnd s = .next u ∧ u.dev.state = .service ∧
        u.boot.attempts = 0 ∧ u.boot.step = 13 ∧ u.folio.acquiring = false ∧ u.folio.now = s.folio.now ∧ u.sq = s.sq)) ∧
    (s.folio.acquiring = false → exec .acquireWaitEnd s = .next s) ∧
    (s.boot.load.state = 2 →
      (∃ u : State, exec (.imageWriteComplete none) s = .next u ∧ u.boot.nvm0 = s.boot.load.mem ∧ u.boot.load.state = 3 ∧
        u.boot.load.percent = 100 ∧ u = { s with boot := u.boot, recorder := u.recorder }) ∧
      (∀ e, ∃ u : State, exec (.imageWriteComplete (some e)) s = .next u ∧ u.boot.load.state = 0 ∧ u.boot.load.failed = true ∧
        u.boot.nvm0 = s.boot.nvm0 ∧ u = { s with boot := u.boot, recorder := u.recorder })) ∧
    (∀ e, s.boot.load.state ≠ 2 → exec (.imageWriteComplete e) s = .next s)

/-- For every state: RESET_ASSERTED from any state but SLEEP takes the device to RESET, with no restart owed, and clears what the
compute die holds, while the vault's store, the tamper key share and both life-cycle words stay; in SLEEP it changes only the
pins. MAIN_RAILS_REMOVED with VSEC present takes the device to SLEEP with its operating seconds stored; without VSEC to RESET
with them not stored. MAIN_RAILS_PRESENT raises PWRGOOD and moves a device in SLEEP to RESET. VSEC_APPLIED finds the
battery-backed RAM at zero: the share, the presence word and the vault chain record are gone. VID_VALID drives the voltage code
while VSEC is present, and CRYSTAL_STOP changes the always-on domain to its internal oscillator; neither changes anything else.
(R17, R18, R19, R395, R461, R486, R492.) -/
def Obligations.PowerAndReset : Prop :=
  ∀ s : State,
    let cleared := fun (u : State) => u.folio = {} ∧ u.sq = {} ∧ u.ks = {} ∧ u.cores = {} ∧ u.ports = [] ∧ u.srp = {} ∧ u.adm = {} ∧
      u.bn = {} ∧ u.bulk = {} ∧ u.pair = {} ∧ u.pwr = {} ∧ u.dual.sessions = [] ∧ u.boot.restart = none ∧ u.boot.running = none ∧
      u.vault.store = s.vault.store ∧ u.vault.batches = s.vault.batches ∧ u.tmp.share = s.tmp.share ∧ u.tmp.presence = s.tmp.presence ∧
      u.tmp.latch = s.tmp.latch ∧ u.lc.word0 = s.lc.word0 ∧ u.lc.word1 = s.lc.word1 ∧ u.dual.cards = s.dual.cards
    (s.dev.state ≠ .sleep →
      (∃ u : State, exec (.resetAsserted .pwrGood) s = .next u ∧ cleared u ∧ u.dev.state = .reset ∧ u.dev.pwrGood = false) ∧
      (∃ u : State, exec (.resetAsserted .resetN) s = .next u ∧ cleared u ∧ u.dev.state = .reset ∧ u.dev.resetN = false) ∧
      (s.dev.vsec = true → ∃ u : State, exec .mainRailsRemoved s = .next u ∧ cleared u ∧ u.dev.state = .sleep ∧
        u.dev.mainRails = false ∧ u.dev.pwrGood = false ∧ u.recorder.storedSeconds = s.recorder.seconds) ∧
      (s.dev.vsec = false → ∃ u : State, exec .mainRailsRemoved s = .next u ∧ cleared u ∧ u.dev.state = .reset ∧
        u.dev.mainRails = false ∧ u.recorder.storedSeconds = s.recorder.storedSeconds)) ∧
    (s.dev.state = .sleep →
      (∀ pin, ∃ u : State, exec (.resetAsserted pin) s = .next u ∧ u = { s with dev := u.dev, recorder := u.recorder } ∧ u.dev.state = .sleep) ∧
      (∃ u : State, exec .mainRailsPresent s = .next u ∧ u.dev.state = .reset ∧ u.dev.mainRails = true ∧ u.dev.pwrGood = true ∧
        u = { s with dev := u.dev })) ∧
    (s.dev.state ≠ .sleep → ∃ u : State, exec .mainRailsPresent s = .next u ∧ u.dev.state = s.dev.state ∧ u.dev.mainRails = true ∧
      u = { s with dev := u.dev }) ∧
    (∃ u : State, exec .vsecApplied s = .next u ∧ u.dev.vsec = true ∧ u.tmp.share = [] ∧ u.tmp.presence = false ∧ u.vault.heldSeq = 0 ∧
      u.vault.heldChain = [] ∧ u.vault.store = s.vault.store ∧ u = { s with dev := u.dev, tmp := u.tmp, vault := u.vault }) ∧
    (s.dev.vsec = true → exec .vidValid s = .next { s with dev := { s.dev with vidValid := true } } ∧
      exec .crystalStop s = .next { s with tmp := { s.tmp with internalOsc := true } }) ∧
    (s.dev.vsec = false → exec .vidValid s = .next s ∧ exec .crystalStop s = .next s)

/-- For every state with VSEC present: a mesh patrol without a difference counts and clears the mesh's conditions; a switch sample
at the inactive level clears its run and its condition, and one at the active level short of the filter's count advances the
run, with no detection; LIGHT, LASER and EM that end clear their condition; temperatures inside both limits are kept, clear both
conditions and give the thermal state, which is hot from 150.0 °C on; a gutter frame that carries the next count of its
direction and opens under that direction's key advances the count and nothing else. None of these changes the device state, the
latch or the battery-backed RAM. (R14, R392, R394, R478.) -/
def Obligations.SensorsWithoutDetection : Prop :=
  ∀ s : State, s.dev.vsec = true →
    let calm := fun (u : State) => u.dev.state = s.dev.state ∧ u.tmp.latch = s.tmp.latch ∧ u.tmp.share = s.tmp.share ∧
      u.tmp.presence = s.tmp.presence ∧ u.tmp.alerts = s.tmp.alerts ∧ u.tmp.captures = s.tmp.captures ∧ u.ks = s.ks ∧ u.sq = s.sq
    (∃ u : State, exec (.coverMeshPatrol 0 0 0 0) s = .next u ∧ calm u ∧ u.tmp.counters = bump s.tmp.counters 0 1 ∧
      (∀ k, k < 4 → u.tmp.active.getLsbD k = false) ∧ u = { s with tmp := u.tmp }) ∧
    (∀ k, k < 2 → ∃ u : State, exec (.encMeshPatrol k 0) s = .next u ∧ calm u ∧ u.tmp.counters = bump s.tmp.counters 0 1 ∧
      u.tmp.active.getLsbD (4 + k) = false ∧ u = { s with tmp := u.tmp }) ∧
    (∀ k, k < 8 → tabWf 0 s.tmp.runs = true →
      (∃ u : State, exec (.switchSample k (!s.tmp.level.getLsbD k)) s = .next u ∧ calm u ∧ tabGet 0 u.tmp.runs k = 0 ∧
        u.tmp.active.getLsbD (6 + k) = false ∧ u = { s with tmp := u.tmp }) ∧
      (tabGet 0 s.tmp.runs k + 1 < filterSamples (tabGet 0 s.tmp.filter k % 4) →
        ∃ u : State, exec (.switchSample k (s.tmp.level.getLsbD k)) s = .next u ∧ calm u ∧
          tabGet 0 u.tmp.runs k = tabGet 0 s.tmp.runs k + 1 ∧ u.tmp.counters = bump s.tmp.counters 3 1 ∧ u = { s with tmp := u.tmp })) ∧
    (∀ d, ∀ p ∈ ([(.light d false, 25), (.laser d false, 26), (.em d false, 27)] : List (Instr × Nat)),
      ∃ u : State, exec p.1 s = .next u ∧ calm u ∧ u.tmp.active.getLsbD p.2 = false ∧ u = { s with tmp := u.tmp }) ∧
    (∀ t0 t1 t2 t3 t4 : BitVec 16, s.dev.mainRails = true → tabWf 0 s.tmp.temps = true →
      (∀ t ∈ [t0, t1, t2, t3, t4], -800 ≤ t.toInt ∧ t.toInt ≤ 2640) →
      ∃ u : State, exec (.tempReading t0 t1 t2 t3 t4) s = .next u ∧ calm u ∧
        (∀ k, k < 5 → tabGet 0 u.tmp.temps k = [t0, t1, t2, t3, t4].getD k 0) ∧ u.tmp.active.getLsbD 23 = false ∧
        u.tmp.active.getLsbD 24 = false ∧ (2400 ≤ t0.toInt → u.pwr.thermal = 2) ∧
        u = { s with tmp := u.tmp, pwr := u.pwr, recorder := u.recorder }) ∧
    (∀ frame, s.dev.gutterKeyed = true → 16 ≤ frame.length →
      let body := frame.take (frame.length - 16)
      let tag := frame.drop (frame.length - 16)
      ((gcmOpen (slice s.dev.gutterKey 0 32) (beBytes 12 s.dev.gutterTx) [] body tag).isSome = true →
        exec (.gutterFrameReceive true s.dev.gutterTx frame) s = .next { s with dev := { s.dev with gutterTx := s.dev.gutterTx + 1 } }) ∧
      ((gcmOpen (slice s.dev.gutterKey 32 32) (beBytes 12 s.dev.gutterRx) [] body tag).isSome = true →
        exec (.gutterFrameReceive false s.dev.gutterRx frame) s = .next { s with dev := { s.dev with gutterRx := s.dev.gutterRx + 1 } }))

/-- For every state with VSEC present and PWRGOOD and the main rails up, not in SLEEP, and every command that is a detection there
(a mesh net that differs, the switch sample that completes its filter, a rail or supply outside its limits, a clock outside its
range or a glitch once the clock sensors are armed, light, laser or EM that begins, a temperature that passes a limit, a gutter
frame of a wrong count): where its sensor is fixed or configured to erase, the device enters TAMPERED with the latch set, egress
closed, the battery-backed RAM and all that the compute die held cleared, and, the latch having been clear, the sensor's number
kept; otherwise the sensor's alert bit is set, and the device state, the latch and the battery-backed RAM stay. (R14, R392,
R393, R394, R397, R400, R402.) -/
def Obligations.SensorsDetect : Prop :=
  ∀ s : State, s.dev.vsec = true → s.dev.mainRails = true → s.dev.pwrGood = true → s.dev.state ≠ .sleep →
    let begins := fun (n : Nat) => s.tmp.active.getLsbD n = false
    let inLimits := fun (t : BitVec 16) => -800 ≤ t.toInt ∧ t.toInt ≤ 2640
    let detection := fun (c : Instr) (n : Nat) =>
      (∃ d : BitVec 64, d ≠ 0 ∧ ((c = .coverMeshPatrol d 0 0 0 ∧ n = 0) ∨ (c = .coverMeshPatrol 0 d 0 0 ∧ n = 1) ∨
        (c = .coverMeshPatrol 0 0 d 0 ∧ n = 2) ∨ (c = .coverMeshPatrol 0 0 0 d ∧ n = 3) ∨ ∃ k, k < 2 ∧ c = .encMeshPatrol k d ∧ n = 4 + k)) ∨
      (∃ k, k < 8 ∧ c = .switchSample k (s.tmp.level.getLsbD k) ∧ n = 6 + k ∧ begins n ∧
        filterSamples (tabGet 0 s.tmp.filter k % 4) ≤ tabGet 0 s.tmp.runs k + 1) ∨
      (∃ r above, r < 6 ∧ c = .vmonExcursion r above ∧ n = 14 + r) ∨ (∃ w, w < 2 ∧ c = .supplyGlitch w ∧ n = 20) ∨
      (s.folioRuns = true ∧ ∃ khz, (khz < 95000 ∨ 105000 < khz) ∧ c = .clockFreq 0 khz ∧ n = 21) ∨
      (s.folioRuns = true ∧ ∃ khz, (khz < 1520000 ∨ 1680000 < khz) ∧ c = .clockFreq 1 khz ∧ n = 21) ∨
      (s.folioRuns = true ∧ ∃ w, w < 2 ∧ c = .clockGlitch w ∧ n = 22) ∨
      (∃ d, begins n ∧ ((c = .light d true ∧ n = 25) ∨ (c = .laser d true ∧ n = 26) ∨ (c = .em d true ∧ n = 27))) ∨
      (∃ t0 t1 t2 t3 t4, c = .tempReading t0 t1 t2 t3 t4 ∧ inLimits t1 ∧ inLimits t2 ∧ inLimits t3 ∧ inLimits t4 ∧ begins n ∧
        ((t0.toInt < -800 ∧ n = 23) ∨ (2640 < t0.toInt ∧ n = 24))) ∨
      (s.dev.gutterKeyed = true ∧ n = 28 ∧ ∃ count frame, (count ≠ s.dev.gutterTx ∧ c = .gutterFrameReceive true count frame) ∨
        (count ≠ s.dev.gutterRx ∧ c = .gutterFrameReceive false count frame))
    ∀ c n, detection c n → ∃ u : State, exec c s = .next u ∧
      ((s.tmp.action ||| fixedSensors).getLsbD n = true →
        u.dev.state = .tampered ∧ u.tmp.latch = true ∧ u.tmp.egress = false ∧ u.tmp.share = [] ∧ u.tmp.presence = false ∧
          u.vault.heldSeq = 0 ∧ u.ks = {} ∧ u.sq = {} ∧ u.cores = {} ∧ u.ports = [] ∧
          (s.tmp.latch = false → u.tmp.sensor = n ∧ u.tmp.erases = s.tmp.erases + 1)) ∧
      ((s.tmp.action ||| fixedSensors).getLsbD n = false →
        u.tmp.alerts.getLsbD n = true ∧ u.dev.state = s.dev.state ∧ u.tmp.latch = s.tmp.latch ∧ u.tmp.share = s.tmp.share ∧
          u.tmp.presence = s.tmp.presence ∧ u.ks = s.ks ∧ u.sq = s.sq)

/-- For every state: RECORD_WRITE, inside a tail sector and without the front matter filling, writes the oldest offered record at
number NEXT, whole but for its chain field and FRONT, and NEXT rises by one; TAMPER_RECORD_WRITE takes the oldest capture,
offers an alert's record, and writes that of the response at once; REC_TOKEN_GAIN adds a token up to 512, or spends it on a
suppression record that clears the suppressed counts; OPERATING_SECOND counts while PWRGOOD is high and VSEC present, and stores
the count every 64 seconds. Each touches only the recorder and, for a capture, the tamper block. (R397, R398, R460, R461, R462,
R464.) -/
def Obligations.RecorderWrites : Prop :=
  ∀ s : State, let x := s.recorder
    (∀ r rest, x.offered = r :: rest → 0 < x.next % 1024 → (x.frontCount + 1 < 1024 ∨ x.everDeployed = false) →
      ∃ u : State, exec (.recordWrite false) s = .next u ∧ u.recorder.offered = rest ∧ u.recorder.next = x.next + 1 ∧
        (∃ f c, ∀ d, tabGet d u.recorder.tail x.next = { r with front := f, chain := c }) ∧ u = { s with recorder := u.recorder }) ∧
    (∀ f, x.offered = [] → exec (.recordWrite f) s = .next s) ∧
    (∀ c rest, s.tmp.captures = c :: rest → s.dev.state ≠ .sleep →
      (c.erase = false → ∃ u : State, exec .tamperRecordWrite s = .next u ∧ u.tmp.captures = rest ∧
        u.recorder = offer x (captureRecord c) ∧ u = { s with tmp := u.tmp, recorder := u.recorder }) ∧
      (c.erase = true → s.tmp.first = some c → 0 < x.next % 1024 → (x.frontCount + 1 < 1024 ∨ x.everDeployed = false) →
        ∃ u : State, exec .tamperRecordWrite s = .next u ∧ u.tmp.captures = rest ∧ u.recorder.next = x.next + 1 ∧
          (∀ d, (tabGet d u.recorder.tail x.next).data = (captureRecord c).data) ∧ u = { s with tmp := u.tmp, recorder := u.recorder })) ∧
    (s.tmp.captures = [] ∨ s.dev.state = .sleep → exec .tamperRecordWrite s = .next s) ∧
    (x.suppressed = [] → exec .recTokenGain s = .next { s with recorder := { x with bucket := min 512 (x.bucket + 1) } }) ∧
    (x.suppressed ≠ [] → ∃ u : State, exec .recTokenGain s = .next u ∧ u.recorder.suppressed = [] ∧ u.recorder.bucket = x.bucket ∧
      (∃ r : Record, r.data = padTo 16 (suppressedData x) ∧ u.recorder.offered = x.offered ++ [r]) ∧ u = { s with recorder := u.recorder }) ∧
    (s.dev.pwrGood = true → s.dev.vsec = true → ∃ u : State, exec .operatingSecond s = .next u ∧
      u.recorder.seconds = x.seconds + 1 ∧
      u.recorder.storedSeconds = (if (x.seconds + 1) % 64 = 0 then x.seconds + 1 else x.storedSeconds) ∧ u = { s with recorder := u.recorder }) ∧
    (s.dev.pwrGood = false ∨ s.dev.vsec = false → exec .operatingSecond s = .next s)

/-- For every state with its counter tables in canonical form: PMC_SEL_WRITE sets one counter's event and clears that counter alone;
PMC_CTRL_SNAP asks for a snapshot; COUNTER_WRAPPED of a counter that counts goes to 0, and sets its overflow bit, or, where the
next counter of its block is chained to it, counts one there. HI_REGISTER_READ on an open device-domain channel answers the
upper half of a split register and captures its lower half, which the next read of the LO register on that channel gives,
whatever the register does in between. Outside management states the register commands change nothing. (R87, R469, R470.) -/
def Obligations.CountersAndSplitReads : Prop :=
  ∀ s : State, tabWf 0 s.pmc.live = true → tabWf 0 s.pmc.select = true →
    (∀ c e, s.managed = true → c < 1024 → ∃ u : State, exec (.pmcSelWrite c e) s = .next u ∧
      tabGet 0 u.pmc.select c = e % 256 ∧ tabGet 0 u.pmc.live c = 0 ∧
      (∀ k, k ≠ c → tabGet 0 u.pmc.select k = tabGet 0 s.pmc.select k ∧ tabGet 0 u.pmc.live k = tabGet 0 s.pmc.live k) ∧
      u = { s with pmc := u.pmc }) ∧
    (s.managed = true → exec .pmcCtrlSnap s = .next { s with pmc := { s.pmc with snapAsked := true } }) ∧
    (∀ c e a w ch, s.managed = false → exec (.pmcSelWrite c e) s = .next s ∧ exec .pmcCtrlSnap s = .next s ∧
      exec (.hiRegisterRead ch a) s = .next s ∧ exec (.rngRandomRead ch w) s = .next s) ∧
    (∀ c, c < 1024 → tabGet 0 s.pmc.select c ≠ 0 →
      (tabGet 0 s.pmc.select (c + 1) ≠ 0xFF → ∃ u : State, exec (.counterWrapped c) s = .next u ∧ tabGet 0 u.pmc.live c = 0 ∧
        tabGet false u.pmc.ovf c = true ∧ u = { s with pmc := u.pmc, recorder := u.recorder }) ∧
      (tabGet 0 s.pmc.select (c + 1) = 0xFF → pmcBlockFirst (c + 1) ≠ c + 1 → c + 1 < 1024 → tabGet 0 s.pmc.live (c + 1) + 1 < 2 ^ 32 →
        ∃ u : State, exec (.counterWrapped c) s = .next u ∧ tabGet 0 u.pmc.live c = 0 ∧
          tabGet 0 u.pmc.live (c + 1) = tabGet 0 s.pmc.live (c + 1) + 1 ∧ u = { s with pmc := u.pmc })) ∧
    (∀ ch a v, ch < 2 ^ 15 → s.managed = true → (s.chan ch).state = .open → (s.chan ch).tenant = 0 → splitValue s ch a = some (v, a) →
      ∃ u : State, exec (.hiRegisterRead ch a) s = .next u ∧ u.readBack = BitVec.ofNat 32 (hi32 v) ∧
        (lo32 v ≠ 0 → u.selector ch (a + 4) = lo32 v) ∧ (∀ j, j ≠ ch → u.chan j = s.chan j) ∧
        u = { s with srp := u.srp, readBack := u.readBack })

/-- For every state in which a folio runs: DETECTED_ERROR of a request-memory cell marks that live slot for the next tick; a
corrected error of a unit counts in its second; an uncorrectable error that Table 18.6 gives a unit not quarantined marks the
unit for withdrawal, or, at its third in an hour or under test, for quarantine, and for a transaction core with no task touches
no request. TARGETED_TEST_COMPLETE of a unit under test returns it at the next tick when it passes, else marks it for
quarantine. DISTRICT_WAKE_COMPLETE makes a waking district active; from RETAIN or GATED nothing is tested, from OFF a failing
unit is marked for quarantine. With no folio running, or no test or wake in progress, nothing changes. (R110, R118, R164, R471,
R472, R473, R475, R477.) -/
def Obligations.FaultsAndTests : Prop :=
  ∀ s : State,
    let quarantineDue := fun (u : State) (unit : Nat) => ∃ n, (unit, n) ∈ u.faults.toQuarantine
    (s.folioRuns = false → ∀ a b, exec (.detectedError a b) s = .next s) ∧
    (s.folioRuns = true →
      (∀ k cell, (s.slot k).live = true → ∃ u : State, exec (.detectedError (0x10000 + k) cell) s = .next u ∧ k ∈ u.faults.memErrors ∧
        u = { s with faults := u.faults, recorder := u.recorder }) ∧
      (∀ unit, unit < 0x80 → ∃ u : State, exec (.detectedError unit 0) s = .next u ∧
        tabGet (0, 0) u.faults.corrected unit = (s.second,
          (if (tabGet (0, 0) s.faults.corrected unit).1 = s.second then (tabGet (0, 0) s.faults.corrected unit).2 + 1 else 1)) ∧
        u = { s with faults := u.faults, recorder := u.recorder }) ∧
      (∀ unit kind, kind < 256 → kind ≠ 5 → detects unit kind = true → s.quarantined unit = false →
        ∃ u : State, exec (.detectedError unit kind) s = .next u ∧
          (unit ∈ u.faults.marked ∨ unit ∈ u.faults.withdrawn ∨ quarantineDue u unit)) ∧
      (∀ c kind, c < 128 → kind = 1 ∨ kind = 2 → s.quarantined (0x80 + c) = false → s.taskOf c = none →
        ∃ u : State, exec (.detectedError (0x80 + c) kind) s = .next u ∧ u = { s with faults := u.faults, recorder := u.recorder })) ∧
    (∀ unit step, s.testing unit = true → unit ∉ s.faults.returning → ¬ quarantineDue s unit →
      (∃ u : State, exec (.targetedTestComplete unit true step) s = .next u ∧ unit ∈ u.faults.returning ∧
        u.faults.toQuarantine = s.faults.toQuarantine ∧ u = { s with faults := u.faults, recorder := u.recorder }) ∧
      (∃ u : State, exec (.targetedTestComplete unit false step) s = .next u ∧ quarantineDue u unit ∧
        u.faults.returning = s.faults.returning ∧ u = { s with faults := u.faults, recorder := u.recorder })) ∧
    (∀ unit p step, s.testing unit = false → exec (.targetedTestComplete unit p step) s = .next s) ∧
    (∀ d cycles, (s.district d).waking = true →
      ((s.district d).state ≠ .off → ∀ l, ∃ u : State, exec (.districtWakeComplete d l cycles) s = .next u ∧
        (u.district d).state = .active ∧ (u.district d).waking = false ∧ (∀ j, j ≠ d → u.district j = s.district j) ∧
        u = { s with pwr := u.pwr, recorder := u.recorder }) ∧
      ((s.district d).state = .off → ∀ unit step, unit < 256 → (districtUnits d).contains unit = true → s.quarantined unit = false →
        ∃ u : State, exec (.districtWakeComplete d [unit + 256 * step] cycles) s = .next u ∧ (u.district d).state = .active ∧
          quarantineDue u unit ∧ u = { s with pwr := u.pwr, faults := u.faults, recorder := u.recorder })) ∧
    (∀ d l cycles, (s.district d).waking = false → exec (.districtWakeComplete d l cycles) s = .next s)

/-- For every state with its resident table in canonical form: MASK_REFRESH_STEP, while refresh runs, moves to the next of 196,608
units and leaves every resident and every cached key's value as it was, where its two shares are of one length; KEY_SRAM_ERROR
drops the cache binding that covers the unit, or marks the resident slot that covers it as reloading, and
RESIDENT_RELOAD_COMPLETE gives that slot its key from the vault's store again. VAULT_BATCH_WRITE seals what the key store holds
into one more batch, whose number and chain value the security die holds, and no change stays waiting. VAULT_OLD_BATCH_ERASE
erases the first batch of an old chain. (R251, R252, R262, R267, R417.) -/
def Obligations.KeyStoreWork : Prop :=
  ∀ s : State, tabWf {} s.ks.resident = true →
    (s.ks.refresh = false ∨ s.rng.state = .failed → exec .maskRefreshStep s = .next s) ∧
    (s.ks.refresh = true → s.rng.state ≠ .failed → ∃ u : State, exec .maskRefreshStep s = .next u ∧
      u.ks.refreshUnit = (s.ks.refreshUnit + 1) % 196608 ∧ u = { s with ks := u.ks, rng := u.rng } ∧
      (∀ k, (s.resident k).shareA.length = (s.resident k).shareB.length → (u.resident k).keyBytes = (s.resident k).keyBytes) ∧
      ((∀ c ∈ s.ks.cache, c.shareA.length = c.shareB.length) →
        u.ks.cache.map (fun c => xorBytes c.shareA c.shareB) = s.ks.cache.map (fun c => xorBytes c.shareA c.shareB))) ∧
    (∀ unit b, cacheAt unit s.ks.cache = some b → ∃ u : State, exec (.keySramError false unit) s = .next u ∧
      u.ks.cache = s.ks.cache.erase b ∧ u.ks.resident = s.ks.resident ∧ u = { s with ks := u.ks, recorder := u.recorder }) ∧
    (∀ unit k, s.residentAt unit = some k → ∃ u : State, exec (.keySramError true unit) s = .next u ∧
      u.resident k = { s.resident k with reloading := true } ∧ (∀ j, j ≠ k → u.resident j = s.resident j) ∧ u.ks.cache = s.ks.cache ∧
      u = { s with ks := u.ks, recorder := u.recorder }) ∧
    (∀ k, (s.resident k).reloading = true → (tabGet ({} : Resident) s.vault.store.resident k).kind ≠ .free →
      ∃ u : State, exec (.residentReloadComplete k) s = .next u ∧ (u.resident k).reloading = false ∧
        (u.resident k).shareA = (tabGet ({} : Resident) s.vault.store.resident k).shareA ∧
        (u.resident k).shareB = (tabGet ({} : Resident) s.vault.store.resident k).shareB ∧ (∀ j, j ≠ k → u.resident j = s.resident j) ∧
        u = { s with ks := u.ks }) ∧
    (∀ k, (s.resident k).reloading = false → exec (.residentReloadComplete k) s = .next s) ∧
    (s.ks.unsealed = true → 0 < s.ks.changes → s.ks.vaultKey ≠ [] → ∃ (u : State) (b : VaultBatch), exec .vaultBatchWrite s = .next u ∧
      u.vault.batches = s.vault.batches ++ [b] ∧ b.seq = s.vault.heldSeq + 1 ∧ u.vault.heldSeq = s.vault.heldSeq + 1 ∧
      u.vault.heldChain = vaultChainNext s.vault.heldChain b.body ∧ u.ks.changes = 0 ∧ u.ks.smk = s.ks.smk ∧
      u = { s with ks := u.ks, vault := u.vault }) ∧
    (s.ks.changes = 0 ∨ s.ks.unsealed = false → exec .vaultBatchWrite s = .next s) ∧
    exec .vaultOldBatchErase s = .next { s with vault := { s.vault with old := s.vault.old.drop 1 } }

/-- For every state with its source and instance tables in canonical form: a window of a HEALTHY source A or B that passes both
tests counts and conditions its samples into a block, two of which make a seed; a run that reaches the cutoff, or
SOURCE_TEST_FAILURE, leaves the source requalifying, or quarantined at the third failure in an hour, with its seeds gone; an
estimate sets BIAS. A scheduled reseed that is due takes the active source's oldest seed; a forced reseed begun by command stops
every running instance until each has its seed. An instance's error withdraws it with its state cleared, and it returns from a
fresh seed. A draw of the internal pool delivers its blocks; a management read of RNG_RANDOM answers 32 bits of a fresh block,
whose value is free. (R329, R330, R331, R332, R334, R335, R339, R342, R345, R348.) -/
def Obligations.RandomGenerator : Prop :=
  ∀ s : State, tabWf {} s.rng.sources = true → tabWf {} s.rng.drbgs = true →
    let recent := fun (k : Nat) => ((s.source k).failTimes.filter (fun t => decide (s.second < t + 3600))).length
    let failed := fun (u : State) (k : Nat) => (u.source k).health = (if 2 ≤ recent k then .quarantined else .requalifying) ∧
      (u.source k).seeds = [] ∧ (u.source k).blocks = []
    (∀ k samples, k < 2 → samples.length = 128 → (s.source k).health = .healthy →
      let x := s.source k
      let bits := sampleBits samples
      (rctFails (rctCutoff k) (x.run, x.runBit) bits = false → aptCount bits < aptCutoff k →
        ∃ u : State, exec (.sourceWindowEnd k samples) s = .next u ∧ (u.source k).health = .healthy ∧ (u.source k).windows = x.windows + 1 ∧
          (u.source k).passed = min 0xFFFFFFFF (x.passed + 1) ∧ u = { s with rng := u.rng } ∧
          (x.blocks = [] → (u.source k).blocks = [releasedBlock k x.windows samples] ∧ (u.source k).seeds = x.seeds) ∧
          (∀ a, x.blocks = [a] → x.seeds.length < 8 → (u.source k).blocks = [] ∧
            (u.source k).seeds = x.seeds ++ [a ++ releasedBlock k x.windows samples])) ∧
      (rctFails (rctCutoff k) (x.run, x.runBit) bits = true →
        ∃ u : State, exec (.sourceWindowEnd k samples) s = .next u ∧ failed u k)) ∧
    (∀ k test v, k ≤ 2 → test = 1 ∨ test = 2 → (s.source k).health = .healthy →
      ∃ u : State, exec (.sourceTestFailure k test v) s = .next u ∧ failed u k) ∧
    (∀ k ones sums, k ≤ 2 → (s.source k).health = .healthy → ∃ u : State, exec (.sourceEstimate k ones sums) s = .next u ∧
      (u.source k).bias = BitVec.ofInt 16 (((ones : Int) - 2 ^ 19).tdiv 16) ∧ (u.source k).seeds = (s.source k).seeds ∧
      u = { s with rng := u.rng, recorder := u.recorder }) ∧
    (∀ i seed rest, i < 8 → s.rng.state = .ready → s.rng.forced = none → (s.drbg i).state = .running →
      (s.drbg i).lastReseed + 128 ≤ s.micros → (s.source s.rng.active).seeds = seed :: rest →
      ∃ u : State, exec (.drbgScheduledReseed i) s = .next u ∧ (u.drbg i).seed = seed ∧ (u.drbg i).lastReseed = s.micros ∧
        (u.source s.rng.active).seeds = rest ∧ (∀ j, j ≠ i → u.drbg j = s.drbg j)) ∧
    (∀ ch, s.managed = true → s.rng.state = .ready → ∃ u : State, exec (.rngCtrlReseed ch) s = .next u ∧
      u.rng.forced = some s.rng.active ∧ (∀ i, i < 8 → (s.drbg i).state = .running → (u.drbg i).state = .reseeding)) ∧
    (∀ k cycles, s.rng.forced = some k → k < 2 → 8 ≤ (s.source k).seeds.length → ∃ u : State, exec (.forcedReseedComplete cycles) s = .next u ∧
      u.rng.forced = none ∧ (∀ i, i < 8 → (s.drbg i).state = .reseeding → (u.drbg i).state = .running ∧ (u.drbg i).source = k)) ∧
    (∀ cycles, s.rng.forced = none → exec (.forcedReseedComplete cycles) s = .next s) ∧
    (s.rng.refilling = true → s.rng.forced = none → s.rng.state = .degraded →
      exec .tenantPoolFull s = .next { s with rng := { s.rng with poolTen := s.rng.poolSize, refillDone := true } }) ∧
    (∀ i, i < 8 → (s.drbg i).state = .running → ∃ u : State, exec (.drbgInstanceError i) s = .next u ∧ (u.drbg i).state = .withdrawn ∧
      (u.drbg i).seed = [] ∧ (∀ j, j ≠ i → u.drbg j = s.drbg j)) ∧
    (∀ i seed rest, i < 8 → (s.drbg i).state = .withdrawn → (s.drbg i).quarantined = false → s.rng.state = .ready → s.rng.forced = none →
      (s.source s.rng.active).seeds = seed :: rest → ∃ u : State, exec (.drbgInstanceReturn i true) s = .next u ∧
        (u.drbg i).state = .running ∧ (u.drbg i).returned = true ∧ (u.source s.rng.active).seeds = rest ∧ u = { s with rng := u.rng }) ∧
    (∀ core n off t, (s.randPort core).draw = some (false, n, off) → 0 < n → s.taskOf core = some t → s.rng.ready = true →
      s.rng.state = .ready → ∃ u : State, exec (.randomDrawComplete core) s = .next u ∧ (u.randPort core).status = 0 ∧
        (u.randPort core).delivered = n ∧ (u.randPort core).draw = none ∧ u.rng.poolInt = s.rng.poolInt - n) ∧
    (∀ core, (s.randPort core).draw = none → exec (.randomDrawComplete core) s = .next s) ∧
    (∀ ch w, s.managed = true → w < 16 → (s.chan (ch % 2 ^ 15)).state = .free → s.rng.ready = true → s.rng.state = .ready →
      ∃ u : State, exec (.rngRandomRead ch w) s = .next u ∧ u.readBack = BitVec.ofNat 32 (fld (s.random 16).1 0 4) ∧
        u.rng.poolInt = s.rng.poolInt - 1 ∧ u = { s with rng := u.rng, pmc := u.pmc, recorder := u.recorder, readBack := u.readBack })

/-- For every state: SESSION_EXPIRY of a session not in use past its end makes it EXPIRED and erases what it accumulated; where the
interface table is canonical, CARD_EXCHANGE_COMPLETE ends the exchange, drops the card's power and, where the signature passes
every check, counts it with its component from the next tick; CARD_EXCHANGE_TIMEOUT ends the exchange without counting;
CARD_PRESENCE_CHANGE keeps the presence of a card and its class; CARD_VALIDITY_CHANGE makes a usable card without uses, or past
its end, EXHAUSTED, and an ACTIVE one with 20,000 uses or fewer, or nine tenths through its life, WARNED. Each leaves every
other session and card as it was. (R358, R360, R363, R364, R371.) -/
def Obligations.CardsAndSessions : Prop :=
  ∀ s : State,
    (∀ i, ((s.session i).state = .open ∨ (s.session i).state = .granted) →
      (State.pastE (s.session i) s.folio.now = true → ∃ u : State, exec (.sessionExpiry i) s = .next u ∧ (u.session i).state = .expired ∧
        (u.session i).ephemeral = [] ∧ (∀ c ∈ (u.session i).counted, c.component = []) ∧ (∀ j, j ≠ i → u.session j = s.session j) ∧
        u = { s with dual := u.dual, recorder := u.recorder }) ∧
      (State.pastE (s.session i) s.folio.now = false → exec (.sessionExpiry i) s = .next s)) ∧
    (∀ i id serial sig cmsg, tabWf {} s.dual.ifaces = true → tabWf {} s.dual.sessions = true → (s.iface i).exchange = some id →
      let k := id % 256
      let named := sessionId k (s.session k) = id ∧ (s.session k).state ≠ .free
      let r := signatureStatus s (if named then some k else none) s.folio.now serial sig cmsg
      ∃ u : State, exec (.cardExchangeComplete i serial sig cmsg) s = .next u ∧ (u.iface i).exchange = none ∧ (u.iface i).powered = false ∧
        (∀ j, j ≠ k → u.session j = s.session j) ∧
        (u.session k).counted = (s.session k).counted ++ (match r.2 with
          | some (_, comp) => [{ serial := serial, effectAt := some (folioAdd s.folio.now 1), component := comp,
                                 kcv := if comp = [] then [] else componentKcv comp, slot := none }]
          | none => [])) ∧
    (∀ i id lost, tabWf {} s.dual.ifaces = true → (s.iface i).exchange = some id → ∃ u : State, exec (.cardExchangeTimeout i lost) s = .next u ∧
      (u.iface i).exchange = none ∧ (u.iface i).powered = false ∧ (∀ j, (u.session j).counted = (s.session j).counted) ∧
      u = { s with dual := u.dual, recorder := u.recorder }) ∧
    (∀ i lost serial sig cmsg, (s.iface i).exchange = none → exec (.cardExchangeTimeout i lost) s = .next s ∧
      exec (.cardExchangeComplete i serial sig cmsg) s = .next s) ∧
    (∀ i present a, s.dev.mainRails = true → i < 2 → (s.iface i).present ≠ present → tabWf {} s.dual.ifaces = true →
      ∃ u : State, exec (.cardPresenceChange i present a) s = .next u ∧ (u.iface i).present = present ∧ (u.iface i).classA = (present && a) ∧
        (u.iface i).exchange = (s.iface i).exchange ∧ (∀ j, j ≠ i → u.iface j = s.iface j) ∧
        u = { s with dual := u.dual, recorder := u.recorder }) ∧
    (∀ i, ((s.card i).state = .active ∨ (s.card i).state = .warned) →
      ((s.card i).usesLeft = 0 ∨ (s.card i).notAfter < s.registryTime →
        ∃ u : State, exec (.cardValidityChange i) s = .next u ∧ u.card i = { s.card i with state := .exhausted } ∧
          ∀ j, j ≠ i → u.card j = s.card j) ∧
      (0 < (s.card i).usesLeft → s.registryTime ≤ (s.card i).notAfter → (s.card i).state = .active →
        ((s.card i).usesLeft ≤ 20000 ∨ (s.card i).late s.registryTime = true →
          ∃ u : State, exec (.cardValidityChange i) s = .next u ∧ u.card i = { s.card i with state := .warned } ∧
            ∀ j, j ≠ i → u.card j = s.card j) ∧
        (20000 < (s.card i).usesLeft → (s.card i).late s.registryTime = false → exec (.cardValidityChange i) s = .next s)))

/-- For every state: the TAP instructions select their register and drive, float or release the pins; a SCRAPPED device's TAP
selects BYPASS whatever is shifted in, touches no other state, and changes nothing but the TAP for DBG_ACCESS and LC_MAILBOX. A
debug access without authorisation reads zeros everywhere but DEV_PART and writes nothing, and touches no memory, key or folio;
one that is authorised reads DEV_PART. LC_MAILBOX in RECOVERY places a request of a function it knows, and refuses another.
LC_TRANSITION_EXECUTE of an intent in progress in RECOVERY programs its stripe in both copies of the life-cycle word, closes the
intent, and leaves the device restarting. REPORT_FRAME of a SCRAPPED device in RECOVERY sends one broadcast frame on Port M.
(R374, R377, R379, R380, R383, R384, R385, R386, R387.) -/
def Obligations.TapAndTransition : Prop :=
  ∀ s : State,
    (s.lc.state ≠ .scrapped →
      exec .extest s = .next (s.setTap (fun t => { t with instr := .extest, pinsFromBoundary := true, pinsHighZ := false })) ∧
      (∀ pins pre, pre ≠ [] → exec (.samplePreload pins pre) s =
        .next (s.setTap (fun t => { t with instr := .samplePreload, boundary := pre, pinsFromBoundary := false, pinsHighZ := false }))) ∧
      exec .idcode s = .next (s.setTap (fun t => { t with instr := .idcode, pinsFromBoundary := false, pinsHighZ := false })) ∧
      exec .tapReset s = exec .idcode s ∧
      exec .clamp s = .next (s.setTap (fun t => { t with instr := .clamp, pinsFromBoundary := true, pinsHighZ := false })) ∧
      exec .highz s = .next (s.setTap (fun t => { t with instr := .highz, pinsFromBoundary := false, pinsHighZ := true })) ∧
      exec .bypass s = .next (s.setTap (fun t => { t with instr := .bypass, pinsFromBoundary := false, pinsHighZ := false }))) ∧
    (s.lc.state = .scrapped → ∀ pins pre f p w sp a d,
      ∀ c ∈ ([.extest, .samplePreload pins pre, .idcode, .tapReset, .clamp, .highz, .bypass, .lcMailbox f p, .dbgAccess w sp a d] : List Instr),
        ∃ u : State, exec c s = .next u ∧ u.lc.tap.instr = .bypass ∧ u = s.setTap (fun _ => u.lc.tap)) ∧
    (s.debugAllowed = false → s.lc.state ≠ .scrapped →
      (∀ sp a, sp ≤ 1 → (sp = 0 → a ≠ 0) → ∃ u : State, exec (.dbgAccess false sp a 0) s = .next u ∧ u.lc.tap.dbgData = 0 ∧
        u.ks = s.ks ∧ u.sq = s.sq ∧ u.cores.core = s.cores.core ∧ u.cores.blockMem = s.cores.blockMem ∧ u.bn = s.bn) ∧
      (∀ sp a d, sp ≤ 1 → ∃ u : State, exec (.dbgAccess true sp a d) s = .next u ∧ u.ks = s.ks ∧ u.sq = s.sq ∧
        u.cores.core = s.cores.core ∧ u.cores.blockMem = s.cores.blockMem ∧ u.bn = s.bn ∧ u.folio = s.folio)) ∧
    (∀ d, s.debugAllowed = true → ∃ u : State, exec (.dbgAccess false 0 0 d) s = .next u ∧
      u.lc.tap.dbgData = BitVec.ofNat 32 (readPlain s (2 ^ 15) 0)) ∧
    (∀ f p, s.lc.state ≠ .scrapped → s.dev.state = .recovery →
      (mailboxFn f = true → ∃ u : State, exec (.lcMailbox f p) s = .next u ∧ (u.slot s.freeSlot).func = f ∧
        (u.slot s.freeSlot).payload = p ∧ (u.slot s.freeSlot).mailbox = true ∧ u.sq.placed = s.sq.placed + 1 ∧
        (∀ j, j ≠ s.freeSlot → u.slot j = s.slot j)) ∧
      (mailboxFn f = false → ∃ u : State, exec (.lcMailbox f p) s = .next u ∧ u.lc.mailboxReply = some (stFunctionNotPermitted, []) ∧
        u.sq = s.sq)) ∧
    (∀ r : Intent, s.lc.liveIntent = some r → s.lc.inProgress = true → s.dev.state = .recovery → ∃ u : State,
      exec .lcTransitionExecute s = .next u ∧ u.lc.word0 = programStripe s.lc.word0 r.stripe ∧ u.lc.word1 = programStripe s.lc.word1 r.stripe ∧
        u.lc.liveIntent = none ∧ u.lc.inProgress = false ∧ u.dev.state = .reset ∧ u.boot.restart = some .start ∧ u.boot.attempts = 0) ∧
    (s.lc.liveIntent = none ∨ s.lc.inProgress = false ∨ s.dev.state ≠ .recovery → exec .lcTransitionExecute s = .next s) ∧
    (s.lc.state = .scrapped → s.dev.state = .recovery → ∃ (u : State) (f : TxFrame), exec .reportFrame s = .next u ∧
      (u.port 16).tx = (s.port 16).tx ++ [f] ∧ f.bytes.take 6 = List.replicate 6 0xFF ∧ f.bytes.drop 14 =
        padTo 46 (ascii "SKZ2" ++ [5] ++ beBytes 8 Config.serial.toNat) ∧ u = { s with ports := u.ports }) ∧
    (s.lc.state ≠ .scrapped ∨ s.dev.state ≠ .recovery → exec .reportFrame s = .next s)

/-- For every state: a REP that the device takes on an own channel of a member, read as the answer to batches or heartbeats, acts on
each of its reply records in order; an OK record of 8 bytes from position 1 to the confirmed active in SERVICE, with no handover
under way, makes its HELD the folio held where that is newer, and ends the silence. SELF_FENCE at 40 folios of silence of an
active whose fence is armed writes a fence flush to the vault and enters RECOVERY for reason 3. TAKEOVER_SILENCE of a member in
chain at position k declares a takeover once 50 + 10 × (k − 1) folios have been silent. MEMBER_DROP of the silent successor
raises EPOCH by one. VAULT_CONSOLIDATE applies the oldest appended batch to the standby's stores. DRAIN_END restarts the device
once no reply is owed. Out of place, none changes anything. (R42, R425, R438, R440, R443, R444, R445, R446, R448, R449.) -/
def Obligations.ChainOfMembers : Prop :=
  ∀ s : State,
    (∀ i c x b pt u j, takeRep s i .open = (some (c, x, b, pt), u) → x.member = some j →
      exec (.journalAck i) s = .next ((replyRecs (fld b 2 2 / 1024) pt).foldl (actOnReply j x.phys) u) ∧
      exec (.heartbeatReply i) s = .next ((replyRecs (fld b 2 2 / 1024) pt).foldl (actOnReply j x.phys) u)) ∧
    (∀ i u, takeRep s i .open = (none, u) → exec (.journalAck i) s = .next u ∧ exec (.heartbeatReply i) s = .next u) ∧
    (∀ j path r, s.dev.state = .service → s.position = 0 → (s.member j).position = 1 → (s.member j).state ≠ 0 → s.pair.handover = none →
      s.pair.confirmed = true → r.status = stOk → r.result.length = 8 →
      let h := fld r.result 0 6
      let u := actOnReply j path s r
      u.pair.held = (if folioReached h s.pair.held = true ∧ h ≠ s.pair.held then h else s.pair.held) ∧ u.pair.ackSilence = 0 ∧
        u.pair.confirmed = true ∧ u.dev = s.dev) ∧
    (s.fenceArmed = true → 40 ≤ s.pair.ackSilence → ∃ (u : State) (b : VaultBatch), exec .selfFence s = .next u ∧ u.dev.state = .recovery ∧
      u.boot.cause.reason = 3 ∧ u.vault.batches = s.vault.batches ++ [b] ∧ b.fenceFlush = true) ∧
    (s.fenceArmed = false ∨ s.pair.ackSilence < 40 → exec .selfFence s = .next s) ∧
    (s.paired = true → s.dev.state = .standby → s.pair.timer = true → 1 ≤ s.position → (s.member s.pair.slot).state = 1 →
      s.pair.takeover = none →
      (50 + 10 * (s.position - 1) ≤ s.pair.aheadSilence → ∃ u : State, exec .takeoverSilence s = .next u ∧
        u.pair = { s.pair with takeover := some (s.folio.now, 0) } ∧ u = { s with pair := u.pair, recorder := u.recorder }) ∧
      (s.pair.aheadSilence < 50 + 10 * (s.position - 1) → exec .takeoverSilence s = .next s)) ∧
    (∀ k, s.paired = true → s.dev.state = .service → s.pair.epoch + 1 < 2 ^ 32 → (s.member k).state ≠ 0 →
      (s.member k).position = s.position + 1 →
      (1024 ≤ (s.member k).silentA → 1024 ≤ (s.member k).silentB → ∃ u : State, exec (.memberDrop k) s = .next u ∧
        u.pair.epoch = s.pair.epoch + 1) ∧
      ((s.member k).silentA < 1024 ∨ (s.member k).silentB < 1024 → exec (.memberDrop k) s = .next s)) ∧
    (∀ g rs rest, s.vault.log = (g, rs) :: rest → exec .vaultConsolidate s =
      .next { s with vault := { s.vault with store := rs.foldl (fun v r => vaultApply v g r) s.vault.store, log := rest } }) ∧
    (s.vault.log = [] → exec .vaultConsolidate s = .next s) ∧
    (∀ f r, s.boot.drain = some (f, r) →
      ((∀ p ∈ s.sq.slots, p.2.owed = false) → s.dev.state = .service → s.pair.handover = none → ∃ u : State, exec .drainEnd s = .next u ∧
        u.dev.state = .reset ∧ u.boot.restart = some r ∧ u.sq = {} ∧ u.vault.batches = s.vault.batches) ∧
      (∀ p ∈ s.sq.slots, p.2.owed = true → exec .drainEnd s = .next s)) ∧
    (s.boot.drain = none → exec .drainEnd s = .next s)

/-- For every state and slot: of a request that is no graph request, not admitted or already committed, GRAPH_FUNCTION changes
nothing. Otherwise it takes, one after another, the things that the cores running the request's nodes, or else the Square giving
a core its next ready node, can do by themselves (graphAdvance), until the request has its commit point or none can go on: with
nothing to do it changes nothing, a single thing that commits the request, or after which nothing can go on, is its whole
effect, and, where more can go on, it goes on from there. A ready node at the head of its block's list goes to the block's
taking core when no core runs a node of the request. (R137, R138, R147, R149.) -/
def Obligations.GraphRequests : Prop :=
  ∀ (s : State) (k : Nat),
    (s.graphRuns k = false → exec (.graphFunction k) s = .next s) ∧
    (s.graphRuns k = true → (s.slot k).live = true →
      (graphAdvance s k = none → exec (.graphFunction k) s = .next s) ∧
      (∀ t, graphAdvance s k = some t →
        exec (.graphFunction k) s = .next (runGraph (16 * ((s.slot k).cost.core + 4096) - 1) t k) ∧
        ((t.slot k).commit.isSome = true → exec (.graphFunction k) s = .next t) ∧
        (graphAdvance t k = none → exec (.graphFunction k) s = .next t)) ∧
      (∀ e core, s.coresOf k = [] → s.readyFor ((s.slot k).block.getD 0) = some e → e.slot = k →
        s.taker ((s.slot k).block.getD 0) = some core → graphAdvance s k = some (giveTask s core e)))
end

