-- ==== Sys2Proof/Laws/Tab.lean ====
section
/-! SUPPORT. The laws of the sparse tables: a read after a write gives the value written, a write leaves every other key alone,
and every operation keeps the canonical form. -/

namespace Sys2Proof.Machine

variable {α : Type}

theorem tabGet_insert_same (d : α) (t : List (Nat × α)) (k : Nat) (v : α) : tabGet d (tabInsert t k v) k = v := by
  induction t with
  | nil => simp [tabInsert, tabGet]
  | cons p t ih =>
    obtain ⟨j, w⟩ := p
    unfold tabInsert
    split_ifs with h1 h2
    · simp [tabGet]
    · simp [tabGet]
    · simpa [tabGet, h2] using ih

theorem tabGet_insert_other (d : α) (t : List (Nat × α)) {k j : Nat} (v : α) (h : j ≠ k) :
    tabGet d (tabInsert t k v) j = tabGet d t j := by
  induction t with
  | nil => simp [tabInsert, tabGet, h.symm]
  | cons p t ih =>
    obtain ⟨i, w⟩ := p
    unfold tabInsert
    split_ifs with h1 h2
    · simp [tabGet, h.symm]
    · subst h2
      simp [tabGet, h.symm]
    · simp [tabGet, ih]

theorem tabGet_drop_other (d : α) (t : List (Nat × α)) {k j : Nat} (h : j ≠ k) : tabGet d (tabDrop t k) j = tabGet d t j := by
  induction t with
  | nil => rfl
  | cons p t ih =>
    obtain ⟨i, w⟩ := p
    unfold tabDrop
    split_ifs with h1
    · subst h1
      simp [tabGet, h.symm]
    · simp [tabGet, ih]

theorem tabGet_notMem (d : α) (t : List (Nat × α)) (k : Nat) (h : ∀ p ∈ t, p.1 ≠ k) : tabGet d t k = d := by
  induction t with
  | nil => rfl
  | cons p t ih =>
    obtain ⟨i, w⟩ := p
    have h1 : i ≠ k := h (i, w) (by simp)
    simp [tabGet, h1, ih (fun q hq => h q (by simp [hq]))]

variable [DecidableEq α]

theorem tabWf_cons {d : α} {j : Nat} {v : α} {t : List (Nat × α)} :
    tabWf d ((j, v) :: t) = true ↔ v ≠ d ∧ (∀ p ∈ t, j < p.1) ∧ tabWf d t = true := by
  simp [tabWf, Bool.and_eq_true, and_assoc]

theorem tabGet_drop_same {d : α} {t : List (Nat × α)} (h : tabWf d t = true) (k : Nat) : tabGet d (tabDrop t k) k = d := by
  induction t with
  | nil => rfl
  | cons p t ih =>
    obtain ⟨i, w⟩ := p
    obtain ⟨_, h2, h3⟩ := tabWf_cons.1 h
    unfold tabDrop
    split_ifs with h1
    · subst h1
      exact tabGet_notMem d t i (fun p hp => Nat.ne_of_gt (h2 p hp))
    · simpa [tabGet, h1] using ih h3

/-- A read after a write of the same key of a canonical table gives the value written. -/
theorem tabGet_put_same {d : α} {t : List (Nat × α)} (h : tabWf d t = true) (k : Nat) (v : α) : tabGet d (tabPut d t k v) k = v := by
  unfold tabPut
  split_ifs with h1
  · rw [h1, tabGet_drop_same h]
  · exact tabGet_insert_same d t k v

/-- A read after a write of the same key gives the value written, whatever the table, where it differs from the unlisted value. -/
theorem tabGet_put_new {d : α} (t : List (Nat × α)) (k : Nat) {v : α} (h : v ≠ d) : tabGet d (tabPut d t k v) k = v := by
  rw [tabPut, if_neg h, tabGet_insert_same]

/-- A write leaves every other key alone. -/
theorem tabGet_put_other (d : α) (t : List (Nat × α)) {k j : Nat} (v : α) (h : j ≠ k) : tabGet d (tabPut d t k v) j = tabGet d t j := by
  unfold tabPut
  split_ifs
  · exact tabGet_drop_other d t h
  · exact tabGet_insert_other d t v h

omit [DecidableEq α] in
theorem tabDrop_mem {t : List (Nat × α)} {k : Nat} {p : Nat × α} (h : p ∈ tabDrop t k) : p ∈ t := by
  induction t with
  | nil => simp [tabDrop] at h
  | cons q t ih =>
    obtain ⟨i, w⟩ := q
    unfold tabDrop at h
    split_ifs at h
    · exact List.mem_cons_of_mem _ h
    · rcases List.mem_cons.1 h with rfl | h
      · exact List.mem_cons_self
      · exact List.mem_cons_of_mem _ (ih h)

omit [DecidableEq α] in
theorem tabInsert_mem {t : List (Nat × α)} {k : Nat} {v : α} {p : Nat × α} (h : p ∈ tabInsert t k v) : p = (k, v) ∨ p ∈ t := by
  induction t with
  | nil => simpa [tabInsert] using h
  | cons q t ih =>
    obtain ⟨i, w⟩ := q
    unfold tabInsert at h
    split_ifs at h
    · rcases List.mem_cons.1 h with rfl | h
      · exact .inl rfl
      · exact .inr h
    · rcases List.mem_cons.1 h with rfl | h
      · exact .inl rfl
      · exact .inr (List.mem_cons_of_mem _ h)
    · rcases List.mem_cons.1 h with rfl | h
      · exact .inr List.mem_cons_self
      · rcases ih h with h | h
        · exact .inl h
        · exact .inr (List.mem_cons_of_mem _ h)

theorem tabWf_drop {d : α} {t : List (Nat × α)} (h : tabWf d t = true) (k : Nat) : tabWf d (tabDrop t k) = true := by
  induction t with
  | nil => rfl
  | cons p t ih =>
    obtain ⟨i, w⟩ := p
    obtain ⟨h1, h2, h3⟩ := tabWf_cons.1 h
    unfold tabDrop
    split_ifs
    · exact h3
    · exact tabWf_cons.2 ⟨h1, fun p hp => h2 p (tabDrop_mem hp), ih h3⟩

theorem tabWf_insert {d : α} {t : List (Nat × α)} (h : tabWf d t = true) (k : Nat) {v : α} (hv : v ≠ d) :
    tabWf d (tabInsert t k v) = true := by
  induction t with
  | nil => simp [tabInsert, tabWf, hv]
  | cons p t ih =>
    obtain ⟨i, w⟩ := p
    obtain ⟨h1, h2, h3⟩ := tabWf_cons.1 h
    unfold tabInsert
    split_ifs with h4 h5
    · refine tabWf_cons.2 ⟨hv, fun p hp => ?_, h⟩
      rcases List.mem_cons.1 hp with rfl | hp
      · exact h4
      · exact lt_trans h4 (h2 p hp)
    · subst h5
      exact tabWf_cons.2 ⟨hv, h2, h3⟩
    · refine tabWf_cons.2 ⟨h1, fun p hp => ?_, ih h3⟩
      rcases tabInsert_mem hp with rfl | hp
      · show i < k
        omega
      · exact h2 p hp

/-- A write keeps the canonical form. -/
theorem tabWf_put {d : α} {t : List (Nat × α)} (h : tabWf d t = true) (k : Nat) (v : α) : tabWf d (tabPut d t k v) = true := by
  unfold tabPut
  split_ifs with h1
  · exact tabWf_drop h k
  · exact tabWf_insert h k h1

theorem tabWf_mod {d : α} {t : List (Nat × α)} (h : tabWf d t = true) (k : Nat) (f : α → α) : tabWf d (tabMod d t k f) = true :=
  tabWf_put h k _

omit [DecidableEq α] in
theorem tabGet_filter (d : α) (p : Nat × α → Bool) (t : List (Nat × α)) (k : Nat) (h : ∀ v, p (k, v) = true) :
    tabGet d (t.filter p) k = tabGet d t k := by
  induction t with
  | nil => rfl
  | cons q t ih =>
    obtain ⟨i, w⟩ := q
    by_cases h1 : i = k
    · subst h1
      simp [List.filter, h, tabGet]
    · by_cases h2 : p (i, w) = true
      · simp [List.filter, h2, tabGet, h1, ih]
      · simp [List.filter, h2, tabGet, h1, ih]

theorem tabWf_filter {d : α} {t : List (Nat × α)} (h : tabWf d t = true) (p : Nat × α → Bool) : tabWf d (t.filter p) = true := by
  induction t with
  | nil => rfl
  | cons q t ih =>
    obtain ⟨i, w⟩ := q
    obtain ⟨h1, h2, h3⟩ := tabWf_cons.1 h
    by_cases h4 : p (i, w) = true
    · rw [List.filter_cons_of_pos h4]
      exact tabWf_cons.2 ⟨h1, fun r hr => h2 r (List.mem_of_mem_filter hr), ih h3⟩
    · rw [List.filter_cons_of_neg h4]
      exact ih h3

/-! ### Byte memories -/

theorem memWrite_wf {m : List (Nat × Byte)} (h : tabWf 0 m = true) (a : Nat) (b : Bytes) : tabWf 0 (memWrite m a b) = true := by
  induction b generalizing m a with
  | nil => exact h
  | cons x b ih => exact ih (tabWf_put h a x) (a + 1)

theorem memClear_wf {m : List (Nat × Byte)} (h : tabWf 0 m = true) (a n : Nat) : tabWf 0 (memClear m a n) = true := tabWf_filter h _

/-- A write leaves every byte outside it alone. -/
theorem memWrite_other (m : List (Nat × Byte)) (a : Nat) (b : Bytes) {i : Nat} (h : i < a ∨ a + b.length ≤ i) :
    tabGet 0 (memWrite m a b) i = tabGet 0 m i := by
  induction b generalizing m a with
  | nil => rfl
  | cons x b ih =>
    simp only [List.length_cons] at h
    rw [memWrite, ih _ (a + 1) (by omega), tabGet_put_other _ _ _ (by omega)]

/-- What was written is read back, from a canonical memory. -/
theorem memRead_write {m : List (Nat × Byte)} (h : tabWf 0 m = true) (a : Nat) (b : Bytes) :
    memRead (memWrite m a b) a b.length = b := by
  induction b generalizing m a with
  | nil => rfl
  | cons x b ih =>
    rw [memWrite, List.length_cons, memRead, ih (tabWf_put h a x), memWrite_other _ _ _ (by omega), tabGet_put_same h]

end Sys2Proof.Machine
end

