-- ==== Sys2Proof/Laws/State.lean ====
section
/-! SUPPORT. What each update of the state leaves alone: one lemma for each field and update, so that no proof unfolds a record
update. -/

namespace Sys2Proof.Machine

/-! `putSlot` changes `sq` alone. -/

@[simp] theorem State.putSlot_dev (s : State) (k : Nat) (x : Slot) : (s.putSlot k x).dev = s.dev := rfl
@[simp] theorem State.putSlot_folio (s : State) (k : Nat) (x : Slot) : (s.putSlot k x).folio = s.folio := rfl
@[simp] theorem State.putSlot_ports (s : State) (k : Nat) (x : Slot) : (s.putSlot k x).ports = s.ports := rfl
@[simp] theorem State.putSlot_srp (s : State) (k : Nat) (x : Slot) : (s.putSlot k x).srp = s.srp := rfl
@[simp] theorem State.putSlot_adm (s : State) (k : Nat) (x : Slot) : (s.putSlot k x).adm = s.adm := rfl
@[simp] theorem State.putSlot_cores (s : State) (k : Nat) (x : Slot) : (s.putSlot k x).cores = s.cores := rfl
@[simp] theorem State.putSlot_ks (s : State) (k : Nat) (x : Slot) : (s.putSlot k x).ks = s.ks := rfl
@[simp] theorem State.putSlot_vault (s : State) (k : Nat) (x : Slot) : (s.putSlot k x).vault = s.vault := rfl
@[simp] theorem State.putSlot_bn (s : State) (k : Nat) (x : Slot) : (s.putSlot k x).bn = s.bn := rfl
@[simp] theorem State.putSlot_bulk (s : State) (k : Nat) (x : Slot) : (s.putSlot k x).bulk = s.bulk := rfl
@[simp] theorem State.putSlot_rng (s : State) (k : Nat) (x : Slot) : (s.putSlot k x).rng = s.rng := rfl
@[simp] theorem State.putSlot_dual (s : State) (k : Nat) (x : Slot) : (s.putSlot k x).dual = s.dual := rfl
@[simp] theorem State.putSlot_lc (s : State) (k : Nat) (x : Slot) : (s.putSlot k x).lc = s.lc := rfl
@[simp] theorem State.putSlot_tmp (s : State) (k : Nat) (x : Slot) : (s.putSlot k x).tmp = s.tmp := rfl
@[simp] theorem State.putSlot_boot (s : State) (k : Nat) (x : Slot) : (s.putSlot k x).boot = s.boot := rfl
@[simp] theorem State.putSlot_image (s : State) (k : Nat) (x : Slot) : (s.putSlot k x).image = s.image := rfl
@[simp] theorem State.putSlot_pair (s : State) (k : Nat) (x : Slot) : (s.putSlot k x).pair = s.pair := rfl
@[simp] theorem State.putSlot_recorder (s : State) (k : Nat) (x : Slot) : (s.putSlot k x).recorder = s.recorder := rfl
@[simp] theorem State.putSlot_pmc (s : State) (k : Nat) (x : Slot) : (s.putSlot k x).pmc = s.pmc := rfl
@[simp] theorem State.putSlot_pwr (s : State) (k : Nat) (x : Slot) : (s.putSlot k x).pwr = s.pwr := rfl
@[simp] theorem State.putSlot_faults (s : State) (k : Nat) (x : Slot) : (s.putSlot k x).faults = s.faults := rfl
@[simp] theorem State.putSlot_recovery (s : State) (k : Nat) (x : Slot) : (s.putSlot k x).recovery = s.recovery := rfl
@[simp] theorem State.putSlot_readBack (s : State) (k : Nat) (x : Slot) : (s.putSlot k x).readBack = s.readBack := rfl
@[simp] theorem State.putSlot_pending (s : State) (k : Nat) (x : Slot) : (s.putSlot k x).pending = s.pending := rfl

/-! `modSlot` changes `sq` alone. -/

@[simp] theorem State.modSlot_dev (s : State) (k : Nat) (f : Slot → Slot) : (s.modSlot k f).dev = s.dev := rfl
@[simp] theorem State.modSlot_folio (s : State) (k : Nat) (f : Slot → Slot) : (s.modSlot k f).folio = s.folio := rfl
@[simp] theorem State.modSlot_ports (s : State) (k : Nat) (f : Slot → Slot) : (s.modSlot k f).ports = s.ports := rfl
@[simp] theorem State.modSlot_srp (s : State) (k : Nat) (f : Slot → Slot) : (s.modSlot k f).srp = s.srp := rfl
@[simp] theorem State.modSlot_adm (s : State) (k : Nat) (f : Slot → Slot) : (s.modSlot k f).adm = s.adm := rfl
@[simp] theorem State.modSlot_cores (s : State) (k : Nat) (f : Slot → Slot) : (s.modSlot k f).cores = s.cores := rfl
@[simp] theorem State.modSlot_ks (s : State) (k : Nat) (f : Slot → Slot) : (s.modSlot k f).ks = s.ks := rfl
@[simp] theorem State.modSlot_vault (s : State) (k : Nat) (f : Slot → Slot) : (s.modSlot k f).vault = s.vault := rfl
@[simp] theorem State.modSlot_bn (s : State) (k : Nat) (f : Slot → Slot) : (s.modSlot k f).bn = s.bn := rfl
@[simp] theorem State.modSlot_bulk (s : State) (k : Nat) (f : Slot → Slot) : (s.modSlot k f).bulk = s.bulk := rfl
@[simp] theorem State.modSlot_rng (s : State) (k : Nat) (f : Slot → Slot) : (s.modSlot k f).rng = s.rng := rfl
@[simp] theorem State.modSlot_dual (s : State) (k : Nat) (f : Slot → Slot) : (s.modSlot k f).dual = s.dual := rfl
@[simp] theorem State.modSlot_lc (s : State) (k : Nat) (f : Slot → Slot) : (s.modSlot k f).lc = s.lc := rfl
@[simp] theorem State.modSlot_tmp (s : State) (k : Nat) (f : Slot → Slot) : (s.modSlot k f).tmp = s.tmp := rfl
@[simp] theorem State.modSlot_boot (s : State) (k : Nat) (f : Slot → Slot) : (s.modSlot k f).boot = s.boot := rfl
@[simp] theorem State.modSlot_image (s : State) (k : Nat) (f : Slot → Slot) : (s.modSlot k f).image = s.image := rfl
@[simp] theorem State.modSlot_pair (s : State) (k : Nat) (f : Slot → Slot) : (s.modSlot k f).pair = s.pair := rfl
@[simp] theorem State.modSlot_recorder (s : State) (k : Nat) (f : Slot → Slot) : (s.modSlot k f).recorder = s.recorder := rfl
@[simp] theorem State.modSlot_pmc (s : State) (k : Nat) (f : Slot → Slot) : (s.modSlot k f).pmc = s.pmc := rfl
@[simp] theorem State.modSlot_pwr (s : State) (k : Nat) (f : Slot → Slot) : (s.modSlot k f).pwr = s.pwr := rfl
@[simp] theorem State.modSlot_faults (s : State) (k : Nat) (f : Slot → Slot) : (s.modSlot k f).faults = s.faults := rfl
@[simp] theorem State.modSlot_recovery (s : State) (k : Nat) (f : Slot → Slot) : (s.modSlot k f).recovery = s.recovery := rfl
@[simp] theorem State.modSlot_readBack (s : State) (k : Nat) (f : Slot → Slot) : (s.modSlot k f).readBack = s.readBack := rfl
@[simp] theorem State.modSlot_pending (s : State) (k : Nat) (f : Slot → Slot) : (s.modSlot k f).pending = s.pending := rfl

/-! `putChan` changes `srp` alone. -/

@[simp] theorem State.putChan_dev (s : State) (c : Nat) (x : Channel) : (s.putChan c x).dev = s.dev := rfl
@[simp] theorem State.putChan_folio (s : State) (c : Nat) (x : Channel) : (s.putChan c x).folio = s.folio := rfl
@[simp] theorem State.putChan_ports (s : State) (c : Nat) (x : Channel) : (s.putChan c x).ports = s.ports := rfl
@[simp] theorem State.putChan_adm (s : State) (c : Nat) (x : Channel) : (s.putChan c x).adm = s.adm := rfl
@[simp] theorem State.putChan_sq (s : State) (c : Nat) (x : Channel) : (s.putChan c x).sq = s.sq := rfl
@[simp] theorem State.putChan_cores (s : State) (c : Nat) (x : Channel) : (s.putChan c x).cores = s.cores := rfl
@[simp] theorem State.putChan_ks (s : State) (c : Nat) (x : Channel) : (s.putChan c x).ks = s.ks := rfl
@[simp] theorem State.putChan_vault (s : State) (c : Nat) (x : Channel) : (s.putChan c x).vault = s.vault := rfl
@[simp] theorem State.putChan_bn (s : State) (c : Nat) (x : Channel) : (s.putChan c x).bn = s.bn := rfl
@[simp] theorem State.putChan_bulk (s : State) (c : Nat) (x : Channel) : (s.putChan c x).bulk = s.bulk := rfl
@[simp] theorem State.putChan_rng (s : State) (c : Nat) (x : Channel) : (s.putChan c x).rng = s.rng := rfl
@[simp] theorem State.putChan_dual (s : State) (c : Nat) (x : Channel) : (s.putChan c x).dual = s.dual := rfl
@[simp] theorem State.putChan_lc (s : State) (c : Nat) (x : Channel) : (s.putChan c x).lc = s.lc := rfl
@[simp] theorem State.putChan_tmp (s : State) (c : Nat) (x : Channel) : (s.putChan c x).tmp = s.tmp := rfl
@[simp] theorem State.putChan_boot (s : State) (c : Nat) (x : Channel) : (s.putChan c x).boot = s.boot := rfl
@[simp] theorem State.putChan_image (s : State) (c : Nat) (x : Channel) : (s.putChan c x).image = s.image := rfl
@[simp] theorem State.putChan_pair (s : State) (c : Nat) (x : Channel) : (s.putChan c x).pair = s.pair := rfl
@[simp] theorem State.putChan_recorder (s : State) (c : Nat) (x : Channel) : (s.putChan c x).recorder = s.recorder := rfl
@[simp] theorem State.putChan_pmc (s : State) (c : Nat) (x : Channel) : (s.putChan c x).pmc = s.pmc := rfl
@[simp] theorem State.putChan_pwr (s : State) (c : Nat) (x : Channel) : (s.putChan c x).pwr = s.pwr := rfl
@[simp] theorem State.putChan_faults (s : State) (c : Nat) (x : Channel) : (s.putChan c x).faults = s.faults := rfl
@[simp] theorem State.putChan_recovery (s : State) (c : Nat) (x : Channel) : (s.putChan c x).recovery = s.recovery := rfl
@[simp] theorem State.putChan_readBack (s : State) (c : Nat) (x : Channel) : (s.putChan c x).readBack = s.readBack := rfl
@[simp] theorem State.putChan_pending (s : State) (c : Nat) (x : Channel) : (s.putChan c x).pending = s.pending := rfl

/-! `modChan` changes `srp` alone. -/

@[simp] theorem State.modChan_dev (s : State) (c : Nat) (f : Channel → Channel) : (s.modChan c f).dev = s.dev := rfl
@[simp] theorem State.modChan_folio (s : State) (c : Nat) (f : Channel → Channel) : (s.modChan c f).folio = s.folio := rfl
@[simp] theorem State.modChan_ports (s : State) (c : Nat) (f : Channel → Channel) : (s.modChan c f).ports = s.ports := rfl
@[simp] theorem State.modChan_adm (s : State) (c : Nat) (f : Channel → Channel) : (s.modChan c f).adm = s.adm := rfl
@[simp] theorem State.modChan_sq (s : State) (c : Nat) (f : Channel → Channel) : (s.modChan c f).sq = s.sq := rfl
@[simp] theorem State.modChan_cores (s : State) (c : Nat) (f : Channel → Channel) : (s.modChan c f).cores = s.cores := rfl
@[simp] theorem State.modChan_ks (s : State) (c : Nat) (f : Channel → Channel) : (s.modChan c f).ks = s.ks := rfl
@[simp] theorem State.modChan_vault (s : State) (c : Nat) (f : Channel → Channel) : (s.modChan c f).vault = s.vault := rfl
@[simp] theorem State.modChan_bn (s : State) (c : Nat) (f : Channel → Channel) : (s.modChan c f).bn = s.bn := rfl
@[simp] theorem State.modChan_bulk (s : State) (c : Nat) (f : Channel → Channel) : (s.modChan c f).bulk = s.bulk := rfl
@[simp] theorem State.modChan_rng (s : State) (c : Nat) (f : Channel → Channel) : (s.modChan c f).rng = s.rng := rfl
@[simp] theorem State.modChan_dual (s : State) (c : Nat) (f : Channel → Channel) : (s.modChan c f).dual = s.dual := rfl
@[simp] theorem State.modChan_lc (s : State) (c : Nat) (f : Channel → Channel) : (s.modChan c f).lc = s.lc := rfl
@[simp] theorem State.modChan_tmp (s : State) (c : Nat) (f : Channel → Channel) : (s.modChan c f).tmp = s.tmp := rfl
@[simp] theorem State.modChan_boot (s : State) (c : Nat) (f : Channel → Channel) : (s.modChan c f).boot = s.boot := rfl
@[simp] theorem State.modChan_image (s : State) (c : Nat) (f : Channel → Channel) : (s.modChan c f).image = s.image := rfl
@[simp] theorem State.modChan_pair (s : State) (c : Nat) (f : Channel → Channel) : (s.modChan c f).pair = s.pair := rfl
@[simp] theorem State.modChan_recorder (s : State) (c : Nat) (f : Channel → Channel) : (s.modChan c f).recorder = s.recorder := rfl
@[simp] theorem State.modChan_pmc (s : State) (c : Nat) (f : Channel → Channel) : (s.modChan c f).pmc = s.pmc := rfl
@[simp] theorem State.modChan_pwr (s : State) (c : Nat) (f : Channel → Channel) : (s.modChan c f).pwr = s.pwr := rfl
@[simp] theorem State.modChan_faults (s : State) (c : Nat) (f : Channel → Channel) : (s.modChan c f).faults = s.faults := rfl
@[simp] theorem State.modChan_recovery (s : State) (c : Nat) (f : Channel → Channel) : (s.modChan c f).recovery = s.recovery := rfl
@[simp] theorem State.modChan_readBack (s : State) (c : Nat) (f : Channel → Channel) : (s.modChan c f).readBack = s.readBack := rfl
@[simp] theorem State.modChan_pending (s : State) (c : Nat) (f : Channel → Channel) : (s.modChan c f).pending = s.pending := rfl

/-! `srpCnt` changes `srp` alone. -/

@[simp] theorem State.srpCnt_dev (s : State) (k n : Nat) : (s.srpCnt k n).dev = s.dev := rfl
@[simp] theorem State.srpCnt_folio (s : State) (k n : Nat) : (s.srpCnt k n).folio = s.folio := rfl
@[simp] theorem State.srpCnt_ports (s : State) (k n : Nat) : (s.srpCnt k n).ports = s.ports := rfl
@[simp] theorem State.srpCnt_adm (s : State) (k n : Nat) : (s.srpCnt k n).adm = s.adm := rfl
@[simp] theorem State.srpCnt_sq (s : State) (k n : Nat) : (s.srpCnt k n).sq = s.sq := rfl
@[simp] theorem State.srpCnt_cores (s : State) (k n : Nat) : (s.srpCnt k n).cores = s.cores := rfl
@[simp] theorem State.srpCnt_ks (s : State) (k n : Nat) : (s.srpCnt k n).ks = s.ks := rfl
@[simp] theorem State.srpCnt_vault (s : State) (k n : Nat) : (s.srpCnt k n).vault = s.vault := rfl
@[simp] theorem State.srpCnt_bn (s : State) (k n : Nat) : (s.srpCnt k n).bn = s.bn := rfl
@[simp] theorem State.srpCnt_bulk (s : State) (k n : Nat) : (s.srpCnt k n).bulk = s.bulk := rfl
@[simp] theorem State.srpCnt_rng (s : State) (k n : Nat) : (s.srpCnt k n).rng = s.rng := rfl
@[simp] theorem State.srpCnt_dual (s : State) (k n : Nat) : (s.srpCnt k n).dual = s.dual := rfl
@[simp] theorem State.srpCnt_lc (s : State) (k n : Nat) : (s.srpCnt k n).lc = s.lc := rfl
@[simp] theorem State.srpCnt_tmp (s : State) (k n : Nat) : (s.srpCnt k n).tmp = s.tmp := rfl
@[simp] theorem State.srpCnt_boot (s : State) (k n : Nat) : (s.srpCnt k n).boot = s.boot := rfl
@[simp] theorem State.srpCnt_image (s : State) (k n : Nat) : (s.srpCnt k n).image = s.image := rfl
@[simp] theorem State.srpCnt_pair (s : State) (k n : Nat) : (s.srpCnt k n).pair = s.pair := rfl
@[simp] theorem State.srpCnt_recorder (s : State) (k n : Nat) : (s.srpCnt k n).recorder = s.recorder := rfl
@[simp] theorem State.srpCnt_pmc (s : State) (k n : Nat) : (s.srpCnt k n).pmc = s.pmc := rfl
@[simp] theorem State.srpCnt_pwr (s : State) (k n : Nat) : (s.srpCnt k n).pwr = s.pwr := rfl
@[simp] theorem State.srpCnt_faults (s : State) (k n : Nat) : (s.srpCnt k n).faults = s.faults := rfl
@[simp] theorem State.srpCnt_recovery (s : State) (k n : Nat) : (s.srpCnt k n).recovery = s.recovery := rfl
@[simp] theorem State.srpCnt_readBack (s : State) (k n : Nat) : (s.srpCnt k n).readBack = s.readBack := rfl
@[simp] theorem State.srpCnt_pending (s : State) (k n : Nat) : (s.srpCnt k n).pending = s.pending := rfl

/-! `srpEvent` changes `srp` alone. -/

@[simp] theorem State.srpEvent_dev (s : State) (b : Nat) : (s.srpEvent b).dev = s.dev := rfl
@[simp] theorem State.srpEvent_folio (s : State) (b : Nat) : (s.srpEvent b).folio = s.folio := rfl
@[simp] theorem State.srpEvent_ports (s : State) (b : Nat) : (s.srpEvent b).ports = s.ports := rfl
@[simp] theorem State.srpEvent_adm (s : State) (b : Nat) : (s.srpEvent b).adm = s.adm := rfl
@[simp] theorem State.srpEvent_sq (s : State) (b : Nat) : (s.srpEvent b).sq = s.sq := rfl
@[simp] theorem State.srpEvent_cores (s : State) (b : Nat) : (s.srpEvent b).cores = s.cores := rfl
@[simp] theorem State.srpEvent_ks (s : State) (b : Nat) : (s.srpEvent b).ks = s.ks := rfl
@[simp] theorem State.srpEvent_vault (s : State) (b : Nat) : (s.srpEvent b).vault = s.vault := rfl
@[simp] theorem State.srpEvent_bn (s : State) (b : Nat) : (s.srpEvent b).bn = s.bn := rfl
@[simp] theorem State.srpEvent_bulk (s : State) (b : Nat) : (s.srpEvent b).bulk = s.bulk := rfl
@[simp] theorem State.srpEvent_rng (s : State) (b : Nat) : (s.srpEvent b).rng = s.rng := rfl
@[simp] theorem State.srpEvent_dual (s : State) (b : Nat) : (s.srpEvent b).dual = s.dual := rfl
@[simp] theorem State.srpEvent_lc (s : State) (b : Nat) : (s.srpEvent b).lc = s.lc := rfl
@[simp] theorem State.srpEvent_tmp (s : State) (b : Nat) : (s.srpEvent b).tmp = s.tmp := rfl
@[simp] theorem State.srpEvent_boot (s : State) (b : Nat) : (s.srpEvent b).boot = s.boot := rfl
@[simp] theorem State.srpEvent_image (s : State) (b : Nat) : (s.srpEvent b).image = s.image := rfl
@[simp] theorem State.srpEvent_pair (s : State) (b : Nat) : (s.srpEvent b).pair = s.pair := rfl
@[simp] theorem State.srpEvent_recorder (s : State) (b : Nat) : (s.srpEvent b).recorder = s.recorder := rfl
@[simp] theorem State.srpEvent_pmc (s : State) (b : Nat) : (s.srpEvent b).pmc = s.pmc := rfl
@[simp] theorem State.srpEvent_pwr (s : State) (b : Nat) : (s.srpEvent b).pwr = s.pwr := rfl
@[simp] theorem State.srpEvent_faults (s : State) (b : Nat) : (s.srpEvent b).faults = s.faults := rfl
@[simp] theorem State.srpEvent_recovery (s : State) (b : Nat) : (s.srpEvent b).recovery = s.recovery := rfl
@[simp] theorem State.srpEvent_readBack (s : State) (b : Nat) : (s.srpEvent b).readBack = s.readBack := rfl
@[simp] theorem State.srpEvent_pending (s : State) (b : Nat) : (s.srpEvent b).pending = s.pending := rfl

/-! `modPort` changes `ports` alone. -/

@[simp] theorem State.modPort_dev (s : State) (i : Nat) (f : Port → Port) : (s.modPort i f).dev = s.dev := rfl
@[simp] theorem State.modPort_folio (s : State) (i : Nat) (f : Port → Port) : (s.modPort i f).folio = s.folio := rfl
@[simp] theorem State.modPort_srp (s : State) (i : Nat) (f : Port → Port) : (s.modPort i f).srp = s.srp := rfl
@[simp] theorem State.modPort_adm (s : State) (i : Nat) (f : Port → Port) : (s.modPort i f).adm = s.adm := rfl
@[simp] theorem State.modPort_sq (s : State) (i : Nat) (f : Port → Port) : (s.modPort i f).sq = s.sq := rfl
@[simp] theorem State.modPort_cores (s : State) (i : Nat) (f : Port → Port) : (s.modPort i f).cores = s.cores := rfl
@[simp] theorem State.modPort_ks (s : State) (i : Nat) (f : Port → Port) : (s.modPort i f).ks = s.ks := rfl
@[simp] theorem State.modPort_vault (s : State) (i : Nat) (f : Port → Port) : (s.modPort i f).vault = s.vault := rfl
@[simp] theorem State.modPort_bn (s : State) (i : Nat) (f : Port → Port) : (s.modPort i f).bn = s.bn := rfl
@[simp] theorem State.modPort_bulk (s : State) (i : Nat) (f : Port → Port) : (s.modPort i f).bulk = s.bulk := rfl
@[simp] theorem State.modPort_rng (s : State) (i : Nat) (f : Port → Port) : (s.modPort i f).rng = s.rng := rfl
@[simp] theorem State.modPort_dual (s : State) (i : Nat) (f : Port → Port) : (s.modPort i f).dual = s.dual := rfl
@[simp] theorem State.modPort_lc (s : State) (i : Nat) (f : Port → Port) : (s.modPort i f).lc = s.lc := rfl
@[simp] theorem State.modPort_tmp (s : State) (i : Nat) (f : Port → Port) : (s.modPort i f).tmp = s.tmp := rfl
@[simp] theorem State.modPort_boot (s : State) (i : Nat) (f : Port → Port) : (s.modPort i f).boot = s.boot := rfl
@[simp] theorem State.modPort_image (s : State) (i : Nat) (f : Port → Port) : (s.modPort i f).image = s.image := rfl
@[simp] theorem State.modPort_pair (s : State) (i : Nat) (f : Port → Port) : (s.modPort i f).pair = s.pair := rfl
@[simp] theorem State.modPort_recorder (s : State) (i : Nat) (f : Port → Port) : (s.modPort i f).recorder = s.recorder := rfl
@[simp] theorem State.modPort_pmc (s : State) (i : Nat) (f : Port → Port) : (s.modPort i f).pmc = s.pmc := rfl
@[simp] theorem State.modPort_pwr (s : State) (i : Nat) (f : Port → Port) : (s.modPort i f).pwr = s.pwr := rfl
@[simp] theorem State.modPort_faults (s : State) (i : Nat) (f : Port → Port) : (s.modPort i f).faults = s.faults := rfl
@[simp] theorem State.modPort_recovery (s : State) (i : Nat) (f : Port → Port) : (s.modPort i f).recovery = s.recovery := rfl
@[simp] theorem State.modPort_readBack (s : State) (i : Nat) (f : Port → Port) : (s.modPort i f).readBack = s.readBack := rfl
@[simp] theorem State.modPort_pending (s : State) (i : Nat) (f : Port → Port) : (s.modPort i f).pending = s.pending := rfl

/-! `portCnt` changes `ports` alone. -/

@[simp] theorem State.portCnt_dev (s : State) (i k n : Nat) : (s.portCnt i k n).dev = s.dev := rfl
@[simp] theorem State.portCnt_folio (s : State) (i k n : Nat) : (s.portCnt i k n).folio = s.folio := rfl
@[simp] theorem State.portCnt_srp (s : State) (i k n : Nat) : (s.portCnt i k n).srp = s.srp := rfl
@[simp] theorem State.portCnt_adm (s : State) (i k n : Nat) : (s.portCnt i k n).adm = s.adm := rfl
@[simp] theorem State.portCnt_sq (s : State) (i k n : Nat) : (s.portCnt i k n).sq = s.sq := rfl
@[simp] theorem State.portCnt_cores (s : State) (i k n : Nat) : (s.portCnt i k n).cores = s.cores := rfl
@[simp] theorem State.portCnt_ks (s : State) (i k n : Nat) : (s.portCnt i k n).ks = s.ks := rfl
@[simp] theorem State.portCnt_vault (s : State) (i k n : Nat) : (s.portCnt i k n).vault = s.vault := rfl
@[simp] theorem State.portCnt_bn (s : State) (i k n : Nat) : (s.portCnt i k n).bn = s.bn := rfl
@[simp] theorem State.portCnt_bulk (s : State) (i k n : Nat) : (s.portCnt i k n).bulk = s.bulk := rfl
@[simp] theorem State.portCnt_rng (s : State) (i k n : Nat) : (s.portCnt i k n).rng = s.rng := rfl
@[simp] theorem State.portCnt_dual (s : State) (i k n : Nat) : (s.portCnt i k n).dual = s.dual := rfl
@[simp] theorem State.portCnt_lc (s : State) (i k n : Nat) : (s.portCnt i k n).lc = s.lc := rfl
@[simp] theorem State.portCnt_tmp (s : State) (i k n : Nat) : (s.portCnt i k n).tmp = s.tmp := rfl
@[simp] theorem State.portCnt_boot (s : State) (i k n : Nat) : (s.portCnt i k n).boot = s.boot := rfl
@[simp] theorem State.portCnt_image (s : State) (i k n : Nat) : (s.portCnt i k n).image = s.image := rfl
@[simp] theorem State.portCnt_pair (s : State) (i k n : Nat) : (s.portCnt i k n).pair = s.pair := rfl
@[simp] theorem State.portCnt_recorder (s : State) (i k n : Nat) : (s.portCnt i k n).recorder = s.recorder := rfl
@[simp] theorem State.portCnt_pmc (s : State) (i k n : Nat) : (s.portCnt i k n).pmc = s.pmc := rfl
@[simp] theorem State.portCnt_pwr (s : State) (i k n : Nat) : (s.portCnt i k n).pwr = s.pwr := rfl
@[simp] theorem State.portCnt_faults (s : State) (i k n : Nat) : (s.portCnt i k n).faults = s.faults := rfl
@[simp] theorem State.portCnt_recovery (s : State) (i k n : Nat) : (s.portCnt i k n).recovery = s.recovery := rfl
@[simp] theorem State.portCnt_readBack (s : State) (i k n : Nat) : (s.portCnt i k n).readBack = s.readBack := rfl
@[simp] theorem State.portCnt_pending (s : State) (i k n : Nat) : (s.portCnt i k n).pending = s.pending := rfl

/-! `portEvent` changes `ports` alone. -/

@[simp] theorem State.portEvent_dev (s : State) (i b : Nat) : (s.portEvent i b).dev = s.dev := rfl
@[simp] theorem State.portEvent_folio (s : State) (i b : Nat) : (s.portEvent i b).folio = s.folio := rfl
@[simp] theorem State.portEvent_srp (s : State) (i b : Nat) : (s.portEvent i b).srp = s.srp := rfl
@[simp] theorem State.portEvent_adm (s : State) (i b : Nat) : (s.portEvent i b).adm = s.adm := rfl
@[simp] theorem State.portEvent_sq (s : State) (i b : Nat) : (s.portEvent i b).sq = s.sq := rfl
@[simp] theorem State.portEvent_cores (s : State) (i b : Nat) : (s.portEvent i b).cores = s.cores := rfl
@[simp] theorem State.portEvent_ks (s : State) (i b : Nat) : (s.portEvent i b).ks = s.ks := rfl
@[simp] theorem State.portEvent_vault (s : State) (i b : Nat) : (s.portEvent i b).vault = s.vault := rfl
@[simp] theorem State.portEvent_bn (s : State) (i b : Nat) : (s.portEvent i b).bn = s.bn := rfl
@[simp] theorem State.portEvent_bulk (s : State) (i b : Nat) : (s.portEvent i b).bulk = s.bulk := rfl
@[simp] theorem State.portEvent_rng (s : State) (i b : Nat) : (s.portEvent i b).rng = s.rng := rfl
@[simp] theorem State.portEvent_dual (s : State) (i b : Nat) : (s.portEvent i b).dual = s.dual := rfl
@[simp] theorem State.portEvent_lc (s : State) (i b : Nat) : (s.portEvent i b).lc = s.lc := rfl
@[simp] theorem State.portEvent_tmp (s : State) (i b : Nat) : (s.portEvent i b).tmp = s.tmp := rfl
@[simp] theorem State.portEvent_boot (s : State) (i b : Nat) : (s.portEvent i b).boot = s.boot := rfl
@[simp] theorem State.portEvent_image (s : State) (i b : Nat) : (s.portEvent i b).image = s.image := rfl
@[simp] theorem State.portEvent_pair (s : State) (i b : Nat) : (s.portEvent i b).pair = s.pair := rfl
@[simp] theorem State.portEvent_recorder (s : State) (i b : Nat) : (s.portEvent i b).recorder = s.recorder := rfl
@[simp] theorem State.portEvent_pmc (s : State) (i b : Nat) : (s.portEvent i b).pmc = s.pmc := rfl
@[simp] theorem State.portEvent_pwr (s : State) (i b : Nat) : (s.portEvent i b).pwr = s.pwr := rfl
@[simp] theorem State.portEvent_faults (s : State) (i b : Nat) : (s.portEvent i b).faults = s.faults := rfl
@[simp] theorem State.portEvent_recovery (s : State) (i b : Nat) : (s.portEvent i b).recovery = s.recovery := rfl
@[simp] theorem State.portEvent_readBack (s : State) (i b : Nat) : (s.portEvent i b).readBack = s.readBack := rfl
@[simp] theorem State.portEvent_pending (s : State) (i b : Nat) : (s.portEvent i b).pending = s.pending := rfl

/-! `putCore` changes `cores` alone. -/

@[simp] theorem State.putCore_dev (s : State) (c : Nat) (x : Core) : (s.putCore c x).dev = s.dev := rfl
@[simp] theorem State.putCore_folio (s : State) (c : Nat) (x : Core) : (s.putCore c x).folio = s.folio := rfl
@[simp] theorem State.putCore_ports (s : State) (c : Nat) (x : Core) : (s.putCore c x).ports = s.ports := rfl
@[simp] theorem State.putCore_srp (s : State) (c : Nat) (x : Core) : (s.putCore c x).srp = s.srp := rfl
@[simp] theorem State.putCore_adm (s : State) (c : Nat) (x : Core) : (s.putCore c x).adm = s.adm := rfl
@[simp] theorem State.putCore_sq (s : State) (c : Nat) (x : Core) : (s.putCore c x).sq = s.sq := rfl
@[simp] theorem State.putCore_ks (s : State) (c : Nat) (x : Core) : (s.putCore c x).ks = s.ks := rfl
@[simp] theorem State.putCore_vault (s : State) (c : Nat) (x : Core) : (s.putCore c x).vault = s.vault := rfl
@[simp] theorem State.putCore_bn (s : State) (c : Nat) (x : Core) : (s.putCore c x).bn = s.bn := rfl
@[simp] theorem State.putCore_bulk (s : State) (c : Nat) (x : Core) : (s.putCore c x).bulk = s.bulk := rfl
@[simp] theorem State.putCore_rng (s : State) (c : Nat) (x : Core) : (s.putCore c x).rng = s.rng := rfl
@[simp] theorem State.putCore_dual (s : State) (c : Nat) (x : Core) : (s.putCore c x).dual = s.dual := rfl
@[simp] theorem State.putCore_lc (s : State) (c : Nat) (x : Core) : (s.putCore c x).lc = s.lc := rfl
@[simp] theorem State.putCore_tmp (s : State) (c : Nat) (x : Core) : (s.putCore c x).tmp = s.tmp := rfl
@[simp] theorem State.putCore_boot (s : State) (c : Nat) (x : Core) : (s.putCore c x).boot = s.boot := rfl
@[simp] theorem State.putCore_image (s : State) (c : Nat) (x : Core) : (s.putCore c x).image = s.image := rfl
@[simp] theorem State.putCore_pair (s : State) (c : Nat) (x : Core) : (s.putCore c x).pair = s.pair := rfl
@[simp] theorem State.putCore_recorder (s : State) (c : Nat) (x : Core) : (s.putCore c x).recorder = s.recorder := rfl
@[simp] theorem State.putCore_pmc (s : State) (c : Nat) (x : Core) : (s.putCore c x).pmc = s.pmc := rfl
@[simp] theorem State.putCore_pwr (s : State) (c : Nat) (x : Core) : (s.putCore c x).pwr = s.pwr := rfl
@[simp] theorem State.putCore_faults (s : State) (c : Nat) (x : Core) : (s.putCore c x).faults = s.faults := rfl
@[simp] theorem State.putCore_recovery (s : State) (c : Nat) (x : Core) : (s.putCore c x).recovery = s.recovery := rfl
@[simp] theorem State.putCore_readBack (s : State) (c : Nat) (x : Core) : (s.putCore c x).readBack = s.readBack := rfl
@[simp] theorem State.putCore_pending (s : State) (c : Nat) (x : Core) : (s.putCore c x).pending = s.pending := rfl

/-! `modCore` changes `cores` alone. -/

@[simp] theorem State.modCore_dev (s : State) (c : Nat) (f : Core → Core) : (s.modCore c f).dev = s.dev := rfl
@[simp] theorem State.modCore_folio (s : State) (c : Nat) (f : Core → Core) : (s.modCore c f).folio = s.folio := rfl
@[simp] theorem State.modCore_ports (s : State) (c : Nat) (f : Core → Core) : (s.modCore c f).ports = s.ports := rfl
@[simp] theorem State.modCore_srp (s : State) (c : Nat) (f : Core → Core) : (s.modCore c f).srp = s.srp := rfl
@[simp] theorem State.modCore_adm (s : State) (c : Nat) (f : Core → Core) : (s.modCore c f).adm = s.adm := rfl
@[simp] theorem State.modCore_sq (s : State) (c : Nat) (f : Core → Core) : (s.modCore c f).sq = s.sq := rfl
@[simp] theorem State.modCore_ks (s : State) (c : Nat) (f : Core → Core) : (s.modCore c f).ks = s.ks := rfl
@[simp] theorem State.modCore_vault (s : State) (c : Nat) (f : Core → Core) : (s.modCore c f).vault = s.vault := rfl
@[simp] theorem State.modCore_bn (s : State) (c : Nat) (f : Core → Core) : (s.modCore c f).bn = s.bn := rfl
@[simp] theorem State.modCore_bulk (s : State) (c : Nat) (f : Core → Core) : (s.modCore c f).bulk = s.bulk := rfl
@[simp] theorem State.modCore_rng (s : State) (c : Nat) (f : Core → Core) : (s.modCore c f).rng = s.rng := rfl
@[simp] theorem State.modCore_dual (s : State) (c : Nat) (f : Core → Core) : (s.modCore c f).dual = s.dual := rfl
@[simp] theorem State.modCore_lc (s : State) (c : Nat) (f : Core → Core) : (s.modCore c f).lc = s.lc := rfl
@[simp] theorem State.modCore_tmp (s : State) (c : Nat) (f : Core → Core) : (s.modCore c f).tmp = s.tmp := rfl
@[simp] theorem State.modCore_boot (s : State) (c : Nat) (f : Core → Core) : (s.modCore c f).boot = s.boot := rfl
@[simp] theorem State.modCore_image (s : State) (c : Nat) (f : Core → Core) : (s.modCore c f).image = s.image := rfl
@[simp] theorem State.modCore_pair (s : State) (c : Nat) (f : Core → Core) : (s.modCore c f).pair = s.pair := rfl
@[simp] theorem State.modCore_recorder (s : State) (c : Nat) (f : Core → Core) : (s.modCore c f).recorder = s.recorder := rfl
@[simp] theorem State.modCore_pmc (s : State) (c : Nat) (f : Core → Core) : (s.modCore c f).pmc = s.pmc := rfl
@[simp] theorem State.modCore_pwr (s : State) (c : Nat) (f : Core → Core) : (s.modCore c f).pwr = s.pwr := rfl
@[simp] theorem State.modCore_faults (s : State) (c : Nat) (f : Core → Core) : (s.modCore c f).faults = s.faults := rfl
@[simp] theorem State.modCore_recovery (s : State) (c : Nat) (f : Core → Core) : (s.modCore c f).recovery = s.recovery := rfl
@[simp] theorem State.modCore_readBack (s : State) (c : Nat) (f : Core → Core) : (s.modCore c f).readBack = s.readBack := rfl
@[simp] theorem State.modCore_pending (s : State) (c : Nat) (f : Core → Core) : (s.modCore c f).pending = s.pending := rfl

/-! `tcCnt` changes `cores` alone. -/

@[simp] theorem State.tcCnt_dev (s : State) (c k n : Nat) : (s.tcCnt c k n).dev = s.dev := rfl
@[simp] theorem State.tcCnt_folio (s : State) (c k n : Nat) : (s.tcCnt c k n).folio = s.folio := rfl
@[simp] theorem State.tcCnt_ports (s : State) (c k n : Nat) : (s.tcCnt c k n).ports = s.ports := rfl
@[simp] theorem State.tcCnt_srp (s : State) (c k n : Nat) : (s.tcCnt c k n).srp = s.srp := rfl
@[simp] theorem State.tcCnt_adm (s : State) (c k n : Nat) : (s.tcCnt c k n).adm = s.adm := rfl
@[simp] theorem State.tcCnt_sq (s : State) (c k n : Nat) : (s.tcCnt c k n).sq = s.sq := rfl
@[simp] theorem State.tcCnt_ks (s : State) (c k n : Nat) : (s.tcCnt c k n).ks = s.ks := rfl
@[simp] theorem State.tcCnt_vault (s : State) (c k n : Nat) : (s.tcCnt c k n).vault = s.vault := rfl
@[simp] theorem State.tcCnt_bn (s : State) (c k n : Nat) : (s.tcCnt c k n).bn = s.bn := rfl
@[simp] theorem State.tcCnt_bulk (s : State) (c k n : Nat) : (s.tcCnt c k n).bulk = s.bulk := rfl
@[simp] theorem State.tcCnt_rng (s : State) (c k n : Nat) : (s.tcCnt c k n).rng = s.rng := rfl
@[simp] theorem State.tcCnt_dual (s : State) (c k n : Nat) : (s.tcCnt c k n).dual = s.dual := rfl
@[simp] theorem State.tcCnt_lc (s : State) (c k n : Nat) : (s.tcCnt c k n).lc = s.lc := rfl
@[simp] theorem State.tcCnt_tmp (s : State) (c k n : Nat) : (s.tcCnt c k n).tmp = s.tmp := rfl
@[simp] theorem State.tcCnt_boot (s : State) (c k n : Nat) : (s.tcCnt c k n).boot = s.boot := rfl
@[simp] theorem State.tcCnt_image (s : State) (c k n : Nat) : (s.tcCnt c k n).image = s.image := rfl
@[simp] theorem State.tcCnt_pair (s : State) (c k n : Nat) : (s.tcCnt c k n).pair = s.pair := rfl
@[simp] theorem State.tcCnt_recorder (s : State) (c k n : Nat) : (s.tcCnt c k n).recorder = s.recorder := rfl
@[simp] theorem State.tcCnt_pmc (s : State) (c k n : Nat) : (s.tcCnt c k n).pmc = s.pmc := rfl
@[simp] theorem State.tcCnt_pwr (s : State) (c k n : Nat) : (s.tcCnt c k n).pwr = s.pwr := rfl
@[simp] theorem State.tcCnt_faults (s : State) (c k n : Nat) : (s.tcCnt c k n).faults = s.faults := rfl
@[simp] theorem State.tcCnt_recovery (s : State) (c k n : Nat) : (s.tcCnt c k n).recovery = s.recovery := rfl
@[simp] theorem State.tcCnt_readBack (s : State) (c k n : Nat) : (s.tcCnt c k n).readBack = s.readBack := rfl
@[simp] theorem State.tcCnt_pending (s : State) (c k n : Nat) : (s.tcCnt c k n).pending = s.pending := rfl

/-! `ksCnt` changes `ks` alone. -/

@[simp] theorem State.ksCnt_dev (s : State) (k n : Nat) : (s.ksCnt k n).dev = s.dev := rfl
@[simp] theorem State.ksCnt_folio (s : State) (k n : Nat) : (s.ksCnt k n).folio = s.folio := rfl
@[simp] theorem State.ksCnt_ports (s : State) (k n : Nat) : (s.ksCnt k n).ports = s.ports := rfl
@[simp] theorem State.ksCnt_srp (s : State) (k n : Nat) : (s.ksCnt k n).srp = s.srp := rfl
@[simp] theorem State.ksCnt_adm (s : State) (k n : Nat) : (s.ksCnt k n).adm = s.adm := rfl
@[simp] theorem State.ksCnt_sq (s : State) (k n : Nat) : (s.ksCnt k n).sq = s.sq := rfl
@[simp] theorem State.ksCnt_cores (s : State) (k n : Nat) : (s.ksCnt k n).cores = s.cores := rfl
@[simp] theorem State.ksCnt_vault (s : State) (k n : Nat) : (s.ksCnt k n).vault = s.vault := rfl
@[simp] theorem State.ksCnt_bn (s : State) (k n : Nat) : (s.ksCnt k n).bn = s.bn := rfl
@[simp] theorem State.ksCnt_bulk (s : State) (k n : Nat) : (s.ksCnt k n).bulk = s.bulk := rfl
@[simp] theorem State.ksCnt_rng (s : State) (k n : Nat) : (s.ksCnt k n).rng = s.rng := rfl
@[simp] theorem State.ksCnt_dual (s : State) (k n : Nat) : (s.ksCnt k n).dual = s.dual := rfl
@[simp] theorem State.ksCnt_lc (s : State) (k n : Nat) : (s.ksCnt k n).lc = s.lc := rfl
@[simp] theorem State.ksCnt_tmp (s : State) (k n : Nat) : (s.ksCnt k n).tmp = s.tmp := rfl
@[simp] theorem State.ksCnt_boot (s : State) (k n : Nat) : (s.ksCnt k n).boot = s.boot := rfl
@[simp] theorem State.ksCnt_image (s : State) (k n : Nat) : (s.ksCnt k n).image = s.image := rfl
@[simp] theorem State.ksCnt_pair (s : State) (k n : Nat) : (s.ksCnt k n).pair = s.pair := rfl
@[simp] theorem State.ksCnt_recorder (s : State) (k n : Nat) : (s.ksCnt k n).recorder = s.recorder := rfl
@[simp] theorem State.ksCnt_pmc (s : State) (k n : Nat) : (s.ksCnt k n).pmc = s.pmc := rfl
@[simp] theorem State.ksCnt_pwr (s : State) (k n : Nat) : (s.ksCnt k n).pwr = s.pwr := rfl
@[simp] theorem State.ksCnt_faults (s : State) (k n : Nat) : (s.ksCnt k n).faults = s.faults := rfl
@[simp] theorem State.ksCnt_recovery (s : State) (k n : Nat) : (s.ksCnt k n).recovery = s.recovery := rfl
@[simp] theorem State.ksCnt_readBack (s : State) (k n : Nat) : (s.ksCnt k n).readBack = s.readBack := rfl
@[simp] theorem State.ksCnt_pending (s : State) (k n : Nat) : (s.ksCnt k n).pending = s.pending := rfl

/-! `ksEvent` changes `ks` alone. -/

@[simp] theorem State.ksEvent_dev (s : State) (b : Nat) : (s.ksEvent b).dev = s.dev := rfl
@[simp] theorem State.ksEvent_folio (s : State) (b : Nat) : (s.ksEvent b).folio = s.folio := rfl
@[simp] theorem State.ksEvent_ports (s : State) (b : Nat) : (s.ksEvent b).ports = s.ports := rfl
@[simp] theorem State.ksEvent_srp (s : State) (b : Nat) : (s.ksEvent b).srp = s.srp := rfl
@[simp] theorem State.ksEvent_adm (s : State) (b : Nat) : (s.ksEvent b).adm = s.adm := rfl
@[simp] theorem State.ksEvent_sq (s : State) (b : Nat) : (s.ksEvent b).sq = s.sq := rfl
@[simp] theorem State.ksEvent_cores (s : State) (b : Nat) : (s.ksEvent b).cores = s.cores := rfl
@[simp] theorem State.ksEvent_vault (s : State) (b : Nat) : (s.ksEvent b).vault = s.vault := rfl
@[simp] theorem State.ksEvent_bn (s : State) (b : Nat) : (s.ksEvent b).bn = s.bn := rfl
@[simp] theorem State.ksEvent_bulk (s : State) (b : Nat) : (s.ksEvent b).bulk = s.bulk := rfl
@[simp] theorem State.ksEvent_rng (s : State) (b : Nat) : (s.ksEvent b).rng = s.rng := rfl
@[simp] theorem State.ksEvent_dual (s : State) (b : Nat) : (s.ksEvent b).dual = s.dual := rfl
@[simp] theorem State.ksEvent_lc (s : State) (b : Nat) : (s.ksEvent b).lc = s.lc := rfl
@[simp] theorem State.ksEvent_tmp (s : State) (b : Nat) : (s.ksEvent b).tmp = s.tmp := rfl
@[simp] theorem State.ksEvent_boot (s : State) (b : Nat) : (s.ksEvent b).boot = s.boot := rfl
@[simp] theorem State.ksEvent_image (s : State) (b : Nat) : (s.ksEvent b).image = s.image := rfl
@[simp] theorem State.ksEvent_pair (s : State) (b : Nat) : (s.ksEvent b).pair = s.pair := rfl
@[simp] theorem State.ksEvent_recorder (s : State) (b : Nat) : (s.ksEvent b).recorder = s.recorder := rfl
@[simp] theorem State.ksEvent_pmc (s : State) (b : Nat) : (s.ksEvent b).pmc = s.pmc := rfl
@[simp] theorem State.ksEvent_pwr (s : State) (b : Nat) : (s.ksEvent b).pwr = s.pwr := rfl
@[simp] theorem State.ksEvent_faults (s : State) (b : Nat) : (s.ksEvent b).faults = s.faults := rfl
@[simp] theorem State.ksEvent_recovery (s : State) (b : Nat) : (s.ksEvent b).recovery = s.recovery := rfl
@[simp] theorem State.ksEvent_readBack (s : State) (b : Nat) : (s.ksEvent b).readBack = s.readBack := rfl
@[simp] theorem State.ksEvent_pending (s : State) (b : Nat) : (s.ksEvent b).pending = s.pending := rfl

/-! `putResident` changes `ks` alone. -/

@[simp] theorem State.putResident_dev (s : State) (slot : Nat) (r : Resident) : (s.putResident slot r).dev = s.dev := rfl
@[simp] theorem State.putResident_folio (s : State) (slot : Nat) (r : Resident) : (s.putResident slot r).folio = s.folio := rfl
@[simp] theorem State.putResident_ports (s : State) (slot : Nat) (r : Resident) : (s.putResident slot r).ports = s.ports := rfl
@[simp] theorem State.putResident_srp (s : State) (slot : Nat) (r : Resident) : (s.putResident slot r).srp = s.srp := rfl
@[simp] theorem State.putResident_adm (s : State) (slot : Nat) (r : Resident) : (s.putResident slot r).adm = s.adm := rfl
@[simp] theorem State.putResident_sq (s : State) (slot : Nat) (r : Resident) : (s.putResident slot r).sq = s.sq := rfl
@[simp] theorem State.putResident_cores (s : State) (slot : Nat) (r : Resident) : (s.putResident slot r).cores = s.cores := rfl
@[simp] theorem State.putResident_vault (s : State) (slot : Nat) (r : Resident) : (s.putResident slot r).vault = s.vault := rfl
@[simp] theorem State.putResident_bn (s : State) (slot : Nat) (r : Resident) : (s.putResident slot r).bn = s.bn := rfl
@[simp] theorem State.putResident_bulk (s : State) (slot : Nat) (r : Resident) : (s.putResident slot r).bulk = s.bulk := rfl
@[simp] theorem State.putResident_rng (s : State) (slot : Nat) (r : Resident) : (s.putResident slot r).rng = s.rng := rfl
@[simp] theorem State.putResident_dual (s : State) (slot : Nat) (r : Resident) : (s.putResident slot r).dual = s.dual := rfl
@[simp] theorem State.putResident_lc (s : State) (slot : Nat) (r : Resident) : (s.putResident slot r).lc = s.lc := rfl
@[simp] theorem State.putResident_tmp (s : State) (slot : Nat) (r : Resident) : (s.putResident slot r).tmp = s.tmp := rfl
@[simp] theorem State.putResident_boot (s : State) (slot : Nat) (r : Resident) : (s.putResident slot r).boot = s.boot := rfl
@[simp] theorem State.putResident_image (s : State) (slot : Nat) (r : Resident) : (s.putResident slot r).image = s.image := rfl
@[simp] theorem State.putResident_pair (s : State) (slot : Nat) (r : Resident) : (s.putResident slot r).pair = s.pair := rfl
@[simp] theorem State.putResident_recorder (s : State) (slot : Nat) (r : Resident) : (s.putResident slot r).recorder = s.recorder := rfl
@[simp] theorem State.putResident_pmc (s : State) (slot : Nat) (r : Resident) : (s.putResident slot r).pmc = s.pmc := rfl
@[simp] theorem State.putResident_pwr (s : State) (slot : Nat) (r : Resident) : (s.putResident slot r).pwr = s.pwr := rfl
@[simp] theorem State.putResident_faults (s : State) (slot : Nat) (r : Resident) : (s.putResident slot r).faults = s.faults := rfl
@[simp] theorem State.putResident_recovery (s : State) (slot : Nat) (r : Resident) : (s.putResident slot r).recovery = s.recovery := rfl
@[simp] theorem State.putResident_readBack (s : State) (slot : Nat) (r : Resident) : (s.putResident slot r).readBack = s.readBack := rfl
@[simp] theorem State.putResident_pending (s : State) (slot : Nat) (r : Resident) : (s.putResident slot r).pending = s.pending := rfl

/-! `putSmk` changes `ks` alone. -/

@[simp] theorem State.putSmk_dev (s : State) (t j : Nat) (x : SmkSlot) : (s.putSmk t j x).dev = s.dev := rfl
@[simp] theorem State.putSmk_folio (s : State) (t j : Nat) (x : SmkSlot) : (s.putSmk t j x).folio = s.folio := rfl
@[simp] theorem State.putSmk_ports (s : State) (t j : Nat) (x : SmkSlot) : (s.putSmk t j x).ports = s.ports := rfl
@[simp] theorem State.putSmk_srp (s : State) (t j : Nat) (x : SmkSlot) : (s.putSmk t j x).srp = s.srp := rfl
@[simp] theorem State.putSmk_adm (s : State) (t j : Nat) (x : SmkSlot) : (s.putSmk t j x).adm = s.adm := rfl
@[simp] theorem State.putSmk_sq (s : State) (t j : Nat) (x : SmkSlot) : (s.putSmk t j x).sq = s.sq := rfl
@[simp] theorem State.putSmk_cores (s : State) (t j : Nat) (x : SmkSlot) : (s.putSmk t j x).cores = s.cores := rfl
@[simp] theorem State.putSmk_vault (s : State) (t j : Nat) (x : SmkSlot) : (s.putSmk t j x).vault = s.vault := rfl
@[simp] theorem State.putSmk_bn (s : State) (t j : Nat) (x : SmkSlot) : (s.putSmk t j x).bn = s.bn := rfl
@[simp] theorem State.putSmk_bulk (s : State) (t j : Nat) (x : SmkSlot) : (s.putSmk t j x).bulk = s.bulk := rfl
@[simp] theorem State.putSmk_rng (s : State) (t j : Nat) (x : SmkSlot) : (s.putSmk t j x).rng = s.rng := rfl
@[simp] theorem State.putSmk_dual (s : State) (t j : Nat) (x : SmkSlot) : (s.putSmk t j x).dual = s.dual := rfl
@[simp] theorem State.putSmk_lc (s : State) (t j : Nat) (x : SmkSlot) : (s.putSmk t j x).lc = s.lc := rfl
@[simp] theorem State.putSmk_tmp (s : State) (t j : Nat) (x : SmkSlot) : (s.putSmk t j x).tmp = s.tmp := rfl
@[simp] theorem State.putSmk_boot (s : State) (t j : Nat) (x : SmkSlot) : (s.putSmk t j x).boot = s.boot := rfl
@[simp] theorem State.putSmk_image (s : State) (t j : Nat) (x : SmkSlot) : (s.putSmk t j x).image = s.image := rfl
@[simp] theorem State.putSmk_pair (s : State) (t j : Nat) (x : SmkSlot) : (s.putSmk t j x).pair = s.pair := rfl
@[simp] theorem State.putSmk_recorder (s : State) (t j : Nat) (x : SmkSlot) : (s.putSmk t j x).recorder = s.recorder := rfl
@[simp] theorem State.putSmk_pmc (s : State) (t j : Nat) (x : SmkSlot) : (s.putSmk t j x).pmc = s.pmc := rfl
@[simp] theorem State.putSmk_pwr (s : State) (t j : Nat) (x : SmkSlot) : (s.putSmk t j x).pwr = s.pwr := rfl
@[simp] theorem State.putSmk_faults (s : State) (t j : Nat) (x : SmkSlot) : (s.putSmk t j x).faults = s.faults := rfl
@[simp] theorem State.putSmk_recovery (s : State) (t j : Nat) (x : SmkSlot) : (s.putSmk t j x).recovery = s.recovery := rfl
@[simp] theorem State.putSmk_readBack (s : State) (t j : Nat) (x : SmkSlot) : (s.putSmk t j x).readBack = s.readBack := rfl
@[simp] theorem State.putSmk_pending (s : State) (t j : Nat) (x : SmkSlot) : (s.putSmk t j x).pending = s.pending := rfl

/-! `bnEvent` changes `bn` alone. -/

@[simp] theorem State.bnEvent_dev (s : State) (b : Nat) : (s.bnEvent b).dev = s.dev := rfl
@[simp] theorem State.bnEvent_folio (s : State) (b : Nat) : (s.bnEvent b).folio = s.folio := rfl
@[simp] theorem State.bnEvent_ports (s : State) (b : Nat) : (s.bnEvent b).ports = s.ports := rfl
@[simp] theorem State.bnEvent_srp (s : State) (b : Nat) : (s.bnEvent b).srp = s.srp := rfl
@[simp] theorem State.bnEvent_adm (s : State) (b : Nat) : (s.bnEvent b).adm = s.adm := rfl
@[simp] theorem State.bnEvent_sq (s : State) (b : Nat) : (s.bnEvent b).sq = s.sq := rfl
@[simp] theorem State.bnEvent_cores (s : State) (b : Nat) : (s.bnEvent b).cores = s.cores := rfl
@[simp] theorem State.bnEvent_ks (s : State) (b : Nat) : (s.bnEvent b).ks = s.ks := rfl
@[simp] theorem State.bnEvent_vault (s : State) (b : Nat) : (s.bnEvent b).vault = s.vault := rfl
@[simp] theorem State.bnEvent_bulk (s : State) (b : Nat) : (s.bnEvent b).bulk = s.bulk := rfl
@[simp] theorem State.bnEvent_rng (s : State) (b : Nat) : (s.bnEvent b).rng = s.rng := rfl
@[simp] theorem State.bnEvent_dual (s : State) (b : Nat) : (s.bnEvent b).dual = s.dual := rfl
@[simp] theorem State.bnEvent_lc (s : State) (b : Nat) : (s.bnEvent b).lc = s.lc := rfl
@[simp] theorem State.bnEvent_tmp (s : State) (b : Nat) : (s.bnEvent b).tmp = s.tmp := rfl
@[simp] theorem State.bnEvent_boot (s : State) (b : Nat) : (s.bnEvent b).boot = s.boot := rfl
@[simp] theorem State.bnEvent_image (s : State) (b : Nat) : (s.bnEvent b).image = s.image := rfl
@[simp] theorem State.bnEvent_pair (s : State) (b : Nat) : (s.bnEvent b).pair = s.pair := rfl
@[simp] theorem State.bnEvent_recorder (s : State) (b : Nat) : (s.bnEvent b).recorder = s.recorder := rfl
@[simp] theorem State.bnEvent_pmc (s : State) (b : Nat) : (s.bnEvent b).pmc = s.pmc := rfl
@[simp] theorem State.bnEvent_pwr (s : State) (b : Nat) : (s.bnEvent b).pwr = s.pwr := rfl
@[simp] theorem State.bnEvent_faults (s : State) (b : Nat) : (s.bnEvent b).faults = s.faults := rfl
@[simp] theorem State.bnEvent_recovery (s : State) (b : Nat) : (s.bnEvent b).recovery = s.recovery := rfl
@[simp] theorem State.bnEvent_readBack (s : State) (b : Nat) : (s.bnEvent b).readBack = s.readBack := rfl
@[simp] theorem State.bnEvent_pending (s : State) (b : Nat) : (s.bnEvent b).pending = s.pending := rfl

/-! `modEngine` changes `bn` alone. -/

@[simp] theorem State.modEngine_dev (s : State) (e : Nat) (f : BnEngine → BnEngine) : (s.modEngine e f).dev = s.dev := rfl
@[simp] theorem State.modEngine_folio (s : State) (e : Nat) (f : BnEngine → BnEngine) : (s.modEngine e f).folio = s.folio := rfl
@[simp] theorem State.modEngine_ports (s : State) (e : Nat) (f : BnEngine → BnEngine) : (s.modEngine e f).ports = s.ports := rfl
@[simp] theorem State.modEngine_srp (s : State) (e : Nat) (f : BnEngine → BnEngine) : (s.modEngine e f).srp = s.srp := rfl
@[simp] theorem State.modEngine_adm (s : State) (e : Nat) (f : BnEngine → BnEngine) : (s.modEngine e f).adm = s.adm := rfl
@[simp] theorem State.modEngine_sq (s : State) (e : Nat) (f : BnEngine → BnEngine) : (s.modEngine e f).sq = s.sq := rfl
@[simp] theorem State.modEngine_cores (s : State) (e : Nat) (f : BnEngine → BnEngine) : (s.modEngine e f).cores = s.cores := rfl
@[simp] theorem State.modEngine_ks (s : State) (e : Nat) (f : BnEngine → BnEngine) : (s.modEngine e f).ks = s.ks := rfl
@[simp] theorem State.modEngine_vault (s : State) (e : Nat) (f : BnEngine → BnEngine) : (s.modEngine e f).vault = s.vault := rfl
@[simp] theorem State.modEngine_bulk (s : State) (e : Nat) (f : BnEngine → BnEngine) : (s.modEngine e f).bulk = s.bulk := rfl
@[simp] theorem State.modEngine_rng (s : State) (e : Nat) (f : BnEngine → BnEngine) : (s.modEngine e f).rng = s.rng := rfl
@[simp] theorem State.modEngine_dual (s : State) (e : Nat) (f : BnEngine → BnEngine) : (s.modEngine e f).dual = s.dual := rfl
@[simp] theorem State.modEngine_lc (s : State) (e : Nat) (f : BnEngine → BnEngine) : (s.modEngine e f).lc = s.lc := rfl
@[simp] theorem State.modEngine_tmp (s : State) (e : Nat) (f : BnEngine → BnEngine) : (s.modEngine e f).tmp = s.tmp := rfl
@[simp] theorem State.modEngine_boot (s : State) (e : Nat) (f : BnEngine → BnEngine) : (s.modEngine e f).boot = s.boot := rfl
@[simp] theorem State.modEngine_image (s : State) (e : Nat) (f : BnEngine → BnEngine) : (s.modEngine e f).image = s.image := rfl
@[simp] theorem State.modEngine_pair (s : State) (e : Nat) (f : BnEngine → BnEngine) : (s.modEngine e f).pair = s.pair := rfl
@[simp] theorem State.modEngine_recorder (s : State) (e : Nat) (f : BnEngine → BnEngine) : (s.modEngine e f).recorder = s.recorder := rfl
@[simp] theorem State.modEngine_pmc (s : State) (e : Nat) (f : BnEngine → BnEngine) : (s.modEngine e f).pmc = s.pmc := rfl
@[simp] theorem State.modEngine_pwr (s : State) (e : Nat) (f : BnEngine → BnEngine) : (s.modEngine e f).pwr = s.pwr := rfl
@[simp] theorem State.modEngine_faults (s : State) (e : Nat) (f : BnEngine → BnEngine) : (s.modEngine e f).faults = s.faults := rfl
@[simp] theorem State.modEngine_recovery (s : State) (e : Nat) (f : BnEngine → BnEngine) : (s.modEngine e f).recovery = s.recovery := rfl
@[simp] theorem State.modEngine_readBack (s : State) (e : Nat) (f : BnEngine → BnEngine) : (s.modEngine e f).readBack = s.readBack := rfl
@[simp] theorem State.modEngine_pending (s : State) (e : Nat) (f : BnEngine → BnEngine) : (s.modEngine e f).pending = s.pending := rfl

/-! `bulkCnt` changes `bulk` alone. -/

@[simp] theorem State.bulkCnt_dev (s : State) (k n : Nat) : (s.bulkCnt k n).dev = s.dev := rfl
@[simp] theorem State.bulkCnt_folio (s : State) (k n : Nat) : (s.bulkCnt k n).folio = s.folio := rfl
@[simp] theorem State.bulkCnt_ports (s : State) (k n : Nat) : (s.bulkCnt k n).ports = s.ports := rfl
@[simp] theorem State.bulkCnt_srp (s : State) (k n : Nat) : (s.bulkCnt k n).srp = s.srp := rfl
@[simp] theorem State.bulkCnt_adm (s : State) (k n : Nat) : (s.bulkCnt k n).adm = s.adm := rfl
@[simp] theorem State.bulkCnt_sq (s : State) (k n : Nat) : (s.bulkCnt k n).sq = s.sq := rfl
@[simp] theorem State.bulkCnt_cores (s : State) (k n : Nat) : (s.bulkCnt k n).cores = s.cores := rfl
@[simp] theorem State.bulkCnt_ks (s : State) (k n : Nat) : (s.bulkCnt k n).ks = s.ks := rfl
@[simp] theorem State.bulkCnt_vault (s : State) (k n : Nat) : (s.bulkCnt k n).vault = s.vault := rfl
@[simp] theorem State.bulkCnt_bn (s : State) (k n : Nat) : (s.bulkCnt k n).bn = s.bn := rfl
@[simp] theorem State.bulkCnt_rng (s : State) (k n : Nat) : (s.bulkCnt k n).rng = s.rng := rfl
@[simp] theorem State.bulkCnt_dual (s : State) (k n : Nat) : (s.bulkCnt k n).dual = s.dual := rfl
@[simp] theorem State.bulkCnt_lc (s : State) (k n : Nat) : (s.bulkCnt k n).lc = s.lc := rfl
@[simp] theorem State.bulkCnt_tmp (s : State) (k n : Nat) : (s.bulkCnt k n).tmp = s.tmp := rfl
@[simp] theorem State.bulkCnt_boot (s : State) (k n : Nat) : (s.bulkCnt k n).boot = s.boot := rfl
@[simp] theorem State.bulkCnt_image (s : State) (k n : Nat) : (s.bulkCnt k n).image = s.image := rfl
@[simp] theorem State.bulkCnt_pair (s : State) (k n : Nat) : (s.bulkCnt k n).pair = s.pair := rfl
@[simp] theorem State.bulkCnt_recorder (s : State) (k n : Nat) : (s.bulkCnt k n).recorder = s.recorder := rfl
@[simp] theorem State.bulkCnt_pmc (s : State) (k n : Nat) : (s.bulkCnt k n).pmc = s.pmc := rfl
@[simp] theorem State.bulkCnt_pwr (s : State) (k n : Nat) : (s.bulkCnt k n).pwr = s.pwr := rfl
@[simp] theorem State.bulkCnt_faults (s : State) (k n : Nat) : (s.bulkCnt k n).faults = s.faults := rfl
@[simp] theorem State.bulkCnt_recovery (s : State) (k n : Nat) : (s.bulkCnt k n).recovery = s.recovery := rfl
@[simp] theorem State.bulkCnt_readBack (s : State) (k n : Nat) : (s.bulkCnt k n).readBack = s.readBack := rfl
@[simp] theorem State.bulkCnt_pending (s : State) (k n : Nat) : (s.bulkCnt k n).pending = s.pending := rfl

/-! `rngCnt` changes `rng` alone. -/

@[simp] theorem State.rngCnt_dev (s : State) (k n : Nat) : (s.rngCnt k n).dev = s.dev := rfl
@[simp] theorem State.rngCnt_folio (s : State) (k n : Nat) : (s.rngCnt k n).folio = s.folio := rfl
@[simp] theorem State.rngCnt_ports (s : State) (k n : Nat) : (s.rngCnt k n).ports = s.ports := rfl
@[simp] theorem State.rngCnt_srp (s : State) (k n : Nat) : (s.rngCnt k n).srp = s.srp := rfl
@[simp] theorem State.rngCnt_adm (s : State) (k n : Nat) : (s.rngCnt k n).adm = s.adm := rfl
@[simp] theorem State.rngCnt_sq (s : State) (k n : Nat) : (s.rngCnt k n).sq = s.sq := rfl
@[simp] theorem State.rngCnt_cores (s : State) (k n : Nat) : (s.rngCnt k n).cores = s.cores := rfl
@[simp] theorem State.rngCnt_ks (s : State) (k n : Nat) : (s.rngCnt k n).ks = s.ks := rfl
@[simp] theorem State.rngCnt_vault (s : State) (k n : Nat) : (s.rngCnt k n).vault = s.vault := rfl
@[simp] theorem State.rngCnt_bn (s : State) (k n : Nat) : (s.rngCnt k n).bn = s.bn := rfl
@[simp] theorem State.rngCnt_bulk (s : State) (k n : Nat) : (s.rngCnt k n).bulk = s.bulk := rfl
@[simp] theorem State.rngCnt_dual (s : State) (k n : Nat) : (s.rngCnt k n).dual = s.dual := rfl
@[simp] theorem State.rngCnt_lc (s : State) (k n : Nat) : (s.rngCnt k n).lc = s.lc := rfl
@[simp] theorem State.rngCnt_tmp (s : State) (k n : Nat) : (s.rngCnt k n).tmp = s.tmp := rfl
@[simp] theorem State.rngCnt_boot (s : State) (k n : Nat) : (s.rngCnt k n).boot = s.boot := rfl
@[simp] theorem State.rngCnt_image (s : State) (k n : Nat) : (s.rngCnt k n).image = s.image := rfl
@[simp] theorem State.rngCnt_pair (s : State) (k n : Nat) : (s.rngCnt k n).pair = s.pair := rfl
@[simp] theorem State.rngCnt_recorder (s : State) (k n : Nat) : (s.rngCnt k n).recorder = s.recorder := rfl
@[simp] theorem State.rngCnt_pmc (s : State) (k n : Nat) : (s.rngCnt k n).pmc = s.pmc := rfl
@[simp] theorem State.rngCnt_pwr (s : State) (k n : Nat) : (s.rngCnt k n).pwr = s.pwr := rfl
@[simp] theorem State.rngCnt_faults (s : State) (k n : Nat) : (s.rngCnt k n).faults = s.faults := rfl
@[simp] theorem State.rngCnt_recovery (s : State) (k n : Nat) : (s.rngCnt k n).recovery = s.recovery := rfl
@[simp] theorem State.rngCnt_readBack (s : State) (k n : Nat) : (s.rngCnt k n).readBack = s.readBack := rfl
@[simp] theorem State.rngCnt_pending (s : State) (k n : Nat) : (s.rngCnt k n).pending = s.pending := rfl

/-! `rngEvent` changes `rng` alone. -/

@[simp] theorem State.rngEvent_dev (s : State) (b : Nat) : (s.rngEvent b).dev = s.dev := rfl
@[simp] theorem State.rngEvent_folio (s : State) (b : Nat) : (s.rngEvent b).folio = s.folio := rfl
@[simp] theorem State.rngEvent_ports (s : State) (b : Nat) : (s.rngEvent b).ports = s.ports := rfl
@[simp] theorem State.rngEvent_srp (s : State) (b : Nat) : (s.rngEvent b).srp = s.srp := rfl
@[simp] theorem State.rngEvent_adm (s : State) (b : Nat) : (s.rngEvent b).adm = s.adm := rfl
@[simp] theorem State.rngEvent_sq (s : State) (b : Nat) : (s.rngEvent b).sq = s.sq := rfl
@[simp] theorem State.rngEvent_cores (s : State) (b : Nat) : (s.rngEvent b).cores = s.cores := rfl
@[simp] theorem State.rngEvent_ks (s : State) (b : Nat) : (s.rngEvent b).ks = s.ks := rfl
@[simp] theorem State.rngEvent_vault (s : State) (b : Nat) : (s.rngEvent b).vault = s.vault := rfl
@[simp] theorem State.rngEvent_bn (s : State) (b : Nat) : (s.rngEvent b).bn = s.bn := rfl
@[simp] theorem State.rngEvent_bulk (s : State) (b : Nat) : (s.rngEvent b).bulk = s.bulk := rfl
@[simp] theorem State.rngEvent_dual (s : State) (b : Nat) : (s.rngEvent b).dual = s.dual := rfl
@[simp] theorem State.rngEvent_lc (s : State) (b : Nat) : (s.rngEvent b).lc = s.lc := rfl
@[simp] theorem State.rngEvent_tmp (s : State) (b : Nat) : (s.rngEvent b).tmp = s.tmp := rfl
@[simp] theorem State.rngEvent_boot (s : State) (b : Nat) : (s.rngEvent b).boot = s.boot := rfl
@[simp] theorem State.rngEvent_image (s : State) (b : Nat) : (s.rngEvent b).image = s.image := rfl
@[simp] theorem State.rngEvent_pair (s : State) (b : Nat) : (s.rngEvent b).pair = s.pair := rfl
@[simp] theorem State.rngEvent_recorder (s : State) (b : Nat) : (s.rngEvent b).recorder = s.recorder := rfl
@[simp] theorem State.rngEvent_pmc (s : State) (b : Nat) : (s.rngEvent b).pmc = s.pmc := rfl
@[simp] theorem State.rngEvent_pwr (s : State) (b : Nat) : (s.rngEvent b).pwr = s.pwr := rfl
@[simp] theorem State.rngEvent_faults (s : State) (b : Nat) : (s.rngEvent b).faults = s.faults := rfl
@[simp] theorem State.rngEvent_recovery (s : State) (b : Nat) : (s.rngEvent b).recovery = s.recovery := rfl
@[simp] theorem State.rngEvent_readBack (s : State) (b : Nat) : (s.rngEvent b).readBack = s.readBack := rfl
@[simp] theorem State.rngEvent_pending (s : State) (b : Nat) : (s.rngEvent b).pending = s.pending := rfl

/-! `putDrbg` changes `rng` alone. -/

@[simp] theorem State.putDrbg_dev (s : State) (i : Nat) (x : Drbg) : (s.putDrbg i x).dev = s.dev := rfl
@[simp] theorem State.putDrbg_folio (s : State) (i : Nat) (x : Drbg) : (s.putDrbg i x).folio = s.folio := rfl
@[simp] theorem State.putDrbg_ports (s : State) (i : Nat) (x : Drbg) : (s.putDrbg i x).ports = s.ports := rfl
@[simp] theorem State.putDrbg_srp (s : State) (i : Nat) (x : Drbg) : (s.putDrbg i x).srp = s.srp := rfl
@[simp] theorem State.putDrbg_adm (s : State) (i : Nat) (x : Drbg) : (s.putDrbg i x).adm = s.adm := rfl
@[simp] theorem State.putDrbg_sq (s : State) (i : Nat) (x : Drbg) : (s.putDrbg i x).sq = s.sq := rfl
@[simp] theorem State.putDrbg_cores (s : State) (i : Nat) (x : Drbg) : (s.putDrbg i x).cores = s.cores := rfl
@[simp] theorem State.putDrbg_ks (s : State) (i : Nat) (x : Drbg) : (s.putDrbg i x).ks = s.ks := rfl
@[simp] theorem State.putDrbg_vault (s : State) (i : Nat) (x : Drbg) : (s.putDrbg i x).vault = s.vault := rfl
@[simp] theorem State.putDrbg_bn (s : State) (i : Nat) (x : Drbg) : (s.putDrbg i x).bn = s.bn := rfl
@[simp] theorem State.putDrbg_bulk (s : State) (i : Nat) (x : Drbg) : (s.putDrbg i x).bulk = s.bulk := rfl
@[simp] theorem State.putDrbg_dual (s : State) (i : Nat) (x : Drbg) : (s.putDrbg i x).dual = s.dual := rfl
@[simp] theorem State.putDrbg_lc (s : State) (i : Nat) (x : Drbg) : (s.putDrbg i x).lc = s.lc := rfl
@[simp] theorem State.putDrbg_tmp (s : State) (i : Nat) (x : Drbg) : (s.putDrbg i x).tmp = s.tmp := rfl
@[simp] theorem State.putDrbg_boot (s : State) (i : Nat) (x : Drbg) : (s.putDrbg i x).boot = s.boot := rfl
@[simp] theorem State.putDrbg_image (s : State) (i : Nat) (x : Drbg) : (s.putDrbg i x).image = s.image := rfl
@[simp] theorem State.putDrbg_pair (s : State) (i : Nat) (x : Drbg) : (s.putDrbg i x).pair = s.pair := rfl
@[simp] theorem State.putDrbg_recorder (s : State) (i : Nat) (x : Drbg) : (s.putDrbg i x).recorder = s.recorder := rfl
@[simp] theorem State.putDrbg_pmc (s : State) (i : Nat) (x : Drbg) : (s.putDrbg i x).pmc = s.pmc := rfl
@[simp] theorem State.putDrbg_pwr (s : State) (i : Nat) (x : Drbg) : (s.putDrbg i x).pwr = s.pwr := rfl
@[simp] theorem State.putDrbg_faults (s : State) (i : Nat) (x : Drbg) : (s.putDrbg i x).faults = s.faults := rfl
@[simp] theorem State.putDrbg_recovery (s : State) (i : Nat) (x : Drbg) : (s.putDrbg i x).recovery = s.recovery := rfl
@[simp] theorem State.putDrbg_readBack (s : State) (i : Nat) (x : Drbg) : (s.putDrbg i x).readBack = s.readBack := rfl
@[simp] theorem State.putDrbg_pending (s : State) (i : Nat) (x : Drbg) : (s.putDrbg i x).pending = s.pending := rfl

/-! `putSource` changes `rng` alone. -/

@[simp] theorem State.putSource_dev (s : State) (i : Nat) (x : Source) : (s.putSource i x).dev = s.dev := rfl
@[simp] theorem State.putSource_folio (s : State) (i : Nat) (x : Source) : (s.putSource i x).folio = s.folio := rfl
@[simp] theorem State.putSource_ports (s : State) (i : Nat) (x : Source) : (s.putSource i x).ports = s.ports := rfl
@[simp] theorem State.putSource_srp (s : State) (i : Nat) (x : Source) : (s.putSource i x).srp = s.srp := rfl
@[simp] theorem State.putSource_adm (s : State) (i : Nat) (x : Source) : (s.putSource i x).adm = s.adm := rfl
@[simp] theorem State.putSource_sq (s : State) (i : Nat) (x : Source) : (s.putSource i x).sq = s.sq := rfl
@[simp] theorem State.putSource_cores (s : State) (i : Nat) (x : Source) : (s.putSource i x).cores = s.cores := rfl
@[simp] theorem State.putSource_ks (s : State) (i : Nat) (x : Source) : (s.putSource i x).ks = s.ks := rfl
@[simp] theorem State.putSource_vault (s : State) (i : Nat) (x : Source) : (s.putSource i x).vault = s.vault := rfl
@[simp] theorem State.putSource_bn (s : State) (i : Nat) (x : Source) : (s.putSource i x).bn = s.bn := rfl
@[simp] theorem State.putSource_bulk (s : State) (i : Nat) (x : Source) : (s.putSource i x).bulk = s.bulk := rfl
@[simp] theorem State.putSource_dual (s : State) (i : Nat) (x : Source) : (s.putSource i x).dual = s.dual := rfl
@[simp] theorem State.putSource_lc (s : State) (i : Nat) (x : Source) : (s.putSource i x).lc = s.lc := rfl
@[simp] theorem State.putSource_tmp (s : State) (i : Nat) (x : Source) : (s.putSource i x).tmp = s.tmp := rfl
@[simp] theorem State.putSource_boot (s : State) (i : Nat) (x : Source) : (s.putSource i x).boot = s.boot := rfl
@[simp] theorem State.putSource_image (s : State) (i : Nat) (x : Source) : (s.putSource i x).image = s.image := rfl
@[simp] theorem State.putSource_pair (s : State) (i : Nat) (x : Source) : (s.putSource i x).pair = s.pair := rfl
@[simp] theorem State.putSource_recorder (s : State) (i : Nat) (x : Source) : (s.putSource i x).recorder = s.recorder := rfl
@[simp] theorem State.putSource_pmc (s : State) (i : Nat) (x : Source) : (s.putSource i x).pmc = s.pmc := rfl
@[simp] theorem State.putSource_pwr (s : State) (i : Nat) (x : Source) : (s.putSource i x).pwr = s.pwr := rfl
@[simp] theorem State.putSource_faults (s : State) (i : Nat) (x : Source) : (s.putSource i x).faults = s.faults := rfl
@[simp] theorem State.putSource_recovery (s : State) (i : Nat) (x : Source) : (s.putSource i x).recovery = s.recovery := rfl
@[simp] theorem State.putSource_readBack (s : State) (i : Nat) (x : Source) : (s.putSource i x).readBack = s.readBack := rfl
@[simp] theorem State.putSource_pending (s : State) (i : Nat) (x : Source) : (s.putSource i x).pending = s.pending := rfl

/-! `dcCnt` changes `dual` alone. -/

@[simp] theorem State.dcCnt_dev (s : State) (k n : Nat) : (s.dcCnt k n).dev = s.dev := rfl
@[simp] theorem State.dcCnt_folio (s : State) (k n : Nat) : (s.dcCnt k n).folio = s.folio := rfl
@[simp] theorem State.dcCnt_ports (s : State) (k n : Nat) : (s.dcCnt k n).ports = s.ports := rfl
@[simp] theorem State.dcCnt_srp (s : State) (k n : Nat) : (s.dcCnt k n).srp = s.srp := rfl
@[simp] theorem State.dcCnt_adm (s : State) (k n : Nat) : (s.dcCnt k n).adm = s.adm := rfl
@[simp] theorem State.dcCnt_sq (s : State) (k n : Nat) : (s.dcCnt k n).sq = s.sq := rfl
@[simp] theorem State.dcCnt_cores (s : State) (k n : Nat) : (s.dcCnt k n).cores = s.cores := rfl
@[simp] theorem State.dcCnt_ks (s : State) (k n : Nat) : (s.dcCnt k n).ks = s.ks := rfl
@[simp] theorem State.dcCnt_vault (s : State) (k n : Nat) : (s.dcCnt k n).vault = s.vault := rfl
@[simp] theorem State.dcCnt_bn (s : State) (k n : Nat) : (s.dcCnt k n).bn = s.bn := rfl
@[simp] theorem State.dcCnt_bulk (s : State) (k n : Nat) : (s.dcCnt k n).bulk = s.bulk := rfl
@[simp] theorem State.dcCnt_rng (s : State) (k n : Nat) : (s.dcCnt k n).rng = s.rng := rfl
@[simp] theorem State.dcCnt_lc (s : State) (k n : Nat) : (s.dcCnt k n).lc = s.lc := rfl
@[simp] theorem State.dcCnt_tmp (s : State) (k n : Nat) : (s.dcCnt k n).tmp = s.tmp := rfl
@[simp] theorem State.dcCnt_boot (s : State) (k n : Nat) : (s.dcCnt k n).boot = s.boot := rfl
@[simp] theorem State.dcCnt_image (s : State) (k n : Nat) : (s.dcCnt k n).image = s.image := rfl
@[simp] theorem State.dcCnt_pair (s : State) (k n : Nat) : (s.dcCnt k n).pair = s.pair := rfl
@[simp] theorem State.dcCnt_recorder (s : State) (k n : Nat) : (s.dcCnt k n).recorder = s.recorder := rfl
@[simp] theorem State.dcCnt_pmc (s : State) (k n : Nat) : (s.dcCnt k n).pmc = s.pmc := rfl
@[simp] theorem State.dcCnt_pwr (s : State) (k n : Nat) : (s.dcCnt k n).pwr = s.pwr := rfl
@[simp] theorem State.dcCnt_faults (s : State) (k n : Nat) : (s.dcCnt k n).faults = s.faults := rfl
@[simp] theorem State.dcCnt_recovery (s : State) (k n : Nat) : (s.dcCnt k n).recovery = s.recovery := rfl
@[simp] theorem State.dcCnt_readBack (s : State) (k n : Nat) : (s.dcCnt k n).readBack = s.readBack := rfl
@[simp] theorem State.dcCnt_pending (s : State) (k n : Nat) : (s.dcCnt k n).pending = s.pending := rfl

/-! `dcEvent` changes `dual` alone. -/

@[simp] theorem State.dcEvent_dev (s : State) (b : Nat) : (s.dcEvent b).dev = s.dev := rfl
@[simp] theorem State.dcEvent_folio (s : State) (b : Nat) : (s.dcEvent b).folio = s.folio := rfl
@[simp] theorem State.dcEvent_ports (s : State) (b : Nat) : (s.dcEvent b).ports = s.ports := rfl
@[simp] theorem State.dcEvent_srp (s : State) (b : Nat) : (s.dcEvent b).srp = s.srp := rfl
@[simp] theorem State.dcEvent_adm (s : State) (b : Nat) : (s.dcEvent b).adm = s.adm := rfl
@[simp] theorem State.dcEvent_sq (s : State) (b : Nat) : (s.dcEvent b).sq = s.sq := rfl
@[simp] theorem State.dcEvent_cores (s : State) (b : Nat) : (s.dcEvent b).cores = s.cores := rfl
@[simp] theorem State.dcEvent_ks (s : State) (b : Nat) : (s.dcEvent b).ks = s.ks := rfl
@[simp] theorem State.dcEvent_vault (s : State) (b : Nat) : (s.dcEvent b).vault = s.vault := rfl
@[simp] theorem State.dcEvent_bn (s : State) (b : Nat) : (s.dcEvent b).bn = s.bn := rfl
@[simp] theorem State.dcEvent_bulk (s : State) (b : Nat) : (s.dcEvent b).bulk = s.bulk := rfl
@[simp] theorem State.dcEvent_rng (s : State) (b : Nat) : (s.dcEvent b).rng = s.rng := rfl
@[simp] theorem State.dcEvent_lc (s : State) (b : Nat) : (s.dcEvent b).lc = s.lc := rfl
@[simp] theorem State.dcEvent_tmp (s : State) (b : Nat) : (s.dcEvent b).tmp = s.tmp := rfl
@[simp] theorem State.dcEvent_boot (s : State) (b : Nat) : (s.dcEvent b).boot = s.boot := rfl
@[simp] theorem State.dcEvent_image (s : State) (b : Nat) : (s.dcEvent b).image = s.image := rfl
@[simp] theorem State.dcEvent_pair (s : State) (b : Nat) : (s.dcEvent b).pair = s.pair := rfl
@[simp] theorem State.dcEvent_recorder (s : State) (b : Nat) : (s.dcEvent b).recorder = s.recorder := rfl
@[simp] theorem State.dcEvent_pmc (s : State) (b : Nat) : (s.dcEvent b).pmc = s.pmc := rfl
@[simp] theorem State.dcEvent_pwr (s : State) (b : Nat) : (s.dcEvent b).pwr = s.pwr := rfl
@[simp] theorem State.dcEvent_faults (s : State) (b : Nat) : (s.dcEvent b).faults = s.faults := rfl
@[simp] theorem State.dcEvent_recovery (s : State) (b : Nat) : (s.dcEvent b).recovery = s.recovery := rfl
@[simp] theorem State.dcEvent_readBack (s : State) (b : Nat) : (s.dcEvent b).readBack = s.readBack := rfl
@[simp] theorem State.dcEvent_pending (s : State) (b : Nat) : (s.dcEvent b).pending = s.pending := rfl

/-! `putSession` changes `dual` alone. -/

@[simp] theorem State.putSession_dev (s : State) (i : Nat) (x : Session) : (s.putSession i x).dev = s.dev := rfl
@[simp] theorem State.putSession_folio (s : State) (i : Nat) (x : Session) : (s.putSession i x).folio = s.folio := rfl
@[simp] theorem State.putSession_ports (s : State) (i : Nat) (x : Session) : (s.putSession i x).ports = s.ports := rfl
@[simp] theorem State.putSession_srp (s : State) (i : Nat) (x : Session) : (s.putSession i x).srp = s.srp := rfl
@[simp] theorem State.putSession_adm (s : State) (i : Nat) (x : Session) : (s.putSession i x).adm = s.adm := rfl
@[simp] theorem State.putSession_sq (s : State) (i : Nat) (x : Session) : (s.putSession i x).sq = s.sq := rfl
@[simp] theorem State.putSession_cores (s : State) (i : Nat) (x : Session) : (s.putSession i x).cores = s.cores := rfl
@[simp] theorem State.putSession_ks (s : State) (i : Nat) (x : Session) : (s.putSession i x).ks = s.ks := rfl
@[simp] theorem State.putSession_vault (s : State) (i : Nat) (x : Session) : (s.putSession i x).vault = s.vault := rfl
@[simp] theorem State.putSession_bn (s : State) (i : Nat) (x : Session) : (s.putSession i x).bn = s.bn := rfl
@[simp] theorem State.putSession_bulk (s : State) (i : Nat) (x : Session) : (s.putSession i x).bulk = s.bulk := rfl
@[simp] theorem State.putSession_rng (s : State) (i : Nat) (x : Session) : (s.putSession i x).rng = s.rng := rfl
@[simp] theorem State.putSession_lc (s : State) (i : Nat) (x : Session) : (s.putSession i x).lc = s.lc := rfl
@[simp] theorem State.putSession_tmp (s : State) (i : Nat) (x : Session) : (s.putSession i x).tmp = s.tmp := rfl
@[simp] theorem State.putSession_boot (s : State) (i : Nat) (x : Session) : (s.putSession i x).boot = s.boot := rfl
@[simp] theorem State.putSession_image (s : State) (i : Nat) (x : Session) : (s.putSession i x).image = s.image := rfl
@[simp] theorem State.putSession_pair (s : State) (i : Nat) (x : Session) : (s.putSession i x).pair = s.pair := rfl
@[simp] theorem State.putSession_recorder (s : State) (i : Nat) (x : Session) : (s.putSession i x).recorder = s.recorder := rfl
@[simp] theorem State.putSession_pmc (s : State) (i : Nat) (x : Session) : (s.putSession i x).pmc = s.pmc := rfl
@[simp] theorem State.putSession_pwr (s : State) (i : Nat) (x : Session) : (s.putSession i x).pwr = s.pwr := rfl
@[simp] theorem State.putSession_faults (s : State) (i : Nat) (x : Session) : (s.putSession i x).faults = s.faults := rfl
@[simp] theorem State.putSession_recovery (s : State) (i : Nat) (x : Session) : (s.putSession i x).recovery = s.recovery := rfl
@[simp] theorem State.putSession_readBack (s : State) (i : Nat) (x : Session) : (s.putSession i x).readBack = s.readBack := rfl
@[simp] theorem State.putSession_pending (s : State) (i : Nat) (x : Session) : (s.putSession i x).pending = s.pending := rfl

/-! `putCard` changes `dual` alone. -/

@[simp] theorem State.putCard_dev (s : State) (i : Nat) (x : Card) : (s.putCard i x).dev = s.dev := rfl
@[simp] theorem State.putCard_folio (s : State) (i : Nat) (x : Card) : (s.putCard i x).folio = s.folio := rfl
@[simp] theorem State.putCard_ports (s : State) (i : Nat) (x : Card) : (s.putCard i x).ports = s.ports := rfl
@[simp] theorem State.putCard_srp (s : State) (i : Nat) (x : Card) : (s.putCard i x).srp = s.srp := rfl
@[simp] theorem State.putCard_adm (s : State) (i : Nat) (x : Card) : (s.putCard i x).adm = s.adm := rfl
@[simp] theorem State.putCard_sq (s : State) (i : Nat) (x : Card) : (s.putCard i x).sq = s.sq := rfl
@[simp] theorem State.putCard_cores (s : State) (i : Nat) (x : Card) : (s.putCard i x).cores = s.cores := rfl
@[simp] theorem State.putCard_ks (s : State) (i : Nat) (x : Card) : (s.putCard i x).ks = s.ks := rfl
@[simp] theorem State.putCard_vault (s : State) (i : Nat) (x : Card) : (s.putCard i x).vault = s.vault := rfl
@[simp] theorem State.putCard_bn (s : State) (i : Nat) (x : Card) : (s.putCard i x).bn = s.bn := rfl
@[simp] theorem State.putCard_bulk (s : State) (i : Nat) (x : Card) : (s.putCard i x).bulk = s.bulk := rfl
@[simp] theorem State.putCard_rng (s : State) (i : Nat) (x : Card) : (s.putCard i x).rng = s.rng := rfl
@[simp] theorem State.putCard_lc (s : State) (i : Nat) (x : Card) : (s.putCard i x).lc = s.lc := rfl
@[simp] theorem State.putCard_tmp (s : State) (i : Nat) (x : Card) : (s.putCard i x).tmp = s.tmp := rfl
@[simp] theorem State.putCard_boot (s : State) (i : Nat) (x : Card) : (s.putCard i x).boot = s.boot := rfl
@[simp] theorem State.putCard_image (s : State) (i : Nat) (x : Card) : (s.putCard i x).image = s.image := rfl
@[simp] theorem State.putCard_pair (s : State) (i : Nat) (x : Card) : (s.putCard i x).pair = s.pair := rfl
@[simp] theorem State.putCard_recorder (s : State) (i : Nat) (x : Card) : (s.putCard i x).recorder = s.recorder := rfl
@[simp] theorem State.putCard_pmc (s : State) (i : Nat) (x : Card) : (s.putCard i x).pmc = s.pmc := rfl
@[simp] theorem State.putCard_pwr (s : State) (i : Nat) (x : Card) : (s.putCard i x).pwr = s.pwr := rfl
@[simp] theorem State.putCard_faults (s : State) (i : Nat) (x : Card) : (s.putCard i x).faults = s.faults := rfl
@[simp] theorem State.putCard_recovery (s : State) (i : Nat) (x : Card) : (s.putCard i x).recovery = s.recovery := rfl
@[simp] theorem State.putCard_readBack (s : State) (i : Nat) (x : Card) : (s.putCard i x).readBack = s.readBack := rfl
@[simp] theorem State.putCard_pending (s : State) (i : Nat) (x : Card) : (s.putCard i x).pending = s.pending := rfl

/-! `pairCnt` changes `pair` alone. -/

@[simp] theorem State.pairCnt_dev (s : State) (k n : Nat) : (s.pairCnt k n).dev = s.dev := rfl
@[simp] theorem State.pairCnt_folio (s : State) (k n : Nat) : (s.pairCnt k n).folio = s.folio := rfl
@[simp] theorem State.pairCnt_ports (s : State) (k n : Nat) : (s.pairCnt k n).ports = s.ports := rfl
@[simp] theorem State.pairCnt_srp (s : State) (k n : Nat) : (s.pairCnt k n).srp = s.srp := rfl
@[simp] theorem State.pairCnt_adm (s : State) (k n : Nat) : (s.pairCnt k n).adm = s.adm := rfl
@[simp] theorem State.pairCnt_sq (s : State) (k n : Nat) : (s.pairCnt k n).sq = s.sq := rfl
@[simp] theorem State.pairCnt_cores (s : State) (k n : Nat) : (s.pairCnt k n).cores = s.cores := rfl
@[simp] theorem State.pairCnt_ks (s : State) (k n : Nat) : (s.pairCnt k n).ks = s.ks := rfl
@[simp] theorem State.pairCnt_vault (s : State) (k n : Nat) : (s.pairCnt k n).vault = s.vault := rfl
@[simp] theorem State.pairCnt_bn (s : State) (k n : Nat) : (s.pairCnt k n).bn = s.bn := rfl
@[simp] theorem State.pairCnt_bulk (s : State) (k n : Nat) : (s.pairCnt k n).bulk = s.bulk := rfl
@[simp] theorem State.pairCnt_rng (s : State) (k n : Nat) : (s.pairCnt k n).rng = s.rng := rfl
@[simp] theorem State.pairCnt_dual (s : State) (k n : Nat) : (s.pairCnt k n).dual = s.dual := rfl
@[simp] theorem State.pairCnt_lc (s : State) (k n : Nat) : (s.pairCnt k n).lc = s.lc := rfl
@[simp] theorem State.pairCnt_tmp (s : State) (k n : Nat) : (s.pairCnt k n).tmp = s.tmp := rfl
@[simp] theorem State.pairCnt_boot (s : State) (k n : Nat) : (s.pairCnt k n).boot = s.boot := rfl
@[simp] theorem State.pairCnt_image (s : State) (k n : Nat) : (s.pairCnt k n).image = s.image := rfl
@[simp] theorem State.pairCnt_recorder (s : State) (k n : Nat) : (s.pairCnt k n).recorder = s.recorder := rfl
@[simp] theorem State.pairCnt_pmc (s : State) (k n : Nat) : (s.pairCnt k n).pmc = s.pmc := rfl
@[simp] theorem State.pairCnt_pwr (s : State) (k n : Nat) : (s.pairCnt k n).pwr = s.pwr := rfl
@[simp] theorem State.pairCnt_faults (s : State) (k n : Nat) : (s.pairCnt k n).faults = s.faults := rfl
@[simp] theorem State.pairCnt_recovery (s : State) (k n : Nat) : (s.pairCnt k n).recovery = s.recovery := rfl
@[simp] theorem State.pairCnt_readBack (s : State) (k n : Nat) : (s.pairCnt k n).readBack = s.readBack := rfl
@[simp] theorem State.pairCnt_pending (s : State) (k n : Nat) : (s.pairCnt k n).pending = s.pending := rfl

/-! `tmpCnt` changes `tmp` alone. -/

@[simp] theorem State.tmpCnt_dev (s : State) (k n : Nat) : (s.tmpCnt k n).dev = s.dev := rfl
@[simp] theorem State.tmpCnt_folio (s : State) (k n : Nat) : (s.tmpCnt k n).folio = s.folio := rfl
@[simp] theorem State.tmpCnt_ports (s : State) (k n : Nat) : (s.tmpCnt k n).ports = s.ports := rfl
@[simp] theorem State.tmpCnt_srp (s : State) (k n : Nat) : (s.tmpCnt k n).srp = s.srp := rfl
@[simp] theorem State.tmpCnt_adm (s : State) (k n : Nat) : (s.tmpCnt k n).adm = s.adm := rfl
@[simp] theorem State.tmpCnt_sq (s : State) (k n : Nat) : (s.tmpCnt k n).sq = s.sq := rfl
@[simp] theorem State.tmpCnt_cores (s : State) (k n : Nat) : (s.tmpCnt k n).cores = s.cores := rfl
@[simp] theorem State.tmpCnt_ks (s : State) (k n : Nat) : (s.tmpCnt k n).ks = s.ks := rfl
@[simp] theorem State.tmpCnt_vault (s : State) (k n : Nat) : (s.tmpCnt k n).vault = s.vault := rfl
@[simp] theorem State.tmpCnt_bn (s : State) (k n : Nat) : (s.tmpCnt k n).bn = s.bn := rfl
@[simp] theorem State.tmpCnt_bulk (s : State) (k n : Nat) : (s.tmpCnt k n).bulk = s.bulk := rfl
@[simp] theorem State.tmpCnt_rng (s : State) (k n : Nat) : (s.tmpCnt k n).rng = s.rng := rfl
@[simp] theorem State.tmpCnt_dual (s : State) (k n : Nat) : (s.tmpCnt k n).dual = s.dual := rfl
@[simp] theorem State.tmpCnt_lc (s : State) (k n : Nat) : (s.tmpCnt k n).lc = s.lc := rfl
@[simp] theorem State.tmpCnt_boot (s : State) (k n : Nat) : (s.tmpCnt k n).boot = s.boot := rfl
@[simp] theorem State.tmpCnt_image (s : State) (k n : Nat) : (s.tmpCnt k n).image = s.image := rfl
@[simp] theorem State.tmpCnt_pair (s : State) (k n : Nat) : (s.tmpCnt k n).pair = s.pair := rfl
@[simp] theorem State.tmpCnt_recorder (s : State) (k n : Nat) : (s.tmpCnt k n).recorder = s.recorder := rfl
@[simp] theorem State.tmpCnt_pmc (s : State) (k n : Nat) : (s.tmpCnt k n).pmc = s.pmc := rfl
@[simp] theorem State.tmpCnt_pwr (s : State) (k n : Nat) : (s.tmpCnt k n).pwr = s.pwr := rfl
@[simp] theorem State.tmpCnt_faults (s : State) (k n : Nat) : (s.tmpCnt k n).faults = s.faults := rfl
@[simp] theorem State.tmpCnt_recovery (s : State) (k n : Nat) : (s.tmpCnt k n).recovery = s.recovery := rfl
@[simp] theorem State.tmpCnt_readBack (s : State) (k n : Nat) : (s.tmpCnt k n).readBack = s.readBack := rfl
@[simp] theorem State.tmpCnt_pending (s : State) (k n : Nat) : (s.tmpCnt k n).pending = s.pending := rfl

/-! `putDistrict` changes `pwr` alone. -/

@[simp] theorem State.putDistrict_dev (s : State) (d : Nat) (x : District) : (s.putDistrict d x).dev = s.dev := rfl
@[simp] theorem State.putDistrict_folio (s : State) (d : Nat) (x : District) : (s.putDistrict d x).folio = s.folio := rfl
@[simp] theorem State.putDistrict_ports (s : State) (d : Nat) (x : District) : (s.putDistrict d x).ports = s.ports := rfl
@[simp] theorem State.putDistrict_srp (s : State) (d : Nat) (x : District) : (s.putDistrict d x).srp = s.srp := rfl
@[simp] theorem State.putDistrict_adm (s : State) (d : Nat) (x : District) : (s.putDistrict d x).adm = s.adm := rfl
@[simp] theorem State.putDistrict_sq (s : State) (d : Nat) (x : District) : (s.putDistrict d x).sq = s.sq := rfl
@[simp] theorem State.putDistrict_cores (s : State) (d : Nat) (x : District) : (s.putDistrict d x).cores = s.cores := rfl
@[simp] theorem State.putDistrict_ks (s : State) (d : Nat) (x : District) : (s.putDistrict d x).ks = s.ks := rfl
@[simp] theorem State.putDistrict_vault (s : State) (d : Nat) (x : District) : (s.putDistrict d x).vault = s.vault := rfl
@[simp] theorem State.putDistrict_bn (s : State) (d : Nat) (x : District) : (s.putDistrict d x).bn = s.bn := rfl
@[simp] theorem State.putDistrict_bulk (s : State) (d : Nat) (x : District) : (s.putDistrict d x).bulk = s.bulk := rfl
@[simp] theorem State.putDistrict_rng (s : State) (d : Nat) (x : District) : (s.putDistrict d x).rng = s.rng := rfl
@[simp] theorem State.putDistrict_dual (s : State) (d : Nat) (x : District) : (s.putDistrict d x).dual = s.dual := rfl
@[simp] theorem State.putDistrict_lc (s : State) (d : Nat) (x : District) : (s.putDistrict d x).lc = s.lc := rfl
@[simp] theorem State.putDistrict_tmp (s : State) (d : Nat) (x : District) : (s.putDistrict d x).tmp = s.tmp := rfl
@[simp] theorem State.putDistrict_boot (s : State) (d : Nat) (x : District) : (s.putDistrict d x).boot = s.boot := rfl
@[simp] theorem State.putDistrict_image (s : State) (d : Nat) (x : District) : (s.putDistrict d x).image = s.image := rfl
@[simp] theorem State.putDistrict_pair (s : State) (d : Nat) (x : District) : (s.putDistrict d x).pair = s.pair := rfl
@[simp] theorem State.putDistrict_recorder (s : State) (d : Nat) (x : District) : (s.putDistrict d x).recorder = s.recorder := rfl
@[simp] theorem State.putDistrict_pmc (s : State) (d : Nat) (x : District) : (s.putDistrict d x).pmc = s.pmc := rfl
@[simp] theorem State.putDistrict_faults (s : State) (d : Nat) (x : District) : (s.putDistrict d x).faults = s.faults := rfl
@[simp] theorem State.putDistrict_recovery (s : State) (d : Nat) (x : District) : (s.putDistrict d x).recovery = s.recovery := rfl
@[simp] theorem State.putDistrict_readBack (s : State) (d : Nat) (x : District) : (s.putDistrict d x).readBack = s.readBack := rfl
@[simp] theorem State.putDistrict_pending (s : State) (d : Nat) (x : District) : (s.putDistrict d x).pending = s.pending := rfl

/-! `putGroup` changes `folio` alone. -/

@[simp] theorem State.putGroup_dev (s : State) (g : Nat) (x : Group) : (s.putGroup g x).dev = s.dev := rfl
@[simp] theorem State.putGroup_ports (s : State) (g : Nat) (x : Group) : (s.putGroup g x).ports = s.ports := rfl
@[simp] theorem State.putGroup_srp (s : State) (g : Nat) (x : Group) : (s.putGroup g x).srp = s.srp := rfl
@[simp] theorem State.putGroup_adm (s : State) (g : Nat) (x : Group) : (s.putGroup g x).adm = s.adm := rfl
@[simp] theorem State.putGroup_sq (s : State) (g : Nat) (x : Group) : (s.putGroup g x).sq = s.sq := rfl
@[simp] theorem State.putGroup_cores (s : State) (g : Nat) (x : Group) : (s.putGroup g x).cores = s.cores := rfl
@[simp] theorem State.putGroup_ks (s : State) (g : Nat) (x : Group) : (s.putGroup g x).ks = s.ks := rfl
@[simp] theorem State.putGroup_vault (s : State) (g : Nat) (x : Group) : (s.putGroup g x).vault = s.vault := rfl
@[simp] theorem State.putGroup_bn (s : State) (g : Nat) (x : Group) : (s.putGroup g x).bn = s.bn := rfl
@[simp] theorem State.putGroup_bulk (s : State) (g : Nat) (x : Group) : (s.putGroup g x).bulk = s.bulk := rfl
@[simp] theorem State.putGroup_rng (s : State) (g : Nat) (x : Group) : (s.putGroup g x).rng = s.rng := rfl
@[simp] theorem State.putGroup_dual (s : State) (g : Nat) (x : Group) : (s.putGroup g x).dual = s.dual := rfl
@[simp] theorem State.putGroup_lc (s : State) (g : Nat) (x : Group) : (s.putGroup g x).lc = s.lc := rfl
@[simp] theorem State.putGroup_tmp (s : State) (g : Nat) (x : Group) : (s.putGroup g x).tmp = s.tmp := rfl
@[simp] theorem State.putGroup_boot (s : State) (g : Nat) (x : Group) : (s.putGroup g x).boot = s.boot := rfl
@[simp] theorem State.putGroup_image (s : State) (g : Nat) (x : Group) : (s.putGroup g x).image = s.image := rfl
@[simp] theorem State.putGroup_pair (s : State) (g : Nat) (x : Group) : (s.putGroup g x).pair = s.pair := rfl
@[simp] theorem State.putGroup_recorder (s : State) (g : Nat) (x : Group) : (s.putGroup g x).recorder = s.recorder := rfl
@[simp] theorem State.putGroup_pmc (s : State) (g : Nat) (x : Group) : (s.putGroup g x).pmc = s.pmc := rfl
@[simp] theorem State.putGroup_pwr (s : State) (g : Nat) (x : Group) : (s.putGroup g x).pwr = s.pwr := rfl
@[simp] theorem State.putGroup_faults (s : State) (g : Nat) (x : Group) : (s.putGroup g x).faults = s.faults := rfl
@[simp] theorem State.putGroup_recovery (s : State) (g : Nat) (x : Group) : (s.putGroup g x).recovery = s.recovery := rfl
@[simp] theorem State.putGroup_readBack (s : State) (g : Nat) (x : Group) : (s.putGroup g x).readBack = s.readBack := rfl
@[simp] theorem State.putGroup_pending (s : State) (g : Nat) (x : Group) : (s.putGroup g x).pending = s.pending := rfl

/-! `random` takes draws of the generator alone. -/

@[simp] theorem State.random_dev (s : State) (n : Nat) : (s.random n).2.dev = s.dev := rfl
@[simp] theorem State.random_folio (s : State) (n : Nat) : (s.random n).2.folio = s.folio := rfl
@[simp] theorem State.random_ports (s : State) (n : Nat) : (s.random n).2.ports = s.ports := rfl
@[simp] theorem State.random_srp (s : State) (n : Nat) : (s.random n).2.srp = s.srp := rfl
@[simp] theorem State.random_adm (s : State) (n : Nat) : (s.random n).2.adm = s.adm := rfl
@[simp] theorem State.random_sq (s : State) (n : Nat) : (s.random n).2.sq = s.sq := rfl
@[simp] theorem State.random_cores (s : State) (n : Nat) : (s.random n).2.cores = s.cores := rfl
@[simp] theorem State.random_ks (s : State) (n : Nat) : (s.random n).2.ks = s.ks := rfl
@[simp] theorem State.random_vault (s : State) (n : Nat) : (s.random n).2.vault = s.vault := rfl
@[simp] theorem State.random_bn (s : State) (n : Nat) : (s.random n).2.bn = s.bn := rfl
@[simp] theorem State.random_bulk (s : State) (n : Nat) : (s.random n).2.bulk = s.bulk := rfl
@[simp] theorem State.random_dual (s : State) (n : Nat) : (s.random n).2.dual = s.dual := rfl
@[simp] theorem State.random_lc (s : State) (n : Nat) : (s.random n).2.lc = s.lc := rfl
@[simp] theorem State.random_tmp (s : State) (n : Nat) : (s.random n).2.tmp = s.tmp := rfl
@[simp] theorem State.random_boot (s : State) (n : Nat) : (s.random n).2.boot = s.boot := rfl
@[simp] theorem State.random_image (s : State) (n : Nat) : (s.random n).2.image = s.image := rfl
@[simp] theorem State.random_pair (s : State) (n : Nat) : (s.random n).2.pair = s.pair := rfl
@[simp] theorem State.random_recorder (s : State) (n : Nat) : (s.random n).2.recorder = s.recorder := rfl
@[simp] theorem State.random_pmc (s : State) (n : Nat) : (s.random n).2.pmc = s.pmc := rfl
@[simp] theorem State.random_pwr (s : State) (n : Nat) : (s.random n).2.pwr = s.pwr := rfl
@[simp] theorem State.random_faults (s : State) (n : Nat) : (s.random n).2.faults = s.faults := rfl
@[simp] theorem State.random_recovery (s : State) (n : Nat) : (s.random n).2.recovery = s.recovery := rfl
@[simp] theorem State.random_readBack (s : State) (n : Nat) : (s.random n).2.readBack = s.readBack := rfl
@[simp] theorem State.random_pending (s : State) (n : Nat) : (s.random n).2.pending = s.pending := rfl

theorem State.random_length (s : State) (n : Nat) : (s.random n).1.length = n := by
  have h : ∀ k, (randomFrom k n).length = n := by
    induction n with
    | zero => intro k; rfl
    | succ n ih => intro k; simp [randomFrom, ih]
  exact h _

/-! Raising an event changes the recorder alone. -/

theorem State.raise_cases (s : State) (code source tenant : Nat) (data : Bytes) :
    ∃ r, s.raise code source tenant data = { s with recorder := r } := by
  unfold State.raise
  split_ifs
  · exact ⟨_, rfl⟩
  · exact ⟨_, rfl⟩
  · exact ⟨s.recorder, rfl⟩

@[simp] theorem State.raise_dev (s : State) (code source tenant : Nat) (data : Bytes) :
    (s.raise code source tenant data).dev = s.dev := by
  obtain ⟨r, h⟩ := s.raise_cases code source tenant data
  rw [h]
@[simp] theorem State.raise_folio (s : State) (code source tenant : Nat) (data : Bytes) :
    (s.raise code source tenant data).folio = s.folio := by
  obtain ⟨r, h⟩ := s.raise_cases code source tenant data
  rw [h]
@[simp] theorem State.raise_ports (s : State) (code source tenant : Nat) (data : Bytes) :
    (s.raise code source tenant data).ports = s.ports := by
  obtain ⟨r, h⟩ := s.raise_cases code source tenant data
  rw [h]
@[simp] theorem State.raise_srp (s : State) (code source tenant : Nat) (data : Bytes) :
    (s.raise code source tenant data).srp = s.srp := by
  obtain ⟨r, h⟩ := s.raise_cases code source tenant data
  rw [h]
@[simp] theorem State.raise_adm (s : State) (code source tenant : Nat) (data : Bytes) :
    (s.raise code source tenant data).adm = s.adm := by
  obtain ⟨r, h⟩ := s.raise_cases code source tenant data
  rw [h]
@[simp] theorem State.raise_sq (s : State) (code source tenant : Nat) (data : Bytes) :
    (s.raise code source tenant data).sq = s.sq := by
  obtain ⟨r, h⟩ := s.raise_cases code source tenant data
  rw [h]
@[simp] theorem State.raise_cores (s : State) (code source tenant : Nat) (data : Bytes) :
    (s.raise code source tenant data).cores = s.cores := by
  obtain ⟨r, h⟩ := s.raise_cases code source tenant data
  rw [h]
@[simp] theorem State.raise_ks (s : State) (code source tenant : Nat) (data : Bytes) :
    (s.raise code source tenant data).ks = s.ks := by
  obtain ⟨r, h⟩ := s.raise_cases code source tenant data
  rw [h]
@[simp] theorem State.raise_vault (s : State) (code source tenant : Nat) (data : Bytes) :
    (s.raise code source tenant data).vault = s.vault := by
  obtain ⟨r, h⟩ := s.raise_cases code source tenant data
  rw [h]
@[simp] theorem State.raise_bn (s : State) (code source tenant : Nat) (data : Bytes) :
    (s.raise code source tenant data).bn = s.bn := by
  obtain ⟨r, h⟩ := s.raise_cases code source tenant data
  rw [h]
@[simp] theorem State.raise_bulk (s : State) (code source tenant : Nat) (data : Bytes) :
    (s.raise code source tenant data).bulk = s.bulk := by
  obtain ⟨r, h⟩ := s.raise_cases code source tenant data
  rw [h]
@[simp] theorem State.raise_rng (s : State) (code source tenant : Nat) (data : Bytes) :
    (s.raise code source tenant data).rng = s.rng := by
  obtain ⟨r, h⟩ := s.raise_cases code source tenant data
  rw [h]
@[simp] theorem State.raise_dual (s : State) (code source tenant : Nat) (data : Bytes) :
    (s.raise code source tenant data).dual = s.dual := by
  obtain ⟨r, h⟩ := s.raise_cases code source tenant data
  rw [h]
@[simp] theorem State.raise_lc (s : State) (code source tenant : Nat) (data : Bytes) :
    (s.raise code source tenant data).lc = s.lc := by
  obtain ⟨r, h⟩ := s.raise_cases code source tenant data
  rw [h]
@[simp] theorem State.raise_tmp (s : State) (code source tenant : Nat) (data : Bytes) :
    (s.raise code source tenant data).tmp = s.tmp := by
  obtain ⟨r, h⟩ := s.raise_cases code source tenant data
  rw [h]
@[simp] theorem State.raise_boot (s : State) (code source tenant : Nat) (data : Bytes) :
    (s.raise code source tenant data).boot = s.boot := by
  obtain ⟨r, h⟩ := s.raise_cases code source tenant data
  rw [h]
@[simp] theorem State.raise_image (s : State) (code source tenant : Nat) (data : Bytes) :
    (s.raise code source tenant data).image = s.image := by
  obtain ⟨r, h⟩ := s.raise_cases code source tenant data
  rw [h]
@[simp] theorem State.raise_pair (s : State) (code source tenant : Nat) (data : Bytes) :
    (s.raise code source tenant data).pair = s.pair := by
  obtain ⟨r, h⟩ := s.raise_cases code source tenant data
  rw [h]
@[simp] theorem State.raise_pmc (s : State) (code source tenant : Nat) (data : Bytes) :
    (s.raise code source tenant data).pmc = s.pmc := by
  obtain ⟨r, h⟩ := s.raise_cases code source tenant data
  rw [h]
@[simp] theorem State.raise_pwr (s : State) (code source tenant : Nat) (data : Bytes) :
    (s.raise code source tenant data).pwr = s.pwr := by
  obtain ⟨r, h⟩ := s.raise_cases code source tenant data
  rw [h]
@[simp] theorem State.raise_faults (s : State) (code source tenant : Nat) (data : Bytes) :
    (s.raise code source tenant data).faults = s.faults := by
  obtain ⟨r, h⟩ := s.raise_cases code source tenant data
  rw [h]
@[simp] theorem State.raise_recovery (s : State) (code source tenant : Nat) (data : Bytes) :
    (s.raise code source tenant data).recovery = s.recovery := by
  obtain ⟨r, h⟩ := s.raise_cases code source tenant data
  rw [h]
@[simp] theorem State.raise_readBack (s : State) (code source tenant : Nat) (data : Bytes) :
    (s.raise code source tenant data).readBack = s.readBack := by
  obtain ⟨r, h⟩ := s.raise_cases code source tenant data
  rw [h]
@[simp] theorem State.raise_pending (s : State) (code source tenant : Nat) (data : Bytes) :
    (s.raise code source tenant data).pending = s.pending := by
  obtain ⟨r, h⟩ := s.raise_cases code source tenant data
  rw [h]

/-! Counting a performance event changes the performance counters and the recorder alone. -/

theorem State.counterWrap_cases (n c : Nat) (s : State) : ∃ p r, State.counterWrap n c s = { s with pmc := p, recorder := r } := by
  induction n generalizing c s with
  | zero => exact ⟨s.pmc, s.recorder, rfl⟩
  | succ n ih =>
    unfold State.counterWrap
    simp only
    split_ifs
    · obtain ⟨p, r, h⟩ := ih (c + 1) { s with pmc := { s.pmc with live := tabPut 0 s.pmc.live (c + 1) ((tabGet 0 s.pmc.live (c + 1) + 1) % 2 ^ 32) } }
      exact ⟨p, r, h⟩
    · exact ⟨_, _, rfl⟩
    · exact ⟨_, _, rfl⟩
    · obtain ⟨r, h⟩ := State.raise_cases
        { s with pmc := { s.pmc with ovf := tabPut false s.pmc.ovf c true, wrapSecond := some s.second } } evCounterWrapped srcNone 0
        (items [(2, ((tabPut false s.pmc.ovf c true).filter (·.2)).length)])
      exact ⟨_, r, h⟩

theorem State.pmcAddTo_cases (s : State) (c n : Nat) : ∃ p r, s.pmcAddTo c n = { s with pmc := p, recorder := r } := by
  unfold State.pmcAddTo
  simp only
  split_ifs
  · obtain ⟨p, r, h⟩ := State.counterWrap_cases 16 c
      { s with pmc := { s.pmc with live := tabPut 0 s.pmc.live c ((tabGet 0 s.pmc.live c + n) % 2 ^ 32) } }
    exact ⟨p, r, h⟩
  · exact ⟨_, _, rfl⟩

theorem State.pmcEvent_cases (s : State) (first count ev n : Nat) :
    ∃ p r, s.pmcEvent first count ev n = { s with pmc := p, recorder := r } := by
  unfold State.pmcEvent
  generalize List.range count = l
  induction l generalizing s with
  | nil => exact ⟨s.pmc, s.recorder, rfl⟩
  | cons i l ih =>
    rw [List.foldl_cons]
    split_ifs
    · obtain ⟨p, r, h⟩ := s.pmcAddTo_cases (first + i) n
      obtain ⟨p2, r2, h2⟩ := ih (s.pmcAddTo (first + i) n)
      exact ⟨p2, r2, by rw [h2, h]⟩
    · exact ih s

@[simp] theorem State.pmcEvent_dev (s : State) (first count ev n : Nat) : (s.pmcEvent first count ev n).dev = s.dev := by
  obtain ⟨p, r, h⟩ := s.pmcEvent_cases first count ev n
  rw [h]
@[simp] theorem State.pmcEvent_folio (s : State) (first count ev n : Nat) : (s.pmcEvent first count ev n).folio = s.folio := by
  obtain ⟨p, r, h⟩ := s.pmcEvent_cases first count ev n
  rw [h]
@[simp] theorem State.pmcEvent_ports (s : State) (first count ev n : Nat) : (s.pmcEvent first count ev n).ports = s.ports := by
  obtain ⟨p, r, h⟩ := s.pmcEvent_cases first count ev n
  rw [h]
@[simp] theorem State.pmcEvent_srp (s : State) (first count ev n : Nat) : (s.pmcEvent first count ev n).srp = s.srp := by
  obtain ⟨p, r, h⟩ := s.pmcEvent_cases first count ev n
  rw [h]
@[simp] theorem State.pmcEvent_adm (s : State) (first count ev n : Nat) : (s.pmcEvent first count ev n).adm = s.adm := by
  obtain ⟨p, r, h⟩ := s.pmcEvent_cases first count ev n
  rw [h]
@[simp] theorem State.pmcEvent_sq (s : State) (first count ev n : Nat) : (s.pmcEvent first count ev n).sq = s.sq := by
  obtain ⟨p, r, h⟩ := s.pmcEvent_cases first count ev n
  rw [h]
@[simp] theorem State.pmcEvent_cores (s : State) (first count ev n : Nat) : (s.pmcEvent first count ev n).cores = s.cores := by
  obtain ⟨p, r, h⟩ := s.pmcEvent_cases first count ev n
  rw [h]
@[simp] theorem State.pmcEvent_ks (s : State) (first count ev n : Nat) : (s.pmcEvent first count ev n).ks = s.ks := by
  obtain ⟨p, r, h⟩ := s.pmcEvent_cases first count ev n
  rw [h]
@[simp] theorem State.pmcEvent_vault (s : State) (first count ev n : Nat) : (s.pmcEvent first count ev n).vault = s.vault := by
  obtain ⟨p, r, h⟩ := s.pmcEvent_cases first count ev n
  rw [h]
@[simp] theorem State.pmcEvent_bn (s : State) (first count ev n : Nat) : (s.pmcEvent first count ev n).bn = s.bn := by
  obtain ⟨p, r, h⟩ := s.pmcEvent_cases first count ev n
  rw [h]
@[simp] theorem State.pmcEvent_bulk (s : State) (first count ev n : Nat) : (s.pmcEvent first count ev n).bulk = s.bulk := by
  obtain ⟨p, r, h⟩ := s.pmcEvent_cases first count ev n
  rw [h]
@[simp] theorem State.pmcEvent_rng (s : State) (first count ev n : Nat) : (s.pmcEvent first count ev n).rng = s.rng := by
  obtain ⟨p, r, h⟩ := s.pmcEvent_cases first count ev n
  rw [h]
@[simp] theorem State.pmcEvent_dual (s : State) (first count ev n : Nat) : (s.pmcEvent first count ev n).dual = s.dual := by
  obtain ⟨p, r, h⟩ := s.pmcEvent_cases first count ev n
  rw [h]
@[simp] theorem State.pmcEvent_lc (s : State) (first count ev n : Nat) : (s.pmcEvent first count ev n).lc = s.lc := by
  obtain ⟨p, r, h⟩ := s.pmcEvent_cases first count ev n
  rw [h]
@[simp] theorem State.pmcEvent_tmp (s : State) (first count ev n : Nat) : (s.pmcEvent first count ev n).tmp = s.tmp := by
  obtain ⟨p, r, h⟩ := s.pmcEvent_cases first count ev n
  rw [h]
@[simp] theorem State.pmcEvent_boot (s : State) (first count ev n : Nat) : (s.pmcEvent first count ev n).boot = s.boot := by
  obtain ⟨p, r, h⟩ := s.pmcEvent_cases first count ev n
  rw [h]
@[simp] theorem State.pmcEvent_image (s : State) (first count ev n : Nat) : (s.pmcEvent first count ev n).image = s.image := by
  obtain ⟨p, r, h⟩ := s.pmcEvent_cases first count ev n
  rw [h]
@[simp] theorem State.pmcEvent_pair (s : State) (first count ev n : Nat) : (s.pmcEvent first count ev n).pair = s.pair := by
  obtain ⟨p, r, h⟩ := s.pmcEvent_cases first count ev n
  rw [h]
@[simp] theorem State.pmcEvent_pwr (s : State) (first count ev n : Nat) : (s.pmcEvent first count ev n).pwr = s.pwr := by
  obtain ⟨p, r, h⟩ := s.pmcEvent_cases first count ev n
  rw [h]
@[simp] theorem State.pmcEvent_faults (s : State) (first count ev n : Nat) : (s.pmcEvent first count ev n).faults = s.faults := by
  obtain ⟨p, r, h⟩ := s.pmcEvent_cases first count ev n
  rw [h]
@[simp] theorem State.pmcEvent_recovery (s : State) (first count ev n : Nat) : (s.pmcEvent first count ev n).recovery = s.recovery := by
  obtain ⟨p, r, h⟩ := s.pmcEvent_cases first count ev n
  rw [h]
@[simp] theorem State.pmcEvent_readBack (s : State) (first count ev n : Nat) : (s.pmcEvent first count ev n).readBack = s.readBack := by
  obtain ⟨p, r, h⟩ := s.pmcEvent_cases first count ev n
  rw [h]
@[simp] theorem State.pmcEvent_pending (s : State) (first count ev n : Nat) : (s.pmcEvent first count ev n).pending = s.pending := by
  obtain ⟨p, r, h⟩ := s.pmcEvent_cases first count ev n
  rw [h]
@[simp] theorem State.pmcTc_dev (s : State) (i ev n : Nat) : (s.pmcTc i ev n).dev = s.dev := State.pmcEvent_dev ..
@[simp] theorem State.pmcTc_folio (s : State) (i ev n : Nat) : (s.pmcTc i ev n).folio = s.folio := State.pmcEvent_folio ..
@[simp] theorem State.pmcTc_ports (s : State) (i ev n : Nat) : (s.pmcTc i ev n).ports = s.ports := State.pmcEvent_ports ..
@[simp] theorem State.pmcTc_srp (s : State) (i ev n : Nat) : (s.pmcTc i ev n).srp = s.srp := State.pmcEvent_srp ..
@[simp] theorem State.pmcTc_adm (s : State) (i ev n : Nat) : (s.pmcTc i ev n).adm = s.adm := State.pmcEvent_adm ..
@[simp] theorem State.pmcTc_sq (s : State) (i ev n : Nat) : (s.pmcTc i ev n).sq = s.sq := State.pmcEvent_sq ..
@[simp] theorem State.pmcTc_cores (s : State) (i ev n : Nat) : (s.pmcTc i ev n).cores = s.cores := State.pmcEvent_cores ..
@[simp] theorem State.pmcTc_ks (s : State) (i ev n : Nat) : (s.pmcTc i ev n).ks = s.ks := State.pmcEvent_ks ..
@[simp] theorem State.pmcTc_vault (s : State) (i ev n : Nat) : (s.pmcTc i ev n).vault = s.vault := State.pmcEvent_vault ..
@[simp] theorem State.pmcTc_bn (s : State) (i ev n : Nat) : (s.pmcTc i ev n).bn = s.bn := State.pmcEvent_bn ..
@[simp] theorem State.pmcTc_bulk (s : State) (i ev n : Nat) : (s.pmcTc i ev n).bulk = s.bulk := State.pmcEvent_bulk ..
@[simp] theorem State.pmcTc_rng (s : State) (i ev n : Nat) : (s.pmcTc i ev n).rng = s.rng := State.pmcEvent_rng ..
@[simp] theorem State.pmcTc_dual (s : State) (i ev n : Nat) : (s.pmcTc i ev n).dual = s.dual := State.pmcEvent_dual ..
@[simp] theorem State.pmcTc_lc (s : State) (i ev n : Nat) : (s.pmcTc i ev n).lc = s.lc := State.pmcEvent_lc ..
@[simp] theorem State.pmcTc_tmp (s : State) (i ev n : Nat) : (s.pmcTc i ev n).tmp = s.tmp := State.pmcEvent_tmp ..
@[simp] theorem State.pmcTc_boot (s : State) (i ev n : Nat) : (s.pmcTc i ev n).boot = s.boot := State.pmcEvent_boot ..
@[simp] theorem State.pmcTc_image (s : State) (i ev n : Nat) : (s.pmcTc i ev n).image = s.image := State.pmcEvent_image ..
@[simp] theorem State.pmcTc_pair (s : State) (i ev n : Nat) : (s.pmcTc i ev n).pair = s.pair := State.pmcEvent_pair ..
@[simp] theorem State.pmcTc_pwr (s : State) (i ev n : Nat) : (s.pmcTc i ev n).pwr = s.pwr := State.pmcEvent_pwr ..
@[simp] theorem State.pmcTc_faults (s : State) (i ev n : Nat) : (s.pmcTc i ev n).faults = s.faults := State.pmcEvent_faults ..
@[simp] theorem State.pmcTc_recovery (s : State) (i ev n : Nat) : (s.pmcTc i ev n).recovery = s.recovery := State.pmcEvent_recovery ..
@[simp] theorem State.pmcTc_readBack (s : State) (i ev n : Nat) : (s.pmcTc i ev n).readBack = s.readBack := State.pmcEvent_readBack ..
@[simp] theorem State.pmcTc_pending (s : State) (i ev n : Nat) : (s.pmcTc i ev n).pending = s.pending := State.pmcEvent_pending ..
@[simp] theorem State.pmcPort_dev (s : State) (i ev n : Nat) : (s.pmcPort i ev n).dev = s.dev := State.pmcEvent_dev ..
@[simp] theorem State.pmcPort_folio (s : State) (i ev n : Nat) : (s.pmcPort i ev n).folio = s.folio := State.pmcEvent_folio ..
@[simp] theorem State.pmcPort_ports (s : State) (i ev n : Nat) : (s.pmcPort i ev n).ports = s.ports := State.pmcEvent_ports ..
@[simp] theorem State.pmcPort_srp (s : State) (i ev n : Nat) : (s.pmcPort i ev n).srp = s.srp := State.pmcEvent_srp ..
@[simp] theorem State.pmcPort_adm (s : State) (i ev n : Nat) : (s.pmcPort i ev n).adm = s.adm := State.pmcEvent_adm ..
@[simp] theorem State.pmcPort_sq (s : State) (i ev n : Nat) : (s.pmcPort i ev n).sq = s.sq := State.pmcEvent_sq ..
@[simp] theorem State.pmcPort_cores (s : State) (i ev n : Nat) : (s.pmcPort i ev n).cores = s.cores := State.pmcEvent_cores ..
@[simp] theorem State.pmcPort_ks (s : State) (i ev n : Nat) : (s.pmcPort i ev n).ks = s.ks := State.pmcEvent_ks ..
@[simp] theorem State.pmcPort_vault (s : State) (i ev n : Nat) : (s.pmcPort i ev n).vault = s.vault := State.pmcEvent_vault ..
@[simp] theorem State.pmcPort_bn (s : State) (i ev n : Nat) : (s.pmcPort i ev n).bn = s.bn := State.pmcEvent_bn ..
@[simp] theorem State.pmcPort_bulk (s : State) (i ev n : Nat) : (s.pmcPort i ev n).bulk = s.bulk := State.pmcEvent_bulk ..
@[simp] theorem State.pmcPort_rng (s : State) (i ev n : Nat) : (s.pmcPort i ev n).rng = s.rng := State.pmcEvent_rng ..
@[simp] theorem State.pmcPort_dual (s : State) (i ev n : Nat) : (s.pmcPort i ev n).dual = s.dual := State.pmcEvent_dual ..
@[simp] theorem State.pmcPort_lc (s : State) (i ev n : Nat) : (s.pmcPort i ev n).lc = s.lc := State.pmcEvent_lc ..
@[simp] theorem State.pmcPort_tmp (s : State) (i ev n : Nat) : (s.pmcPort i ev n).tmp = s.tmp := State.pmcEvent_tmp ..
@[simp] theorem State.pmcPort_boot (s : State) (i ev n : Nat) : (s.pmcPort i ev n).boot = s.boot := State.pmcEvent_boot ..
@[simp] theorem State.pmcPort_image (s : State) (i ev n : Nat) : (s.pmcPort i ev n).image = s.image := State.pmcEvent_image ..
@[simp] theorem State.pmcPort_pair (s : State) (i ev n : Nat) : (s.pmcPort i ev n).pair = s.pair := State.pmcEvent_pair ..
@[simp] theorem State.pmcPort_pwr (s : State) (i ev n : Nat) : (s.pmcPort i ev n).pwr = s.pwr := State.pmcEvent_pwr ..
@[simp] theorem State.pmcPort_faults (s : State) (i ev n : Nat) : (s.pmcPort i ev n).faults = s.faults := State.pmcEvent_faults ..
@[simp] theorem State.pmcPort_recovery (s : State) (i ev n : Nat) : (s.pmcPort i ev n).recovery = s.recovery := State.pmcEvent_recovery ..
@[simp] theorem State.pmcPort_readBack (s : State) (i ev n : Nat) : (s.pmcPort i ev n).readBack = s.readBack := State.pmcEvent_readBack ..
@[simp] theorem State.pmcPort_pending (s : State) (i ev n : Nat) : (s.pmcPort i ev n).pending = s.pending := State.pmcEvent_pending ..
@[simp] theorem State.pmcSrp_dev (s : State) (k ev n : Nat) : (s.pmcSrp k ev n).dev = s.dev := State.pmcEvent_dev ..
@[simp] theorem State.pmcSrp_folio (s : State) (k ev n : Nat) : (s.pmcSrp k ev n).folio = s.folio := State.pmcEvent_folio ..
@[simp] theorem State.pmcSrp_ports (s : State) (k ev n : Nat) : (s.pmcSrp k ev n).ports = s.ports := State.pmcEvent_ports ..
@[simp] theorem State.pmcSrp_srp (s : State) (k ev n : Nat) : (s.pmcSrp k ev n).srp = s.srp := State.pmcEvent_srp ..
@[simp] theorem State.pmcSrp_adm (s : State) (k ev n : Nat) : (s.pmcSrp k ev n).adm = s.adm := State.pmcEvent_adm ..
@[simp] theorem State.pmcSrp_sq (s : State) (k ev n : Nat) : (s.pmcSrp k ev n).sq = s.sq := State.pmcEvent_sq ..
@[simp] theorem State.pmcSrp_cores (s : State) (k ev n : Nat) : (s.pmcSrp k ev n).cores = s.cores := State.pmcEvent_cores ..
@[simp] theorem State.pmcSrp_ks (s : State) (k ev n : Nat) : (s.pmcSrp k ev n).ks = s.ks := State.pmcEvent_ks ..
@[simp] theorem State.pmcSrp_vault (s : State) (k ev n : Nat) : (s.pmcSrp k ev n).vault = s.vault := State.pmcEvent_vault ..
@[simp] theorem State.pmcSrp_bn (s : State) (k ev n : Nat) : (s.pmcSrp k ev n).bn = s.bn := State.pmcEvent_bn ..
@[simp] theorem State.pmcSrp_bulk (s : State) (k ev n : Nat) : (s.pmcSrp k ev n).bulk = s.bulk := State.pmcEvent_bulk ..
@[simp] theorem State.pmcSrp_rng (s : State) (k ev n : Nat) : (s.pmcSrp k ev n).rng = s.rng := State.pmcEvent_rng ..
@[simp] theorem State.pmcSrp_dual (s : State) (k ev n : Nat) : (s.pmcSrp k ev n).dual = s.dual := State.pmcEvent_dual ..
@[simp] theorem State.pmcSrp_lc (s : State) (k ev n : Nat) : (s.pmcSrp k ev n).lc = s.lc := State.pmcEvent_lc ..
@[simp] theorem State.pmcSrp_tmp (s : State) (k ev n : Nat) : (s.pmcSrp k ev n).tmp = s.tmp := State.pmcEvent_tmp ..
@[simp] theorem State.pmcSrp_boot (s : State) (k ev n : Nat) : (s.pmcSrp k ev n).boot = s.boot := State.pmcEvent_boot ..
@[simp] theorem State.pmcSrp_image (s : State) (k ev n : Nat) : (s.pmcSrp k ev n).image = s.image := State.pmcEvent_image ..
@[simp] theorem State.pmcSrp_pair (s : State) (k ev n : Nat) : (s.pmcSrp k ev n).pair = s.pair := State.pmcEvent_pair ..
@[simp] theorem State.pmcSrp_pwr (s : State) (k ev n : Nat) : (s.pmcSrp k ev n).pwr = s.pwr := State.pmcEvent_pwr ..
@[simp] theorem State.pmcSrp_faults (s : State) (k ev n : Nat) : (s.pmcSrp k ev n).faults = s.faults := State.pmcEvent_faults ..
@[simp] theorem State.pmcSrp_recovery (s : State) (k ev n : Nat) : (s.pmcSrp k ev n).recovery = s.recovery := State.pmcEvent_recovery ..
@[simp] theorem State.pmcSrp_readBack (s : State) (k ev n : Nat) : (s.pmcSrp k ev n).readBack = s.readBack := State.pmcEvent_readBack ..
@[simp] theorem State.pmcSrp_pending (s : State) (k ev n : Nat) : (s.pmcSrp k ev n).pending = s.pending := State.pmcEvent_pending ..
@[simp] theorem State.pmcSquare_dev (s : State) (ev n : Nat) : (s.pmcSquare ev n).dev = s.dev := State.pmcEvent_dev ..
@[simp] theorem State.pmcSquare_folio (s : State) (ev n : Nat) : (s.pmcSquare ev n).folio = s.folio := State.pmcEvent_folio ..
@[simp] theorem State.pmcSquare_ports (s : State) (ev n : Nat) : (s.pmcSquare ev n).ports = s.ports := State.pmcEvent_ports ..
@[simp] theorem State.pmcSquare_srp (s : State) (ev n : Nat) : (s.pmcSquare ev n).srp = s.srp := State.pmcEvent_srp ..
@[simp] theorem State.pmcSquare_adm (s : State) (ev n : Nat) : (s.pmcSquare ev n).adm = s.adm := State.pmcEvent_adm ..
@[simp] theorem State.pmcSquare_sq (s : State) (ev n : Nat) : (s.pmcSquare ev n).sq = s.sq := State.pmcEvent_sq ..
@[simp] theorem State.pmcSquare_cores (s : State) (ev n : Nat) : (s.pmcSquare ev n).cores = s.cores := State.pmcEvent_cores ..
@[simp] theorem State.pmcSquare_ks (s : State) (ev n : Nat) : (s.pmcSquare ev n).ks = s.ks := State.pmcEvent_ks ..
@[simp] theorem State.pmcSquare_vault (s : State) (ev n : Nat) : (s.pmcSquare ev n).vault = s.vault := State.pmcEvent_vault ..
@[simp] theorem State.pmcSquare_bn (s : State) (ev n : Nat) : (s.pmcSquare ev n).bn = s.bn := State.pmcEvent_bn ..
@[simp] theorem State.pmcSquare_bulk (s : State) (ev n : Nat) : (s.pmcSquare ev n).bulk = s.bulk := State.pmcEvent_bulk ..
@[simp] theorem State.pmcSquare_rng (s : State) (ev n : Nat) : (s.pmcSquare ev n).rng = s.rng := State.pmcEvent_rng ..
@[simp] theorem State.pmcSquare_dual (s : State) (ev n : Nat) : (s.pmcSquare ev n).dual = s.dual := State.pmcEvent_dual ..
@[simp] theorem State.pmcSquare_lc (s : State) (ev n : Nat) : (s.pmcSquare ev n).lc = s.lc := State.pmcEvent_lc ..
@[simp] theorem State.pmcSquare_tmp (s : State) (ev n : Nat) : (s.pmcSquare ev n).tmp = s.tmp := State.pmcEvent_tmp ..
@[simp] theorem State.pmcSquare_boot (s : State) (ev n : Nat) : (s.pmcSquare ev n).boot = s.boot := State.pmcEvent_boot ..
@[simp] theorem State.pmcSquare_image (s : State) (ev n : Nat) : (s.pmcSquare ev n).image = s.image := State.pmcEvent_image ..
@[simp] theorem State.pmcSquare_pair (s : State) (ev n : Nat) : (s.pmcSquare ev n).pair = s.pair := State.pmcEvent_pair ..
@[simp] theorem State.pmcSquare_pwr (s : State) (ev n : Nat) : (s.pmcSquare ev n).pwr = s.pwr := State.pmcEvent_pwr ..
@[simp] theorem State.pmcSquare_faults (s : State) (ev n : Nat) : (s.pmcSquare ev n).faults = s.faults := State.pmcEvent_faults ..
@[simp] theorem State.pmcSquare_recovery (s : State) (ev n : Nat) : (s.pmcSquare ev n).recovery = s.recovery := State.pmcEvent_recovery ..
@[simp] theorem State.pmcSquare_readBack (s : State) (ev n : Nat) : (s.pmcSquare ev n).readBack = s.readBack := State.pmcEvent_readBack ..
@[simp] theorem State.pmcSquare_pending (s : State) (ev n : Nat) : (s.pmcSquare ev n).pending = s.pending := State.pmcEvent_pending ..
@[simp] theorem State.pmcAdm_dev (s : State) (ev n : Nat) : (s.pmcAdm ev n).dev = s.dev := State.pmcEvent_dev ..
@[simp] theorem State.pmcAdm_folio (s : State) (ev n : Nat) : (s.pmcAdm ev n).folio = s.folio := State.pmcEvent_folio ..
@[simp] theorem State.pmcAdm_ports (s : State) (ev n : Nat) : (s.pmcAdm ev n).ports = s.ports := State.pmcEvent_ports ..
@[simp] theorem State.pmcAdm_srp (s : State) (ev n : Nat) : (s.pmcAdm ev n).srp = s.srp := State.pmcEvent_srp ..
@[simp] theorem State.pmcAdm_adm (s : State) (ev n : Nat) : (s.pmcAdm ev n).adm = s.adm := State.pmcEvent_adm ..
@[simp] theorem State.pmcAdm_sq (s : State) (ev n : Nat) : (s.pmcAdm ev n).sq = s.sq := State.pmcEvent_sq ..
@[simp] theorem State.pmcAdm_cores (s : State) (ev n : Nat) : (s.pmcAdm ev n).cores = s.cores := State.pmcEvent_cores ..
@[simp] theorem State.pmcAdm_ks (s : State) (ev n : Nat) : (s.pmcAdm ev n).ks = s.ks := State.pmcEvent_ks ..
@[simp] theorem State.pmcAdm_vault (s : State) (ev n : Nat) : (s.pmcAdm ev n).vault = s.vault := State.pmcEvent_vault ..
@[simp] theorem State.pmcAdm_bn (s : State) (ev n : Nat) : (s.pmcAdm ev n).bn = s.bn := State.pmcEvent_bn ..
@[simp] theorem State.pmcAdm_bulk (s : State) (ev n : Nat) : (s.pmcAdm ev n).bulk = s.bulk := State.pmcEvent_bulk ..
@[simp] theorem State.pmcAdm_rng (s : State) (ev n : Nat) : (s.pmcAdm ev n).rng = s.rng := State.pmcEvent_rng ..
@[simp] theorem State.pmcAdm_dual (s : State) (ev n : Nat) : (s.pmcAdm ev n).dual = s.dual := State.pmcEvent_dual ..
@[simp] theorem State.pmcAdm_lc (s : State) (ev n : Nat) : (s.pmcAdm ev n).lc = s.lc := State.pmcEvent_lc ..
@[simp] theorem State.pmcAdm_tmp (s : State) (ev n : Nat) : (s.pmcAdm ev n).tmp = s.tmp := State.pmcEvent_tmp ..
@[simp] theorem State.pmcAdm_boot (s : State) (ev n : Nat) : (s.pmcAdm ev n).boot = s.boot := State.pmcEvent_boot ..
@[simp] theorem State.pmcAdm_image (s : State) (ev n : Nat) : (s.pmcAdm ev n).image = s.image := State.pmcEvent_image ..
@[simp] theorem State.pmcAdm_pair (s : State) (ev n : Nat) : (s.pmcAdm ev n).pair = s.pair := State.pmcEvent_pair ..
@[simp] theorem State.pmcAdm_pwr (s : State) (ev n : Nat) : (s.pmcAdm ev n).pwr = s.pwr := State.pmcEvent_pwr ..
@[simp] theorem State.pmcAdm_faults (s : State) (ev n : Nat) : (s.pmcAdm ev n).faults = s.faults := State.pmcEvent_faults ..
@[simp] theorem State.pmcAdm_recovery (s : State) (ev n : Nat) : (s.pmcAdm ev n).recovery = s.recovery := State.pmcEvent_recovery ..
@[simp] theorem State.pmcAdm_readBack (s : State) (ev n : Nat) : (s.pmcAdm ev n).readBack = s.readBack := State.pmcEvent_readBack ..
@[simp] theorem State.pmcAdm_pending (s : State) (ev n : Nat) : (s.pmcAdm ev n).pending = s.pending := State.pmcEvent_pending ..
@[simp] theorem State.pmcKs_dev (s : State) (ev n : Nat) : (s.pmcKs ev n).dev = s.dev := State.pmcEvent_dev ..
@[simp] theorem State.pmcKs_folio (s : State) (ev n : Nat) : (s.pmcKs ev n).folio = s.folio := State.pmcEvent_folio ..
@[simp] theorem State.pmcKs_ports (s : State) (ev n : Nat) : (s.pmcKs ev n).ports = s.ports := State.pmcEvent_ports ..
@[simp] theorem State.pmcKs_srp (s : State) (ev n : Nat) : (s.pmcKs ev n).srp = s.srp := State.pmcEvent_srp ..
@[simp] theorem State.pmcKs_adm (s : State) (ev n : Nat) : (s.pmcKs ev n).adm = s.adm := State.pmcEvent_adm ..
@[simp] theorem State.pmcKs_sq (s : State) (ev n : Nat) : (s.pmcKs ev n).sq = s.sq := State.pmcEvent_sq ..
@[simp] theorem State.pmcKs_cores (s : State) (ev n : Nat) : (s.pmcKs ev n).cores = s.cores := State.pmcEvent_cores ..
@[simp] theorem State.pmcKs_ks (s : State) (ev n : Nat) : (s.pmcKs ev n).ks = s.ks := State.pmcEvent_ks ..
@[simp] theorem State.pmcKs_vault (s : State) (ev n : Nat) : (s.pmcKs ev n).vault = s.vault := State.pmcEvent_vault ..
@[simp] theorem State.pmcKs_bn (s : State) (ev n : Nat) : (s.pmcKs ev n).bn = s.bn := State.pmcEvent_bn ..
@[simp] theorem State.pmcKs_bulk (s : State) (ev n : Nat) : (s.pmcKs ev n).bulk = s.bulk := State.pmcEvent_bulk ..
@[simp] theorem State.pmcKs_rng (s : State) (ev n : Nat) : (s.pmcKs ev n).rng = s.rng := State.pmcEvent_rng ..
@[simp] theorem State.pmcKs_dual (s : State) (ev n : Nat) : (s.pmcKs ev n).dual = s.dual := State.pmcEvent_dual ..
@[simp] theorem State.pmcKs_lc (s : State) (ev n : Nat) : (s.pmcKs ev n).lc = s.lc := State.pmcEvent_lc ..
@[simp] theorem State.pmcKs_tmp (s : State) (ev n : Nat) : (s.pmcKs ev n).tmp = s.tmp := State.pmcEvent_tmp ..
@[simp] theorem State.pmcKs_boot (s : State) (ev n : Nat) : (s.pmcKs ev n).boot = s.boot := State.pmcEvent_boot ..
@[simp] theorem State.pmcKs_image (s : State) (ev n : Nat) : (s.pmcKs ev n).image = s.image := State.pmcEvent_image ..
@[simp] theorem State.pmcKs_pair (s : State) (ev n : Nat) : (s.pmcKs ev n).pair = s.pair := State.pmcEvent_pair ..
@[simp] theorem State.pmcKs_pwr (s : State) (ev n : Nat) : (s.pmcKs ev n).pwr = s.pwr := State.pmcEvent_pwr ..
@[simp] theorem State.pmcKs_faults (s : State) (ev n : Nat) : (s.pmcKs ev n).faults = s.faults := State.pmcEvent_faults ..
@[simp] theorem State.pmcKs_recovery (s : State) (ev n : Nat) : (s.pmcKs ev n).recovery = s.recovery := State.pmcEvent_recovery ..
@[simp] theorem State.pmcKs_readBack (s : State) (ev n : Nat) : (s.pmcKs ev n).readBack = s.readBack := State.pmcEvent_readBack ..
@[simp] theorem State.pmcKs_pending (s : State) (ev n : Nat) : (s.pmcKs ev n).pending = s.pending := State.pmcEvent_pending ..
@[simp] theorem State.pmcRng_dev (s : State) (ev n : Nat) : (s.pmcRng ev n).dev = s.dev := State.pmcEvent_dev ..
@[simp] theorem State.pmcRng_folio (s : State) (ev n : Nat) : (s.pmcRng ev n).folio = s.folio := State.pmcEvent_folio ..
@[simp] theorem State.pmcRng_ports (s : State) (ev n : Nat) : (s.pmcRng ev n).ports = s.ports := State.pmcEvent_ports ..
@[simp] theorem State.pmcRng_srp (s : State) (ev n : Nat) : (s.pmcRng ev n).srp = s.srp := State.pmcEvent_srp ..
@[simp] theorem State.pmcRng_adm (s : State) (ev n : Nat) : (s.pmcRng ev n).adm = s.adm := State.pmcEvent_adm ..
@[simp] theorem State.pmcRng_sq (s : State) (ev n : Nat) : (s.pmcRng ev n).sq = s.sq := State.pmcEvent_sq ..
@[simp] theorem State.pmcRng_cores (s : State) (ev n : Nat) : (s.pmcRng ev n).cores = s.cores := State.pmcEvent_cores ..
@[simp] theorem State.pmcRng_ks (s : State) (ev n : Nat) : (s.pmcRng ev n).ks = s.ks := State.pmcEvent_ks ..
@[simp] theorem State.pmcRng_vault (s : State) (ev n : Nat) : (s.pmcRng ev n).vault = s.vault := State.pmcEvent_vault ..
@[simp] theorem State.pmcRng_bn (s : State) (ev n : Nat) : (s.pmcRng ev n).bn = s.bn := State.pmcEvent_bn ..
@[simp] theorem State.pmcRng_bulk (s : State) (ev n : Nat) : (s.pmcRng ev n).bulk = s.bulk := State.pmcEvent_bulk ..
@[simp] theorem State.pmcRng_rng (s : State) (ev n : Nat) : (s.pmcRng ev n).rng = s.rng := State.pmcEvent_rng ..
@[simp] theorem State.pmcRng_dual (s : State) (ev n : Nat) : (s.pmcRng ev n).dual = s.dual := State.pmcEvent_dual ..
@[simp] theorem State.pmcRng_lc (s : State) (ev n : Nat) : (s.pmcRng ev n).lc = s.lc := State.pmcEvent_lc ..
@[simp] theorem State.pmcRng_tmp (s : State) (ev n : Nat) : (s.pmcRng ev n).tmp = s.tmp := State.pmcEvent_tmp ..
@[simp] theorem State.pmcRng_boot (s : State) (ev n : Nat) : (s.pmcRng ev n).boot = s.boot := State.pmcEvent_boot ..
@[simp] theorem State.pmcRng_image (s : State) (ev n : Nat) : (s.pmcRng ev n).image = s.image := State.pmcEvent_image ..
@[simp] theorem State.pmcRng_pair (s : State) (ev n : Nat) : (s.pmcRng ev n).pair = s.pair := State.pmcEvent_pair ..
@[simp] theorem State.pmcRng_pwr (s : State) (ev n : Nat) : (s.pmcRng ev n).pwr = s.pwr := State.pmcEvent_pwr ..
@[simp] theorem State.pmcRng_faults (s : State) (ev n : Nat) : (s.pmcRng ev n).faults = s.faults := State.pmcEvent_faults ..
@[simp] theorem State.pmcRng_recovery (s : State) (ev n : Nat) : (s.pmcRng ev n).recovery = s.recovery := State.pmcEvent_recovery ..
@[simp] theorem State.pmcRng_readBack (s : State) (ev n : Nat) : (s.pmcRng ev n).readBack = s.readBack := State.pmcEvent_readBack ..
@[simp] theorem State.pmcRng_pending (s : State) (ev n : Nat) : (s.pmcRng ev n).pending = s.pending := State.pmcEvent_pending ..
@[simp] theorem State.pmcMovers_dev (s : State) (ev n : Nat) : (s.pmcMovers ev n).dev = s.dev := State.pmcEvent_dev ..
@[simp] theorem State.pmcMovers_folio (s : State) (ev n : Nat) : (s.pmcMovers ev n).folio = s.folio := State.pmcEvent_folio ..
@[simp] theorem State.pmcMovers_ports (s : State) (ev n : Nat) : (s.pmcMovers ev n).ports = s.ports := State.pmcEvent_ports ..
@[simp] theorem State.pmcMovers_srp (s : State) (ev n : Nat) : (s.pmcMovers ev n).srp = s.srp := State.pmcEvent_srp ..
@[simp] theorem State.pmcMovers_adm (s : State) (ev n : Nat) : (s.pmcMovers ev n).adm = s.adm := State.pmcEvent_adm ..
@[simp] theorem State.pmcMovers_sq (s : State) (ev n : Nat) : (s.pmcMovers ev n).sq = s.sq := State.pmcEvent_sq ..
@[simp] theorem State.pmcMovers_cores (s : State) (ev n : Nat) : (s.pmcMovers ev n).cores = s.cores := State.pmcEvent_cores ..
@[simp] theorem State.pmcMovers_ks (s : State) (ev n : Nat) : (s.pmcMovers ev n).ks = s.ks := State.pmcEvent_ks ..
@[simp] theorem State.pmcMovers_vault (s : State) (ev n : Nat) : (s.pmcMovers ev n).vault = s.vault := State.pmcEvent_vault ..
@[simp] theorem State.pmcMovers_bn (s : State) (ev n : Nat) : (s.pmcMovers ev n).bn = s.bn := State.pmcEvent_bn ..
@[simp] theorem State.pmcMovers_bulk (s : State) (ev n : Nat) : (s.pmcMovers ev n).bulk = s.bulk := State.pmcEvent_bulk ..
@[simp] theorem State.pmcMovers_rng (s : State) (ev n : Nat) : (s.pmcMovers ev n).rng = s.rng := State.pmcEvent_rng ..
@[simp] theorem State.pmcMovers_dual (s : State) (ev n : Nat) : (s.pmcMovers ev n).dual = s.dual := State.pmcEvent_dual ..
@[simp] theorem State.pmcMovers_lc (s : State) (ev n : Nat) : (s.pmcMovers ev n).lc = s.lc := State.pmcEvent_lc ..
@[simp] theorem State.pmcMovers_tmp (s : State) (ev n : Nat) : (s.pmcMovers ev n).tmp = s.tmp := State.pmcEvent_tmp ..
@[simp] theorem State.pmcMovers_boot (s : State) (ev n : Nat) : (s.pmcMovers ev n).boot = s.boot := State.pmcEvent_boot ..
@[simp] theorem State.pmcMovers_image (s : State) (ev n : Nat) : (s.pmcMovers ev n).image = s.image := State.pmcEvent_image ..
@[simp] theorem State.pmcMovers_pair (s : State) (ev n : Nat) : (s.pmcMovers ev n).pair = s.pair := State.pmcEvent_pair ..
@[simp] theorem State.pmcMovers_pwr (s : State) (ev n : Nat) : (s.pmcMovers ev n).pwr = s.pwr := State.pmcEvent_pwr ..
@[simp] theorem State.pmcMovers_faults (s : State) (ev n : Nat) : (s.pmcMovers ev n).faults = s.faults := State.pmcEvent_faults ..
@[simp] theorem State.pmcMovers_recovery (s : State) (ev n : Nat) : (s.pmcMovers ev n).recovery = s.recovery := State.pmcEvent_recovery ..
@[simp] theorem State.pmcMovers_readBack (s : State) (ev n : Nat) : (s.pmcMovers ev n).readBack = s.readBack := State.pmcEvent_readBack ..
@[simp] theorem State.pmcMovers_pending (s : State) (ev n : Nat) : (s.pmcMovers ev n).pending = s.pending := State.pmcEvent_pending ..

/-! Slots, channels and ports: a read after a write. -/

theorem State.slot_putSlot_live (s : State) (k : Nat) {x : Slot} (h : x.state ≠ .free) : (s.putSlot k x).slot k = x :=
  tabGet_put_new _ _ (fun e => h (congrArg Slot.state e))

@[simp] theorem State.slot_putSlot_other (s : State) {k j : Nat} (x : Slot) (h : j ≠ k) : (s.putSlot k x).slot j = s.slot j :=
  tabGet_put_other _ _ _ h

@[simp] theorem State.slot_modSlot_other (s : State) {k j : Nat} (f : Slot → Slot) (h : j ≠ k) :
    (s.modSlot k f).slot j = s.slot j := State.slot_putSlot_other s _ h

@[simp] theorem State.chan_putChan_other (s : State) {c j : Nat} (x : Channel) (h : j ≠ c) : (s.putChan c x).chan j = s.chan j :=
  tabGet_put_other _ _ _ h

@[simp] theorem State.core_putCore_other (s : State) {c j : Nat} (x : Core) (h : j ≠ c) : (s.putCore c x).core j = s.core j :=
  tabGet_put_other _ _ _ h

@[simp] theorem State.port_modPort_other (s : State) {i j : Nat} (f : Port → Port) (h : j ≠ i) : (s.modPort i f).port j = s.port j :=
  tabGet_put_other _ _ _ h

end Sys2Proof.Machine
end

