-- ==== Sys2Proof/Laws/Fn.lean ====
section
/-! SUPPORT. What a function's steps do, once each: the statements about functions are proved by these and never unfold
the monad. -/

namespace Sys2Proof.Machine

theorem runFnOn_bind {α : Type} {f : Fn α} {s t : State} {a : α} (g : α → Fn FnRes) (h : f.gives s a t) :
    runFnOn (f >>= g) s = runFnOn (g a) t := by
  unfold Fn.gives at h
  simp only [runFnOn, ExceptT.run_bind, StateT.run_bind, h]
  rfl

theorem Fn.need_true (st : Nat) (s : State) : (Fn.need true st).gives s () s := rfl
theorem Fn.pure_gives {α : Type} (a : α) (s : State) : (pure a : Fn α).gives s a s := rfl
theorem Fn.get_gives (s : State) : (get : Fn State).gives s s s := rfl
theorem Fn.st_gives {α : Type} (f : State → α) (s : State) : (Fn.st f).gives s (f s) s := rfl
theorem Fn.act_gives {α : Type} (f : State → α × State) (s : State) : (Fn.act f).gives s (f s).1 (f s).2 := rfl
theorem Fn.change_gives (f : State → State) (s : State) : (Fn.change f).gives s () (f s) := rfl
theorem Fn.get!_gives {α : Type} (a : α) (e : Nat) (s : State) : (Fn.get! (some a) e).gives s a s := rfl

theorem runFnOn_need (c : Bool) (st : Nat) (g : Unit → Fn FnRes) (s : State) :
    runFnOn (Fn.need c st >>= g) s = if c then runFnOn (g ()) s else ({ status := st }, s) := by
  cases c <;> rfl

theorem runFnOn_done (r : Bytes) (e : List Effect) (s : State) : runFnOn (Fn.done r e) s = ({ result := r, effects := e }, s) := rfl
theorem runFnOn_get (g : State → Fn FnRes) (s : State) : runFnOn (get >>= g) s = runFnOn (g s) s := rfl
theorem runFnOn_st {α : Type} (f : State → α) (g : α → Fn FnRes) (s : State) : runFnOn (Fn.st f >>= g) s = runFnOn (g (f s)) s := rfl
theorem runFnOn_change (f : State → State) (g : Unit → Fn FnRes) (s : State) :
    runFnOn (Fn.change f >>= g) s = runFnOn (g ()) (f s) := rfl
theorem runFnOn_act {α : Type} (f : State → α × State) (g : α → Fn FnRes) (s : State) :
    runFnOn (Fn.act f >>= g) s = runFnOn (g (f s).1) (f s).2 := rfl
theorem runFnOn_throw (st : Nat) (s : State) : runFnOn (throw st) s = ({ status := st }, s) := rfl
theorem runFnOn_get! {α : Type} (o : Option α) (e : Nat) (g : α → Fn FnRes) (s : State) :
    runFnOn (Fn.get! o e >>= g) s = match o with
      | some a => runFnOn (g a) s
      | none => ({ status := e }, s) := by cases o <;> rfl

theorem Fn.gives_bind {α β : Type} {f : Fn α} {g : α → Fn β} {s t u : State} {a : α} {b : β} (h : f.gives s a t)
    (h2 : (g a).gives t b u) : (f >>= g).gives s b u := by
  unfold Fn.gives at *
  simp only [ExceptT.run_bind, StateT.run_bind, h]
  exact h2

theorem Fn.need_gives {c : Bool} {st : Nat} {s : State} (h : c = true) : (Fn.need c st).gives s () s := by
  subst h
  rfl

theorem Fn.done_gives (r : Bytes) (e : List Effect) (s : State) : (Fn.done r e).gives s { result := r, effects := e } s := rfl

theorem runFnOn_gives {f : Fn FnRes} {s t : State} {r : FnRes} (h : f.gives s r t) : runFnOn f s = (r, t) := by
  unfold Fn.gives at h
  simp only [runFnOn, h]

/-- What a refusal leaves does not touch a function that ends. -/
theorem Fn.orRefuse_gives {f : Fn FnRes} {s t : State} {r : FnRes} (g : Nat → State → State) (h : f.gives s r t) :
    (Fn.orRefuse f g).gives s r t := by
  unfold Fn.gives at *
  show (ExceptT.tryCatch f _).run.run s = _
  unfold ExceptT.tryCatch
  simp only [ExceptT.run_mk, StateT.run_bind]
  have h2 : (StateT.run f s : Except Nat FnRes × State) = (.ok r, t) := h
  rw [h2]
  rfl

/-- A life-cycle function that ends leaves OK in LC_LAST. -/
theorem lcFn_gives {f : Fn FnRes} {s t : State} {r : FnRes} (x : Slot) (h : f.gives s r t) :
    (lcFn x f).gives s r (lcLast t x stOk) :=
  Fn.orRefuse_gives _ (Fn.gives_bind h (Fn.gives_bind (Fn.change_gives _ _) (Fn.pure_gives r _)))

theorem runFnOn_orRefuse_bind {α : Type} {f : Fn α} {s t : State} {a : α} (g : α → Fn FnRes) (e : Nat → State → State)
    (h : f.gives s a t) : runFnOn (Fn.orRefuse (f >>= g) e) s = runFnOn (Fn.orRefuse (g a) e) t := by
  have h1 : ((f >>= g).run.run s : Except Nat FnRes × State) = (g a).run.run t := by
    unfold Fn.gives at h
    simp only [ExceptT.run_bind, StateT.run_bind, h]
    rfl
  unfold runFnOn
  have h2 : ∀ (q : Fn FnRes) (w : State), ((Fn.orRefuse q e).run.run w : Except Nat FnRes × State) =
      match (q.run.run w : Except Nat FnRes × State) with
      | (.ok r, v) => (.ok r, v)
      | (.error x, v) => (.error x, e x v) := by
    intro q w
    show (ExceptT.tryCatch q _).run.run w = _
    unfold ExceptT.tryCatch
    simp only [ExceptT.run_mk, StateT.run_bind]
    cases h3 : (q.run.run w : Except Nat FnRes × State) with
    | mk o v =>
      have h4 : (StateT.run q w : Except Nat FnRes × State) = (o, v) := h3
      rw [h4]
      cases o <;> rfl
  rw [h2, h2, h1]

theorem runFnOn_pure (r : FnRes) (s : State) : runFnOn (pure r) s = (r, s) := rfl
theorem runFnOn_ok (st : Nat) (g : Unit → Fn FnRes) (s : State) :
    runFnOn (Fn.ok st >>= g) s = if st = stOk then runFnOn (g ()) s else ({ status := st }, s) := by
  rw [Fn.ok, runFnOn_need]
  simp only [beq_iff_eq]

/-- The request of a slot that a control core takes up. -/
theorem asked_eq (s : State) (k : Nat) : s.asked k =
    if s.taskEntered k then s.slot k
    else if (s.slot k).wasAdmitted then { s.slot k with state := .running }
    else { s.slot k with state := .running, admitTick := s.folio.now } := by
  unfold State.asked State.computing
  by_cases h1 : s.taskEntered k = true
  · simp only [h1, if_true]
  · by_cases h2 : (s.slot k).wasAdmitted = true
    · simp only [h1, h2, if_true]
      exact State.slot_putSlot_live s k (by simp)
    · simp only [h1, h2]
      exact State.slot_putSlot_live s k (by simp)

/-- All that a function command does where its function may be computed. -/
theorem serveFn_ended {codes : Nat → Bool} {k : Nat} {s : State} (f : Nat → Slot → Fn FnRes) (h : s.mayCompute k codes) :
    serveFn codes f k s = s.endedBy k (f k (s.asked k)) (s.computing k) := by
  obtain ⟨h1, h2, h3⟩ := h
  rw [asked_eq]
  unfold serveFn State.endedBy State.ended State.computing
  simp only [h1, h2, and_self, not_true_eq_false, if_false]
  by_cases h4 : s.taskEntered k = true
  · have h5 := h4
    unfold State.taskEntered at h5
    simp only [h4, h5, if_true]
  · have h5 := h4
    unfold State.taskEntered at h5
    have h6 : s.ccMay k (s.slot k) = true := h3.resolve_left h4
    simp only [h4, h5, h6, if_true]
    split_ifs <;> rfl

/-- A function command where its function may not be computed changes nothing. -/
theorem serveFn_idle {codes : Nat → Bool} {k : Nat} {s : State} (f : Nat → Slot → Fn FnRes) (h : ¬ s.mayCompute k codes) :
    serveFn codes f k s = s := by
  by_cases h1 : (s.slot k).unanswered = true ∧ codes (s.slot k).func = true
  · have h2 : ¬ (s.taskEntered k = true ∨ s.ccMay k (s.slot k) = true) := fun h2 => h ⟨h1.1, h1.2, h2⟩
    have h3 := not_or.1 h2
    have h4 := h3.1
    unfold State.taskEntered at h4
    simp only [serveFn, h1, h4, h3.2, and_self, not_true_eq_false, if_false]
    rfl
  · simp only [serveFn, h1, not_false_eq_true, if_true]

end Sys2Proof.Machine
end

