-- ==== Sys2Proof/Laws/Ops.lean ====
section
/-! SUPPORT. What the shared operations of Machine/Ops.lean can do: an event raised changes the recorder alone, and counting
a performance event changes the performance counters and the recorder alone. -/

namespace Sys2Proof.Machine

/-- Raising an event changes the recorder alone. -/
theorem State.raise_changes_recorder (s : State) (code source tenant : Nat) (data : Bytes) :
    ∃ r, s.raise code source tenant data = { s with recorder := r } := by
  unfold State.raise
  split
  · dsimp only
    split <;> exact ⟨_, rfl⟩
  · exact ⟨s.recorder, rfl⟩

/-- A counter that wraps changes the counters and the recorder alone. -/
theorem State.counterWrap_changes_pmc (fuel c : Nat) (s : State) :
    ∃ p r, State.counterWrap fuel c s = { s with pmc := p, recorder := r } := by
  induction fuel generalizing c s with
  | zero => exact ⟨s.pmc, s.recorder, rfl⟩
  | succ fuel ih =>
    unfold State.counterWrap
    split
    · dsimp only
      split
      · obtain ⟨p, r, h⟩ := ih (c + 1)
          { s with pmc := { s.pmc with live := tabPut 0 s.pmc.live (c + 1) ((tabGet 0 s.pmc.live (c + 1) + 1) % 2 ^ 32) } }
        exact ⟨p, r, h⟩
      · exact ⟨_, s.recorder, rfl⟩
    · dsimp only
      split
      · exact ⟨_, s.recorder, rfl⟩
      · obtain ⟨r, h⟩ := State.raise_changes_recorder
          { s with pmc := { s.pmc with ovf := tabPut false s.pmc.ovf c true, wrapSecond := some s.second } } evCounterWrapped srcNone 0
          (items [(2, ((tabPut false s.pmc.ovf c true).filter (·.2)).length)])
        exact ⟨_, r, h⟩

theorem State.pmcAddTo_changes_pmc (s : State) (c n : Nat) : ∃ p r, s.pmcAddTo c n = { s with pmc := p, recorder := r } := by
  unfold State.pmcAddTo
  dsimp only
  split
  · obtain ⟨p, r, h⟩ := State.counterWrap_changes_pmc 16 c
      { s with pmc := { s.pmc with live := tabPut 0 s.pmc.live c ((tabGet 0 s.pmc.live c + n) % 2 ^ 32) } }
    exact ⟨p, r, h⟩
  · exact ⟨_, s.recorder, rfl⟩

/-- Counting a performance event changes the counters and the recorder alone. -/
theorem State.pmcEvent_changes_pmc (s : State) (first count ev n : Nat) :
    ∃ p r, s.pmcEvent first count ev n = { s with pmc := p, recorder := r } := by
  unfold State.pmcEvent
  generalize List.range count = l
  induction l generalizing s with
  | nil => exact ⟨_, _, rfl⟩
  | cons i l ih =>
    simp only [List.foldl_cons]
    split
    · obtain ⟨p, r, h⟩ := State.pmcAddTo_changes_pmc s (first + i) n
      rw [h]
      obtain ⟨p2, r2, h2⟩ := ih { s with pmc := p, recorder := r }
      exact ⟨p2, r2, h2⟩
    · exact ih s

end Sys2Proof.Machine
end

