-- ==== Sys2Proof/WellFormed.lean ====
section
/-! DEFINITION. Which operands a command may carry: each unit it names exists (R16, Table 1.1), and each index is in
the range of its table. The sender sends well-formed commands only; an ill-formed one names nothing of the block. -/

namespace Sys2Proof

/-- Cores 0–127 are TC0–TC127, 128–131 CC0–CC3 and 132 the security core (R16, Table 1.3). -/
def isCore (n : Nat) : Bool := decide (n < 133)

/-- A transaction core, which has the ports of the task I/O space. -/
def isTcore (n : Nat) : Bool := decide (n < 128)

/-- One of the 64 big-number engines. -/
def isBnEngine (n : Nat) : Bool := decide (n < 64)

/-- Logical ports: 0–7 Port A, 8–15 Port B, 16 Port M. -/
def isLport (n : Nat) : Bool := decide (n < 17)

/-- One of the 32,768 channels. -/
def isChannel (n : Nat) : Bool := decide (n < 32768)

/-- One of the 65,536 request slots. -/
def isSlot (n : Nat) : Bool := decide (n < 65536)

/-- One of a core's four handles. -/
def isHandle (n : Nat) : Bool := decide (n < 4)

/-- A unit by its 16-bit source code (Table 18.1). -/
def isUnit (n : Nat) : Bool := decide (n < 65536)

/-- Every operand of `i` names something that exists. -/
def Instr.wf (i : Instr) : Bool :=
  match i with
  | .startBegin _ => true
  | .startStepTimeout => true
  | .acquireWaitEnd => true
  | .internalRestart _ => true
  | .resetAsserted _ => true
  | .mainRailsRemoved => true
  | .mainRailsPresent => true
  | .coverMeshPatrol _ _ _ _ => true
  | .encMeshPatrol k _ => decide (k < 2)
  | .switchSample k _ => decide (k < 8)
  | .vmonExcursion rail _ => decide (rail < 9)
  | .supplyGlitch which => decide (which < 2)
  | .clockFreq which _ => decide (which < 2)
  | .clockGlitch which => decide (which < 2)
  | .light detector _ => decide (detector < 2)
  | .laser detector _ => decide (detector < 8)
  | .em detector _ => decide (detector < 1)
  | .tempReading _ _ _ _ _ => true
  | .crystalStop => true
  | .tamperRecordWrite => true
  | .gutterFrameReceive _ _ _ => true
  | .tick => true
  | .delayListRelease k => decide (k < 64)
  | .ptpSyncReceive lport _ => isLport lport
  | .ptpFollowUpReceive lport _ _ _ _ => isLport lport
  | .ptpDelayRespReceive lport _ _ _ _ => isLport lport
  | .ptpAnnounceReceive lport _ => isLport lport
  | .ppsInEdge _ => true
  | .syncHoldoverTimeout => true
  | .linkUp lport speed => isLport lport && decide (speed < 7)
  | .linkDown lport => isLport lport
  | .frameReceive lport _ => isLport lport
  | .mkaFrameReceive lport _ => isLport lport
  | .macsecPeerLost lport _ => isLport lport
  | .arpRequestReceive lport _ _ _ => isLport lport
  | .neighbourSolicitationReceive lport _ _ _ => isLport lport
  | .neighbourEntryExpiry lport _ => isLport lport
  | .icmpEchoReceive lport _ _ => isLport lport
  | .hs1Receive lport => isLport lport
  | .hs3Receive lport => isLport lport
  | .reqDatagramReceive lport => isLport lport
  | .mgmtDatagramReceive lport => isLport lport
  | .bulkDatagramReceive lport => isLport lport
  | .hs2Receive lport => isLport lport
  | .handshakeTimeout chan => isChannel chan
  | .channelIdleTimeout chan => isChannel chan
  | .repForm chan => isChannel chan
  | .replyFrameLeft lport => isLport lport
  | .taskGive block => decide (block < 16)
  | .bundleIssue core => isCore core
  | .delayedAccessPerform core => isCore core
  | .btestComplete core _ => isCore core
  | .waitfSatisfied core _ => isCore core
  | .waitBoundExpiry core => isCore core
  | .budgetExpiry core => isTcore core
  | .take core => isTcore core
  | .flagClr core _ => isTcore core
  | .delay core _ => isTcore core
  | .doneTask core _ => isTcore core
  | .missPoint slot => isSlot slot
  | .winSet core _ => isTcore core
  | .winClr core _ => isTcore core
  | .detectedError unit _ => decide (unit < 0x20000)
  | .targetedTestComplete unit _ _ => isUnit unit
  | .districtWakeComplete district _ _ => decide (district < 24)
  | .klook core _ => isTcore core
  | .kunwrap core _ => isTcore core
  | .kdlook core _ => isTcore core
  | .kdstore core _ => isTcore core
  | .cadv core _ => isTcore core
  | .krel core _ => isTcore core
  | .keyRequestComplete core => isTcore core
  | .unwrapComplete core => isTcore core
  | .maskRefreshStep => true
  | .keySramError _ unit => decide (unit < 131072)
  | .residentReloadComplete unit => decide (unit < 65536)
  | .vaultBatchWrite => true
  | .vaultOldBatchErase => true
  | .bopen core handle _ => isTcore core && isHandle handle
  | .bptr core handle _ => isTcore core && isHandle handle
  | .bin core handle _ => isTcore core && isHandle handle
  | .bout core handle => isTcore core && isHandle handle
  | .bgo core handle _ => isTcore core && isHandle handle
  | .babort core handle => isTcore core && isHandle handle
  | .brel core handle => isTcore core && isHandle handle
  | .bnSliceEnd engine _ => isBnEngine engine
  | .rsaPub engine => isBnEngine engine
  | .rsaPriv engine => isBnEngine engine
  | .mlKemKeygen engine => isBnEngine engine
  | .bnMlKemEncaps engine => isBnEngine engine
  | .bnMlKemDecaps engine => isBnEngine engine
  | .mlDsaKeygen engine => isBnEngine engine
  | .bnMlDsaSign engine => isBnEngine engine
  | .bnMlDsaVerify engine => isBnEngine engine
  | .ecdsaSign engine => isBnEngine engine
  | .ecdsaVerify engine => isBnEngine engine
  | .ecdh engine => isBnEngine engine
  | .ecKeygen engine => isBnEngine engine
  | .ecPointCheck engine => isBnEngine engine
  | .mlDsaIteration engine => isBnEngine engine
  | .bnJobComplete engine => isBnEngine engine
  | .bankClearComplete engine bank => isBnEngine engine && decide (bank < 4)
  | .curveValidationComplete engine => isBnEngine engine
  | .bksub core _ => isTcore core
  | .bulkSubmissionAnswer core => isTcore core
  | .bulkJobStart => true
  | .bulkJobComplete slot => isSlot slot
  | .rreq core _ => isTcore core
  | .rten core _ => isTcore core
  | .randomDrawComplete core => isTcore core
  | .sourceWindowEnd source _ => decide (source < 3)
  | .sourceTestFailure source _ _ => decide (source < 3)
  | .sourceEstimate source _ _ => decide (source < 3)
  | .drbgScheduledReseed instance_ => decide (instance_ < 8)
  | .forcedReseedComplete _ => true
  | .tenantPoolFull => true
  | .drbgInstanceError instance_ => decide (instance_ < 8)
  | .drbgInstanceReturn instance_ _ => decide (instance_ < 8)
  | .rngCtrlReseed chan => isChannel chan
  | .rngRandomRead chan _ => isChannel chan
  | .hiRegisterRead chan _ => isChannel chan
  | .pmcCtrlSnap => true
  | .pmcSelWrite counter event => decide (counter < 1024) && decide (event < 65536)
  | .mgmtRead slot => isSlot slot
  | .mgmtWrite slot => isSlot slot
  | .mgmtCommit slot => isSlot slot
  | .hsRespond slot => isSlot slot
  | .hsFinish slot => isSlot slot
  | .pinVerifyOffset slot => isSlot slot
  | .pinTranslate slot => isSlot slot
  | .pinVerifyPvv slot => isSlot slot
  | .pinOffsetGenerate slot => isSlot slot
  | .pvvGenerate slot => isSlot slot
  | .macGenerate slot => isSlot slot
  | .macVerify slot => isSlot slot
  | .macGenerateLong slot => isSlot slot
  | .macVerifyLong slot => isSlot slot
  | .cvvGenerate slot => isSlot slot
  | .cvvVerify slot => isSlot slot
  | .arqcVerify slot => isSlot slot
  | .arqcVerifyArpc slot => isSlot slot
  | .smMac slot => isSlot slot
  | .smEncrypt slot => isSlot slot
  | .smPinChange slot => isSlot slot
  | .arqcVerifyTracked slot => isSlot slot
  | .dukptMacVerify slot => isSlot slot
  | .dukptMacGenerate slot => isSlot slot
  | .dukptPinTranslate slot => isSlot slot
  | .dukptDataDecrypt slot => isSlot slot
  | .dukptDataEncrypt slot => isSlot slot
  | .dukptPinTranslateTracked slot => isSlot slot
  | .keyImport slot => isSlot slot
  | .keyExport slot => isSlot slot
  | .keyTranslate slot => isSlot slot
  | .keyGenerate slot => isSlot slot
  | .keyCheckValue slot => isSlot slot
  | .keyImportLarge slot => isSlot slot
  | .keyLoadResident slot => isSlot slot
  | .keyDeleteResident slot => isSlot slot
  | .tr34Import slot => isSlot slot
  | .tr34Export slot => isSlot slot
  | .ecKeypairGenerate slot => isSlot slot
  | .mlKemKeypair slot => isSlot slot
  | .mlDsaKeypair slot => isSlot slot
  | .rsaPrivate slot => isSlot slot
  | .rsaPublic slot => isSlot slot
  | .ecdsaSignFunction slot => isSlot slot
  | .ecdsaVerifyFunction slot => isSlot slot
  | .ecdhFunction slot => isSlot slot
  | .mlKemEncaps slot => isSlot slot
  | .mlKemDecaps slot => isSlot slot
  | .mlDsaSign slot => isSlot slot
  | .mlDsaVerify slot => isSlot slot
  | .randomShort slot => isSlot slot
  | .randomLong slot => isSlot slot
  | .hash slot => isSlot slot
  | .ff1Encrypt slot => isSlot slot
  | .ff1Decrypt slot => isSlot slot
  | .graphFunction slot => isSlot slot
  | .streamOpen slot => isSlot slot
  | .streamSegment slot => isSlot slot
  | .streamFinal slot => isSlot slot
  | .streamAbort slot => isSlot slot
  | .streamSegmentTdes slot => isSlot slot
  | .streamFinalTdes slot => isSlot slot
  | .smkRewrap slot => isSlot slot
  | .smkCreate slot => isSlot slot
  | .smkRotateBegin slot => isSlot slot
  | .smkRotateComplete slot => isSlot slot
  | .smkRotateAbort slot => isSlot slot
  | .smkInvalidate slot => isSlot slot
  | .counterCreate slot => isSlot slot
  | .clientKeySet slot => isSlot slot
  | .colophon slot => isSlot slot
  | .colophonTenant slot => isSlot slot
  | .certificates slot => isSlot slot
  | .curveLoad slot => isSlot slot
  | .curveQuery slot => isSlot slot
  | .curveDelete slot => isSlot slot
  | .authOpen slot => isSlot slot
  | .authSign slot => isSlot slot
  | .authCardLocal slot => isSlot slot
  | .authQuery slot => isSlot slot
  | .authClose slot => isSlot slot
  | .cardRegister slot => isSlot slot
  | .cardRevoke slot => isSlot slot
  | .quorumSet slot => isSlot slot
  | .macsecCakSet slot => isSlot slot
  | .keyEnter slot => isSlot slot
  | .sessionExpiry index => decide (index < 256)
  | .cardExchangeComplete iface _ _ _ => decide (iface < 2)
  | .cardExchangeTimeout iface _ => decide (iface < 2)
  | .cardPresenceChange iface _ _ => decide (iface < 2)
  | .cardValidityChange entry => decide (entry < 4096)
  | .lcTransition slot => isSlot slot
  | .lcTransitionExecute => true
  | .lcDebugChallenge slot => isSlot slot
  | .lcDebugAuth slot => isSlot slot
  | .lcDebugEnd slot => isSlot slot
  | .lcIdentity slot => isSlot slot
  | .lcCertLoad slot => isSlot slot
  | .lcMailbox _ _ => true
  | .dbgAccess _ _ _ _ => true
  | .extest => true
  | .samplePreload _ _ => true
  | .idcode => true
  | .clamp => true
  | .highz => true
  | .bypass => true
  | .tapReset => true
  | .reportFrame => true
  | .tmpLatchClear slot => isSlot slot
  | .recoveryStatus slot => isSlot slot
  | .devRestart slot => isSlot slot
  | .drainEnd => true
  | .imageLoadBegin slot => isSlot slot
  | .imageLoadData slot => isSlot slot
  | .imageLoadEnd slot => isSlot slot
  | .imageWriteComplete _ => true
  | .pairStage slot => isSlot slot
  | .pairOffer slot => isSlot slot
  | .pairAccept slot => isSlot slot
  | .pairConfirm slot => isSlot slot
  | .pairHandover slot => isSlot slot
  | .pairTakeover slot => isSlot slot
  | .pairLeave slot => isSlot slot
  | .journalBatch slot => isSlot slot
  | .heartbeat slot => isSlot slot
  | .snapshot slot => isSlot slot
  | .journalAck lport => isLport lport
  | .heartbeatReply lport => isLport lport
  | .selfFence => true
  | .takeoverSilence => true
  | .memberDrop memberSlot => decide (memberSlot < 8)
  | .vaultConsolidate => true
  | .recHead slot => isSlot slot
  | .recRead slot => isSlot slot
  | .recordWrite _ => true
  | .recTokenGain => true
  | .operatingSecond => true
  | .arpReplyReceive lport _ _ => isLport lport
  | .neighbourAdvertisementReceive lport _ _ => isLport lport
  | .dadComplete lport _ => isLport lport
  | .fecDegraded lport _ _ => isLport lport
  | .counterWrapped counter => decide (counter < 1024)
  | .vsecApplied => true
  | .vidValid => true
  | .readyRepReceive lport => isLport lport

end Sys2Proof
end

