-- ==== Sys2Proof/Tests/Slice0.lean ====
section
/-! SUPPORT. Tests: ill-formed terms, small steps on concrete states, and for every clause of a statement with hypotheses a
concrete state and operands that meet them all. -/

namespace Sys2Proof.Tests

open Sys2Proof Sys2Proof.Machine

/-! One theorem at a time: the small evaluations below need no threads of their own. -/
set_option Elab.async false

/-! ### Helpers -/

/-- What a step of a function answers on a state, and the state after it. -/
def okOn {α : Type} (f : Fn α) (s : State) : Bool :=
  match (f.run.run s : Except Nat α × State).1 with
  | .ok _ => true
  | .error _ => false
def valOn {α : Type} (d : α) (f : Fn α) (s : State) : α :=
  match (f.run.run s : Except Nat α × State).1 with
  | .ok a => a
  | .error _ => d
def stOn {α : Type} (f : Fn α) (s : State) : State := (f.run.run s : Except Nat α × State).2

theorem gives_of {α : Type} (d : α) {f : Fn α} {s : State} (h : okOn f s = true) : f.gives s (valOn d f s) (stOn f s) := by
  unfold Fn.gives
  unfold okOn at h
  unfold valOn stOn
  split at h
  · rename_i a h1
    have h2 : (f.run.run s : Except Nat α × State) = ((f.run.run s : Except Nat α × State).1, (f.run.run s : Except Nat α × State).2) := rfl
    rw [h2, h1]
  · cases h

theorem gives_same {α : Type} (d : α) {f : Fn α} {s : State} (h : okOn f s = true) (h2 : stOn f s = s) : f.gives s (valOn d f s) s := by
  have h3 := gives_of d h
  rwa [h2] at h3

theorem may_of {s : State} {k : Nat} {codes : Nat → Bool}
    (h : ((s.slot k).unanswered && codes (s.slot k).func && (s.taskEntered k || s.ccMay k (s.slot k))) = true) : s.mayCompute k codes := by
  simp only [Bool.and_eq_true, Bool.or_eq_true] at h
  exact ⟨h.1.1, h.1.2, h.2⟩

theorem gives_producing {s : State} {x : Slot} {j : Nat} {g : SmkGen} (h : (s.smkSlot x.tenant j).producing x.admitTick = some g) :
    (Fn.producing x j).gives s g s := by
  unfold Fn.producing
  refine Fn.gives_bind (Fn.st_gives _ _) ?_
  rw [h]
  exact Fn.get!_gives _ _ _

theorem gives_p256 {x : Slot} {code handle : Nat} {s : State} (h : code = 1) : (Fn.curve x code handle).gives s (p256, 1) s := by
  subst h
  rfl

theorem noCardLocal {s : State} {n : Nat} (h : (s.sq.slots.all (fun q => q.2.effects.isEmpty)) = true) :
    ∀ q ∈ s.sq.slots, ∀ j, Effect.cardLocal j n ∉ q.2.effects := by
  intro q hq j
  have h2 := List.all_eq_true.1 h q hq
  rw [List.isEmpty_iff.1 h2]
  exact List.not_mem_nil

/-- A payload of `n` bytes: LAYOUT 1, zeros, and the given fields. -/
def pay (n : Nat) (l : List (Nat × Bytes)) : Bytes :=
  l.foldl (fun b p => b.take p.1 ++ p.2 ++ b.drop (p.1 + p.2.length)) ([1] ++ zeros (n - 1))
def kref (unit : Nat) : Bytes := [1, 0, 0, 0] ++ beBytes 4 unit
def key (usage alg mode n : Nat) : Resident :=
  { kind := .key, units := 1, attr := { alg := alg, usage := usage, mode := mode, exportability := 0x45 }, shareA := zeros n,
    shareB := List.replicate n 0x11 }
/-- An AES-256 key block key and a TDES one. -/
def kekAes (mode : Nat) : Resident := key uK0 5 mode 32
def kekTdes (mode : Nat) : Resident := key uK0 2 mode 24
/-- A public key as a binding holds it. -/
def pubKey (usage alg mode curve : Nat) (b : Bytes) : Resident :=
  { key usage alg mode b.length with attr := { alg := alg, usage := usage, mode := mode, exportability := 0x45, curve := curve, isPublic := true },
                                     shareA := b, shareB := zeros b.length }
/-- OUTATTR. -/
def outAttr (alg usage mode : Nat) : Bytes := [BitVec.ofNat 8 alg] ++ beBytes 2 usage ++ beBytes 1 mode ++ [0x45, 1, 0, 0]
/-- An inline block of 16 bytes at `at_`. -/
def inlineRef (at_ : Nat) : Bytes := [2, 0, 0, 16] ++ beBytes 4 at_
/-- The header of a version "D" block. -/
def hdrD : Bytes := [0x44, 0x30, 0x30, 0x31, 0x36]
/-- PANLEN and PAN of a test card. -/
def panBytes : Bytes := [16, 0, 0, 0, 0x41, 0x11, 0x11, 0x11, 0x11, 0x11, 0x11, 0x11]
/-- The SMK generation of slot 0 of tenant 0. -/
def smkGen1 : SmkGen := { gen := 1, shareA := zeros 32, shareB := List.replicate 32 0x11 }
/-- In SERVICE, a core has entered the task of slot 0, a request of function `func` with payload `p`; `keys` are resident from
unit 8,256 on. -/
def fn (func : Nat) (keys : List Resident) (p : Bytes) : State :=
  { State.reset with
    dev := { State.reset.dev with state := .service },
    sq := { slots := [(0, { state := .running, req := 1, func := func, payload := p })] },
    cores := { core := [(0, { task := some { slot := 0, node := 0, req := 1 }, entered := true })] },
    ks := { unsealed := true, resident := keys.zipIdx.map (fun q => (8256 + q.2, q.1)), residentQuota := [(0, 1000)],
            smk := [(0, { current := some smkGen1, lastGen := 1 })] },
    rng := { state := .ready, ready := true, poolInt := 4096, poolTen := 4096 } }

/-- Session 0 of tenant 0 is GRANTED for the request of slot 0, whose AUTH field lies at `off`. -/
def granted (command role compLen off : Nat) (s : State) : State :=
  let p := (s.slot 0).payload
  let count := fun (serial : Nat) (b : Byte) =>
    ({ serial := serial, effectAt := some 0, component := List.replicate compLen b, kcv := [], slot := none } : Counted)
  let g : Session :=
    { state := .granted, gen := 1, command := command, role := role, compLen := compLen, m := 2, expires := 10,
      pdigest := sha384B (p.take off ++ zeros 4 ++ p.drop (off + 4)), counted := [count 1 0x11, count 2 0x22] }
  { s with dual := { s.dual with sessions := [(0, g)] } }
/-- The identifier of that session. -/
def authField : Bytes := [0, 0, 1, 0]

theorem gives_auth {s : State} {k i : Nat} {x : Slot} {command role compLen off : Nat}
    (h1 : (s.sessionNamed x.tenant (fld x.payload off 4) false == some i) = true)
    (h2 : (!State.pastE (s.session i) x.admitTick && decide ((s.session i).state = .granted) && decide ((s.session i).command = command) &&
      decide ((s.session i).role = role) && decide ((s.session i).compLen = compLen)) = true)
    (h3 : (s.session i).pdigest = sha384B (x.payload.take off ++ zeros 4 ++ x.payload.drop (off + 4))) :
    (Fn.auth k x command role compLen off).gives s i (takeSession s k i) := by
  simp only [beq_iff_eq, Bool.and_eq_true, Bool.not_eq_true', decide_eq_true_eq] at h1 h2
  obtain ⟨⟨⟨⟨h2, h4⟩, h5⟩, h6⟩, h7⟩ := h2
  have h : authStatus s x command role compLen (fld x.payload off 4) off = (stOk, some i) := by
    simp [authStatus, h1, h2, h3, h4, h5, h6, h7]
  unfold Fn.auth
  refine Fn.gives_bind (Fn.st_gives _ _) ?_
  rw [h]
  exact Fn.gives_bind (Fn.need_gives rfl) (Fn.gives_bind (Fn.get!_gives _ _ _) (Fn.gives_bind (Fn.change_gives _ _) (Fn.pure_gives _ _)))


/-! ### Well-formedness: an ill-formed term for each check -/

def ptpSync0 : PtpSync := { domain := 0, source := 0, seq := 0, twoStep := false, t1 := 0, t2 := 0 }
def ptpAnnounce0 : PtpAnnounce :=
  { domain := 0, priority1 := 0, clockClass := 0, accuracy := 0, variance := 0, priority2 := 0, identity := 0 }

theorem test_ill_formed_1 : ([
   .encMeshPatrol 0x20000 0, .switchSample 0x20000 false, .vmonExcursion 0x20000 false, .supplyGlitch 0x20000,
    .clockFreq 0x20000 0, .clockGlitch 0x20000, .light 0x20000 false, .laser 0x20000 false, .em 0x20000 false,
    .delayListRelease 0x20000, .ptpSyncReceive 0x20000 ptpSync0, .ptpFollowUpReceive 0x20000 0 0 0 0,
    .ptpDelayRespReceive 0x20000 0 0 0 0, .ptpAnnounceReceive 0x20000 ptpAnnounce0, .linkUp 0x20000 0, .linkUp 0 0x20000,
    .linkDown 0x20000, .frameReceive 0x20000 { len := 64, dst := 0, srcMac := 0, ethertype := 0 },
    .mkaFrameReceive 0x20000 { icvOk := true, peer := 0 }, .macsecPeerLost 0x20000 0, .arpRequestReceive 0x20000 0 0 0,
    .neighbourSolicitationReceive 0x20000 0 0 0, .neighbourEntryExpiry 0x20000 0, .icmpEchoReceive 0x20000 {} []] : List Instr).all (fun i => !i.wf) = true := by decide +kernel
theorem test_ill_formed_2 : ([
   .hs1Receive 0x20000, .hs3Receive 0x20000, .reqDatagramReceive 0x20000, .mgmtDatagramReceive 0x20000,
    .bulkDatagramReceive 0x20000, .hs2Receive 0x20000, .handshakeTimeout 0x20000, .channelIdleTimeout 0x20000,
    .repForm 0x20000, .replyFrameLeft 0x20000, .taskGive 0x20000, .bundleIssue 0x20000, .delayedAccessPerform 0x20000,
    .btestComplete 0x20000 false, .waitfSatisfied 0x20000 0, .waitBoundExpiry 0x20000, .budgetExpiry 0x20000,
    .take 0x20000, .flagClr 0x20000 0, .delay 0x20000 0, .doneTask 0x20000 0, .missPoint 0x20000, .winSet 0x20000 0,
    .winClr 0x20000 0] : List Instr).all (fun i => !i.wf) = true := by decide +kernel
theorem test_ill_formed_3 : ([
   .detectedError 0x20000 0, .targetedTestComplete 0x20000 false 0, .districtWakeComplete 0x20000 [] 0, .klook 0x20000 0,
    .kunwrap 0x20000 0, .kdlook 0x20000 0, .kdstore 0x20000 0, .cadv 0x20000 0, .krel 0x20000 0,
    .keyRequestComplete 0x20000, .unwrapComplete 0x20000, .keySramError false 0x20000, .residentReloadComplete 0x20000,
    .bopen 0x20000 0 0, .bopen 0 0x20000 0, .bptr 0x20000 0 0, .bptr 0 0x20000 0, .bin 0x20000 0 0, .bin 0 0x20000 0,
    .bout 0x20000 0, .bout 0 0x20000, .bgo 0x20000 0 0, .bgo 0 0x20000 0, .babort 0x20000 0] : List Instr).all (fun i => !i.wf) = true := by decide +kernel
theorem test_ill_formed_4 : ([
   .babort 0 0x20000, .brel 0x20000 0, .brel 0 0x20000, .bnSliceEnd 0x20000 0, .rsaPub 0x20000, .rsaPriv 0x20000,
    .mlKemKeygen 0x20000, .bnMlKemEncaps 0x20000, .bnMlKemDecaps 0x20000, .mlDsaKeygen 0x20000, .bnMlDsaSign 0x20000,
    .bnMlDsaVerify 0x20000, .ecdsaSign 0x20000, .ecdsaVerify 0x20000, .ecdh 0x20000, .ecKeygen 0x20000,
    .ecPointCheck 0x20000, .mlDsaIteration 0x20000, .bnJobComplete 0x20000, .bankClearComplete 0x20000 0,
    .bankClearComplete 0 0x20000, .curveValidationComplete 0x20000, .bksub 0x20000 0, .bulkSubmissionAnswer 0x20000] : List Instr).all (fun i => !i.wf) = true := by decide +kernel
theorem test_ill_formed_5 : ([
   .bulkJobComplete 0x20000, .rreq 0x20000 0, .rten 0x20000 0, .randomDrawComplete 0x20000, .sourceWindowEnd 0x20000 [],
    .sourceTestFailure 0x20000 0 0, .sourceEstimate 0x20000 0 [], .drbgScheduledReseed 0x20000,
    .drbgInstanceError 0x20000, .drbgInstanceReturn 0x20000 false, .rngCtrlReseed 0x20000, .rngRandomRead 0x20000 0,
    .hiRegisterRead 0x20000 0, .pmcSelWrite 0x20000 0, .pmcSelWrite 0 0x20000, .mgmtRead 0x20000, .mgmtWrite 0x20000,
    .mgmtCommit 0x20000, .hsRespond 0x20000, .hsFinish 0x20000, .pinVerifyOffset 0x20000, .pinTranslate 0x20000,
    .pinVerifyPvv 0x20000, .pinOffsetGenerate 0x20000] : List Instr).all (fun i => !i.wf) = true := by decide +kernel
theorem test_ill_formed_6 : ([
   .pvvGenerate 0x20000, .macGenerate 0x20000, .macVerify 0x20000, .macGenerateLong 0x20000, .macVerifyLong 0x20000,
    .cvvGenerate 0x20000, .cvvVerify 0x20000, .arqcVerify 0x20000, .arqcVerifyArpc 0x20000, .smMac 0x20000,
    .smEncrypt 0x20000, .smPinChange 0x20000, .arqcVerifyTracked 0x20000, .dukptMacVerify 0x20000,
    .dukptMacGenerate 0x20000, .dukptPinTranslate 0x20000, .dukptDataDecrypt 0x20000, .dukptDataEncrypt 0x20000,
    .dukptPinTranslateTracked 0x20000, .keyImport 0x20000, .keyExport 0x20000, .keyTranslate 0x20000,
    .keyGenerate 0x20000, .keyCheckValue 0x20000] : List Instr).all (fun i => !i.wf) = true := by decide +kernel
theorem test_ill_formed_7 : ([
   .keyImportLarge 0x20000, .keyLoadResident 0x20000, .keyDeleteResident 0x20000, .tr34Import 0x20000,
    .tr34Export 0x20000, .ecKeypairGenerate 0x20000, .mlKemKeypair 0x20000, .mlDsaKeypair 0x20000, .rsaPrivate 0x20000,
    .rsaPublic 0x20000, .ecdsaSignFunction 0x20000, .ecdsaVerifyFunction 0x20000, .ecdhFunction 0x20000,
    .mlKemEncaps 0x20000, .mlKemDecaps 0x20000, .mlDsaSign 0x20000, .mlDsaVerify 0x20000, .randomShort 0x20000,
    .randomLong 0x20000, .hash 0x20000, .ff1Encrypt 0x20000, .ff1Decrypt 0x20000, .graphFunction 0x20000,
    .streamOpen 0x20000] : List Instr).all (fun i => !i.wf) = true := by decide +kernel
theorem test_ill_formed_8 : ([
   .streamSegment 0x20000, .streamFinal 0x20000, .streamAbort 0x20000, .streamSegmentTdes 0x20000,
    .streamFinalTdes 0x20000, .smkRewrap 0x20000, .smkCreate 0x20000, .smkRotateBegin 0x20000, .smkRotateComplete 0x20000,
    .smkRotateAbort 0x20000, .smkInvalidate 0x20000, .counterCreate 0x20000, .clientKeySet 0x20000, .colophon 0x20000,
    .colophonTenant 0x20000, .certificates 0x20000, .curveLoad 0x20000, .curveQuery 0x20000, .curveDelete 0x20000,
    .authOpen 0x20000, .authSign 0x20000, .authCardLocal 0x20000, .authQuery 0x20000, .authClose 0x20000] : List Instr).all (fun i => !i.wf) = true := by decide +kernel
theorem test_ill_formed_9 : ([
   .cardRegister 0x20000, .cardRevoke 0x20000, .quorumSet 0x20000, .macsecCakSet 0x20000, .keyEnter 0x20000,
    .sessionExpiry 0x20000, .cardExchangeComplete 0x20000 0 [] [], .cardExchangeTimeout 0x20000 false,
    .cardPresenceChange 0x20000 false false, .cardValidityChange 0x20000, .lcTransition 0x20000,
    .lcDebugChallenge 0x20000, .lcDebugAuth 0x20000, .lcDebugEnd 0x20000, .lcIdentity 0x20000, .lcCertLoad 0x20000,
    .tmpLatchClear 0x20000, .recoveryStatus 0x20000, .devRestart 0x20000, .imageLoadBegin 0x20000, .imageLoadData 0x20000,
    .imageLoadEnd 0x20000, .pairStage 0x20000, .pairOffer 0x20000] : List Instr).all (fun i => !i.wf) = true := by decide +kernel
theorem test_ill_formed_10 : ([
   .pairAccept 0x20000, .pairConfirm 0x20000, .pairHandover 0x20000, .pairTakeover 0x20000, .pairLeave 0x20000,
    .journalBatch 0x20000, .heartbeat 0x20000, .snapshot 0x20000, .journalAck 0x20000, .heartbeatReply 0x20000,
    .memberDrop 0x20000, .recHead 0x20000, .recRead 0x20000, .arpReplyReceive 0x20000 0 0,
    .neighbourAdvertisementReceive 0x20000 0 0, .dadComplete 0x20000 0, .fecDegraded 0x20000 0 0, .counterWrapped 0x20000,
    .readyRepReceive 0x20000] : List Instr).all (fun i => !i.wf) = true := by decide +kernel

theorem test_well_formed_at_the_ends : ([.encMeshPatrol 1 0, .switchSample 7 true, .delayListRelease 63, .hs1Receive 16, .repForm 32767,
    .taskGive 15, .bundleIssue 132, .take 127, .missPoint 65535, .districtWakeComplete 23 [] 0, .bout 127 3, .rsaPub 63,
    .bankClearComplete 63 3, .sourceEstimate 2 0 [], .drbgInstanceError 7, .pmcSelWrite 1023 65535, .sessionExpiry 255,
    .cardValidityChange 4095, .memberDrop 7] : List Instr).all (fun i => i.wf) = true := by decide +kernel


/-! ### Values that the manual's own examples give -/

/-- Chapter 6: the G0 slot "if not p3, move g6 to g5", with the stop bit set. -/
theorem test_slot_of_chapter_6 :
    decodeSlot 0x8BC50006 0 = some { group := 0, inv := true, pred := 3, dest := 0xC5, src := .g 6 } := by decide +kernel

/-- Table 6.17, words from address 0x1000 on. -/
def table617 (i : Nat) : Word32 :=
  ([0x2002C000, 0x00004000, 0xC0000023, 0xC0038000, 0xF00A8006, 0xC0044200, 0xF00A800A, 0xA0004400, 0xA004C000, 0x00006000, 0xA0008010,
    0xA0038020] : List Word32).getD (i - 0x400) 0

theorem test_bundles_of_table_6_17 :
    decodeBundle table617 0x1000 = some ([{ group := 2, inv := false, pred := 0, dest := 2, src := .imm 0x4000 },
      { group := 4, inv := false, pred := 0, dest := 0, src := .w 3 }], 0x100C) ∧
    decodeBundle table617 0x1014 = some ([{ group := 4, inv := false, pred := 0, dest := 4, src := .port 2 0 }], 0x1018) ∧
    decodeBundle table617 0x1020 = some ([{ group := 2, inv := false, pred := 0, dest := 4, src := .imm 0x6000 }], 0x1028) := by
  decide +kernel

/-- Table 3.11: the header of the example datagram. -/
def header311 : Bytes :=
  [0x21, 0x00, 0x0C, 0x11, 0x00, 0x02, 0x80, 0x2A, 0, 0, 0, 0, 0, 0, 0x04, 0x15, 0x12, 0xC2, 0x01, 0x02, 0, 0, 0, 0, 4, 0, 0, 0x34, 0, 0, 0, 0]

theorem test_header_of_table_3_11 :
    dgramType header311 = 1 ∧ fld header311 2 2 / 1024 = 3 ∧ fld header311 2 2 % 1024 = 17 ∧ fld header311 4 4 / 2 ^ 15 = 5 ∧
      fld header311 4 4 % 2 ^ 15 = 42 ∧ fld header311 8 8 = 1045 := by decide +kernel

theorem test_window_of_chapter_3 :
    let x : Channel := { rxHigh := 1050, rxBits := 1 }
    (x.window 1045).isSome = true ∧ ((x.window 1045).bind (fun y => y.window 1045)).isSome = false ∧ (x.window 26).isSome = false ∧
      (x.window 27).isSome = true := by decide +kernel

/-- Chapter 8: format 0 of PIN 4831 and PAN 5210 8834 0761 2294, and its opening. -/
theorem test_format_0_of_chapter_8 :
    pinOp { pan := 0x10000000000000005210883407612294#128 } 0x04 0x8004483100000000#128 = some (0x0448397CBF89EDD6, 0) ∧
    pinOp { pan := 0x10000000000000005210883407612294#128 } 0x08 0x0448397CBF89EDD6#128 = some (0x8004483100000000, 0) := by
  decide +kernel

/-- Chapter 8: DECIM of the encrypted validation data, and the sum with OFFSET 1866. -/
theorem test_decimalisation_of_chapter_8 :
    pinOp { dtab := 0x0123456789012345 } 0x0C 0x3A7F0C925BE14D08#128 = some (0x3075029251414308, 0) ∧
    pinOp { da := 0x3075000000000000 } 0x0E 0x1866000000000000#128 = some (0x4831000000000000, 0) := by decide +kernel

/-- R249: the units of a key of so many bytes. -/
theorem test_units_of_keys :
    ([16, 24, 32, 66, 64] : List Nat).map unitsOf = [1, 2, 2, 3, 3] := by decide +kernel

/-- Chapter 17: the block of a use-limited key with LIMIT 100,000. -/
theorem test_use_block_of_chapter_17 : useBlock 100000 = 256 := by decide +kernel

/-- Table 14.5: the copies of the life-cycle word after stripe 3, and the decode while copy 1 is unfinished. -/
theorem test_stripes_of_table_14_5 :
    programStripe 0xFFFFFFFFFF969696#64 3 = 0xFFFFFFFF96969696#64 ∧
    decodeState { State.reset.lc with word0 := 0xFFFFFFFF96969696#64, word1 := 0xFFFFFFFFB7969696#64,
                                      intents := [{ source := 3, target := 4, stripe := 3, slot := 3, quorum := false, valid := true }] } =
      (.invalid, 3) ∧
    stripeDamaged 0xFFFFFFFFB7969696#64 3 = false ∧
    decodeState { State.reset.lc with word0 := 0xFFFFFFFF96969696#64, word1 := 0xFFFFFFFF96969696#64 } = (.returned, 0) := by decide +kernel

/-- Chapter 4: CORE per folio of a core block, with eight and with seven cores. -/
theorem test_capacity_of_chapter_4 :
    let s := { State.reset with dev := { State.reset.dev with state := .service } }
    s.cap true (.core 5) 0 = 121480 ∧ { s with faults := { s.faults with withdrawn := [srcTc 43] } }.cap true (.core 5) 0 = 106295 := by
  decide +kernel

/-- Chapter 8: the EGRESS charge of a reply without a result, on IPv6 with MACsec. -/
theorem test_egress_of_chapter_8 :
    let s : State := { State.reset with ports := [(0, { cfg := { present := true, macsec := true } })] }
    s.costEgress { src := { v6 := true }, cost := {} } = 190 := by decide +kernel

/-- Chapter 7: the span of the example function. -/
theorem test_span_of_chapter_7 : replyMargin 32 = 2027 := by decide +kernel

/-- FIPS 197, C.3, and SHA-384 of "abc" (FIPS 180-4). -/
theorem test_aes : aesEncrypt (beBytes 32 0x000102030405060708090A0B0C0D0E0F101112131415161718191A1B1C1D1E1F)
    0x00112233445566778899AABBCCDDEEFF = 0x8EA2B7CA516745BFEAFC49904B496089 := by decide +kernel

theorem test_sha384 : beNat (sha384B (ascii "abc")) =
    0xCB00753F45A35E8BB5A03D699AC65007272C32AB0EDED1631A8B605A43FF5BED8086072BA1E7CC2358BAECA134C825A7 := by decide +kernel

/-- DES on a published block. -/
theorem test_des : desEncrypt (beBytes 8 0x133457799BBCDFF1) 0x0123456789ABCDEF = 0x85E813540F0AB405 := by decide +kernel


/-! ### The block as a whole -/

theorem witness_stepRunsIdle :
    let s : State := State.reset
    (s.pending = []) := by
  intro s
  exact by decide +kernel

theorem witness_stripesStay : State.reset.stripesWhole ∧ step State.reset = .next State.reset :=
  ⟨by unfold State.stripesWhole; decide +kernel, rfl⟩


/-! ### PIN, MAC and card-verification functions -/

theorem witness_pinVerifyOffset :
    let s : State := fn 0x0101 [key uV1 2 mV 16, key uP0 2 mD 16] (pay 74 [(4, kref 8256), (12, kref 8257), (20, [0, 4, 12, 4]), (24, panBytes), (52, [0x01, 0x23, 0x45, 0x67, 0x89, 0, 0, 0]), (68, [0, 0, 0xFF, 0xFF, 0xFF, 0xFF])])
    let k := 0
    let x := s.asked k
    let p := x.payload
    let t := s.computing k
    let fmt := fld p 20 1
    let n := fld p 23 1
    let q := nibbles (slice p 52 8)
    let off := nibbles (slice p 68 6)
    ∃ pan : List Nat, ((Fn.pan p 24).gives t pan t) ∧
      ∃ kv : Handle, ∃ s1 : State, ((Fn.resolveRole x 4 { usages := [uV1], modes := [mC, mV], algs := [1, 2] }).gives t kv s1) ∧
      ∃ kp : Handle, ∃ s2 : State, ((Fn.resolveRole x 12 (pinIn fmt)).gives s1 kp s2) ∧
      (s.mayCompute k (· == 0x0101)) ∧
      (fmtOk fmt = true ∧ lensOk (fld p 21 1) (fld p 22 1) = true ∧ 4 ≤ n ∧ n ≤ 12 ∧ pinblkOk p 36 fmt = true) ∧
      (decimal q = true ∧ (∀ d, d < 10 → q.contains d = true)) ∧
      (payloadOk p 74 [(25, 1)] [4, 12] = true ∧ offsetOk n off = true) := by
  intro s k x p t fmt n q off
  exact ⟨_, gives_same ([]) (by decide +kernel) (by decide +kernel), _, _, gives_of ({}) (by decide +kernel), _, _, gives_of ({}) (by decide +kernel), may_of (by decide +kernel), by decide +kernel, by decide +kernel, by decide +kernel⟩

theorem witness_pinOffsetGenerate :
    let s : State := fn 0x0104 [key uV1 2 mG 16, key uP0 2 mD 16] (pay 68 [(4, kref 8256), (12, kref 8257), (20, [0, 4, 12, 4]), (24, panBytes), (52, [0x01, 0x23, 0x45, 0x67, 0x89, 0, 0, 0])])
    let k := 0
    let x := s.asked k
    let p := x.payload
    let t := s.computing k
    let fmt := fld p 20 1
    let n := fld p 23 1
    let q := nibbles (slice p 52 8)
    ∃ pan : List Nat, ((Fn.pan p 24).gives t pan t) ∧
      ∃ kv : Handle, ∃ s1 : State, ((Fn.resolveRole x 4 { usages := [uV1], modes := [mC, mG], algs := [1, 2] }).gives t kv s1) ∧
      ∃ kp : Handle, ∃ s2 : State, ((Fn.resolveRole x 12 (pinIn fmt)).gives s1 kp s2) ∧
      (s.mayCompute k (· == 0x0104)) ∧
      (fmtOk fmt = true ∧ lensOk (fld p 21 1) (fld p 22 1) = true ∧ 4 ≤ n ∧ n ≤ 12 ∧ pinblkOk p 36 fmt = true) ∧
      (decimal q = true ∧ (∀ d, d < 10 → q.contains d = true)) ∧
      (payloadOk p 68 [(25, 1)] [4, 12] = true) := by
  intro s k x p t fmt n q
  exact ⟨_, gives_same ([]) (by decide +kernel) (by decide +kernel), _, _, gives_of ({}) (by decide +kernel), _, _, gives_of ({}) (by decide +kernel), may_of (by decide +kernel), by decide +kernel, by decide +kernel, by decide +kernel⟩

theorem witness_pinVerifyPvv :
    let s : State := fn 0x0103 [key uV2 1 mV 16, key uP0 2 mD 16] (pay 54 [(4, kref 8256), (12, kref 8257), (20, [0, 4, 12, 1]), (24, panBytes)])
    let k := 0
    let x := s.asked k
    let p := x.payload
    let t := s.computing k
    let fmt := fld p 20 1
    ∃ pan : List Nat, ((Fn.pan p 24).gives t pan t) ∧
      ∃ kv : Handle, ∃ s1 : State, ((Fn.resolveRole x 4 { usages := [uV2], modes := [mC, mV], algs := [1] }).gives t kv s1) ∧
      ∃ kp : Handle, ∃ s2 : State, ((Fn.resolveRole x 12 (pinIn fmt)).gives s1 kp s2) ∧
      (s.mayCompute k (· == 0x0103)) ∧
      (fmtOk fmt = true ∧ lensOk (fld p 21 1) (fld p 22 1) = true ∧ fld p 23 1 ≤ 6 ∧ pinblkOk p 36 fmt = true) ∧
      (payloadOk p 54 [(25, 1)] [4, 12] = true ∧ decimal (nibbles (slice p 52 2)) = true) := by
  intro s k x p t fmt
  exact ⟨_, gives_same ([]) (by decide +kernel) (by decide +kernel), _, _, gives_of ({}) (by decide +kernel), _, _, gives_of ({}) (by decide +kernel), may_of (by decide +kernel), by decide +kernel, by decide +kernel⟩

theorem witness_pvvGenerate :
    let s : State := fn 0x0105 [key uV2 1 mG 16, key uP0 2 mD 16] (pay 52 [(4, kref 8256), (12, kref 8257), (20, [0, 4, 12, 1]), (24, panBytes)])
    let k := 0
    let x := s.asked k
    let p := x.payload
    let t := s.computing k
    let fmt := fld p 20 1
    ∃ pan : List Nat, ((Fn.pan p 24).gives t pan t) ∧
      ∃ kv : Handle, ∃ s1 : State, ((Fn.resolveRole x 4 { usages := [uV2], modes := [mC, mG], algs := [1] }).gives t kv s1) ∧
      ∃ kp : Handle, ∃ s2 : State, ((Fn.resolveRole x 12 (pinIn fmt)).gives s1 kp s2) ∧
      (s.mayCompute k (· == 0x0105)) ∧
      (fmtOk fmt = true ∧ lensOk (fld p 21 1) (fld p 22 1) = true ∧ fld p 23 1 ≤ 6 ∧ pinblkOk p 36 fmt = true) ∧
      (payloadOk p 52 [(25, 1)] [4, 12] = true) := by
  intro s k x p t fmt
  exact ⟨_, gives_same ([]) (by decide +kernel) (by decide +kernel), _, _, gives_of ({}) (by decide +kernel), _, _, gives_of ({}) (by decide +kernel), may_of (by decide +kernel), by decide +kernel, by decide +kernel⟩

theorem witness_pinTranslate :
    let s : State := fn 0x0102 [key uP0 2 mD 16, key uP0 5 mE 32] (pay 52 [(4, kref 8256), (12, kref 8257), (20, [0, 4, 4, 12]), (24, panBytes)])
    let k := 0
    let x := s.asked k
    let p := x.payload
    let t := s.computing k
    let fmt := fld p 20 1
    let fout := fld p 21 1
    ∃ pan : List Nat, ((Fn.pan p 24).gives t pan t) ∧
      ∃ kv : Handle, ∃ s1 : State, ((Fn.resolveRole x 4 (pinIn fmt)).gives t kv s1) ∧
      ∃ kp : Handle, ∃ s2 : State, ((Fn.resolveRole x 12 (pinOut fout)).gives s1 kp s2) ∧
      ∃ fill : Bytes, ∃ s3 : State, ((Fn.fill fout).gives s2 fill s3) ∧
      (s.mayCompute k (· == 0x0102)) ∧
      (payloadOk p 52 [(25, 1)] [4, 12] = true ∧ fmtOk fmt = true ∧ fmtOk fout = true) ∧
      (lensOk (fld p 22 1) (fld p 23 1) = true ∧ pinblkOk p 36 fmt = true ∧ s2.translates x.tenant fmt fout = true) := by
  intro s k x p t fmt fout
  exact ⟨_, gives_same ([]) (by decide +kernel) (by decide +kernel), _, _, gives_of ({}) (by decide +kernel), _, _, gives_of ({}) (by decide +kernel), _, _, gives_of ([]) (by decide +kernel), may_of (by decide +kernel), by decide +kernel, by decide +kernel⟩

theorem witness_macGenerate :
    let s : State := fn 0x0201 [key uM6 5 mG 32] (pay 34 [(4, kref 8256), (12, [5, 0, 16, 0]), (16, [0, 16])])
    let k := 0
    let x := s.asked k
    let p := x.payload
    let t := s.computing k
    let alg := fld p 12 1
    ∃ n : Nat, ∃ h : Handle, ∃ s1 : State, ((Fn.resolve x 4 (macKeyOk alg [mC, mG])).gives t h s1) ∧
      (s.mayCompute k (· == 0x0201)) ∧
      (macFieldsOk alg (fld p 13 1) (fld p 14 1) = true ∧ n = fld p 16 2 ∧ payloadOk p (18 + n) [(15, 1)] [4] = true ∧ n ≤ 384) := by
  intro s k x p t alg
  exact ⟨16, _, _, gives_of ({}) (by decide +kernel), may_of (by decide +kernel), by decide +kernel⟩

theorem witness_macGenerateLong :
    let s : State := fn 0x0203 [key uM1 2 mC 24] (pay 418 [(4, kref 8256), (12, [1, 2, 8, 0]), (16, [1, 0x90])])
    let k := 0
    let x := s.asked k
    let p := x.payload
    let t := s.computing k
    let alg := fld p 12 1
    ∃ n : Nat, ∃ h : Handle, ∃ s1 : State, ((Fn.resolve x 4 (macKeyOk alg [mC, mG])).gives t h s1) ∧
      (s.mayCompute k (· == 0x0203)) ∧
      (macFieldsOk alg (fld p 13 1) (fld p 14 1) = true ∧ n = fld p 16 2 ∧ payloadOk p (18 + n) [(15, 1)] [4] = true ∧ n ≤ 8064) := by
  intro s k x p t alg
  exact ⟨400, _, _, gives_of ({}) (by decide +kernel), may_of (by decide +kernel), by decide +kernel⟩

theorem witness_macVerify :
    let s : State := fn 0x0202 [key uM3 1 mV 16] (pay 58 [(4, kref 8256), (12, [3, 1, 4, 0]), (48, [0, 8])])
    let k := 0
    let x := s.asked k
    let p := x.payload
    let t := s.computing k
    let alg := fld p 12 1
    ∃ n : Nat, ∃ h : Handle, ∃ s1 : State, ((Fn.resolve x 4 (macKeyOk alg [mC, mV])).gives t h s1) ∧
      (s.mayCompute k (· == 0x0202)) ∧
      (macFieldsOk alg (fld p 13 1) (fld p 14 1) = true ∧ n = fld p 48 2 ∧ payloadOk p (50 + n) [(15, 1)] [4] = true ∧ n ≤ 384) := by
  intro s k x p t alg
  exact ⟨8, _, _, gives_of ({}) (by decide +kernel), may_of (by decide +kernel), by decide +kernel⟩

theorem witness_macVerifyLong :
    let s : State := fn 0x0204 [key uM7 6 mV 64] (pay 450 [(4, kref 8256), (12, [7, 0, 32, 0]), (48, [1, 0x90])])
    let k := 0
    let x := s.asked k
    let p := x.payload
    let t := s.computing k
    let alg := fld p 12 1
    ∃ n : Nat, ∃ h : Handle, ∃ s1 : State, ((Fn.resolve x 4 (macKeyOk alg [mC, mV])).gives t h s1) ∧
      (s.mayCompute k (· == 0x0204)) ∧
      (macFieldsOk alg (fld p 13 1) (fld p 14 1) = true ∧ n = fld p 48 2 ∧ payloadOk p (50 + n) [(15, 1)] [4] = true ∧ n ≤ 8064) := by
  intro s k x p t alg
  exact ⟨400, _, _, gives_of ({}) (by decide +kernel), may_of (by decide +kernel), by decide +kernel⟩

theorem witness_cvvGenerate :
    let s : State := fn 0x0301 [key uC0 1 mG 16] (pay 32 [(4, kref 8256), (12, [2, 0]), (14, panBytes), (26, [0x12, 0x25]), (28, [0x02, 0x01])])
    let k := 0
    let x := s.asked k
    let p := x.payload
    let t := s.computing k
    ∃ pan : List Nat, ((Fn.pan p 14).gives t pan t) ∧
      ∃ h : Handle, ∃ s1 : State, ((Fn.resolveRole x 4 { usages := [uC0], modes := [mC, mG], algs := [1] }).gives t h s1) ∧
      (s.mayCompute k (· == 0x0301)) ∧
      (fld p 12 1 ≤ 2 ∧ decimal (nibbles (slice p 26 2)) = true ∧ decimal (nibbles (slice p 28 2)) = true ∧ (nibbles (slice p 28 2)).take 1 = [0]) ∧
      (payloadOk p 32 [(13, 1), (15, 1)] [4] = true) := by
  intro s k x p t
  exact ⟨_, gives_same ([]) (by decide +kernel) (by decide +kernel), _, _, gives_of ({}) (by decide +kernel), may_of (by decide +kernel), by decide +kernel, by decide +kernel⟩

theorem witness_cvvVerify :
    let s : State := fn 0x0302 [key uC0 1 mV 16] (pay 34 [(4, kref 8256), (14, panBytes), (26, [0x12, 0x25]), (28, [0x02, 0x01]), (32, [0x01, 0x23])])
    let k := 0
    let x := s.asked k
    let p := x.payload
    let t := s.computing k
    ∃ pan : List Nat, ((Fn.pan p 14).gives t pan t) ∧
      ∃ h : Handle, ∃ s1 : State, ((Fn.resolveRole x 4 { usages := [uC0], modes := [mC, mV], algs := [1] }).gives t h s1) ∧
      (s.mayCompute k (· == 0x0302)) ∧
      (fld p 12 1 ≤ 2 ∧ decimal (nibbles (slice p 26 2)) = true ∧ decimal (nibbles (slice p 28 2)) = true ∧ (nibbles (slice p 28 2)).take 1 = [0]) ∧
      (payloadOk p 34 [(13, 1), (15, 1)] [4] = true ∧ decimal (nibbles (slice p 32 2)) = true ∧ (nibbles (slice p 32 2)).take 1 = [0]) := by
  intro s k x p t
  exact ⟨_, gives_same ([]) (by decide +kernel) (by decide +kernel), _, _, gives_of ({}) (by decide +kernel), may_of (by decide +kernel), by decide +kernel, by decide +kernel⟩


/-! ### EMV and DUKPT functions -/

theorem witness_arqcVerify :
    let s : State := fn 0x0401 [key uE0 2 mX 16] (pay 40 [(4, kref 8256), (16, panBytes), (36, [0, 2])])
    let k := 0
    let x := s.asked k
    let p := x.payload
    let t := s.computing k
    let scheme := fld p 12 1
    ∃ n : Nat, ∃ pan : List Nat, ((Fn.pan p 16).gives t pan t) ∧
      ∃ h : Handle, ∃ s1 : State, ((Fn.resolveRole x 4 (emvRole uE0 scheme)).gives t h s1) ∧
      (s.mayCompute k (· == 0x0401)) ∧
      (scheme ≤ 1 ∧ n = fld p 36 2 ∧ n ≤ 256 ∧ payloadOk p (38 + n) [] [4] = true) := by
  intro s k x p t scheme
  exact ⟨2, _, gives_same ([]) (by decide +kernel) (by decide +kernel), _, _, gives_of ({}) (by decide +kernel), may_of (by decide +kernel), by decide +kernel⟩

theorem witness_arqcVerifyArpc :
    let s : State := fn 0x0402 [key uE0 5 mX 32] (pay 60 [(4, kref 8256), (12, [1]), (16, panBytes), (36, [1]), (44, [8]), (56, [0, 2])])
    let k := 0
    let x := s.asked k
    let p := x.payload
    let t := s.computing k
    let scheme := fld p 12 1
    ∃ n : Nat, ∃ pan : List Nat, ((Fn.pan p 16).gives t pan t) ∧
      ∃ h : Handle, ∃ s1 : State, ((Fn.resolveRole x 4 (emvRole uE0 scheme)).gives t h s1) ∧
      (s.mayCompute k (· == 0x0402)) ∧
      (scheme ≤ 1 ∧ n = fld p 56 2 ∧ n ≤ 256 ∧ payloadOk p (58 + n) arpcReserved [4] = true ∧ arpcFieldsOk p = true) := by
  intro s k x p t scheme
  exact ⟨2, _, gives_same ([]) (by decide +kernel) (by decide +kernel), _, _, gives_of ({}) (by decide +kernel), may_of (by decide +kernel), by decide +kernel⟩

theorem witness_arqcVerifyTracked :
    let s : State := fn 0x0410 [key uE0 2 mX 16] (pay 64 [(4, kref 8256), (16, panBytes), (36, [2]), (60, [0, 2])])
    let k := 0
    let x := s.asked k
    let p := x.payload
    let t := s.computing k
    let scheme := fld p 12 1
    ∃ n : Nat, ∃ pan : List Nat, ((Fn.pan p 16).gives t pan t) ∧
      ∃ h : Handle, ∃ s1 : State, ((Fn.resolveRole x 4 (emvRole uE0 scheme)).gives t h s1) ∧
      (s.mayCompute k (· == 0x0410)) ∧
      (scheme ≤ 1 ∧ n = fld p 60 2 ∧ n ≤ 256 ∧ payloadOk p (62 + n) arpcReserved [4] = true ∧ arpcFieldsOk p = true) := by
  intro s k x p t scheme
  exact ⟨2, _, gives_same ([]) (by decide +kernel) (by decide +kernel), _, _, gives_of ({}) (by decide +kernel), may_of (by decide +kernel), by decide +kernel⟩

theorem witness_smMac :
    let s : State := fn 0x0403 [key uE2 2 mX 16] (pay 40 [(4, kref 8256), (14, [4]), (16, panBytes), (36, [0, 2])])
    let k := 0
    let x := s.asked k
    let p := x.payload
    let t := s.computing k
    let scheme := fld p 12 1
    ∃ n : Nat, ∃ pan : List Nat, ((Fn.pan p 16).gives t pan t) ∧
      ∃ h : Handle, ∃ s1 : State, ((Fn.resolveRole x 4 (emvRole uE2 scheme)).gives t h s1) ∧
      (s.mayCompute k (· == 0x0403)) ∧
      (scheme ≤ 1 ∧ n = fld p 36 2 ∧ n ≤ 1024 ∧ payloadOk p (38 + n) [(15, 1)] [4] = true ∧ 4 ≤ fld p 14 1 ∧ fld p 14 1 ≤ 8) := by
  intro s k x p t scheme
  exact ⟨2, _, gives_same ([]) (by decide +kernel) (by decide +kernel), _, _, gives_of ({}) (by decide +kernel), may_of (by decide +kernel), by decide +kernel⟩

theorem witness_smEncrypt :
    let s : State := fn 0x0404 [key uE1 2 mX 16] (pay 40 [(4, kref 8256), (16, panBytes), (36, [0, 2])])
    let k := 0
    let x := s.asked k
    let p := x.payload
    let t := s.computing k
    let scheme := fld p 12 1
    ∃ n : Nat, ∃ pan : List Nat, ((Fn.pan p 16).gives t pan t) ∧
      ∃ h : Handle, ∃ s1 : State, ((Fn.resolveRole x 4 (emvRole uE1 scheme)).gives t h s1) ∧
      (s.mayCompute k (· == 0x0404)) ∧
      (scheme ≤ 1 ∧ n = fld p 36 2 ∧ n ≤ 1024 ∧ payloadOk p (38 + n) [(14, 2)] [4] = true) := by
  intro s k x p t scheme
  exact ⟨2, _, gives_same ([]) (by decide +kernel) (by decide +kernel), _, _, gives_of ({}) (by decide +kernel), may_of (by decide +kernel), by decide +kernel⟩

theorem witness_smPinChange :
    let s : State := fn 0x0405 [key uE1 2 mX 16, key uP0 2 mD 16] (pay 64 [(4, kref 8256), (12, kref 8257), (20, [0, 0, 0, 4, 12]), (28, panBytes)])
    let k := 0
    let x := s.asked k
    let p := x.payload
    let t := s.computing k
    let scheme := fld p 20 1
    let fmt := fld p 22 1
    ∃ pan : List Nat, ((Fn.pan p 28).gives t pan t) ∧
      ∃ h : Handle, ∃ s1 : State, ((Fn.resolveRole x 4 (emvRole uE1 scheme)).gives t h s1) ∧
      ∃ kp : Handle, ∃ s2 : State, ((Fn.resolveRole x 12 (pinIn fmt)).gives s1 kp s2) ∧
      (s.mayCompute k (· == 0x0405)) ∧
      (payloadOk p 64 [(25, 3)] [4, 12] = true ∧ scheme ≤ 1 ∧ fmtOk fmt = true ∧ lensOk (fld p 23 1) (fld p 24 1) = true ∧ pinblkOk p 48 fmt = true) := by
  intro s k x p t scheme fmt
  exact ⟨_, gives_same ([]) (by decide +kernel) (by decide +kernel), _, _, gives_of ({}) (by decide +kernel), _, _, gives_of ({}) (by decide +kernel), may_of (by decide +kernel), by decide +kernel⟩

theorem witness_dukptMacVerify :
    let s : State := fn 0x0501 [key uB0 2 mX 16] (pay 48 [(4, kref 8256), (12, [0xFF, 0xFF, 0x98, 0x76, 0x54, 0x32, 0x10, 0xE0, 0x00, 0x01]), (26, [4]), (44, [0, 2])])
    let k := 0
    let x := s.asked k
    let p := x.payload
    let t := s.computing k
    let wk := fld p 24 1
    let len := fld p 26 1
    ∃ n : Nat, ∃ h : Handle, ∃ s1 : State, ((Fn.resolveRole x 4 bdkRole).gives t h s1) ∧
      ∃ d : Dukpt, ((Fn.dukpt h wk (slice p 12 12) .macRequest).gives s1 d s1) ∧
      (s.mayCompute k (· == 0x0501)) ∧
      (wk ≤ 2 ∧ wklenOk h wk (slice p 12 12) = true ∧ 4 ≤ len ∧ len ≤ 16 ∧ (3 ≤ h.attr.alg ∨ len ≤ 8)) ∧
      (n = fld p 44 2 ∧ n ≤ 384 ∧ payloadOk p (46 + n) [(25, 1), (27, 1)] [4] = true) := by
  intro s k x p t wk len
  exact ⟨2, _, _, gives_of ({}) (by decide +kernel), _, gives_same ({ aes := false, key := [], id := [], counter := 0 }) (by decide +kernel) (by decide +kernel), may_of (by decide +kernel), by decide +kernel, by decide +kernel⟩

theorem witness_dukptMacGenerate :
    let s : State := fn 0x0502 [key uB0 5 mX 32] (pay 32 [(4, kref 8256), (12, [1, 2, 3, 4, 5, 6, 7, 8, 0, 0, 0, 1]), (24, [2]), (26, [16]), (28, [0, 2])])
    let k := 0
    let x := s.asked k
    let p := x.payload
    let t := s.computing k
    let wk := fld p 24 1
    let len := fld p 26 1
    ∃ n : Nat, ∃ h : Handle, ∃ s1 : State, ((Fn.resolveRole x 4 bdkRole).gives t h s1) ∧
      ∃ d : Dukpt, ((Fn.dukpt h wk (slice p 12 12) .macResponse).gives s1 d s1) ∧
      (s.mayCompute k (· == 0x0502)) ∧
      (wk ≤ 2 ∧ wklenOk h wk (slice p 12 12) = true ∧ 4 ≤ len ∧ len ≤ 16 ∧ (3 ≤ h.attr.alg ∨ len ≤ 8)) ∧
      (n = fld p 28 2 ∧ n ≤ 384 ∧ payloadOk p (30 + n) [(25, 1), (27, 1)] [4] = true) := by
  intro s k x p t wk len
  exact ⟨2, _, _, gives_of ({}) (by decide +kernel), _, gives_same ({ aes := false, key := [], id := [], counter := 0 }) (by decide +kernel) (by decide +kernel), may_of (by decide +kernel), by decide +kernel, by decide +kernel⟩

theorem witness_dukptDataDecrypt :
    let s : State := fn 0x0504 [key uB0 2 mX 16] (pay 62 [(4, kref 8256), (12, [0xFF, 0xFF, 0x98, 0x76, 0x54, 0x32, 0x10, 0xE0, 0x00, 0x01]), (44, [0, 16])])
    let k := 0
    let x := s.asked k
    let p := x.payload
    let t := s.computing k
    let wk := fld p 24 1
    ∃ n : Nat, ∃ h : Handle, ∃ s1 : State, ((Fn.resolveRole x 4 bdkRole).gives t h s1) ∧
      ∃ d : Dukpt, ((Fn.dukpt h wk (slice p 12 12) .dataRequest).gives s1 d s1) ∧
      (s.mayCompute k (· == 0x0504)) ∧
      (wk ≤ 2 ∧ wklenOk h wk (slice p 12 12) = true ∧ n = fld p 44 2 ∧ payloadOk p (46 + n) [(25, 3)] [4] = true) ∧
      (16 ≤ n ∧ n ≤ 1024 ∧ n % 8 = 0 ∧ (h.attr.alg < 3 ∨ n % 16 = 0)) := by
  intro s k x p t wk
  exact ⟨16, _, _, gives_of ({}) (by decide +kernel), _, gives_same ({ aes := false, key := [], id := [], counter := 0 }) (by decide +kernel) (by decide +kernel), may_of (by decide +kernel), by decide +kernel, by decide +kernel⟩

theorem witness_dukptDataEncrypt :
    let s : State := fn 0x0505 [key uB0 5 mX 32] (pay 62 [(4, kref 8256), (12, [1, 2, 3, 4, 5, 6, 7, 8, 0, 0, 0, 1]), (24, [1]), (44, [0, 16])])
    let k := 0
    let x := s.asked k
    let p := x.payload
    let t := s.computing k
    let wk := fld p 24 1
    ∃ n : Nat, ∃ h : Handle, ∃ s1 : State, ((Fn.resolveRole x 4 bdkRole).gives t h s1) ∧
      ∃ d : Dukpt, ((Fn.dukpt h wk (slice p 12 12) .dataResponse).gives s1 d s1) ∧
      (s.mayCompute k (· == 0x0505)) ∧
      (wk ≤ 2 ∧ wklenOk h wk (slice p 12 12) = true ∧ n = fld p 44 2 ∧ payloadOk p (46 + n) [(25, 3)] [4] = true) ∧
      (16 ≤ n ∧ n ≤ 1024 ∧ n % 8 = 0 ∧ (h.attr.alg < 3 ∨ n % 16 = 0)) := by
  intro s k x p t wk
  exact ⟨16, _, _, gives_of ({}) (by decide +kernel), _, gives_same ({ aes := false, key := [], id := [], counter := 0 }) (by decide +kernel) (by decide +kernel), may_of (by decide +kernel), by decide +kernel, by decide +kernel⟩

theorem witness_dukptPinTranslate :
    let s : State := fn 0x0503 [key uB0 2 mX 16, key uP0 5 mE 32] (pay 68 [(4, kref 8256), (12, kref 8257), (20, [0xFF, 0xFF, 0x98, 0x76, 0x54, 0x32, 0x10, 0xE0, 0x00, 0x01]), (33, [0, 4, 4, 12]), (40, panBytes)])
    let k := 0
    let x := s.asked k
    let p := x.payload
    let t := s.computing k
    let wk := fld p 32 1
    let fin := fld p 33 1
    let fout := fld p 34 1
    ∃ pan : List Nat, ((Fn.pan p 40).gives t pan t) ∧
      ∃ h : Handle, ∃ s1 : State, ((Fn.resolveRole x 4 bdkRole).gives t h s1) ∧
      ∃ ko : Handle, ∃ s2 : State, ((Fn.resolveRole x 12 (pinOut fout)).gives s1 ko s2) ∧
      ∃ d : Dukpt, ((Fn.dukpt h wk (slice p 20 12) .pin).gives s2 d s2) ∧
      ∃ fill : Bytes, ∃ s3 : State, ((Fn.fill fout).gives s2 fill s3) ∧
      (s.mayCompute k (· == 0x0503)) ∧
      (wk ≤ 2 ∧ fmtOk fin = true ∧ fmtOk fout = true ∧ lensOk (fld p 35 1) (fld p 36 1) = true ∧ pinblkOk p 52 fin = true) ∧
      (wklenOk h wk (slice p 20 12) = true ∧ (fin = 4 ↔ 3 ≤ h.attr.alg) ∧ s2.translates x.tenant fin fout = true ∧ payloadOk p 68 [(37, 3)] [4, 12] = true) := by
  intro s k x p t wk fin fout
  exact ⟨_, gives_same ([]) (by decide +kernel) (by decide +kernel), _, _, gives_of ({}) (by decide +kernel), _, _, gives_of ({}) (by decide +kernel), _, gives_same ({ aes := false, key := [], id := [], counter := 0 }) (by decide +kernel) (by decide +kernel), _, _, gives_of ([]) (by decide +kernel), may_of (by decide +kernel), by decide +kernel, by decide +kernel⟩

theorem witness_dukptPinTranslateTracked :
    let s : State := fn 0x0510 [key uB0 5 mX 32, key uP0 2 mE 16] (pay 72 [(4, kref 8256), (12, kref 8257), (20, [1, 2, 3, 4, 5, 6, 7, 8, 0, 0, 0, 1]), (32, [1, 4, 0, 4, 12]), (40, panBytes)])
    let k := 0
    let x := s.asked k
    let p := x.payload
    let t := s.computing k
    let wk := fld p 32 1
    let fin := fld p 33 1
    let fout := fld p 34 1
    ∃ pan : List Nat, ((Fn.pan p 40).gives t pan t) ∧
      ∃ h : Handle, ∃ s1 : State, ((Fn.resolveRole x 4 bdkRole).gives t h s1) ∧
      ∃ ko : Handle, ∃ s2 : State, ((Fn.resolveRole x 12 (pinOut fout)).gives s1 ko s2) ∧
      ∃ d : Dukpt, ((Fn.dukpt h wk (slice p 20 12) .pin).gives s2 d s2) ∧
      ∃ fill : Bytes, ∃ s3 : State, ((Fn.fill fout).gives s2 fill s3) ∧
      (s.mayCompute k (· == 0x0510)) ∧
      (wk ≤ 2 ∧ fmtOk fin = true ∧ fmtOk fout = true ∧ lensOk (fld p 35 1) (fld p 36 1) = true ∧ pinblkOk p 52 fin = true) ∧
      (wklenOk h wk (slice p 20 12) = true ∧ (fin = 4 ↔ 3 ≤ h.attr.alg) ∧ s2.translates x.tenant fin fout = true ∧ payloadOk p 72 [(37, 3)] [4, 12] = true) := by
  intro s k x p t wk fin fout
  exact ⟨_, gives_same ([]) (by decide +kernel) (by decide +kernel), _, _, gives_of ({}) (by decide +kernel), _, _, gives_of ({}) (by decide +kernel), _, gives_same ({ aes := false, key := [], id := [], counter := 0 }) (by decide +kernel) (by decide +kernel), _, _, gives_of ([]) (by decide +kernel), may_of (by decide +kernel), by decide +kernel, by decide +kernel⟩


/-! ### Key-management functions -/

theorem witness_keyImport :
    let s : State := fn 0x0601 [kekAes mD] (pay 34 [(4, kref 8256), (13, [1]), (16, [0, 16]), (18, hdrD)])
    let k := 0
    let x := s.asked k
    let p := x.payload
    let t := s.computing k
    let format := fld p 13 1
    let n := fld p 16 2
    ∃ g : SmkGen, ∃ h : Handle, ∃ s1 : State, ((Fn.resolveRole x 4 (kekRole [mD, mB])).gives t h s1) ∧
      ((Fn.producing x (fld p 12 1)).gives s1 g s1) ∧
      (s.mayCompute k (· == 0x0601)) ∧
      (payloadOk p (18 + n) [(14, 2)] [4] = true ∧ fld p 12 1 ≤ 7 ∧ format ≤ 2 ∧ format ≠ 0 ∧ incomingOk h (slice p 18 n) = true ∧ n ≤ 248) := by
  intro s k x p t format n
  exact ⟨smkGen1, _, _, gives_of ({}) (by decide +kernel), gives_producing (by decide +kernel), may_of (by decide +kernel), by decide +kernel⟩

theorem witness_keyImportLarge :
    let s : State := fn 0x0606 [kekAes mN] (pay 418 [(4, kref 8256), (13, [2]), (16, [1, 0x90]), (18, hdrD)])
    let k := 0
    let x := s.asked k
    let p := x.payload
    let t := s.computing k
    let format := fld p 13 1
    let n := fld p 16 2
    ∃ g : SmkGen, ∃ h : Handle, ∃ s1 : State, ((Fn.resolveRole x 4 (kekRole [mD, mB])).gives t h s1) ∧
      ((Fn.producing x (fld p 12 1)).gives s1 g s1) ∧
      (s.mayCompute k (· == 0x0606)) ∧
      (payloadOk p (18 + n) [(14, 2)] [4] = true ∧ fld p 12 1 ≤ 7 ∧ format ≤ 2 ∧ format ≠ 0 ∧ incomingOk h (slice p 18 n) = true ∧ n ≤ 4000) := by
  intro s k x p t format n
  exact ⟨smkGen1, _, _, gives_of ({}) (by decide +kernel), gives_producing (by decide +kernel), may_of (by decide +kernel), by decide +kernel⟩

theorem witness_keyExport :
    let s : State := fn 0x0602 [kekTdes mE, key uP0 1 mE 16] (pay 24 [(4, kref 8256), (12, kref 8257)])
    let k := 0
    let x := s.asked k
    let p := x.payload
    let t := s.computing k
    let format := fld p 20 1
    ∃ h : Handle, ∃ s1 : State, ((Fn.resolveRole x 4 (kekRole [mE, mB])).gives t h s1) ∧
      ∃ key : Handle, ∃ s2 : State, ((Fn.resolve x 12 (fun _ => true)).gives s1 key s2) ∧
      (s.mayCompute k (· == 0x0602)) ∧
      (payloadOk p 24 [(21, 3)] [4, 12] = true ∧ format ≤ 2 ∧ exportOk key.attr h = true) ∧
      (strengthOf key.attr key.key ≤ strengthOf h.attr h.key ∧ formatFits format h.attr.alg = true ∧ (format = 0 → key.attr.alg ≤ 2)) := by
  intro s k x p t format
  exact ⟨_, _, gives_of ({}) (by decide +kernel), _, _, gives_of ({}) (by decide +kernel), may_of (by decide +kernel), by decide +kernel, by decide +kernel⟩

theorem witness_keyTranslate :
    let s : State := fn 0x0603 [kekAes mD, kekTdes mB] (pay 42 [(4, kref 8256), (12, kref 8257), (24, [0, 16]), (26, hdrD)])
    let k := 0
    let x := s.asked k
    let p := x.payload
    let t := s.computing k
    let format := fld p 20 1
    let n := fld p 24 2
    ∃ h : Handle, ∃ s1 : State, ((Fn.resolveRole x 4 (kekRole [mD, mB])).gives t h s1) ∧
      ∃ ho : Handle, ∃ s2 : State, ((Fn.resolveRole x 12 (kekRole [mE, mB])).gives s1 ho s2) ∧
      (s.mayCompute k (· == 0x0603)) ∧
      (payloadOk p (26 + n) [(21, 3)] [4, 12] = true ∧ format ≤ 2 ∧ n ≤ 248) ∧
      (incomingOk h (slice p 26 n) = true ∧ formatFits format ho.attr.alg = true) := by
  intro s k x p t format n
  exact ⟨_, _, gives_of ({}) (by decide +kernel), _, _, gives_of ({}) (by decide +kernel), may_of (by decide +kernel), by decide +kernel, by decide +kernel⟩

theorem witness_keyGenerateAlone :
    let s : State := fn 0x0604 [] (pay 24 [(4, outAttr 1 uP0 mE)])
    let k := 0
    let x := s.asked k
    let p := x.payload
    let t := s.computing k
    let o := outAttrAt p 4
    let format := fld p 20 1
    ∃ g : SmkGen, ((Fn.producing x o.smk).gives t g t) ∧
      (s.mayCompute k (· == 0x0604)) ∧
      (outAttrOk p 4 [1, 2, 3, 4, 5, 6] = true ∧ format ≤ 2 ∧ o.format ≠ 0 ∧ fld p 12 1 = 0 ∧ payloadOk p 24 [(21, 3)] [] = true) := by
  intro s k x p t o format
  exact ⟨_, gives_same ({ gen := 0, shareA := [], shareB := [] }) (by decide +kernel) (by decide +kernel), may_of (by decide +kernel), by decide +kernel⟩

theorem witness_keyGenerateUnderKek :
    let s : State := fn 0x0604 [kekTdes mE] (pay 24 [(4, outAttr 1 uP0 mE), (12, kref 8256)])
    let k := 0
    let x := s.asked k
    let p := x.payload
    let t := s.computing k
    let o := outAttrAt p 4
    let format := fld p 20 1
    let n := keyLength o.attr.alg
    ∃ g : SmkGen, ∃ h : Handle, ∃ s1 : State, ((Fn.resolveRole x 12 (kekRole [mE, mB])).gives t h s1) ∧
      (s.mayCompute k (· == 0x0604)) ∧
      ((Fn.producing x o.smk).gives s1 g s1) ∧
      (outAttrOk p 4 [1, 2, 3, 4, 5, 6] = true ∧ format ≤ 2 ∧ o.format ≠ 0 ∧ fld p 12 1 ≠ 0 ∧ payloadOk p 24 [(21, 3)] [12] = true) ∧
      (strengthOf o.attr (zeros n) ≤ strengthOf h.attr h.key ∧ formatFits format h.attr.alg = true ∧ (format = 0 → o.attr.alg ≤ 2)) := by
  intro s k x p t o format n
  exact ⟨smkGen1, _, _, gives_of ({}) (by decide +kernel), may_of (by decide +kernel), gives_producing (by decide +kernel), by decide +kernel, by decide +kernel⟩

theorem witness_keyCheckValue :
    let s : State := fn 0x0605 [key uM6 6 mG 64] (pay 12 [(4, kref 8256)])
    let k := 0
    let x := s.asked k
    let p := x.payload
    let t := s.computing k
    ∃ h : Handle, ∃ s1 : State, ((Fn.resolve x 4 (fun _ => true)).gives t h s1) ∧
      (s.mayCompute k (· == 0x0605)) ∧
      (payloadOk p 12 [] [4] = true) := by
  intro s k x p t
  exact ⟨_, _, gives_of ({}) (by decide +kernel), may_of (by decide +kernel), by decide +kernel⟩

theorem witness_keyDeleteResident :
    let s : State := fn 0x0611 [key uM6 5 mG 32] (pay 12 [(4, beBytes 4 8256)])
    let k := 0
    let x := s.asked k
    let p := x.payload
    let t := s.computing k
    let u := fld p 4 4
    let r := t.resident u
    (s.mayCompute k (· == 0x0611)) ∧
      (layoutOk p 12 [(8, 4)] = true ∧ 8256 ≤ u ∧ u < 65536 ∧ r.kind ≠ .free ∧ r.tenant = x.tenant) ∧
      (folioReached x.admitTick r.from_ = true ∧ r.kind ≠ .retiring ∧ (∀ e ∈ s.folio.effects, e.effect ≠ .residentDelete u)) := by
  intro s k x p t u r
  exact ⟨may_of (by decide +kernel), by decide +kernel, by decide +kernel⟩

theorem witness_tr34Import :
    let s : State := fn 0x0620 [key uK2 7 mD 256, pubKey uS0 7 mV 0 (zeros 260)] (pay 36 [(4, kref 8256), (12, kref 8257), (21, [1]), (24, [0, 10])])
    let k := 0
    let x := s.asked k
    let p := x.payload
    let t := s.computing k
    let format := fld p 21 1
    let n := fld p 24 2
    ∃ h : Handle, ∃ s1 : State, ((Fn.resolveRole x 4 { usages := [uK2], modes := [mD], algs := [7] }).gives t h s1) ∧
      ∃ kd : Handle, ∃ s2 : State, ((Fn.resolveRole x 12 (kdhRole mV)).gives s1 kd s2) ∧
      ∃ g : SmkGen, ((Fn.producing x (fld p 20 1)).gives s2 g s2) ∧
      (s.mayCompute k (· == 0x0620)) ∧
      (payloadOk p (26 + n) [(22, 2)] [4, 12] = true ∧ fld p 20 1 ≤ 7 ∧ format ≤ 2 ∧ format ≠ 0 ∧ n ≤ 4000) := by
  intro s k x p t format n
  exact ⟨_, _, gives_of ({}) (by decide +kernel), _, _, gives_of ({}) (by decide +kernel), smkGen1, gives_producing (by decide +kernel), may_of (by decide +kernel), by decide +kernel⟩

theorem witness_tr34Export :
    let s : State := fn 0x0621 [key uS0 7 mS 1160, key uK0 5 mE 32] (pay 282 [(4, kref 8256), (12, kref 8257), (20, beBytes 4 65537), (24, [1, 0])])
    let k := 0
    let x := s.asked k
    let p := x.payload
    let t := s.computing k
    let n := fld p 24 2
    ∃ h : Handle, ∃ s1 : State, ((Fn.resolveRole x 4 (kdhRole mS)).gives t h s1) ∧
      ∃ kd : Handle, ∃ s2 : State, ((Fn.resolve x 12 (fun _ => true)).gives s1 kd s2) ∧
      ∃ rnd : Bytes, ∃ s3 : State, ((Fn.draw 64).gives s2 rnd s3) ∧
      (s.mayCompute k (· == 0x0621)) ∧
      (payloadOk p (26 + n) [] [4, 12] = true ∧ (fld p 20 4 = 3 ∨ fld p 20 4 = 65537) ∧ n = 256) := by
  intro s k x p t n
  exact ⟨_, _, gives_of ({}) (by decide +kernel), _, _, gives_of ({}) (by decide +kernel), _, _, gives_of ([]) (by decide +kernel), may_of (by decide +kernel), by decide +kernel⟩

theorem witness_ecKeypairGenerate :
    let s : State := fn 0x0630 [] (pay 20 [(4, outAttr 16 uS0 mS), (12, [1, 0, 0, 0, 0, 0, 0, 0])])
    let k := 0
    let x := s.asked k
    let p := x.payload
    let t := s.computing k
    let o := outAttrAt p 4
    let code := fld p 12 1
    ∃ g : SmkGen, ((Fn.producing x o.smk).gives t g t) ∧
      ∃ c : Curve, ∃ row : Nat, ((Fn.curve x code (fld p 16 4)).gives t (c, row) t) ∧
      (s.mayCompute k (· == 0x0630)) ∧
      (o.format ≠ 0 ∧ payloadOk p 20 [(13, 3)] [] = true ∧ outAttrOk p 4 [16] = true ∧ 1 ≤ code ∧ code ≤ 4 ∧ handleOk code (fld p 16 4) = true) := by
  intro s k x p t o code
  exact ⟨_, gives_same ({ gen := 0, shareA := [], shareB := [] }) (by decide +kernel) (by decide +kernel), p256, _, rfl, may_of (by decide +kernel), by decide +kernel⟩

theorem witness_mlKemKeypair :
    let s : State := fn 0x0631 [] (pay 12 [(4, outAttr 17 uK1 mD)])
    let k := 0
    let x := s.asked k
    let p := x.payload
    let t := s.computing k
    let o := outAttrAt p 4
    ∃ g : SmkGen, ((Fn.producing x o.smk).gives t g t) ∧
      (s.mayCompute k (· == 0x0631)) ∧
      (o.format ≠ 0 ∧ payloadOk p 12 [] [] = true ∧ outAttrOk p 4 [17] = true) := by
  intro s k x p t o
  exact ⟨_, gives_same ({ gen := 0, shareA := [], shareB := [] }) (by decide +kernel) (by decide +kernel), may_of (by decide +kernel), by decide +kernel⟩

theorem witness_mlDsaKeypair :
    let s : State := fn 0x0632 [] (pay 12 [(4, outAttr 18 uS0 mS)])
    let k := 0
    let x := s.asked k
    let p := x.payload
    let t := s.computing k
    let o := outAttrAt p 4
    ∃ g : SmkGen, ((Fn.producing x o.smk).gives t g t) ∧
      (s.mayCompute k (· == 0x0632)) ∧
      (o.format ≠ 0 ∧ payloadOk p 12 [] [] = true ∧ outAttrOk p 4 [18] = true) := by
  intro s k x p t o
  exact ⟨_, gives_same ({ gen := 0, shareA := [], shareB := [] }) (by decide +kernel) (by decide +kernel), may_of (by decide +kernel), by decide +kernel⟩

theorem witness_randomShort :
    let s : State := fn 0x0901 [] (pay 8 [(4, [0, 64])])
    let k := 0
    let x := s.asked k
    let p := x.payload
    let t := s.computing k
    ∃ n : Nat, (s.mayCompute k (· == 0x0901)) ∧
      (n = fld p 4 2 ∧ layoutOk p 8 [(6, 2)] = true ∧ 1 ≤ n ∧ t.drawStatus true = stOk ∧ n ≤ 64) := by
  intro s k x p t
  exact ⟨64, may_of (by decide +kernel), by decide +kernel⟩

theorem witness_randomLong :
    let s : State := fn 0x0902 [] (pay 8 [(4, [0x10, 0])])
    let k := 0
    let x := s.asked k
    let p := x.payload
    let t := s.computing k
    ∃ n : Nat, (s.mayCompute k (· == 0x0902)) ∧
      (n = fld p 4 2 ∧ layoutOk p 8 [(6, 2)] = true ∧ 1 ≤ n ∧ t.drawStatus true = stOk ∧ n ≤ 4096) := by
  intro s k x p t
  exact ⟨4096, may_of (by decide +kernel), by decide +kernel⟩

theorem witness_hash :
    let s : State := fn 0x0910 [] (pay 12 [(4, [3]), (6, [0, 4])])
    let k := 0
    let x := s.asked k
    let p := x.payload
    ∃ n : Nat, (s.mayCompute k (· == 0x0910)) ∧
      (n = fld p 6 2 ∧ layoutOk p (8 + n) [(5, 1)] = true ∧ n ≤ 8180 ∧ fld p 4 1 = 3) := by
  intro s k x p
  exact ⟨4, may_of (by decide +kernel), by decide +kernel⟩

theorem witness_ff1Encrypt :
    let s : State := fn 0x0920 [key uD0 5 mE 32] (pay 24 [(4, kref 8256), (12, [10, 6, 2]), (18, [0x30, 0x31, 0x32, 0x33, 0x34, 0x39])])
    let k := 0
    let x := s.asked k
    let p := x.payload
    let t := s.computing k
    let radix := fld p 12 1
    let n := fld p 13 1
    let tw := fld p 14 1
    let l := (slice p (16 + tw) n).map numeralOf
    ∃ h : Handle, ∃ s1 : State, ((Fn.resolveRole x 4 { usages := [uD0], modes := [mE, mB], algs := [3, 4, 5] }).gives t h s1) ∧
      (s.mayCompute k (· == 0x0920)) ∧
      (payloadOk p (16 + tw + n) [(15, 1)] [4] = true ∧ tw ≤ 32 ∧ ((radix = 10 ∧ 6 ≤ n ∧ n ≤ 56) ∨ (radix = 36 ∧ 4 ≤ n ∧ n ≤ 36)) ∧ (∀ d ∈ l, d < radix)) := by
  intro s k x p t radix n tw l
  exact ⟨_, _, gives_of ({}) (by decide +kernel), may_of (by decide +kernel), by decide +kernel⟩

theorem witness_ff1Decrypt :
    let s : State := fn 0x0921 [key uD0 3 mB 16] (pay 20 [(4, kref 8256), (12, [36, 4, 0]), (16, [0x61, 0x7A, 0x32, 0x33])])
    let k := 0
    let x := s.asked k
    let p := x.payload
    let t := s.computing k
    let radix := fld p 12 1
    let n := fld p 13 1
    let tw := fld p 14 1
    let l := (slice p (16 + tw) n).map numeralOf
    ∃ h : Handle, ∃ s1 : State, ((Fn.resolveRole x 4 { usages := [uD0], modes := [mD, mB], algs := [3, 4, 5] }).gives t h s1) ∧
      (s.mayCompute k (· == 0x0921)) ∧
      (payloadOk p (16 + tw + n) [(15, 1)] [4] = true ∧ tw ≤ 32 ∧ ((radix = 10 ∧ 6 ≤ n ∧ n ≤ 56) ∨ (radix = 36 ∧ 4 ≤ n ∧ n ≤ 36)) ∧ (∀ d ∈ l, d < radix)) := by
  intro s k x p t radix n tw l
  exact ⟨_, _, gives_of ({}) (by decide +kernel), may_of (by decide +kernel), by decide +kernel⟩


/-! ### Public-key functions -/

theorem witness_rsaPrivateSign :
    let s : State := fn 0x0701 [key uS0 7 mS 1160] (pay 50 [(4, kref 8256), (12, [1, 1]), (16, [0, 32])])
    let k := 0
    let x := s.asked k
    let p := x.payload
    let t := s.computing k
    let scheme := fld p 12 1
    let hash := fld p 13 1
    let len := fld p 16 2
    ∃ n : Nat, ∃ h : Handle, ∃ s1 : State, ((Fn.resolveRole x 4 { usages := [uS0], modes := [mS], algs := [7, 8, 9] }).gives t h s1) ∧
      (s.mayCompute k [0x0701, 0x0702, 0x0703].contains) ∧
      (n = (if x.func = 0x0701 then 256 else if x.func = 0x0702 then 384 else 512) ∧ payloadOk p (18 + len) [(14, 2)] [4] = true ∧ 1 ≤ hash ∧ hash ≤ 3) ∧
      ((scheme = 1 ∨ scheme = 2) ∧ len = hashLen hash) := by
  intro s k x p t scheme hash len
  exact ⟨256, _, _, gives_of ({}) (by decide +kernel), may_of (by decide +kernel), by decide +kernel, by decide +kernel⟩

theorem witness_rsaPrivateDecrypt :
    let s : State := fn 0x0703 [key uD1 9 mD 2312] (pay 530 [(4, kref 8256), (12, [3, 3]), (16, [2, 0])])
    let k := 0
    let x := s.asked k
    let p := x.payload
    let t := s.computing k
    let scheme := fld p 12 1
    let hash := fld p 13 1
    let len := fld p 16 2
    ∃ n : Nat, ∃ h : Handle, ∃ s1 : State, ((Fn.resolveRole x 4 { usages := [uD1], modes := [mD], algs := [7, 8, 9] }).gives t h s1) ∧
      (s.mayCompute k [0x0701, 0x0702, 0x0703].contains) ∧
      (n = (if x.func = 0x0701 then 256 else if x.func = 0x0702 then 384 else 512) ∧ payloadOk p (18 + len) [(14, 2)] [4] = true ∧ 1 ≤ hash ∧ hash ≤ 3) ∧
      (scheme = 3 ∧ len = n) := by
  intro s k x p t scheme hash len
  exact ⟨512, _, _, gives_of ({}) (by decide +kernel), may_of (by decide +kernel), by decide +kernel, by decide +kernel⟩

theorem witness_rsaPublicVerify :
    let s : State := fn 0x0704 [] (pay 562 [(4, [2, 1]), (8, beBytes 4 65537), (12, [1, 0]), (270, [0, 32]), (304, [1, 0])])
    let k := 0
    let x := s.asked k
    let p := x.payload
    let scheme := fld p 4 1
    let hash := fld p 5 1
    let e := fld p 8 4
    let n := fld p 12 2
    let len := fld p (14 + n) 2
    let slen := fld p (16 + n + len) 2
    (s.mayCompute k [0x0704, 0x0705].contains) ∧
      ((if x.func = 0x0704 then [256] else [384, 512]).contains n = true ∧ payloadOk p (18 + n + len + slen) [(6, 2)] [] = true ∧ 1 ≤ hash ∧ hash ≤ 3) ∧
      ((e = 3 ∨ e = 65537) ∧ (scheme = 1 ∨ scheme = 2) ∧ len = hashLen hash ∧ slen = n) := by
  intro s k x p scheme hash e n len slen
  exact ⟨may_of (by decide +kernel), by decide +kernel, by decide +kernel⟩

theorem witness_rsaPublicEncrypt :
    let s : State := fn 0x0705 [] (pay 412 [(4, [3, 1]), (8, beBytes 4 3), (12, [1, 0x80]), (398, [0, 10])])
    let k := 0
    let x := s.asked k
    let p := x.payload
    let scheme := fld p 4 1
    let hash := fld p 5 1
    let e := fld p 8 4
    let n := fld p 12 2
    let len := fld p (14 + n) 2
    let slen := fld p (16 + n + len) 2
    (s.mayCompute k [0x0704, 0x0705].contains) ∧
      ((if x.func = 0x0704 then [256] else [384, 512]).contains n = true ∧ payloadOk p (18 + n + len + slen) [(6, 2)] [] = true ∧ 1 ≤ hash ∧ hash ≤ 3) ∧
      ((e = 3 ∨ e = 65537) ∧ scheme = 3 ∧ len + 2 * hashLen hash + 2 ≤ n ∧ slen = 0) := by
  intro s k x p scheme hash e n len slen
  exact ⟨may_of (by decide +kernel), by decide +kernel, by decide +kernel⟩

theorem witness_ecdsaSign :
    let s : State := fn 0x0710 [key uS0 16 mS 32] (pay 52 [(4, kref 8256), (16, [32])])
    let k := 0
    let x := s.asked k
    let p := x.payload
    let t := s.computing k
    let hlen := fld p 16 1
    ∃ c : Curve, ∃ row : Nat, ∃ h : Handle, ∃ s1 : State, ((Fn.resolveRole x 4 { usages := [uS0], modes := [mS], algs := [16] }).gives t h s1) ∧
      ((Fn.curve x (x.func - 0x070F) (fld p 12 4)).gives s1 (c, row) s1) ∧
      (s.mayCompute k [0x0710, 0x0711, 0x0712, 0x0713].contains) ∧
      (payloadOk p (20 + hlen) [(17, 3)] [4] = true ∧ handleOk (x.func - 0x070F) (fld p 12 4) = true ∧ 20 ≤ hlen ∧ hlen ≤ 64) := by
  intro s k x p t hlen
  exact ⟨p256, 1, _, _, gives_of ({}) (by decide +kernel), gives_p256 (by decide +kernel), may_of (by decide +kernel), by decide +kernel⟩

theorem witness_ecdsaVerify :
    let s : State := fn 0x0718 [] (pay 173 [(8, [32]), (10, [0, 65]), (12, [4])])
    let k := 0
    let x := s.asked k
    let p := x.payload
    let t := s.computing k
    let hlen := fld p 8 1
    let plen := fld p 10 2
    let stop := 12 + plen + hlen
    ∃ c : Curve, ∃ row : Nat, ((Fn.curve x (x.func - 0x0717) (fld p 4 4)).gives t (c, row) t) ∧
      (s.mayCompute k [0x0718, 0x0719, 0x071A, 0x071B].contains) ∧
      (stop + 2 * c.nLen = p.length ∧ 2 * c.nLen ≤ 144 ∧ payloadOk p p.length [(9, 1)] [] = true) ∧
      (handleOk (x.func - 0x0717) (fld p 4 4) = true ∧ 20 ≤ hlen ∧ hlen ≤ 64 ∧ plen = 1 + 2 * c.pLen ∧ plen ≤ 145) ∧
      (fld (slice p 12 plen) 0 1 = 4 ∧ (slice p 12 plen).length = plen) := by
  intro s k x p t hlen plen stop
  exact ⟨p256, 1, gives_p256 (by decide +kernel), may_of (by decide +kernel), by decide +kernel, by decide +kernel, by decide +kernel⟩

theorem witness_ecdh :
    let s : State := fn 0x0720 [key uK3 16 mX 32] (pay 95 [(4, kref 8256), (16, outAttr 5 uD0 mE), (24, [1]), (28, [0, 65]), (30, [4])])
    let k := 0
    let x := s.asked k
    let p := x.payload
    let t := s.computing k
    let o := outAttrAt p 16
    let ilen := fld p 25 1
    let plen := fld p 28 2
    ∃ c : Curve, ∃ row : Nat, ∃ g : SmkGen, ∃ h : Handle, ∃ s1 : State, ((Fn.resolveRole x 4 { usages := [uK3], modes := [mX], algs := [16] }).gives t h s1) ∧
      ((Fn.producing x o.smk).gives s1 g s1) ∧
      ((Fn.curve x (x.func - 0x071F) (fld p 12 4)).gives s1 (c, row) s1) ∧
      (s.mayCompute k [0x0720, 0x0721, 0x0722, 0x0723].contains) ∧
      (payloadOk p (30 + plen + ilen) [(26, 2)] [4] = true ∧ handleOk (x.func - 0x071F) (fld p 12 4) = true ∧ outAttrOk p 16 [1, 2, 3, 4, 5, 6] = true) ∧
      ((fld p 24 1 = 1 ∨ fld p 24 1 = 2) ∧ ilen ≤ 64 ∧ plen ≤ 145 ∧ o.format ≠ 0) ∧
      (plen = 1 + 2 * c.pLen ∧ fld (slice p 30 plen) 0 1 = 4 ∧ (slice p 30 plen).length = plen) := by
  intro s k x p t o ilen plen
  exact ⟨p256, 1, smkGen1, _, _, gives_of ({}) (by decide +kernel), gives_producing (by decide +kernel), gives_p256 (by decide +kernel), may_of (by decide +kernel), by decide +kernel, by decide +kernel, by decide +kernel⟩

theorem witness_mlKemEncaps :
    let s : State := fn 0x0730 [] (pay 1196 [(4, outAttr 5 uD0 mE)])
    let k := 0
    let x := s.asked k
    let p := x.payload
    let t := s.computing k
    let o := outAttrAt p 4
    ∃ g : SmkGen, ((Fn.producing x o.smk).gives t g t) ∧
      (s.mayCompute k (· == 0x0730)) ∧
      (payloadOk p 1196 [] [] = true ∧ outAttrOk p 4 [5, 6] = true ∧ o.format ≠ 0) := by
  intro s k x p t o
  exact ⟨_, gives_same (smkGen1) (by decide +kernel) (by decide +kernel), may_of (by decide +kernel), by decide +kernel⟩

theorem witness_mlKemDecaps :
    let s : State := fn 0x0731 [key uK3 17 mX 64] (pay 1108 [(4, kref 8256), (12, outAttr 6 uM7 mG)])
    let k := 0
    let x := s.asked k
    let p := x.payload
    let t := s.computing k
    let o := outAttrAt p 12
    ∃ g : SmkGen, ∃ h : Handle, ∃ s1 : State, ((Fn.resolveRole x 4 { usages := [uK3], modes := [mX], algs := [17] }).gives t h s1) ∧
      ((Fn.producing x o.smk).gives s1 g s1) ∧
      (s.mayCompute k (· == 0x0731)) ∧
      (payloadOk p 1108 [] [4] = true ∧ outAttrOk p 12 [5, 6] = true ∧ o.format ≠ 0) := by
  intro s k x p t o
  exact ⟨smkGen1, _, _, gives_of ({}) (by decide +kernel), gives_producing (by decide +kernel), may_of (by decide +kernel), by decide +kernel⟩

theorem witness_mlDsaSign :
    let s : State := fn 0x0738 [key uS0 18 mS 32] (pay 20 [(4, kref 8256), (12, [2]), (14, [0, 2])])
    let k := 0
    let x := s.asked k
    let p := x.payload
    let t := s.computing k
    let clen := fld p 12 1
    let mlen := fld p 14 2
    ∃ h : Handle, ∃ s1 : State, ((Fn.resolveRole x 4 { usages := [uS0], modes := [mS], algs := [18] }).gives t h s1) ∧
      ∃ e : Nat, ((Fn.engine false).gives s1 e s1) ∧
      (s.mayCompute k (· == 0x0738)) ∧
      (payloadOk p (16 + clen + mlen) [(13, 1)] [4] = true ∧ mlen ≤ 4096 ∧ h.key.length = 32) := by
  intro s k x p t clen mlen
  exact ⟨_, _, gives_of ({}) (by decide +kernel), _, gives_same (0) (by decide +kernel) (by decide +kernel), may_of (by decide +kernel), by decide +kernel⟩

theorem witness_mlDsaVerify :
    let s : State := fn 0x0739 [] (pay 5273 [(4, [2]), (6, [0, 2])])
    let k := 0
    let x := s.asked k
    let p := x.payload
    let clen := fld p 4 1
    let mlen := fld p 6 2
    (s.mayCompute k (· == 0x0739)) ∧
      (payloadOk p (5269 + clen + mlen) [(5, 1)] [] = true ∧ mlen ≤ 2048) := by
  intro s k x p clen mlen
  exact ⟨may_of (by decide +kernel), by decide +kernel⟩

/-- The table record 0 of tenant 0 is a valid curve of generation 3. -/
def withCurve (s : State) : State :=
  { s with bn := { s.bn with curves := [(0, { state := .valid, gen := 3, pbits := 256, h := 1 })] } }
/-- The handle of that record. -/
def curve0 : Bytes := [0, 3, 0, 0]

theorem witness_curveLoad :
    let s : State := let s := fn 0x50 [] (pay 440 [(4, [0, 192]), (6, [4])]); { s with image := { s.image with tenants := [(0, { curveQuota := 1 })] } }
    let k := 0
    let x := s.asked k
    let p := x.payload
    let t := s.computing k
    let pbits := fld p 4 2
    let h := fld p 6 1
    ∃ i : Nat, (s.mayCompute k (· == 0x50)) ∧
      (layoutOk p 440 [(7, 1)] = true ∧ 192 ≤ pbits ∧ pbits ≤ 576 ∧ 1 ≤ h ∧ h ≤ 4) ∧
      ((t.bn.curves.filter (fun q => decide (q.2.state ≠ .free ∧ q.2.tenant = x.tenant))).length + (t.pendingCurves.filter (fun q => q.2 == x.tenant)).length < (tabGet ({} : TenantImage) t.image.tenants x.tenant).curveQuota) ∧
      ((List.range 256).find? (fun i => decide ((t.curve i).state = .free) && t.pendingCurves.all (fun q => q.1 != i)) = some i) := by
  intro s k x p t pbits h
  exact ⟨0, may_of (by decide +kernel), by decide +kernel, by decide +kernel, by decide +kernel⟩

theorem witness_curveQueryBuiltIn :
    let s : State := fn 0x51 [] (pay 12 [(4, [0, 0, 0, 3])])
    let k := 0
    let x := s.asked k
    let p := x.payload
    ∃ b : Nat, (s.mayCompute k (· == 0x51)) ∧
      (layoutOk p 12 [(8, 4)] = true ∧ builtinBits (fld p 4 4) = some b) := by
  intro s k x p
  exact ⟨512, may_of (by decide +kernel), by decide +kernel⟩

theorem witness_curveQuery :
    let s : State := withCurve (fn 0x51 [] (pay 12 [(4, curve0)]))
    let k := 0
    let x := s.asked k
    let p := x.payload
    let t := s.computing k
    ∃ i : Nat, (s.mayCompute k (· == 0x51)) ∧
      (layoutOk p 12 [(8, 4)] = true ∧ t.curveNamed x.tenant (fld p 4 4) = some i ∧ builtinBits (fld p 4 4) = none) ∧
      ((t.curve i).deletedAt = none) := by
  intro s k x p t
  exact ⟨0, may_of (by decide +kernel), by decide +kernel, by decide +kernel⟩

theorem witness_curveDelete :
    let s : State := withCurve (fn 0x52 [] (pay 12 [(4, curve0)]))
    let k := 0
    let x := s.asked k
    let p := x.payload
    let t := s.computing k
    ∃ i : Nat, (s.mayCompute k (· == 0x52)) ∧
      (layoutOk p 12 [(8, 4)] = true ∧ t.curveNamed x.tenant (fld p 4 4) = some i) ∧
      ((t.curve i).deletedAt = none) := by
  intro s k x p t
  exact ⟨0, may_of (by decide +kernel), by decide +kernel, by decide +kernel⟩


/-! ### Stream functions: for each a submission that the engines accept, and one that they refuse -/

/-- The request of slot 0 goes in order on queue 0 of mode 2, with order key 7; STREAM 0 of it is open where `l` says. -/
def stream (aux : Nat) (l : List (Nat × Stream)) (s : State) : State :=
  { s with sq := { slots := [(0, { s.slot 0 with orderKey := 7, aux := aux })], queues := [(0, { mode := 2 })] },
           bulk := { s.bulk with streams := l },
           image := { s.image with tenants := [(0, { streamQuota := 1 })] },
           ks := { s.ks with cacheQuota := [(0, 100)] } }
/-- An open stream whose output side enciphers in mode `m`. -/
def open0 (m : Nat) : List (Nat × Stream) := [(0, { state := .open, handle := 7, units := 1, sideOut := { mode := m } })]
/-- STREAM_OPEN with an input side of mode 6 and an output side of mode `m`. -/
def openPay (m : Byte) (b : Byte) : Bytes := pay 68 [(4, kref 8256), (12, kref 8257), (20, [6, m, b])]
def streamKeys : List Resident := [key uD0 2 mD 16, key uD0 5 mE 32]

theorem witness_streamOpenAccepted :
    let s : State := stream 0 [] (fn 0x0801 streamKeys (openPay 1 0))
    let k := 0
    let x := s.asked k
    let p := x.payload
    let t := s.computing k
    let f := openFields p
    ∃ kin : Handle, ∃ s1 : State, ((Fn.resolveRole x 4 (sideRole f.modeIn false)).gives t kin s1) ∧
      ∃ kout : Handle, ∃ s2 : State, ((Fn.resolveRole x 12 (sideRole f.modeOut true)).gives s1 kout s2) ∧
      (s.mayCompute k (· == 0x0801)) ∧
      (openLayoutOk p = true ∧ f.modeIn ≠ 0 ∧ f.modeOut ≠ 0 ∧ (bulkAnswer s2 k .openOp kin kout).1 = stOk) := by
  intro s k x p t f
  exact ⟨_, _, gives_of ({}) (by decide +kernel), _, _, gives_of ({}) (by decide +kernel), may_of (by decide +kernel), by decide +kernel⟩

theorem witness_streamOpenRefused :
    let s : State := stream 0 [] (fn 0x0801 streamKeys (openPay 1 1))
    let k := 0
    let x := s.asked k
    let p := x.payload
    let t := s.computing k
    let f := openFields p
    ∃ kin : Handle, ∃ s1 : State, ((Fn.resolveRole x 4 (sideRole f.modeIn false)).gives t kin s1) ∧
      ∃ kout : Handle, ∃ s2 : State, ((Fn.resolveRole x 12 (sideRole f.modeOut true)).gives s1 kout s2) ∧
      (s.mayCompute k (· == 0x0801)) ∧
      (openLayoutOk p = true ∧ f.modeIn ≠ 0 ∧ f.modeOut ≠ 0 ∧ (bulkAnswer s2 k .openOp kin kout).1 ≠ stOk) := by
  intro s k x p t f
  exact ⟨_, _, gives_of ({}) (by decide +kernel), _, _, gives_of ({}) (by decide +kernel), may_of (by decide +kernel), by decide +kernel⟩

theorem witness_streamOpenOneSide :
    let s : State := stream 0 [] (fn 0x0801 streamKeys (pay 68 [(12, kref 8257), (21, [1])]))
    let k := 0
    let x := s.asked k
    let p := x.payload
    let t := s.computing k
    let f := openFields p
    ∃ kout : Handle, ∃ s2 : State, ((Fn.resolveRole x 12 (sideRole f.modeOut true)).gives t kout s2) ∧
      (s.mayCompute k (· == 0x0801)) ∧
      (openLayoutOk p = true ∧ f.modeIn = 0 ∧ f.modeOut ≠ 0 ∧ (bulkAnswer s2 k .openOp {} kout).1 = stOk) := by
  intro s k x p t f
  exact ⟨_, _, gives_of ({}) (by decide +kernel), may_of (by decide +kernel), by decide +kernel⟩

theorem witness_streamOpenOtherSide :
    let s : State := stream 0 [] (fn 0x0801 streamKeys (pay 68 [(4, kref 8256), (20, [6])]))
    let k := 0
    let x := s.asked k
    let p := x.payload
    let t := s.computing k
    let f := openFields p
    ∃ kin : Handle, ∃ s1 : State, ((Fn.resolveRole x 4 (sideRole f.modeIn false)).gives t kin s1) ∧
      (s.mayCompute k (· == 0x0801)) ∧
      (openLayoutOk p = true ∧ f.modeIn ≠ 0 ∧ f.modeOut = 0 ∧ (bulkAnswer s1 k .openOp kin {}).1 = stOk) := by
  intro s k x p t f
  exact ⟨_, _, gives_of ({}) (by decide +kernel), may_of (by decide +kernel), by decide +kernel⟩

theorem witness_streamSegmentAccepted :
    let s : State := stream 1 (open0 1) (fn 0x0802 [] (pay 20 []))
    let k := 0
    let x := s.asked k
    let p := x.payload
    let t := s.computing k
    (s.mayCompute k (· == 0x0802)) ∧
      (prologueOk p 0 = true ∧ 20 ≤ p.length ∧ (bulkAnswer t k .segment {} {}).1 = stOk) := by
  intro s k x p t
  exact ⟨may_of (by decide +kernel), by decide +kernel⟩

theorem witness_streamSegmentRefused :
    let s : State := stream 2 (open0 1) (fn 0x0802 [] (pay 20 []))
    let k := 0
    let x := s.asked k
    let p := x.payload
    let t := s.computing k
    (s.mayCompute k (· == 0x0802)) ∧
      (prologueOk p 0 = true ∧ 20 ≤ p.length ∧ (bulkAnswer t k .segment {} {}).1 ≠ stOk) := by
  intro s k x p t
  exact ⟨may_of (by decide +kernel), by decide +kernel⟩

theorem witness_streamSegmentTdesAccepted :
    let s : State := stream 1 (open0 6) (fn 0x0812 [] (pay 20 []))
    let k := 0
    let x := s.asked k
    let p := x.payload
    let t := s.computing k
    (s.mayCompute k (· == 0x0812)) ∧
      (prologueOk p 0 = true ∧ 20 ≤ p.length ∧ (bulkAnswer t k .segment {} {}).1 = stOk) := by
  intro s k x p t
  exact ⟨may_of (by decide +kernel), by decide +kernel⟩

theorem witness_streamSegmentTdesRefused :
    let s : State := stream 2 (open0 6) (fn 0x0812 [] (pay 20 []))
    let k := 0
    let x := s.asked k
    let p := x.payload
    let t := s.computing k
    (s.mayCompute k (· == 0x0812)) ∧
      (prologueOk p 0 = true ∧ 20 ≤ p.length ∧ (bulkAnswer t k .segment {} {}).1 ≠ stOk) := by
  intro s k x p t
  exact ⟨may_of (by decide +kernel), by decide +kernel⟩

theorem witness_streamFinalAccepted :
    let s : State := stream 1 (open0 1) (fn 0x0803 [] (pay 36 []))
    let k := 0
    let x := s.asked k
    let p := x.payload
    let t := s.computing k
    (s.mayCompute k (· == 0x0803)) ∧
      (prologueOk p 0 = true ∧ 20 ≤ p.length ∧ (bulkAnswer t k .final {} {}).1 = stOk) := by
  intro s k x p t
  exact ⟨may_of (by decide +kernel), by decide +kernel⟩

theorem witness_streamFinalRefused :
    let s : State := stream 2 (open0 1) (fn 0x0803 [] (pay 36 []))
    let k := 0
    let x := s.asked k
    let p := x.payload
    let t := s.computing k
    (s.mayCompute k (· == 0x0803)) ∧
      (prologueOk p 0 = true ∧ 20 ≤ p.length ∧ (bulkAnswer t k .final {} {}).1 ≠ stOk) := by
  intro s k x p t
  exact ⟨may_of (by decide +kernel), by decide +kernel⟩

theorem witness_streamFinalTdesAccepted :
    let s : State := stream 1 (open0 6) (fn 0x0813 [] (pay 36 []))
    let k := 0
    let x := s.asked k
    let p := x.payload
    let t := s.computing k
    (s.mayCompute k (· == 0x0813)) ∧
      (prologueOk p 0 = true ∧ 20 ≤ p.length ∧ (bulkAnswer t k .final {} {}).1 = stOk) := by
  intro s k x p t
  exact ⟨may_of (by decide +kernel), by decide +kernel⟩

theorem witness_streamFinalTdesRefused :
    let s : State := stream 2 (open0 6) (fn 0x0813 [] (pay 36 []))
    let k := 0
    let x := s.asked k
    let p := x.payload
    let t := s.computing k
    (s.mayCompute k (· == 0x0813)) ∧
      (prologueOk p 0 = true ∧ 20 ≤ p.length ∧ (bulkAnswer t k .final {} {}).1 ≠ stOk) := by
  intro s k x p t
  exact ⟨may_of (by decide +kernel), by decide +kernel⟩

theorem witness_streamAbortAccepted :
    let s : State := stream 0 (open0 1) (fn 0x0804 [] (pay 4 []))
    let k := 0
    let x := s.asked k
    let p := x.payload
    let t := s.computing k
    (s.mayCompute k (· == 0x0804)) ∧
      (layoutOk p 4 [] = true ∧ (bulkAnswer t k .abort {} {}).1 = stOk) := by
  intro s k x p t
  exact ⟨may_of (by decide +kernel), by decide +kernel⟩

theorem witness_streamAbortRefused :
    let s : State := stream 0 [] (fn 0x0804 [] (pay 4 []))
    let k := 0
    let x := s.asked k
    let p := x.payload
    let t := s.computing k
    (s.mayCompute k (· == 0x0804)) ∧
      (layoutOk p 4 [] = true ∧ (bulkAnswer t k .abort {} {}).1 ≠ stOk) := by
  intro s k x p t
  exact ⟨may_of (by decide +kernel), by decide +kernel⟩


/-! ### Key-store functions -/

/-- The payload of an SMK command: SLOT, FLAG, the session's identifier. -/
def smkPay (j flag : Byte) : Bytes := pay 12 [(4, [j, flag]), (8, authField)]
/-- SMK slot 0 of tenant 0 with a pending generation. -/
def withPending (s : State) : State :=
  { s with ks := { s.ks with smk := [(0, { current := some smkGen1, pending := some { smkGen1 with gen := 2 }, lastGen := 2 })] } }

theorem witness_smkCreateRandom :
    let s : State := granted 0x41 0 0 8 (fn 0x41 [] (smkPay 1 0))
    let k := 0
    let x := s.asked k
    let p := x.payload
    let t := s.computing k
    let j := fld p 4 1
    ∃ i : Nat, ∃ s1 : State, ((Fn.auth k x 0x41 (fld p 5 1) (32 * fld p 5 1) 8).gives t i s1) ∧
      ∃ key : Bytes, ∃ s2 : State, ((Fn.draw 32).gives s1 key s2) ∧
      ∃ m : Bytes, ∃ s3 : State, ((Fn.draw 32).gives s2 m s3) ∧
      ∃ u : Unit, ∃ s4 : State, ((Fn.armNow k (.smkCreate x.tenant j { gen := (s1.smkArmed x.tenant j).lastGen + 1, shareA := m, shareB := xorBytes key m })).gives s3 u s4) ∧
      (s.mayCompute k (· == 0x41)) ∧
      (layoutOk p 12 [(6, 2)] = true ∧ j ≤ 7 ∧ fld p 5 1 = 0) ∧
      ((s1.smkArmed x.tenant j).lastGen < 0xFFFF) ∧
      ((let y := s1.smkArmed x.tenant j; y.current = none ∧ y.pending = none)) := by
  intro s k x p t j
  exact ⟨_, _, gives_auth (i := 0) (by decide +kernel) (by decide +kernel) rfl, _, _, gives_of ([]) (by decide +kernel), _, _, gives_of ([]) (by decide +kernel), _, _, gives_of (()) (by decide +kernel), may_of (by decide +kernel), by decide +kernel, by decide +kernel, by decide +kernel⟩

theorem witness_smkCreateAssembled :
    let s : State := granted 0x41 1 32 8 (fn 0x41 [] (smkPay 1 1))
    let k := 0
    let x := s.asked k
    let p := x.payload
    let t := s.computing k
    let j := fld p 4 1
    ∃ i : Nat, ∃ s1 : State, ((Fn.auth k x 0x41 (fld p 5 1) (32 * fld p 5 1) 8).gives t i s1) ∧
      ∃ key : Bytes, ∃ s2 : State, ((Fn.assembledKey i false).gives s1 key s2) ∧
      ∃ m : Bytes, ∃ s3 : State, ((Fn.draw 32).gives s2 m s3) ∧
      ∃ u : Unit, ∃ s4 : State, ((Fn.armNow k (.smkCreate x.tenant j { gen := (s1.smkArmed x.tenant j).lastGen + 1, shareA := m, shareB := xorBytes key m })).gives s3 u s4) ∧
      (s.mayCompute k (· == 0x41)) ∧
      (layoutOk p 12 [(6, 2)] = true ∧ j ≤ 7 ∧ fld p 5 1 = 1) ∧
      ((s1.smkArmed x.tenant j).lastGen < 0xFFFF) ∧
      ((let y := s1.smkArmed x.tenant j; y.current = none ∧ y.pending = none)) := by
  intro s k x p t j
  exact ⟨_, _, gives_auth (i := 0) (by decide +kernel) (by decide +kernel) rfl, _, _, gives_of ([]) (by decide +kernel), _, _, gives_of ([]) (by decide +kernel), _, _, gives_of (()) (by decide +kernel), may_of (by decide +kernel), by decide +kernel, by decide +kernel, by decide +kernel⟩

theorem witness_smkRotateBeginRandom :
    let s : State := granted 0x42 0 0 8 (fn 0x42 [] (smkPay 0 0))
    let k := 0
    let x := s.asked k
    let p := x.payload
    let t := s.computing k
    let j := fld p 4 1
    ∃ i : Nat, ∃ s1 : State, ((Fn.auth k x 0x42 (fld p 5 1) (32 * fld p 5 1) 8).gives t i s1) ∧
      ∃ key : Bytes, ∃ s2 : State, ((Fn.draw 32).gives s1 key s2) ∧
      ∃ m : Bytes, ∃ s3 : State, ((Fn.draw 32).gives s2 m s3) ∧
      ∃ u : Unit, ∃ s4 : State, ((Fn.armNow k (.smkBegin x.tenant j { gen := (s1.smkArmed x.tenant j).lastGen + 1, shareA := m, shareB := xorBytes key m })).gives s3 u s4) ∧
      (s.mayCompute k (· == 0x42)) ∧
      (layoutOk p 12 [(6, 2)] = true ∧ j ≤ 7 ∧ fld p 5 1 = 0) ∧
      ((s1.smkArmed x.tenant j).lastGen < 0xFFFF) ∧
      ((let y := s1.smkArmed x.tenant j; y.current ≠ none ∧ y.pending = none)) := by
  intro s k x p t j
  exact ⟨_, _, gives_auth (i := 0) (by decide +kernel) (by decide +kernel) rfl, _, _, gives_of ([]) (by decide +kernel), _, _, gives_of ([]) (by decide +kernel), _, _, gives_of (()) (by decide +kernel), may_of (by decide +kernel), by decide +kernel, by decide +kernel, by decide +kernel⟩

theorem witness_smkRotateBeginAssembled :
    let s : State := granted 0x42 1 32 8 (fn 0x42 [] (smkPay 0 1))
    let k := 0
    let x := s.asked k
    let p := x.payload
    let t := s.computing k
    let j := fld p 4 1
    ∃ i : Nat, ∃ s1 : State, ((Fn.auth k x 0x42 (fld p 5 1) (32 * fld p 5 1) 8).gives t i s1) ∧
      ∃ key : Bytes, ∃ s2 : State, ((Fn.assembledKey i false).gives s1 key s2) ∧
      ∃ m : Bytes, ∃ s3 : State, ((Fn.draw 32).gives s2 m s3) ∧
      ∃ u : Unit, ∃ s4 : State, ((Fn.armNow k (.smkBegin x.tenant j { gen := (s1.smkArmed x.tenant j).lastGen + 1, shareA := m, shareB := xorBytes key m })).gives s3 u s4) ∧
      (s.mayCompute k (· == 0x42)) ∧
      (layoutOk p 12 [(6, 2)] = true ∧ j ≤ 7 ∧ fld p 5 1 = 1) ∧
      ((s1.smkArmed x.tenant j).lastGen < 0xFFFF) ∧
      ((let y := s1.smkArmed x.tenant j; y.current ≠ none ∧ y.pending = none)) := by
  intro s k x p t j
  exact ⟨_, _, gives_auth (i := 0) (by decide +kernel) (by decide +kernel) rfl, _, _, gives_of ([]) (by decide +kernel), _, _, gives_of ([]) (by decide +kernel), _, _, gives_of (()) (by decide +kernel), may_of (by decide +kernel), by decide +kernel, by decide +kernel, by decide +kernel⟩

theorem witness_smkRotateComplete :
    let s : State := granted 0x43 0 0 8 (withPending (fn 0x43 [] (smkPay 0 0)))
    let k := 0
    let x := s.asked k
    let p := x.payload
    let t := s.computing k
    let j := fld p 4 1
    ∃ i : Nat, ∃ s1 : State, ((Fn.auth k x 0x43 0 0 8).gives t i s1) ∧
      ∃ u : Unit, ∃ s2 : State, ((Fn.armNow k (.smkComplete x.tenant j)).gives s1 u s2) ∧
      (s.mayCompute k (· == 0x43)) ∧
      (layoutOk p 12 [(5, 3)] = true ∧ j ≤ 7) ∧
      ((let y := s1.smkArmed x.tenant j; y.pending ≠ none)) := by
  intro s k x p t j
  exact ⟨_, _, gives_auth (i := 0) (by decide +kernel) (by decide +kernel) rfl, _, _, gives_of (()) (by decide +kernel), may_of (by decide +kernel), by decide +kernel, by decide +kernel⟩

theorem witness_smkRotateAbort :
    let s : State := granted 0x44 0 0 8 (withPending (fn 0x44 [] (smkPay 0 0)))
    let k := 0
    let x := s.asked k
    let p := x.payload
    let t := s.computing k
    let j := fld p 4 1
    ∃ i : Nat, ∃ s1 : State, ((Fn.auth k x 0x44 0 0 8).gives t i s1) ∧
      ∃ u : Unit, ∃ s2 : State, ((Fn.armNow k (.smkAbort x.tenant j)).gives s1 u s2) ∧
      (s.mayCompute k (· == 0x44)) ∧
      (layoutOk p 12 [(5, 3)] = true ∧ j ≤ 7) ∧
      ((let y := s1.smkArmed x.tenant j; y.pending ≠ none)) := by
  intro s k x p t j
  exact ⟨_, _, gives_auth (i := 0) (by decide +kernel) (by decide +kernel) rfl, _, _, gives_of (()) (by decide +kernel), may_of (by decide +kernel), by decide +kernel, by decide +kernel⟩

theorem witness_smkInvalidate :
    let s : State := granted 0x45 0 0 8 (fn 0x45 [] (smkPay 0 0))
    let k := 0
    let x := s.asked k
    let p := x.payload
    let t := s.computing k
    let j := fld p 4 1
    ∃ i : Nat, ∃ s1 : State, ((Fn.auth k x 0x45 0 0 8).gives t i s1) ∧
      ∃ u : Unit, ∃ s2 : State, ((Fn.armNow k (.smkInvalidate x.tenant j)).gives s1 u s2) ∧
      (s.mayCompute k (· == 0x45)) ∧
      (layoutOk p 12 [(5, 3)] = true ∧ j ≤ 7) ∧
      ((let y := s1.smkArmed x.tenant j; y.current ≠ none)) := by
  intro s k x p t j
  exact ⟨_, _, gives_auth (i := 0) (by decide +kernel) (by decide +kernel) rfl, _, _, gives_of (()) (by decide +kernel), may_of (by decide +kernel), by decide +kernel, by decide +kernel⟩

theorem witness_counterCreate :
    let s : State := fn 0x46 [] (pay 24 [(4, [1, 2, 16])])
    let k := 0
    let x := s.asked k
    let p := x.payload
    let t := s.computing k
    let type := fld p 4 1
    ∃ u : Nat, ((Fn.residentRun x.tenant 1).gives t u t) ∧
      (s.mayCompute k (· == 0x46)) ∧
      (layoutOk p 24 [(7, 1), (18, 2)] = true ∧ 1 ≤ type ∧ type ≤ 3 ∧ (type = 1 → 12 ≤ fld p 6 1 ∧ fld p 6 1 ≤ 19)) ∧
      ((type ≠ 1 → fld p 5 1 = 0 ∧ fld p 6 1 = 0)) := by
  intro s k x p t type
  exact ⟨_, gives_same (0) (by decide +kernel) (by decide +kernel), may_of (by decide +kernel), by decide +kernel, by decide +kernel⟩

theorem witness_counterCreateOther :
    let s : State := fn 0x46 [] (pay 24 [(4, [3])])
    let k := 0
    let x := s.asked k
    let p := x.payload
    let t := s.computing k
    let type := fld p 4 1
    ∃ u : Nat, ((Fn.residentRun x.tenant 1).gives t u t) ∧
      (s.mayCompute k (· == 0x46)) ∧
      (layoutOk p 24 [(7, 1), (18, 2)] = true ∧ 1 ≤ type ∧ type ≤ 3 ∧ type ≠ 1 ∧ (type ≠ 1 → fld p 5 1 = 0 ∧ fld p 6 1 = 0)) := by
  intro s k x p t type
  exact ⟨_, gives_same (0) (by decide +kernel) (by decide +kernel), may_of (by decide +kernel), by decide +kernel⟩

theorem witness_clientKeySetRemoved :
    let s : State := granted 0x47 0 0 8 (fn 0x47 [] (pay 12 [(4, [63, 0]), (6, beBytes 2 0), (8, authField)]))
    let k := 0
    let x := s.asked k
    let p := x.payload
    let t := s.computing k
    let alg := fld p 5 1
    let pub := p.drop 12
    ∃ i : Nat, ∃ s1 : State, ((Fn.auth k x 0x47 0 0 8).gives t i s1) ∧
      (s.mayCompute k (· == 0x47)) ∧
      (fld p 4 1 ≤ 63 ∧ alg ≤ 2 ∧ alg = 0 ∧ fld p 6 2 = (if alg = 0 then 0 else if alg = 1 then 97 else 1952) ∧ layoutOk p (12 + fld p 6 2) [] = true) ∧
      ((alg = 1 → fld pub 0 1 = 4 ∧ fld pub 1 48 < p384.p ∧ fld pub 49 48 < p384.p ∧ p384.has (fld pub 1 48) (fld pub 49 48) = true)) := by
  intro s k x p t alg pub
  exact ⟨_, _, gives_auth (i := 0) (by decide +kernel) (by decide +kernel) rfl, may_of (by decide +kernel), by decide +kernel, by decide +kernel⟩

theorem witness_clientKeySetEc :
    let s : State := granted 0x47 0 0 8 (fn 0x47 [] (pay 109 [(4, [63, 1]), (6, beBytes 2 97), (8, authField), (12, [4] ++ beBytes 48 p384.gx ++ beBytes 48 p384.gy)]))
    let k := 0
    let x := s.asked k
    let p := x.payload
    let t := s.computing k
    let alg := fld p 5 1
    let pub := p.drop 12
    ∃ i : Nat, ∃ s1 : State, ((Fn.auth k x 0x47 0 0 8).gives t i s1) ∧
      (s.mayCompute k (· == 0x47)) ∧
      (fld p 4 1 ≤ 63 ∧ alg ≤ 2 ∧ alg = 1 ∧ fld p 6 2 = (if alg = 0 then 0 else if alg = 1 then 97 else 1952) ∧ layoutOk p (12 + fld p 6 2) [] = true) ∧
      ((alg = 1 → fld pub 0 1 = 4 ∧ fld pub 1 48 < p384.p ∧ fld pub 49 48 < p384.p ∧ p384.has (fld pub 1 48) (fld pub 49 48) = true)) := by
  intro s k x p t alg pub
  exact ⟨_, _, gives_auth (i := 0) (by decide +kernel) (by decide +kernel) rfl, may_of (by decide +kernel), by decide +kernel, by decide +kernel⟩

theorem witness_clientKeySetLattice :
    let s : State := granted 0x47 0 0 8 (fn 0x47 [] (pay 1964 [(4, [63, 2]), (6, beBytes 2 1952), (8, authField)]))
    let k := 0
    let x := s.asked k
    let p := x.payload
    let t := s.computing k
    let alg := fld p 5 1
    let pub := p.drop 12
    ∃ i : Nat, ∃ s1 : State, ((Fn.auth k x 0x47 0 0 8).gives t i s1) ∧
      (s.mayCompute k (· == 0x47)) ∧
      (fld p 4 1 ≤ 63 ∧ alg ≤ 2 ∧ alg = 2 ∧ fld p 6 2 = (if alg = 0 then 0 else if alg = 1 then 97 else 1952) ∧ layoutOk p (12 + fld p 6 2) [] = true) ∧
      ((alg = 1 → fld pub 0 1 = 4 ∧ fld pub 1 48 < p384.p ∧ fld pub 49 48 < p384.p ∧ p384.has (fld pub 1 48) (fld pub 49 48) = true)) := by
  intro s k x p t alg pub
  exact ⟨_, _, gives_auth (i := 0) (by decide +kernel) (by decide +kernel) rfl, may_of (by decide +kernel), by decide +kernel, by decide +kernel⟩

theorem witness_colophon :
    let s : State := fn 0x48 [] (pay 24 [(4, [16])])
    let k := 0
    let x := s.asked k
    let p := x.payload
    ∃ n : Nat, (s.mayCompute k (· == 0x48)) ∧
      (n = fld p 4 1 ∧ layoutOk p (8 + n) [(5, 3)] = true ∧ 16 ≤ n ∧ n ≤ 64) := by
  intro s k x p
  exact ⟨16, may_of (by decide +kernel), by decide +kernel⟩

theorem witness_colophonTenant :
    let s : State := fn 0x49 [] (pay 72 [(4, [2, 0, 64])])
    let k := 0
    let x := s.asked k
    let p := x.payload
    ∃ n : Nat, (s.mayCompute k (· == 0x49)) ∧
      (n = fld p 6 1 ∧ layoutOk p (8 + n) [(7, 1)] = true ∧ 16 ≤ n ∧ n ≤ 64 ∧ fld p 4 2 ≤ 512 ∧ (x.tenant = 0 ∨ fld p 4 2 = x.tenant)) := by
  intro s k x p
  exact ⟨64, may_of (by decide +kernel), by decide +kernel⟩

theorem witness_certificates :
    let s : State := fn 0x4A [] (pay 4 [])
    let k := 0
    let x := s.asked k
    let p := x.payload
    (s.mayCompute k (· == 0x4A)) ∧
      (layoutOk p 4 [] = true) := by
  intro s k x p
  exact ⟨may_of (by decide +kernel), by decide +kernel⟩


/-! ### Dual control and the registries -/

/-- Session 0 of tenant 0 in state `st`, of generation 1. -/
def session0 (st : SessionState) (comp : Nat) (s : State) : State :=
  { s with dual := { s.dual with sessions := [(0, { state := st, gen := 1, compLen := comp, m := 2, expires := 10 })] } }
/-- Three cards of role 0 of tenant 0. -/
def cards3 (s : State) : State :=
  { s with dual := { s.dual with cards := [(0, { state := .active, serial := 7 }), (1, { state := .active, serial := 8 }),
                                           (2, { state := .active, serial := 9 })] } }

theorem witness_authOpen :
    let s : State := let s := fn 0x60 [] (pay 60 [(4, [0, 67, 0, 0]), (8, [0, 0, 1, 0])]); { s with dual := { s.dual with lifeMax := 256 } }
    let k := 0
    let x := s.asked k
    let p := x.payload
    let t := s.computing k
    let command := fld p 4 2
    let compLen := fld p 6 1
    let role := fld p 7 1
    let life := fld p 8 4
    ∃ i : Nat, ∃ challenge : Bytes, ∃ s1 : State, ((Fn.draw 32).gives t challenge s1) ∧
      (s.mayCompute k (· == 0x60)) ∧
      (layoutOk p 60 [] = true ∧ rowNamed x.tenant command role compLen = true ∧ 1 ≤ life ∧ life ≤ t.dual.lifeMax ∧ compLen = 0) ∧
      (t.sessionsOpen (some x.tenant) < 8 ∧ t.sessionsOpen none < 256 ∧ t.pickSession = some i) := by
  intro s k x p t command compLen role life
  exact ⟨0, _, _, gives_of ([]) (by decide +kernel), may_of (by decide +kernel), by decide +kernel, by decide +kernel⟩

theorem witness_authOpenComponents :
    let s : State := let s := fn 0x60 [] (pay 60 [(4, [0, 104, 32, 1]), (8, [0, 0, 1, 0])]); { s with dual := { s.dual with lifeMax := 256 } }
    let k := 0
    let x := s.asked k
    let p := x.payload
    let t := s.computing k
    let command := fld p 4 2
    let compLen := fld p 6 1
    let role := fld p 7 1
    let life := fld p 8 4
    ∃ i : Nat, ∃ challenge : Bytes, ∃ s1 : State, ((Fn.draw 32).gives t challenge s1) ∧
      ∃ eph : Bytes, ∃ s2 : State, ((Fn.draw 56).gives s1 eph s2) ∧
      (s.mayCompute k (· == 0x60)) ∧
      (layoutOk p 60 [] = true ∧ rowNamed x.tenant command role compLen = true ∧ 1 ≤ life ∧ life ≤ t.dual.lifeMax ∧ compLen = 32) ∧
      (t.sessionsOpen (some x.tenant) < 8 ∧ t.sessionsOpen none < 256 ∧ t.pickSession = some i) := by
  intro s k x p t command compLen role life
  exact ⟨0, _, _, gives_of ([]) (by decide +kernel), _, _, gives_of ([]) (by decide +kernel), may_of (by decide +kernel), by decide +kernel, by decide +kernel⟩

theorem witness_authSign :
    let s : State := session0 .open 0 (fn 0x61 [] (pay 116 [(4, authField), (112, beBytes 2 0)]))
    let k := 0
    let x := s.asked k
    let p := x.payload
    let t := s.computing k
    let clen := fld p 112 2
    ∃ i : Nat, (s.mayCompute k (· == 0x61)) ∧
      (t.sessionNamed x.tenant (fld p 4 4) false = some i ∧ layoutOk p (116 + clen) [(114, 2)] = true) ∧
      (clen = (if (t.session i).compLen = 0 then 0 else 97 + (t.session i).compLen + 16)) := by
  intro s k x p t clen
  exact ⟨0, may_of (by decide +kernel), by decide +kernel, by decide +kernel⟩

theorem witness_authSignComponent :
    let s : State := session0 .open 16 (fn 0x61 [] (pay 245 [(4, authField), (112, beBytes 2 129)]))
    let k := 0
    let x := s.asked k
    let p := x.payload
    let t := s.computing k
    let clen := fld p 112 2
    ∃ i : Nat, (s.mayCompute k (· == 0x61)) ∧
      (t.sessionNamed x.tenant (fld p 4 4) false = some i ∧ layoutOk p (116 + clen) [(114, 2)] = true) ∧
      (clen = (if (t.session i).compLen = 0 then 0 else 97 + (t.session i).compLen + 16)) := by
  intro s k x p t clen
  exact ⟨0, may_of (by decide +kernel), by decide +kernel, by decide +kernel⟩

theorem witness_authCardLocal :
    let s : State := session0 .open 0 (fn 0x62 [] (pay 12 [(4, authField), (8, [1])]))
    let k := 0
    let x := s.asked k
    let p := x.payload
    let t := s.computing k
    ∃ i : Nat, (s.mayCompute k (· == 0x62)) ∧
      (t.sessionNamed x.tenant (fld p 4 4) (x.tenant == 0) = some i ∧ layoutOk p 12 [(9, 3)] = true ∧ fld p 8 1 ≤ 1) ∧
      (((t.session i).state = .open ∨ (t.session i).state = .granted) ∧ State.pastE (t.session i) x.admitTick = false) ∧
      ((t.iface (fld p 8 1)).exchange = none) ∧
      ((∀ q ∈ t.sq.slots, ∀ j, .cardLocal j (fld p 8 1) ∉ q.2.effects)) := by
  intro s k x p t
  exact ⟨0, may_of (by decide +kernel), by decide +kernel, by decide +kernel, by decide +kernel, noCardLocal (by decide +kernel)⟩

theorem witness_authQuery :
    let s : State := session0 .granted 0 (fn 0x63 [] (pay 12 [(4, authField)]))
    let k := 0
    let x := s.asked k
    let p := x.payload
    let t := s.computing k
    ∃ i : Nat, (s.mayCompute k (· == 0x63)) ∧
      (t.sessionNamed x.tenant (fld p 4 4) (x.tenant == 0) = some i ∧ layoutOk p 12 [(8, 4)] = true) := by
  intro s k x p t
  exact ⟨0, may_of (by decide +kernel), by decide +kernel⟩

theorem witness_authClose :
    let s : State := session0 .granted 0 (fn 0x64 [] (pay 12 [(4, authField)]))
    let k := 0
    let x := s.asked k
    let p := x.payload
    let t := s.computing k
    ∃ i : Nat, (s.mayCompute k (· == 0x64)) ∧
      (t.sessionNamed x.tenant (fld p 4 4) false = some i ∧ layoutOk p 12 [(8, 4)] = true) ∧
      ((t.session i).state = .open ∨ (t.session i).state = .granted) := by
  intro s k x p t
  exact ⟨0, may_of (by decide +kernel), by decide +kernel, by decide +kernel⟩

theorem witness_cardRegister :
    let s : State := granted 0x65 0 0 8 (fn 0x65 [] (pay 20 [(6, [3]), (8, authField), (12, [0, 4])]))
    let k := 0
    let x := s.asked k
    let p := x.payload
    let t := s.computing k
    let scope := fld p 4 2
    let role := fld p 6 1
    let n := fld p 12 2
    ∃ i : Nat, ∃ s1 : State, ((Fn.auth k x 0x65 0 0 8).gives t i s1) ∧
      (s.mayCompute k (· == 0x65)) ∧
      (layoutOk p (16 + n) [(7, 1), (14, 2)] = true ∧ scope ≤ 512 ∧ role ≤ 3) ∧
      (s1.mayName x.tenant scope role true = true) := by
  intro s k x p t scope role n
  exact ⟨_, _, gives_auth (i := 0) (by decide +kernel) (by decide +kernel) rfl, may_of (by decide +kernel), by decide +kernel, by decide +kernel⟩

theorem witness_cardRevoke :
    let s : State := granted 0x66 0 0 12 (cards3 (fn 0x66 [] (pay 20 [(4, beBytes 8 7), (12, authField)])))
    let k := 0
    let x := s.asked k
    let p := x.payload
    let t := s.computing k
    let serial := fld p 4 8
    ∃ e : Nat, ∃ i : Nat, ∃ s1 : State, ((Fn.auth k x 0x66 0 0 12).gives t i s1) ∧
      (s.mayCompute k (· == 0x66)) ∧
      (layoutOk p 20 [(16, 4)] = true) ∧
      ((let c := s1.card e; s1.cardOf serial = some e ∧ s1.mayName x.tenant c.scope c.role false = true ∧ c.state ≠ .revoked)) ∧
      (TickEffect.cardRevoke serial ∉ s1.comingEffects) ∧
      ((let c := s1.card e; s1.comingQuorum c.scope c.role ≤ s1.comingCards c.scope c.role - (if c.state = .active ∨ c.state = .warned then 1 else 0))) := by
  intro s k x p t serial
  exact ⟨0, _, _, gives_auth (i := 0) (by decide +kernel) (by decide +kernel) rfl, may_of (by decide +kernel), by decide +kernel, by decide +kernel, by decide +kernel, by decide +kernel⟩

theorem witness_quorumSet :
    let s : State := granted 0x67 0 0 8 (cards3 (fn 0x67 [] (pay 12 [(6, [0, 3]), (8, authField)])))
    let k := 0
    let x := s.asked k
    let p := x.payload
    let t := s.computing k
    let scope := fld p 4 2
    let role := fld p 6 1
    let m := fld p 7 1
    ∃ i : Nat, ∃ s1 : State, ((Fn.auth k x 0x67 0 0 8).gives t i s1) ∧
      (s.mayCompute k (· == 0x67)) ∧
      (layoutOk p 12 [] = true ∧ scope ≤ 512 ∧ role ≤ 3 ∧ quorumRange role m = true) ∧
      (s1.mayName x.tenant scope role true = true ∧ m ≤ s1.comingCards scope role) := by
  intro s k x p t scope role m
  exact ⟨_, _, gives_auth (i := 0) (by decide +kernel) (by decide +kernel) rfl, may_of (by decide +kernel), by decide +kernel, by decide +kernel⟩

theorem witness_macsecCakSet :
    let s : State := granted 0x68 1 32 8 (fn 0x68 [] (pay 20 [(4, [15, 8]), (8, authField)]))
    let k := 0
    let x := s.asked k
    let p := x.payload
    let t := s.computing k
    let n := fld p 5 1
    ∃ i : Nat, ∃ s1 : State, ((Fn.auth k x 0x68 1 32 8).gives t i s1) ∧
      ∃ key : Bytes, ∃ s2 : State, ((Fn.assembledKey i false).gives s1 key s2) ∧
      (s.mayCompute k (· == 0x68)) ∧
      (layoutOk p (12 + n) [(6, 2)] = true ∧ fld p 4 1 ≤ 15 ∧ 1 ≤ n ∧ n ≤ 32) := by
  intro s k x p t n
  exact ⟨_, _, gives_auth (i := 0) (by decide +kernel) (by decide +kernel) rfl, _, _, gives_of ([]) (by decide +kernel), may_of (by decide +kernel), by decide +kernel⟩

theorem witness_keyEnter :
    let s : State := granted 0x69 1 24 12 (fn 0x69 [] (pay 20 [(4, outAttr 2 uP0 mE), (12, authField)]))
    let k := 0
    let x := s.asked k
    let p := x.payload
    let t := s.computing k
    let o := outAttrAt p 4
    ∃ g : SmkGen, ∃ i : Nat, ∃ s1 : State, ((Fn.auth k x 0x69 1 (keyLength o.attr.alg) 12).gives t i s1) ∧
      ((Fn.producing x o.smk).gives s1 g s1) ∧
      ∃ key : Bytes, ∃ s2 : State, ((Fn.assembledKey i (decide (o.attr.alg ≤ 2))).gives s1 key s2) ∧
      (s.mayCompute k (· == 0x69)) ∧
      (layoutOk p 20 [(16, 4)] = true ∧ outAttrOk p 4 [1, 2, 3, 4, 5, 6] = true ∧ o.format ≠ 0) := by
  intro s k x p t o
  exact ⟨smkGen1, _, _, gives_auth (i := 0) (by decide +kernel) (by decide +kernel) rfl, gives_producing (by decide +kernel), _, _, gives_of ([]) (by decide +kernel), may_of (by decide +kernel), by decide +kernel⟩


/-! ### Functions on a key block that is in the cache -/

/-- A version "D" block under generation 1, and its binding in the cache of tenant 0. -/
def blockD : Bytes :=
  [0x44, 0x30, 0x30, 0x32, 0x34, 0x50, 0x30, 0x54, 0x45, 0x30, 0x30, 0x45, 0x30, 0x31, 0x30, 0x30, 0x39, 0x47, 0x30, 0x38,
   0x30, 0x30, 0x30, 0x31]
/-- Its header. -/
def hdrOfD : BlockHdr :=
  { version := 0x44, usage := uP0, alg := 0x54, mode := mE, exportability := 0x45, opts := [(opt9G, [0x30, 0x30, 0x30, 0x31])], len := 24 }
def cached1 : CacheBinding :=
  { tenant := 0, units := 1, attr := { alg := 2, usage := uP0, mode := mE, exportability := 0x45 }, shareA := zeros 24,
    shareB := List.replicate 24 0x11, rootSlot := 0, rootGen := 1, parent := .none, digest := blockDigest blockD }
def withCached (s : State) : State := { s with ks := { s.ks with cache := [cached1] } }
/-- The state after a hit on that binding. -/
def afterHit (s : State) : State :=
  let s := (s.ksCnt 0 1).pmcKs 0x10 1
  ({ s with ks := { s.ks with cache := s.ks.cache.erase cached1 ++ [cached1], counters := bump s.ks.counters 1 1 } }).pmcKs 0x11 1

theorem gives_resolved {s t : State} {x : Slot} {off : Nat} {role : Handle → Bool} {h : Handle}
    (h1 : resolveRef s x.tenant x.admitTick x.payload (krefAt x.payload off) = (h, t)) (h2 : (h.status == stOk) = true)
    (h3 : (h.bound && h.attr.alg != 0 && role h) = true) : (Fn.resolve x off role).gives s h t := by
  unfold Fn.resolve
  refine Fn.gives_bind (Fn.act_gives _ _) ?_
  rw [h1]
  exact Fn.gives_bind (Fn.need_gives h2) (Fn.gives_bind (Fn.need_gives h3) (Fn.pure_gives _ _))

theorem gives_cached {s : State} {x : Slot} {off : Nat} {role : Handle → Bool} {hdr : BlockHdr} {g : SmkGen}
    (h1 : krefAt x.payload off = { kind := 2, smk := 0, len := 24, at_ := fld x.payload (off + 4) 4 })
    (h2 : slice x.payload (fld x.payload (off + 4) 4) 24 = blockD) (h3 : x.tenant = 0)
    (h4 : s.blockCheck 0 x.admitTick 0 blockD = (stOk, some (hdr, g))) (h5 : g.gen = 1)
    (h : s.ks.cache = [cached1]) (h7 : role cached1.handle = true) :
    (Fn.resolve x off role).gives s cached1.handle (afterHit s) := by
  have h6 : ((s.ksCnt 0 1).pmcKs 0x10 1).ks.cache = [cached1] := by
    unfold State.pmcKs
    rw [State.pmcEvent_ks]
    exact h
  have h8 : resolveRef s x.tenant x.admitTick x.payload (krefAt x.payload off) = (cached1.handle, afterHit s) := by
    have h9 : lookupRef s 0 x.admitTick x.payload (krefAt x.payload off) = (cached1.handle, afterHit s) := by
      unfold lookupRef
      rw [h1]
      simp only [h2]
      unfold lookupBlock
      rw [h4]
      simp only [h5]
      unfold cacheLookup
      simp only [h6]
      have h10 : ([cached1].find? (fun c => c.tenant == 0 && c.rootSlot == 0 && c.rootGen == 1 && c.digest == blockDigest blockD)) =
          some cached1 := by
        rw [List.find?_cons_of_pos]
        simp [cached1]
      rw [h10]
      unfold afterHit
      simp only [h6]
    unfold resolveRef
    rw [h3, h9]
    have h11 : cached1.handle.bound = true := rfl
    simp [h11]
  have h12 : (cached1.handle.status == stOk) = true := by decide +kernel
  have h13 : (cached1.handle.bound && cached1.handle.attr.alg != 0 && role cached1.handle) = true := by
    rw [h7]
    decide +kernel
  exact gives_resolved h8 h12 h13

theorem computing_ks (s : State) (k : Nat) : (s.computing k).ks = s.ks := by
  unfold State.computing
  dsimp only
  split <;> rfl

theorem gives_residentRun {s : State} {t n u : Nat}
    (h : (s.pendingLoads.foldl (fun s p => s.putResident p.1 p.2) s).residentRoom t n = some u) : (Fn.residentRun t n).gives s u s := by
  unfold Fn.residentRun
  refine Fn.gives_bind (Fn.st_gives _ _) ?_
  rw [h]
  exact Fn.get!_gives _ _ _

theorem witness_keyLoadResident :
    let s : State := withCached (fn 0x0610 [] (pay 44 [(4, [2, 0, 0, 24, 0, 0, 0, 20]), (12, [0, 0, 1, 0]), (20, blockD)]))
    let k := 0
    let x := s.asked k
    let p := x.payload
    let t := s.computing k
    let h := cached1.handle
    let n := unitsOf (bindingBytes h.attr h.key)
    ∃ s1 : State, ∃ u : Nat, ((Fn.resolve x 4 (fun _ => true)).gives t h s1) ∧
      ((Fn.residentRun x.tenant n).gives s1 u s1) ∧
      (s.mayCompute k (· == 0x0610)) ∧
      (payloadOk p 20 [(17, 3)] [4] = true ∧ (krefAt p 4).kind = 2 ∧ fld p 16 1 ≤ 1) := by
  intro s k x p t h n
  exact ⟨afterHit t, 8256, gives_cached (hdr := hdrOfD) (g := smkGen1) (by decide +kernel) (by decide +kernel) (by decide +kernel) (by decide +kernel) rfl ((congrArg KeyStore.cache (computing_ks _ _)).trans rfl) rfl, gives_residentRun (by decide +kernel), may_of (by decide +kernel), by decide +kernel⟩

theorem witness_smkRewrap :
    let s : State := withCached (fn 0x40 [] (pay 36 [(4, [2, 0, 0, 24, 0, 0, 0, 12]), (12, blockD)]))
    let k := 0
    let x := s.asked k
    let p := x.payload
    let t := s.computing k
    let h := cached1.handle
    ∃ g : SmkGen, ∃ s1 : State, ∃ f : Nat, ((Fn.resolve x 4 (fun _ => true)).gives t h s1) ∧
      ((Fn.producing x (krefAt p 4).smk).gives s1 g s1) ∧
      (s.mayCompute k (· == 0x40)) ∧
      (payloadOk p 12 [] [4] = true ∧ (krefAt p 4).kind = 2 ∧ f = (versionFormat (fld p (krefAt p 4).at_ 1)).getD 0) := by
  intro s k x p t h
  exact ⟨smkGen1, afterHit t, 1, gives_cached (hdr := hdrOfD) (g := smkGen1) (by decide +kernel) (by decide +kernel) (by decide +kernel) (by decide +kernel) rfl ((congrArg KeyStore.cache (computing_ks _ _)).trans rfl) rfl, gives_producing (by decide +kernel), may_of (by decide +kernel), by decide +kernel⟩


/-! ### The life cycle, the tamper latch, recovery, restart and image loads -/

/-- The life-cycle state is `st` with `n` stripes used, and digest `slot` is that of the token of slot 0's payload. -/
def lcAt (st : LcState) (n slot : Nat) (s : State) : State :=
  { s with lc := { s.lc with state := st, word0 := codeword n, word1 := codeword n,
                             digests := [(slot, sha384B (slice (s.slot 0).payload 12 32))] } }
/-- The request of slot 0 came by the mailbox. -/
def byMailbox (s : State) : State := s.modSlot 0 (fun x => { x with mailbox := true })
/-- An interrupted transition from TEST to PROVISIONED. -/
def intent1 : Intent := { source := 1, target := 2, stripe := 1, slot := 1, quorum := false, valid := true }
def withIntent (s : State) : State := { s with lc := { s.lc with intents := [intent1] } }
def withChallenge (s : State) : State := { s with lc := { s.lc with dbg := { s.lc.dbg with challenge := some (zeros 32) } } }
def latched (s : State) : State := { s.modSlot 0 (fun x => { x with lport := 16 }) with tmp := { s.tmp with latch := true } }
def inRecovery (s : State) : State := { s with dev := { s.dev with state := .recovery } }
/-- An image of 300 bytes is being received, its first cell written. -/
def receiving (cells : List Nat) (s : State) : State :=
  { s with boot := { s.boot with load := { s.boot.load with state := 1, len := 300, cells := cells } } }

theorem witness_lcTransitionBlank :
    let s : State := (lcAt .blank 0 0 (fn 0x70 [] (pay 44 [(4, [1])])))
    let k := 0
    let x := s.asked k
    let p := x.payload
    let t := s.computing k
    let l := t.lc
    let n := min (stripes l.word0) (stripes l.word1)
    let target := fld p 4 1
    let token := slice p 12 32
    ∃ r : Nat × Nat × Bool, (fld p 8 4 = 0) ∧
      (s.mayCompute k (· == 0x70)) ∧
      (layoutOk p 44 [(5, 3)] = true ∧ l.inProgress = false ∧ l.state ≠ .invalid ∧ transitionRow l.state n target = some r ∧ r.1 < 8) ∧
      ((r.1 = 7 → stripe l.word0 7 ≠ stripePattern) ∧ target ≠ 2) ∧
      (tabGet [] l.digests 0 = sha384B token) := by
  intro s k x p t l n target token
  exact ⟨(0, 0, false), by decide +kernel, may_of (by decide +kernel), by decide +kernel, by decide +kernel, rfl⟩

theorem witness_lcTransitionProvisioned :
    let s : State := (lcAt .provisioned 2 2 (fn 0x70 [] (pay 44 [(4, [3])])))
    let k := 0
    let x := s.asked k
    let p := x.payload
    let t := s.computing k
    let l := t.lc
    let n := min (stripes l.word0) (stripes l.word1)
    let target := fld p 4 1
    let token := slice p 12 32
    ∃ r : Nat × Nat × Bool, (fld p 8 4 = 0) ∧
      (s.mayCompute k (· == 0x70)) ∧
      (layoutOk p 44 [(5, 3)] = true ∧ l.inProgress = false ∧ l.state ≠ .invalid ∧ transitionRow l.state n target = some r ∧ r.1 < 8) ∧
      ((r.1 = 7 → stripe l.word0 7 ≠ stripePattern) ∧ target ≠ 2) ∧
      (tabGet [] l.digests 2 = sha384B token) := by
  intro s k x p t l n target token
  exact ⟨(2, 2, false), by decide +kernel, may_of (by decide +kernel), by decide +kernel, by decide +kernel, rfl⟩

theorem witness_lcTransitionReturned :
    let s : State := (lcAt .returned 4 4 (fn 0x70 [] (pay 44 [(4, [3])])))
    let k := 0
    let x := s.asked k
    let p := x.payload
    let t := s.computing k
    let l := t.lc
    let n := min (stripes l.word0) (stripes l.word1)
    let target := fld p 4 1
    let token := slice p 12 32
    ∃ r : Nat × Nat × Bool, (fld p 8 4 = 0) ∧
      (s.mayCompute k (· == 0x70)) ∧
      (layoutOk p 44 [(5, 3)] = true ∧ l.inProgress = false ∧ l.state ≠ .invalid ∧ transitionRow l.state n target = some r ∧ r.1 < 8) ∧
      ((r.1 = 7 → stripe l.word0 7 ≠ stripePattern) ∧ target ≠ 2) ∧
      (tabGet [] l.digests 4 = sha384B token) := by
  intro s k x p t l n target token
  exact ⟨(4, 4, false), by decide +kernel, may_of (by decide +kernel), by decide +kernel, by decide +kernel, rfl⟩

theorem witness_lcTransitionToReturned :
    let s : State := granted 0x70 0 0 8 (lcAt .deployed 3 3 (fn 0x70 [] (pay 44 [(4, [4]), (8, authField)])))
    let k := 0
    let x := s.asked k
    let p := x.payload
    let t := s.computing k
    let l := t.lc
    let n := min (stripes l.word0) (stripes l.word1)
    let target := fld p 4 1
    let token := slice p 12 32
    ∃ r : Nat × Nat × Bool, ∃ session : Nat, ∃ s1 : State, ((Fn.auth k x 0x70 0 0 8).gives t session s1) ∧
      (x.mailbox = false) ∧
      (s.mayCompute k (· == 0x70)) ∧
      (layoutOk p 44 [(5, 3)] = true ∧ l.inProgress = false ∧ l.state ≠ .invalid ∧ transitionRow l.state n target = some r ∧ r.1 < 8) ∧
      ((r.1 = 7 → stripe l.word0 7 ≠ stripePattern) ∧ target ≠ 2) ∧
      (tabGet [] l.digests 3 = sha384B token) := by
  intro s k x p t l n target token
  exact ⟨(3, 3, true), _, _, gives_auth (i := 0) (by decide +kernel) (by decide +kernel) rfl, by decide +kernel, may_of (by decide +kernel), by decide +kernel, by decide +kernel, rfl⟩

theorem witness_lcTransitionScrap :
    let s : State := (lcAt .test 1 7 (fn 0x70 [] (pay 44 [(4, [5])])))
    let k := 0
    let x := s.asked k
    let p := x.payload
    let t := s.computing k
    let l := t.lc
    let n := min (stripes l.word0) (stripes l.word1)
    let target := fld p 4 1
    let token := slice p 12 32
    ∃ r : Nat × Nat × Bool, (fld p 8 4 = 0) ∧
      (s.mayCompute k (· == 0x70)) ∧
      (layoutOk p 44 [(5, 3)] = true ∧ l.inProgress = false ∧ l.state ≠ .invalid ∧ transitionRow l.state n target = some r ∧ r.1 < 8) ∧
      ((r.1 = 7 → stripe l.word0 7 ≠ stripePattern) ∧ target ≠ 2) ∧
      (tabGet [] l.digests 7 = sha384B token) := by
  intro s k x p t l n target token
  exact ⟨(7, 7, false), by decide +kernel, may_of (by decide +kernel), by decide +kernel, by decide +kernel, rfl⟩

theorem witness_lcTransitionScrapDeployed :
    let s : State := granted 0x70 0 0 8 (lcAt .deployed 3 7 (fn 0x70 [] (pay 44 [(4, [5]), (8, authField)])))
    let k := 0
    let x := s.asked k
    let p := x.payload
    let t := s.computing k
    let l := t.lc
    let n := min (stripes l.word0) (stripes l.word1)
    let target := fld p 4 1
    let token := slice p 12 32
    ∃ r : Nat × Nat × Bool, ∃ session : Nat, ∃ s1 : State, ((Fn.auth k x 0x70 0 0 8).gives t session s1) ∧
      (x.mailbox = false) ∧
      (s.mayCompute k (· == 0x70)) ∧
      (layoutOk p 44 [(5, 3)] = true ∧ l.inProgress = false ∧ l.state ≠ .invalid ∧ transitionRow l.state n target = some r ∧ r.1 < 8) ∧
      ((r.1 = 7 → stripe l.word0 7 ≠ stripePattern) ∧ target ≠ 2) ∧
      (tabGet [] l.digests 7 = sha384B token) := by
  intro s k x p t l n target token
  exact ⟨(7, 7, true), _, _, gives_auth (i := 0) (by decide +kernel) (by decide +kernel) rfl, by decide +kernel, may_of (by decide +kernel), by decide +kernel, by decide +kernel, rfl⟩

theorem witness_lcTransitionResumed :
    let s : State := withIntent (lcAt .invalid 1 1 (fn 0x70 [] (pay 44 [(4, [2])])))
    let k := 0
    let x := s.asked k
    let p := x.payload
    let t := s.computing k
    let l := t.lc
    let target := fld p 4 1
    let token := slice p 12 32
    ∃ i : Intent, (s.mayCompute k (· == 0x70)) ∧
      (layoutOk p 44 [(5, 3)] = true ∧ l.inProgress = false ∧ l.state = .invalid ∧ l.liveIntent = some i ∧ target = i.target ∧ fld p 8 4 = 0) ∧
      (stripeDamaged l.word0 i.stripe = false ∧ stripeDamaged l.word1 i.stripe = false) ∧
      (tabGet [] l.digests i.slot = sha384B token) := by
  intro s k x p t l target token
  exact ⟨intent1, may_of (by decide +kernel), by decide +kernel, by decide +kernel, rfl⟩

theorem witness_lcDebugChallenge :
    let s : State := lcAt .deployed 3 0 (fn 0x71 [] (pay 8 []))
    let k := 0
    let x := s.asked k
    let p := x.payload
    let t := s.computing k
    let l := t.lc
    (s.mayCompute k (· == 0x71)) ∧
      (layoutOk p 8 [(4, 4)] = true ∧ l.state ≠ .invalid ∧ l.state ≠ .scrapped) := by
  intro s k x p t l
  exact ⟨may_of (by decide +kernel), by decide +kernel⟩

theorem witness_lcDebugAuth :
    let s : State := withChallenge (lcAt .returned 4 0 (fn 0x72 [] (pay 3417 [(4, [16])])))
    let k := 0
    let x := s.asked k
    let p := x.payload
    let t := s.computing k
    let l := t.lc
    ∃ nonce : Bytes, (s.mayCompute k (· == 0x72)) ∧
      (layoutOk p 3417 [(5, 3)] = true ∧ 1 ≤ fld p 4 1 ∧ fld p 4 1 ≤ 16 ∧ l.state ≠ .invalid ∧ l.state ≠ .scrapped) ∧
      (l.dbg.challenge = some nonce ∧ l.state ≠ .deployed ∧ fld p 8 4 = 0) := by
  intro s k x p t l
  exact ⟨zeros 32, may_of (by decide +kernel), by decide +kernel, by decide +kernel⟩

theorem witness_lcDebugAuthDeployed :
    let s : State := withChallenge (granted 0x72 0 0 8 (lcAt .deployed 3 0 (fn 0x72 [] (pay 3417 [(4, [1]), (8, authField)]))))
    let k := 0
    let x := s.asked k
    let p := x.payload
    let t := s.computing k
    let l := t.lc
    let used := { t with lc := { l with dbg := { l.dbg with challenge := none } } }
    ∃ nonce : Bytes, ∃ session : Nat, ∃ s1 : State, ((Fn.auth k x 0x72 0 0 8).gives used session s1) ∧
      (s.mayCompute k (· == 0x72)) ∧
      (layoutOk p 3417 [(5, 3)] = true ∧ 1 ≤ fld p 4 1 ∧ fld p 4 1 ≤ 16 ∧ l.state = .deployed) ∧
      (l.dbg.challenge = some nonce ∧ x.mailbox = false) := by
  intro s k x p t l used
  exact ⟨zeros 32, _, _, gives_auth (i := 0) (by decide +kernel) (by decide +kernel) rfl, may_of (by decide +kernel), by decide +kernel, by decide +kernel⟩

theorem witness_lcDebugEnd :
    let s : State := fn 0x73 [] (pay 8 [])
    let k := 0
    let x := s.asked k
    let p := x.payload
    (s.mayCompute k (· == 0x73)) ∧
      (layoutOk p 8 [(4, 4)] = true) := by
  intro s k x p
  exact ⟨may_of (by decide +kernel), by decide +kernel⟩

theorem witness_lcIdentity :
    let s : State := byMailbox (lcAt .test 1 0 (fn 0x74 [] (pay 8 [])))
    let k := 0
    let x := s.asked k
    let p := x.payload
    let t := s.computing k
    let l := t.lc
    (s.mayCompute k (· == 0x74)) ∧
      (layoutOk p 8 [(4, 4)] = true ∧ x.mailbox = true ∧ l.state = .test) := by
  intro s k x p t l
  exact ⟨may_of (by decide +kernel), by decide +kernel⟩

theorem witness_lcCertLoad :
    let s : State := byMailbox (lcAt .test 1 0 (fn 0x75 [] (pay 12 [(4, [2]), (6, [0, 4])])))
    let k := 0
    let x := s.asked k
    let p := x.payload
    let t := s.computing k
    let l := t.lc
    ∃ len : Nat, (s.mayCompute k (· == 0x75)) ∧
      (len = fld p 6 2 ∧ layoutOk p (8 + len) [(5, 1)] = true ∧ fld p 4 1 ≤ 2 ∧ len ≤ 8188 ∧ x.mailbox = true ∧ l.state = .test) := by
  intro s k x p t l
  exact ⟨4, may_of (by decide +kernel), by decide +kernel⟩

theorem witness_tmpLatchClear :
    let s : State := latched (granted 0x80 0 0 4 (fn 0x80 [] (pay 12 [(4, authField)])))
    let k := 0
    let x := s.asked k
    let p := x.payload
    let t := s.computing k
    ∃ i : Nat, ∃ s1 : State, ((Fn.auth k x 0x80 0 0 4).gives t i s1) ∧
      (s.mayCompute k (· == 0x80)) ∧
      (layoutOk p 12 [(8, 4)] = true ∧ x.mailbox = false ∧ x.tenant = 0 ∧ x.lport = 16 ∧ t.tmp.latch = true) ∧
      (s1.eraseActive = false) := by
  intro s k x p t
  exact ⟨_, _, gives_auth (i := 0) (by decide +kernel) (by decide +kernel) rfl, may_of (by decide +kernel), by decide +kernel, by decide +kernel⟩

theorem witness_recoveryStatus :
    let s : State := inRecovery (fn 0x90 [] (pay 8 []))
    let k := 0
    let x := s.asked k
    let p := x.payload
    (s.mayCompute k (· == 0x90)) ∧
      (layoutOk p 8 [(4, 4)] = true) := by
  intro s k x p
  exact ⟨may_of (by decide +kernel), by decide +kernel⟩

theorem witness_devRestartInRecovery :
    let s : State := inRecovery (fn 0x91 [] (pay 12 []))
    let k := 0
    let x := s.asked k
    let p := x.payload
    let t := s.computing k
    (s.mayCompute k (· == 0x91)) ∧
      (layoutOk p 12 [(5, 3)] = true ∧ t.boot.drain = none ∧ t.boot.load.state ≠ 2 ∧ t.lc.inProgress = false ∧ t.dev.state = .recovery) ∧
      (fld p 4 1 = 0 ∧ fld p 8 4 = 0) := by
  intro s k x p t
  exact ⟨may_of (by decide +kernel), by decide +kernel, by decide +kernel⟩

theorem witness_devRestart :
    let s : State := granted 0x91 3 0 8 (fn 0x91 [] (pay 12 [(4, [1]), (8, authField)]))
    let k := 0
    let x := s.asked k
    let p := x.payload
    let t := s.computing k
    ∃ i : Nat, ∃ s1 : State, ((Fn.auth k x 0x91 3 0 8).gives t i s1) ∧
      (s.mayCompute k (· == 0x91)) ∧
      (layoutOk p 12 [(5, 3)] = true ∧ t.boot.drain = none ∧ t.boot.load.state ≠ 2 ∧ t.lc.inProgress = false ∧ t.dev.state ≠ .recovery) ∧
      (fld p 4 1 ≤ 1) := by
  intro s k x p t
  exact ⟨_, _, gives_auth (i := 0) (by decide +kernel) (by decide +kernel) rfl, may_of (by decide +kernel), by decide +kernel, by decide +kernel⟩

theorem witness_imageLoadBegin :
    let s : State := fn 0x92 [] (pay 60 [(4, beBytes 4 300)])
    let k := 0
    let x := s.asked k
    let p := x.payload
    (s.mayCompute k (· == 0x92)) ∧
      (layoutOk p 60 [(8, 4)] = true ∧ fld p 4 4 ≤ maxImage) := by
  intro s k x p
  exact ⟨may_of (by decide +kernel), by decide +kernel⟩

theorem witness_imageLoadData :
    let s : State := receiving [] (fn 0x93 [] (pay 268 [(8, [1, 0])]))
    let k := 0
    let x := s.asked k
    let p := x.payload
    let t := s.computing k
    let off := fld p 4 4
    let n := fld p 8 2
    let l := t.boot.load
    (s.mayCompute k (· == 0x93)) ∧
      (layoutOk p (12 + n) [(10, 2)] = true ∧ n ≤ 7936 ∧ l.state = 1 ∧ off % 256 = 0 ∧ off + n ≤ l.len ∧ (n % 256 = 0 ∨ off + n = l.len)) := by
  intro s k x p t off n l
  exact ⟨may_of (by decide +kernel), by decide +kernel⟩

theorem witness_imageLoadDataLast :
    let s : State := receiving [0] (fn 0x93 [] (pay 56 [(4, beBytes 4 256), (8, [0, 44])]))
    let k := 0
    let x := s.asked k
    let p := x.payload
    let t := s.computing k
    let off := fld p 4 4
    let n := fld p 8 2
    let l := t.boot.load
    (s.mayCompute k (· == 0x93)) ∧
      (layoutOk p (12 + n) [(10, 2)] = true ∧ n ≤ 7936 ∧ l.state = 1 ∧ off % 256 = 0 ∧ off + n ≤ l.len ∧ (n % 256 = 0 ∨ off + n = l.len)) := by
  intro s k x p t off n l
  exact ⟨may_of (by decide +kernel), by decide +kernel⟩

theorem witness_imageLoadEnd :
    let s : State := receiving [0, 1] (fn 0x94 [] (pay 8 []))
    let k := 0
    let x := s.asked k
    let p := x.payload
    let t := s.computing k
    let l := t.boot.load
    (s.mayCompute k (· == 0x94)) ∧
      (layoutOk p 8 [(4, 4)] = true ∧ l.state = 1 ∧ ceilDiv l.len 256 ≤ l.cells.length) := by
  intro s k x p t l
  exact ⟨may_of (by decide +kernel), by decide +kernel⟩


/-! ### Pairing and member functions -/

/-- Two members: this device at position `pos`, the other, in slot 1, at the other position, in states `a` and `b`. -/
def pairOf (pos a b : Nat) (s : State) : State :=
  { s with pair := { s.pair with count := 2, slot := 0,
                                 members := [(0, { serial := 5, position := pos, state := a }), (1, { serial := 6, position := 1 - pos, state := b })] } }
def inStandby (s : State) : State := { s with dev := { s.dev with state := .standby } }
/-- Every object is staged whole, and an offer stands. -/
def staged5 (s : State) : State :=
  let g : Staged := { total := 4, covered := [(0, 4)] }
  { s with pair := { s.pair with staging := [(1, g), (2, g), (3, g), (4, g), (5, g)], offer := [1] } }
/-- Part 0 of 1 of the batch of folio 3. -/
def batchPay : Bytes := pay 20 [(8, beBytes 6 3), (14, [0, 1])]
def holding (f : Nat) (s : State) : State := { s with vault := { s.vault with heldFolio := f } }

theorem witness_pairStage :
    let s : State := fn 0xA0 [] (pay 14 [(4, [5]), (6, [0, 100]), (8, [0, 98]), (10, [0, 2])])
    let k := 0
    let x := s.asked k
    let p := x.payload
    let n := fld p 10 2
    (s.mayCompute k (· == 0xA0)) ∧
      (layoutOk p (12 + n) [(5, 1)] = true ∧ 1 ≤ fld p 4 1 ∧ fld p 4 1 ≤ 5 ∧ fld p 6 2 ≤ 8192 ∧ n ≤ 8000 ∧ fld p 8 2 + n ≤ fld p 6 2) := by
  intro s k x p n
  exact ⟨may_of (by decide +kernel), by decide +kernel⟩

theorem witness_pairOffer :
    let s : State := granted 0xA1 0 0 4 (fn 0xA1 [] (pay 12 [(4, authField)]))
    let k := 0
    let x := s.asked k
    let p := x.payload
    let t := s.computing k
    ∃ i : Nat, ∃ s1 : State, ((Fn.auth k x 0xA1 0 0 4).gives t i s1) ∧
      (s.mayCompute k (· == 0xA1)) ∧
      (layoutOk p 12 [(8, 4)] = true) ∧
      (s1.mayOffer = true) := by
  intro s k x p t
  exact ⟨_, _, gives_auth (i := 0) (by decide +kernel) (by decide +kernel) rfl, may_of (by decide +kernel), by decide +kernel, by decide +kernel⟩

theorem witness_pairOfferLast :
    let s : State := granted 0xA1 0 0 4 (pairOf 1 1 1 (fn 0xA1 [] (pay 12 [(4, authField)])))
    let k := 0
    let x := s.asked k
    let p := x.payload
    let t := s.computing k
    ∃ i : Nat, ∃ s1 : State, ((Fn.auth k x 0xA1 0 0 4).gives t i s1) ∧
      (s.mayCompute k (· == 0xA1)) ∧
      (layoutOk p 12 [(8, 4)] = true) ∧
      (s1.mayOffer = true ∧ s1.paired = true) := by
  intro s k x p t
  exact ⟨_, _, gives_auth (i := 0) (by decide +kernel) (by decide +kernel) rfl, may_of (by decide +kernel), by decide +kernel, by decide +kernel⟩

theorem witness_pairAccept :
    let s : State := granted 0xA2 0 0 4 (let s := staged5 (fn 0xA2 [] (pay 12 [(4, authField)])); { s with ks := {} })
    let k := 0
    let x := s.asked k
    let p := x.payload
    let t := s.computing k
    ∃ i : Nat, ∃ s1 : State, ((Fn.auth k x 0xA2 0 0 4).gives t i s1) ∧
      (s.mayCompute k (· == 0xA2)) ∧
      (layoutOk p 12 [(8, 4)] = true) ∧
      (s1.dev.state = .service ∧ s1.unsealedTenants = 0 ∧ [1, 2, 3, 5].all (fun i => (s1.staged i).complete) = true) := by
  intro s k x p t
  exact ⟨_, _, gives_auth (i := 0) (by decide +kernel) (by decide +kernel) rfl, may_of (by decide +kernel), by decide +kernel, by decide +kernel⟩

theorem witness_pairConfirm :
    let s : State := granted 0xA3 0 0 4 (staged5 (fn 0xA3 [] (pay 12 [(4, authField)])))
    let k := 0
    let x := s.asked k
    let p := x.payload
    let t := s.computing k
    ∃ i : Nat, ∃ s1 : State, ((Fn.auth k x 0xA3 0 0 4).gives t i s1) ∧
      (s.mayCompute k (· == 0xA3)) ∧
      (layoutOk p 12 [(8, 4)] = true) ∧
      (s1.pair.offer ≠ [] ∧ s1.mayOffer = true ∧ s1.pair.epoch = s1.pair.offerEpoch ∧ [1, 2, 3, 4, 5].all (fun i => (s1.staged i).complete) = true) := by
  intro s k x p t
  exact ⟨_, _, gives_auth (i := 0) (by decide +kernel) (by decide +kernel) rfl, may_of (by decide +kernel), by decide +kernel, by decide +kernel⟩

theorem witness_pairHandover :
    let s : State := granted 0xA4 0 0 4 (pairOf 0 1 1 (fn 0xA4 [] (pay 12 [(4, authField)])))
    let k := 0
    let x := s.asked k
    let p := x.payload
    let t := s.computing k
    ∃ i : Nat, ∃ s1 : State, ((Fn.auth k x 0xA4 0 0 4).gives t i s1) ∧
      (s.mayCompute k (· == 0xA4)) ∧
      (layoutOk p 12 [(8, 4)] = true) ∧
      (s1.paired = true ∧ s1.dev.state = .service ∧ s1.position = 0 ∧ s1.soleActive = false ∧ s1.boot.drain = none) := by
  intro s k x p t
  exact ⟨_, _, gives_auth (i := 0) (by decide +kernel) (by decide +kernel) rfl, may_of (by decide +kernel), by decide +kernel, by decide +kernel⟩

theorem witness_pairTakeover :
    let s : State := granted 0xA5 0 0 4 (inStandby (pairOf 1 1 1 (fn 0xA5 [] (pay 12 [(4, authField)]))))
    let k := 0
    let x := s.asked k
    let p := x.payload
    let t := s.computing k
    ∃ i : Nat, ∃ s1 : State, ((Fn.auth k x 0xA5 0 0 4).gives t i s1) ∧
      (s.mayCompute k (· == 0xA5)) ∧
      (layoutOk p 12 [(8, 4)] = true) ∧
      (s1.paired = true ∧ s1.dev.state = .standby ∧ s1.position = 1 ∧ (s1.member s1.pair.slot).state = 1) := by
  intro s k x p t
  exact ⟨_, _, gives_auth (i := 0) (by decide +kernel) (by decide +kernel) rfl, may_of (by decide +kernel), by decide +kernel, by decide +kernel⟩

theorem witness_pairLeave :
    let s : State := granted 0xA6 0 0 8 (pairOf 1 1 1 (fn 0xA6 [] (pay 12 [(4, [1]), (8, authField)])))
    let k := 0
    let x := s.asked k
    let p := x.payload
    let t := s.computing k
    ∃ i : Nat, ∃ s1 : State, ((Fn.auth k x 0xA6 0 0 8).gives t i s1) ∧
      (s.mayCompute k (· == 0xA6)) ∧
      (layoutOk p 12 [(5, 3)] = true) ∧
      (fld p 4 1 ≤ 1 ∧ fld p 4 1 = 1 ∧ s1.paired = true) := by
  intro s k x p t
  exact ⟨_, _, gives_auth (i := 0) (by decide +kernel) (by decide +kernel) rfl, may_of (by decide +kernel), by decide +kernel, by decide +kernel⟩

theorem witness_pairLeaveUnconfirmed :
    let s : State := granted 0xA6 0 0 8 (let s := pairOf 0 1 2 (fn 0xA6 [] (pay 12 [(8, authField)])); { s with pair := { s.pair with confirmed := false } })
    let k := 0
    let x := s.asked k
    let p := x.payload
    let t := s.computing k
    ∃ i : Nat, ∃ s1 : State, ((Fn.auth k x 0xA6 0 0 8).gives t i s1) ∧
      (s.mayCompute k (· == 0xA6)) ∧
      (layoutOk p 12 [(5, 3)] = true) ∧
      (fld p 4 1 ≤ 1 ∧ s1.paired = true ∧ s1.position = 0 ∧ s1.pair.confirmed = false) := by
  intro s k x p t
  exact ⟨_, _, gives_auth (i := 0) (by decide +kernel) (by decide +kernel) rfl, may_of (by decide +kernel), by decide +kernel, by decide +kernel⟩

theorem witness_journalBatchHeld :
    let s : State := let s := inStandby (pairOf 1 1 1 (fn 0xA8 [] batchPay)); { s with pair := { s.pair with parts := [{ folio := 3, part := 0, parts := 1, records := batchPay }] } }
    let k := 0
    let x := s.asked k
    let p := x.payload
    let t := s.computing k
    let b := ({ folio := fld p 8 6, part := fld p 14 1, parts := fld p 15 1, records := p } : BatchPart)
    (s.mayCompute k (· == 0xA8)) ∧
      (20 ≤ p.length ∧ prologueOk p 0 = true ∧ zeroAt p 18 2 = true ∧ 1 ≤ fld p 15 1 ∧ fld p 15 1 ≤ 16 ∧ fld p 14 1 < fld p 15 1) ∧
      (t.pair.epoch ≤ fld p 4 4 ∧ t.paired = true ∧ t.dev.state = .standby) ∧
      (∃ q ∈ t.pair.parts, q.folio = b.folio ∧ q.part = b.part) := by
  intro s k x p t b
  exact ⟨may_of (by decide +kernel), by decide +kernel, by decide +kernel, by decide +kernel⟩

theorem witness_journalBatchFirst :
    let s : State := holding 0 (inStandby (pairOf 1 1 1 (fn 0xA8 [] batchPay)))
    let k := 0
    let x := s.asked k
    let p := x.payload
    let t := s.computing k
    let b := ({ folio := fld p 8 6, part := fld p 14 1, parts := fld p 15 1, records := p } : BatchPart)
    let kept := keepPart (heardAhead t x false) b
    let sent := (match kept.slotAt (kept.position + 1) with | some j => sendBoth kept j 0xA8 p | none => kept)
    (s.mayCompute k (· == 0xA8)) ∧
      (20 ≤ p.length ∧ prologueOk p 0 = true ∧ zeroAt p 18 2 = true ∧ 1 ≤ fld p 15 1 ∧ fld p 15 1 ≤ 16 ∧ fld p 14 1 < fld p 15 1) ∧
      (t.pair.epoch ≤ fld p 4 4 ∧ t.paired = true ∧ t.dev.state = .standby) ∧
      (∀ q ∈ t.pair.parts, ¬ (q.folio = b.folio ∧ q.part = b.part)) ∧
      (sent.vault.heldFolio = 0) := by
  intro s k x p t b kept sent
  exact ⟨may_of (by decide +kernel), by decide +kernel, by decide +kernel, by decide +kernel, by decide +kernel⟩

theorem witness_journalBatchNext :
    let s : State := holding 2 (inStandby (pairOf 1 1 1 (fn 0xA8 [] batchPay)))
    let k := 0
    let x := s.asked k
    let p := x.payload
    let t := s.computing k
    let b := ({ folio := fld p 8 6, part := fld p 14 1, parts := fld p 15 1, records := p } : BatchPart)
    let kept := keepPart (heardAhead t x false) b
    let sent := (match kept.slotAt (kept.position + 1) with | some j => sendBoth kept j 0xA8 p | none => kept)
    (s.mayCompute k (· == 0xA8)) ∧
      (20 ≤ p.length ∧ prologueOk p 0 = true ∧ zeroAt p 18 2 = true ∧ 1 ≤ fld p 15 1 ∧ fld p 15 1 ≤ 16 ∧ fld p 14 1 < fld p 15 1) ∧
      (t.pair.epoch ≤ fld p 4 4 ∧ t.paired = true ∧ t.dev.state = .standby) ∧
      (∀ q ∈ t.pair.parts, ¬ (q.folio = b.folio ∧ q.part = b.part)) ∧
      (sent.vault.heldFolio ≠ 0) := by
  intro s k x p t b kept sent
  exact ⟨may_of (by decide +kernel), by decide +kernel, by decide +kernel, by decide +kernel, by decide +kernel⟩

theorem witness_heartbeat :
    let s : State := inStandby (pairOf 1 1 1 (fn 0xA9 [] (pay 20 [(8, [1])])))
    let k := 0
    let x := s.asked k
    let p := x.payload
    let t := s.computing k
    (s.mayCompute k (· == 0xA9)) ∧
      (layoutOk p 20 [(10, 2), (18, 2)] = true ∧ fld p 8 1 ≤ 7 ∧ t.pair.epoch ≤ fld p 4 4) := by
  intro s k x p t
  exact ⟨may_of (by decide +kernel), by decide +kernel⟩

theorem witness_snapshot :
    let s : State := inStandby (pairOf 1 2 1 (fn 0xAA [] (pay 12 [(4, beBytes 4 1), (8, beBytes 4 2)])))
    let k := 0
    let x := s.asked k
    let p := x.payload
    let t := s.computing k
    (s.mayCompute k (· == 0xAA)) ∧
      (12 ≤ p.length ∧ fld p 4 4 < fld p 8 4 ∧ prologueOk p 0 = true ∧ t.paired = true ∧ t.dev.state = .standby ∧ (t.member t.pair.slot).state = 2) := by
  intro s k x p t
  exact ⟨may_of (by decide +kernel), by decide +kernel⟩


/-! ### Management, handshake and recorder functions -/

/-- Commit group `g` holds the staged value `v` of the register at `a`. -/
def dirty (g a v : Nat) (s : State) : State := s.putGroup g { state := .dirty, staged := [(a, v)], writes := 1 }
/-- A registered client key of tenant 0, of index 0. -/
def clientKey0 (alg : Nat) (pub : Bytes) (s : State) : State :=
  { s with ks := { s.ks with clientKeys := [(0, { alg := alg, pub := pub, digest := sha384B pub })] } }

theorem beNat_zeros (n : Nat) : beNat (zeros n) = 0 := by
  unfold beNat zeros
  induction n with
  | zero => rfl
  | succ n ih => simpa [List.replicate_succ] using ih

theorem fld_zeros (n o l : Nat) : fld (zeros n) o l = 0 := by
  have h : slice (zeros n) o l = zeros (min l (n - o)) := by simp [slice, zeros]
  unfold fld
  simp only [h, beNat_zeros, Nat.zero_mul]

theorem zerosReduced : ekUnreduced (zeros 1152) = false := by
  simp [ekUnreduced, fld_zeros]

theorem witness_mgmtRead :
    let s : State := fn 1 [] (pay 8 [(0, beBytes 4 0x10000), (4, [0, 2])])
    let k := 0
    let x := s.asked k
    let p := x.payload
    let addr := fld p 0 4
    let n := fld p 4 2
    (s.mayCompute k (· == 1)) ∧
      (1 ≤ n ∧ n ≤ 256 ∧ addr % 4 = 0 ∧ (∀ i, i < n → undefinedAddr (addr + 4 * i) = false) ∧ p.length = 8) ∧
      (∀ i, i < n → isRandomReg (addr + 4 * i) = false) := by
  intro s k x p addr n
  exact ⟨may_of (by decide +kernel), by decide +kernel, by decide +kernel⟩

theorem witness_mgmtWrite :
    let s : State := fn 2 [] (pay 12 [(0, beBytes 4 0x41000), (4, [0, 1])])
    let k := 0
    let x := s.asked k
    let p := x.payload
    let t := s.computing k
    let addr := fld p 0 4
    let n := fld p 4 2
    (s.mayCompute k (· == 2)) ∧
      (1 ≤ n ∧ n ≤ 256 ∧ addr % 4 = 0 ∧ (∀ i, i < n → undefinedAddr (addr + 4 * i) = false) ∧ p.length = 8 + 4 * n) ∧
      ((∀ g ∈ groupsOf addr n, (t.group g).state ≠ .armed) ∧ groupsOf addr n ≠ []) := by
  intro s k x p t addr n
  exact ⟨may_of (by decide +kernel), by decide +kernel, by decide +kernel⟩

theorem witness_mgmtCommitDiscard :
    let s : State := dirty 3 0x41000 2 (fn 3 [] (pay 8 [(0, [3, 1]), (2, beBytes 6 0)]))
    let k := 0
    let x := s.asked k
    let p := x.payload
    let t := s.computing k
    let g := fld p 0 1
    let flags := fld p 1 1
    let y := t.group g
    (s.mayCompute k (· == 3)) ∧
      (p.length = 8 ∧ 1 ≤ g ∧ g ≤ 4 ∧ y.state ≠ .armed) ∧
      (flags.testBit 0 = true) := by
  intro s k x p t g flags y
  exact ⟨may_of (by decide +kernel), by decide +kernel, by decide +kernel⟩

theorem witness_mgmtCommitClean :
    let s : State := (fn 3 [] (pay 8 [(0, [3, 0]), (2, beBytes 6 0)]))
    let k := 0
    let x := s.asked k
    let p := x.payload
    let t := s.computing k
    let g := fld p 0 1
    let flags := fld p 1 1
    let y := t.group g
    (s.mayCompute k (· == 3)) ∧
      (p.length = 8 ∧ 1 ≤ g ∧ g ≤ 4 ∧ y.state ≠ .armed) ∧
      (flags.testBit 0 = false ∧ y.state = .clean) := by
  intro s k x p t g flags y
  exact ⟨may_of (by decide +kernel), by decide +kernel, by decide +kernel⟩

theorem witness_mgmtCommit :
    let s : State := dirty 3 0x41000 2 (fn 3 [] (pay 8 [(0, [3, 0]), (2, beBytes 6 0)]))
    let k := 0
    let x := s.asked k
    let p := x.payload
    let t := s.computing k
    let g := fld p 0 1
    let flags := fld p 1 1
    let y := t.group g
    let early := folioAdd t.folio.now t.commitLead
    let target := (if flags.testBit 1 then fld p 2 6 else early)
    (s.mayCompute k (· == 3)) ∧
      (p.length = 8 ∧ 1 ≤ g ∧ g ≤ 4 ∧ y.state ≠ .armed) ∧
      (flags.testBit 0 = false ∧ y.state = .dirty ∧ folioReached target early = true ∧ folioDiff target t.folio.now ≤ 2 ^ 20) ∧
      ((∀ h, h < 5 → (t.group h).state = .armed → folioReached target (t.group h).folio = true) ∧ t.ruleFails g = none) := by
  intro s k x p t g flags y early target
  exact ⟨may_of (by decide +kernel), by decide +kernel, by decide +kernel, by decide +kernel⟩

theorem witness_mgmtCommitAt :
    let s : State := dirty 3 0x41000 2 (fn 3 [] (pay 8 [(0, [3, 2]), (2, beBytes 6 1000)]))
    let k := 0
    let x := s.asked k
    let p := x.payload
    let t := s.computing k
    let g := fld p 0 1
    let flags := fld p 1 1
    let y := t.group g
    let early := folioAdd t.folio.now t.commitLead
    let target := (if flags.testBit 1 then fld p 2 6 else early)
    (s.mayCompute k (· == 3)) ∧
      (p.length = 8 ∧ 1 ≤ g ∧ g ≤ 4 ∧ y.state ≠ .armed) ∧
      (flags.testBit 0 = false ∧ y.state = .dirty ∧ folioReached target early = true ∧ folioDiff target t.folio.now ≤ 2 ^ 20) ∧
      ((∀ h, h < 5 → (t.group h).state = .armed → folioReached target (t.group h).folio = true) ∧ t.ruleFails g = none) := by
  intro s k x p t g flags y early target
  exact ⟨may_of (by decide +kernel), by decide +kernel, by decide +kernel, by decide +kernel⟩

theorem witness_mgmtCommitChain :
    let s : State := dirty 3 0x41000 2 (pairOf 0 1 1 (fn 3 [] (pay 8 [(0, [3, 0]), (2, beBytes 6 0)])))
    let k := 0
    let x := s.asked k
    let p := x.payload
    let t := s.computing k
    let g := fld p 0 1
    let flags := fld p 1 1
    let y := t.group g
    let early := folioAdd t.folio.now t.commitLead
    let target := (if flags.testBit 1 then fld p 2 6 else early)
    (s.mayCompute k (· == 3)) ∧
      (p.length = 8 ∧ 1 ≤ g ∧ g ≤ 4 ∧ y.state ≠ .armed) ∧
      (flags.testBit 0 = false ∧ y.state = .dirty ∧ folioReached target early = true ∧ folioDiff target t.folio.now ≤ 2 ^ 20) ∧
      ((∀ h, h < 5 → (t.group h).state = .armed → folioReached target (t.group h).folio = true) ∧ t.ruleFails g = none ∧ t.paired = true) := by
  intro s k x p t g flags y early target
  exact ⟨may_of (by decide +kernel), by decide +kernel, by decide +kernel, by decide +kernel⟩

theorem witness_hsRespond :
    let s : State := fn 0xC0 [] (pay 1400 [])
    let k := 0
    let x := s.asked k
    let p := x.payload
    let t := s.computing k
    let ek := slice p 164 1184
    ∃ rnd : Bytes, ∃ s1 : State, ((Fn.draw 112).gives t rnd s1) ∧
      (s.mayCompute k (· == 0xC0)) ∧
      (ekUnreduced (ek.take 1152) = false) := by
  intro s k x p t ek
  exact ⟨_, _, gives_of ([]) (by decide +kernel), may_of (by decide +kernel), (congrArg ekUnreduced (show ek.take 1152 = zeros 1152 by decide +kernel)).trans zerosReduced⟩

theorem witness_hsFinishEc :
    let s : State := clientKey0 1 ([4] ++ beBytes 48 p384.gx ++ beBytes 48 p384.gy) (fn 0xC1 [] (pay 240 []))
    let k := 0
    let x := s.asked k
    let t := s.computing k
    let c := t.chan x.chan
    let key := t.clientKey c.tenant c.clientKey
    (s.mayCompute k (· == 0xC1)) ∧
      (sha384B key.pub = key.digest) ∧
      (key.alg = 1) ∧
      (fld key.pub 0 1 = 4 ∧ fld key.pub 1 48 < p384.p ∧ fld key.pub 49 48 < p384.p ∧ p384.has (fld key.pub 1 48) (fld key.pub 49 48) = true) := by
  intro s k x t c key
  exact ⟨may_of (by decide +kernel), rfl, by decide +kernel, by decide +kernel⟩

theorem witness_hsFinishPq :
    let s : State := clientKey0 2 (zeros 1952) (fn 0xC1 [] (pay 6666 []))
    let k := 0
    let x := s.asked k
    let t := s.computing k
    let c := t.chan x.chan
    let key := t.clientKey c.tenant c.clientKey
    (s.mayCompute k (· == 0xC1)) ∧
      (sha384B key.pub = key.digest) ∧
      (key.alg = 2) := by
  intro s k x t c key
  exact ⟨may_of (by decide +kernel), rfl, by decide +kernel⟩

theorem witness_recHead :
    let s : State := fn 0xB0 [] (pay 40 [(4, [32])])
    let k := 0
    let x := s.asked k
    let p := x.payload
    ∃ n : Nat, (s.mayCompute k (· == 0xB0)) ∧
      (n = fld p 4 1 ∧ layoutOk p (8 + n) [(5, 3)] = true ∧ 16 ≤ n ∧ n ≤ 64) := by
  intro s k x p
  exact ⟨32, may_of (by decide +kernel), by decide +kernel⟩

theorem witness_recRead :
    let s : State := fn 0xB1 [] (pay 12 [(4, [1])])
    let k := 0
    let x := s.asked k
    let p := x.payload
    (s.mayCompute k (· == 0xB1)) ∧
      (layoutOk p 12 [(5, 3)] = true ∧ fld p 4 1 ≤ 1) := by
  intro s k x p
  exact ⟨may_of (by decide +kernel), by decide +kernel⟩


/-! ### Cores -/

/-- Core 0 is `c`, in SERVICE. -/
def withCore (c : Core) (s : State) : State :=
  { s with dev := { s.dev with state := .service }, cores := { s.cores with core := [(0, c)] } }
/-- Core 0 runs guarded, with the words `l` from address 0 on. -/
def prog (l : List (Nat × Word32)) (c : Core) : Core := { c with imem := l, ctl := { c.ctl with guarded := true } }
/-- ALU port 0 from an immediate; WAITF for flag 0; ENTER of the task word 0; BTEST, which no guarded core may do. -/
abbrev wAlu : Word32 := 0x80008001
abbrev wWaitf : Word32 := 0xF0058001
abbrev wEnter : Word32 := 0xF0078000
abbrev wBtest : Word32 := 0xF0098000
/-- An access of core 0, due in cycle 1. -/
def access (addr : Nat) (op : AccessOp) : Access := { due := 1, ready := 2, addr := addr, op := op, pc := 0, computed := false }
/-- Core 0 has come to cycle 2 with that access to make. -/
def pendingAccess (x : Access) (s : State) : State := s.modCore 0 (fun c => { c with accesses := [x], time := 2 })
/-- What a bundle's issue answers: 0 effects, 1 an entry, 2 a protection fault, 3 a wait, 4 an illegal bundle, 5 an illegal move. -/
def answered : IssueResult → Nat
  | .ok a => if a.fault.isSome then 2 else if a.enter.isSome then 1 else 0
  | .waiting _ => 3
  | .illegalBundle => 4
  | .illegalMove => 5

theorem witness_guardFalse :
    let s : State := withCore { (prog [(0, 0x81008001)] {}) with bits := [] } State.reset
    let c0 := s.core 0
    ∃ m : Move, (c0.guard m = false ∧ m.pred < 8 ∧ c0.ctl.guarded = true ∧ waitMask (c0.mature c0.time) 0 [m] = none ∧ c0.ctl.loops = []) ∧
      ((c0.mature c0.time).guard m = false) := by
  intro s c0
  exact ⟨{ group := 0, inv := false, pred := 1, dest := 0, src := .imm 1 }, by decide +kernel, by decide +kernel⟩

theorem witness_bundleIssueEffects :
    let s : State := withCore (prog [(0, wAlu)] {}) State.reset
    let c := s.core 0
    ∃ ms : List Move, (s.coreRuns 0 = true ∧ c.stall = .none ∧ decodeBundle (fun i => tabGet 0 c.imem i) c.pc = some (ms, 4)) ∧
      ((∀ y ∈ c.accesses, stallTo c ms c.time ≤ y.due) ∧ (c.entered = true → stallTo c ms c.time - c.time < c.budget)) ∧
      (answered (issue (s.issueEnv 0) (c.pass (stallTo c ms c.time - c.time)) ms 4) = 0) := by
  intro s c
  exact ⟨((decodeBundle (fun i => tabGet 0 (s.core 0).imem i) 0).map (·.1)).getD [], by decide +kernel, by decide +kernel, by decide +kernel⟩

theorem witness_bundleIssueEntry :
    let s : State := withCore (prog [(0, wEnter)] { task := some { slot := 0, node := 0, req := 1 } }) State.reset
    let c := s.core 0
    ∃ ms : List Move, (s.coreRuns 0 = true ∧ c.stall = .none ∧ decodeBundle (fun i => tabGet 0 c.imem i) c.pc = some (ms, 4)) ∧
      ((∀ y ∈ c.accesses, stallTo c ms c.time ≤ y.due) ∧ (c.entered = true → stallTo c ms c.time - c.time < c.budget)) ∧
      (answered (issue (s.issueEnv 0) (c.pass (stallTo c ms c.time - c.time)) ms 4) = 1) := by
  intro s c
  exact ⟨((decodeBundle (fun i => tabGet 0 (s.core 0).imem i) 0).map (·.1)).getD [], by decide +kernel, by decide +kernel, by decide +kernel⟩

theorem witness_bundleIssueWait :
    let s : State := withCore (prog [(0, wWaitf)] {}) State.reset
    let c := s.core 0
    ∃ ms : List Move, (s.coreRuns 0 = true ∧ c.stall = .none ∧ decodeBundle (fun i => tabGet 0 c.imem i) c.pc = some (ms, 4)) ∧
      ((∀ y ∈ c.accesses, stallTo c ms c.time ≤ y.due) ∧ (c.entered = true → stallTo c ms c.time - c.time < c.budget)) ∧
      (answered (issue (s.issueEnv 0) (c.pass (stallTo c ms c.time - c.time)) ms 4) = 3) := by
  intro s c
  exact ⟨((decodeBundle (fun i => tabGet 0 (s.core 0).imem i) 0).map (·.1)).getD [], by decide +kernel, by decide +kernel, by decide +kernel⟩

theorem witness_bundleIssueIllegalMove :
    let s : State := withCore (prog [(0, wBtest)] {}) State.reset
    let c := s.core 0
    ∃ ms : List Move, (s.coreRuns 0 = true ∧ c.stall = .none ∧ decodeBundle (fun i => tabGet 0 c.imem i) c.pc = some (ms, 4)) ∧
      ((∀ y ∈ c.accesses, stallTo c ms c.time ≤ y.due) ∧ (c.entered = true → stallTo c ms c.time - c.time < c.budget)) ∧
      (answered (issue (s.issueEnv 0) (c.pass (stallTo c ms c.time - c.time)) ms 4) = 5) := by
  intro s c
  exact ⟨((decodeBundle (fun i => tabGet 0 (s.core 0).imem i) 0).map (·.1)).getD [], by decide +kernel, by decide +kernel, by decide +kernel⟩

theorem witness_bundleIssueIllegalBundle :
    let s : State := withCore { imem := [(0, 0x81008001)] } State.reset
    let c := s.core 0
    ∃ ms : List Move, (s.coreRuns 0 = true ∧ c.stall = .none ∧ decodeBundle (fun i => tabGet 0 c.imem i) c.pc = some (ms, 4)) ∧
      ((∀ y ∈ c.accesses, stallTo c ms c.time ≤ y.due) ∧ (c.entered = true → stallTo c ms c.time - c.time < c.budget)) ∧
      (answered (issue (s.issueEnv 0) (c.pass (stallTo c ms c.time - c.time)) ms 4) = 4) := by
  intro s c
  exact ⟨((decodeBundle (fun i => tabGet 0 (s.core 0).imem i) 0).map (·.1)).getD [], by decide +kernel, by decide +kernel, by decide +kernel⟩

theorem witness_bundleIssueIdle :
    let s : State := State.reset
    (s.coreRuns 0 = false ∨ (s.core 0).stall ≠ .none) := by
  intro s
  exact by decide +kernel

theorem witness_waitfSatisfied :
    let s : State := withCore (prog [(0, wWaitf)] { stall := .waitf 0 10 }) State.reset
    let c := s.core 0
    ∃ cycles : Nat, (c.stall = .waitf 0 10 ∧ s.coreRuns 0 = true ∧ s.satisfies 0 0 = true ∧ c.time + cycles ≤ 10) ∧
      ((c.entered = true → cycles < c.budget) ∧ (∀ y ∈ c.accesses, c.time + cycles ≤ y.due)) := by
  intro s c
  exact ⟨10, by decide +kernel, by decide +kernel⟩

theorem witness_waitBoundExpiry :
    let s : State := withCore { stall := .waitf 1 10 } State.reset
    let c := s.core 0
    (c.stall = .waitf 1 10 ∧ s.satisfies 0 1 = false ∧ (c.entered = true → 10 - c.time ≤ c.budget)) := by
  intro s c
  exact by decide +kernel

theorem witness_budgetExpiry :
    let s : State := withCore { entered := true } State.reset
    (s.budgetOut 0 = true) := by
  intro s
  exact by decide +kernel

theorem witness_btestComplete :
    let s : State := withCore { stall := .btest } State.reset
    ((s.core 0).stall = .btest) := by
  intro s
  exact by decide +kernel

theorem witness_access_store :
    let s : State := pendingAccess (access 0x100000 (.store 4 7)) (withCore {} State.reset)
    let x2 := access 0x100000 (.store 4 7)
    let s0 := s.modCore 0 (fun c => { c with accesses := c.accesses.erase x2 })
    ((s.core 0).nextAccess = some x2 ∧ x2.due < (s.core 0).time) ∧
      (accessFault s0 0 x2 .data true 4 = none) := by
  intro s x2 s0
  exact ⟨by decide +kernel, by decide +kernel⟩

theorem witness_access_storeFault :
    let s : State := pendingAccess (access 0x100000 (.store 4 7)) (withCore { entered := true } State.reset)
    let x2 := access 0x100000 (.store 4 7)
    let s0 := s.modCore 0 (fun c => { c with accesses := c.accesses.erase x2 })
    ((s.core 0).nextAccess = some x2 ∧ x2.due < (s.core 0).time) ∧
      ((accessFault s0 0 x2 .data true 4).isSome = true) := by
  intro s x2 s0
  exact ⟨by decide +kernel, by decide +kernel⟩

theorem witness_access_load :
    let s : State := pendingAccess (access 0x100000 (.load 8)) (withCore {} State.reset)
    let x2 := access 0x100000 (.load 8)
    let s0 := s.modCore 0 (fun c => { c with accesses := c.accesses.erase x2 })
    ((s.core 0).nextAccess = some x2 ∧ x2.due < (s.core 0).time) ∧
      (accessFault s0 0 x2 .data false 8 = none) := by
  intro s x2 s0
  exact ⟨by decide +kernel, by decide +kernel⟩

theorem witness_access_storeConditional :
    let s : State := pendingAccess (access 0x100000 (.storeConditional 7)) (withCore { reservation := some 0x100000 } State.reset)
    let x2 := access 0x100000 (.storeConditional 7)
    let s0 := s.modCore 0 (fun c => { c with accesses := c.accesses.erase x2 })
    ((s.core 0).nextAccess = some x2 ∧ x2.due < (s.core 0).time) ∧
      (accessFault s0 0 x2 .data true 8 = none ∧ (s0.core 0).reservation.isSome = true) := by
  intro s x2 s0
  exact ⟨by decide +kernel, by decide +kernel⟩

theorem witness_access_storeConditionalLost :
    let s : State := pendingAccess (access 0x100000 (.storeConditional 7)) (withCore {} State.reset)
    let x2 := access 0x100000 (.storeConditional 7)
    let s0 := s.modCore 0 (fun c => { c with accesses := c.accesses.erase x2 })
    ((s.core 0).nextAccess = some x2 ∧ x2.due < (s.core 0).time) ∧
      (accessFault s0 0 x2 .data true 8 = none ∧ (s0.core 0).reservation.isSome = false) := by
  intro s x2 s0
  exact ⟨by decide +kernel, by decide +kernel⟩

theorem witness_access_ioWrite :
    let s : State := pendingAccess (access 0x100 (.ioWrite 16 7)) (withCore {} State.reset)
    let x2 := access 0x100 (.ioWrite 16 7)
    let s0 := s.modCore 0 (fun c => { c with accesses := c.accesses.erase x2 })
    ((s.core 0).nextAccess = some x2 ∧ x2.due < (s.core 0).time) ∧
      (x2.computed = false ∧ inWindow x2.addr = false ∧ accessFault s0 0 x2 .io true 1 = none) := by
  intro s x2 s0
  exact ⟨by decide +kernel, by decide +kernel⟩

theorem witness_access_waits :
    let s : State := pendingAccess { (access 0x100000 (.load 8)) with due := 2 } (withCore {} State.reset)
    (((s.core 0).nextAccess.map (fun y => decide (y.due < (s.core 0).time ∨ (s.core 0).stall ≠ .none))) = some false) := by
  intro s
  exact by decide +kernel

theorem witness_take :
    let s : State := withCore (prog [] {}) State.reset
    (s.canonical = true ∧ (s.core 0).ctl.guarded = true ∧ (s.core 0).task = none ∧ (s.core 0).stall ≠ .halted ∧ (s.core 0).stall ≠ .held) := by
  intro s
  exact by decide +kernel

/-- Core 0 waits to be given the ready task of slot 0. -/
def readyTask : State :=
  let s := withCore (prog [] { stall := .take }) State.reset
  { s with sq := { slots := [(0, { state := .ready, req := 1 })], ready := [(0, [{ slot := 0, node := 0, block := 0 }])], takers := [0] } }

theorem witness_taskGive :
    let s : State := readyTask
    ∃ e : ReadyEntry, (s.canonical = true ∧ s.readyFor 0 = some e ∧ s.taker 0 = some 0 ∧ (s.slot e.slot).live = true) := by
  intro s
  exact ⟨{ slot := 0, node := 0, block := 0 }, by decide +kernel⟩

theorem witness_flagClr_delay :
    let s : State := fn 0x8000 [] []
    (s.canonical = true ∧ s.taskOf 0 = some (0, s.slot 0, 0)) := by
  intro s
  exact by decide +kernel

theorem witness_doneTask :
    let s : State := (fn 0x8000 [] []).modSlot 0 (fun x => { x with cost := { x.cost with lmax := 64 } })
    ∃ v : Word64, (s.canonical = true ∧ s.taskOf 0 = some (0, s.slot 0, 0) ∧ s.jobOf 0 = none ∧ (s.slot 0).outcome = none) ∧
      (bitsOf v.toNat 13 0 ≤ (if 0 = (s.slot 0).lastNode then (s.slot 0).cost.lmax else 0)) := by
  intro s
  exact ⟨0x00000040, by decide +kernel, by decide +kernel⟩

theorem witness_doneTaskComputed :
    let s : State := (fn 0x101 [] []).modSlot 0 (fun x => { x with outcome := some { status := 0, result := [1] } })
    (s.canonical = true ∧ s.taskOf 0 = some (0, s.slot 0, 0) ∧ s.jobOf 0 = none ∧ (s.slot 0).outcome.isSome = true) := by
  intro s
  exact by decide +kernel

theorem witness_missPoint :
    let s : State := let s := fn 0x101 [] []; { s with folio := { s.folio with delayTick := 60 } }
    ((s.slot 0).wasAdmitted = true ∧ s.atMissPoint (s.slot 0) = true ∧ (s.slot 0).journalHeld = false ∧ (s.slot 0).commit = none ∧ s.earlierOpen (s.slot 0) = []) := by
  intro s
  exact by decide +kernel

theorem witness_missPointHeld :
    let s : State := { fn 0x101 [] [] with folio := { State.reset.folio with delayTick := 60 } }.modSlot 0 (fun x => { x with state := .held, journalHeld := true, commit := some (0, 0) })
    ((s.slot 0).wasAdmitted = true ∧ s.atMissPoint (s.slot 0) = true ∧ (s.slot 0).journalHeld = true) := by
  intro s
  exact by decide +kernel

theorem witness_missPointNothing :
    let s : State := State.reset
    ((s.slot 0).wasAdmitted = false) := by
  intro s
  exact by decide +kernel

theorem witness_winSet :
    let s : State := withCore {} { State.reset with cores := { State.reset.cores with mpu := [(0, { segments := [(0, segment .data 0 0xFFFF true true)] })] } }
    ∃ v : Word128, ∃ q : Nat × Region, (spaceOf (bitsOf v.toNat 5 4) = some .data) ∧
      (bitsOf v.toNat 127 96 % 8 = 0 ∧ (bitsOf v.toNat 95 64 + 1) % 8 = 0 ∧ bitsOf v.toNat 127 96 ≤ bitsOf v.toNat 95 64) ∧
      (tabWf {} s.cores.mpu = true ∧ (s.mpu 0).segments.find? (fun q => q.2.has .data (bitsOf v.toNat 127 96) && q.2.has .data (bitsOf v.toNat 95 64)) = some q) := by
  intro s
  exact ⟨0x000000100000001F0000000000000103, (0, segment .data 0 0xFFFF true true), by decide +kernel, by decide +kernel, by decide +kernel⟩

theorem witness_winSetRefused :
    let s : State := withCore {} State.reset
    ∃ v : Word128, (tabWf {} s.cores.mpu = true) ∧
      (winSetOp s 0 v = none) := by
  intro s
  exact ⟨0x000000100000001F0000000000000103, by decide +kernel, rfl⟩

theorem witness_keyPorts :
    let s : State := fn 0x101 [] []
    (s.taskOf 0 = some (0, s.slot 0, 0) ∧ tabGet 0 s.cores.unwrap 0 = 0) := by
  intro s
  exact by decide +kernel

theorem witness_keyPortsUnwrapping :
    let s : State := let s := fn 0x101 [] []; { s with cores := { s.cores with unwrap := [(0, 2)], handles := [(0, [(1, { missed := [1] })])], keyBusy := [(0, true)] } }
    ∃ h : Nat, (s.taskOf 0 = some (0, s.slot 0, 0) ∧ tabGet 0 s.cores.unwrap 0 = h + 1 ∧ (s.handle 0 h).missed ≠ [] ∧ tabGet false s.cores.keyBusy 0 = true) := by
  intro s
  exact ⟨1, by decide +kernel⟩


/-! ### Random, big-number and bulk ports, engines and jobs -/

/-- Handle 0 of core 0 is `x`, its engine 0 is `e`. -/
def bn (x : BnHandle) (e : BnEngine) (s : State) : State :=
  { s with cores := { s.cores with bn := [(0, [(0, x)])] }, bn := { s.bn with engines := [(0, e)] } }
/-- Engine 0 owned by handle 0 of core 0, with bank 0 as `b`. -/
def owned (b : Bank) : BnEngine := { owner := some (0, 0), banks := [(0, b)] }
def task0 : State := fn 0x0101 [] []
/-- A running job of operation `op` on engine 0. -/
def running (op : Nat) (b : Bank) : State := bn { state := .running, started := true, op := op } (owned b) task0
/-- An RSA modulus of 2,048 bits, and the number 1 to raise. -/
def rsaMem : List (Nat × Byte) := [(0, 0x80), (255, 1), (0x2FF, 1)]
/-- A small RSA key: p and q above 1. -/
def rsaKey : Bytes := [7, 11, 1, 1, 1]
def jobOf (s : State) : BnJob := ((s.jobOn 0).map (·.2.2)).getD { x := {}, mem := [], key := [], curve := p256 }
/-- A bulk job of slot 0. -/
def job0 : BulkJob :=
  { slot := 0, op := .segment, context := 0, deadline := 1, order := 0, data := [], tag := [], rekey := false }
def withJob (j : BulkJob) (s : State) : State := { s with bulk := { s.bulk with jobs := [j] } }

theorem witness_rreqFault :
    let s : State := task0
    ∃ v : Word64, (s.taskOf 0 = some (0, s.slot 0, 0) ∧ (let m := bitsOf v.toNat 3 0; m < 1 ∨ 8 < m)) := by
  intro s
  exact ⟨9, by decide +kernel⟩

theorem witness_rreq :
    let s : State := task0
    ∃ v : Word64, (s.taskOf 0 = some (0, s.slot 0, 0) ∧ (let m := bitsOf v.toNat 3 0; 1 ≤ m ∧ m ≤ 8) ∧ (s.randPort 0).draw.isSome = false) := by
  intro s
  exact ⟨8, by decide +kernel⟩

theorem witness_rreqBusy :
    let s : State := let s := task0; s.putRandPort 0 { draw := some (false, 1, 0) }
    (s.taskOf 0 = some (0, s.slot 0, 0) ∧ (s.randPort 0).draw.isSome = true) := by
  intro s
  exact by decide +kernel

theorem witness_rten :
    let s : State := (fn 0x0901 [] []).modSlot 0 (fun x => { x with cost := { x.cost with lmax := 64 } })
    ∃ v : Word64, (s.taskOf 0 = some (0, s.slot 0, 0) ∧ (let m := bitsOf v.toNat 8 0; let off := bitsOf v.toNat 31 16; 1 ≤ m ∧ m ≤ 256 ∧ off % 16 = 0 ∧ off + 16 * m ≤ (s.slot 0).windowSize) ∧ (s.slot 0).func / 256 = 0x09 ∧ (s.randPort 0).draw.isSome = false) := by
  intro s
  exact ⟨0x00F00001, by decide +kernel⟩

theorem witness_rtenFault :
    let s : State := task0
    (s.taskOf 0 = some (0, s.slot 0, 0) ∧ (s.slot 0).func / 256 ≠ 0x09) := by
  intro s
  exact by decide +kernel

theorem witness_bopen :
    let s : State := task0
    ∃ v : Word64, (s.taskOf 0 = some (0, s.slot 0, 0) ∧ (s.bnHandle 0 3).state = .free ∧ opDefined (v.toNat % 256) = true ∧ isEcOp (v.toNat % 256) = false ∧ bitsOf v.toNat 15 8 = 0 ∧ isPairedOp (v.toNat % 256) = false ∧ s.pickEngine none = some 0) := by
  intro s
  exact ⟨1, by decide +kernel⟩

theorem witness_bopenNone :
    let s : State := { task0 with pwr := { State.reset.pwr with districts := [(16, { state := .off }), (17, { state := .off }), (18, { state := .off }), (19, { state := .off })] } }
    ∃ v : Word64, (s.taskOf 0 = some (0, s.slot 0, 0) ∧ (s.bnHandle 0 0).state = .free ∧ opDefined (v.toNat % 256) = true ∧ isEcOp (v.toNat % 256) = false ∧ bitsOf v.toNat 15 8 = 0 ∧ isPairedOp (v.toNat % 256) = false ∧ s.pickEngine none = none) := by
  intro s
  exact ⟨1, by decide +kernel⟩

theorem witness_bnOpenHandle :
    let s : State := bn { state := .open, op := 1 } (owned { state := .fgOpen }) task0
    (s.taskOf 0 = some (0, s.slot 0, 0) ∧ (let y := s.bnHandle 0 0; y.state = .open ∧ y.refused = false ∧ ((s.engine y.engine).bank y.bank).state = .fgOpen ∧ y.odd = false ∧ y.paired = false ∧ isEcOp y.op = false)) := by
  intro s
  exact by decide +kernel

theorem witness_bnRefusedHandle :
    let s : State := bn { state := .open, op := 1, refused := true } {} task0
    (s.taskOf 0 = some (0, s.slot 0, 0) ∧ (let y := s.bnHandle 0 0; y.state = .open ∧ y.refused = true ∧ y.odd = false ∧ y.paired = false ∧ isEcOp y.op = false)) := by
  intro s
  exact by decide +kernel

theorem witness_bnRunningHandle :
    let s : State := bn { state := .running, op := 1 } (owned { state := .fgOpen }) task0
    (s.taskOf 0 = some (0, s.slot 0, 0) ∧ (let y := s.bnHandle 0 0; y.state = .running ∧ y.paired = false ∧ y.abortStatus = none)) := by
  intro s
  exact by decide +kernel

theorem witness_bnDoneHandle :
    let s : State := bn { state := .done, op := 1 } (owned { state := .fgDone }) task0
    (s.taskOf 0 = some (0, s.slot 0, 0) ∧ (let y := s.bnHandle 0 0; y.state = .done ∧ y.refused = false) ∧ tabWf {} (tabGet [] s.cores.bn 0) = true ∧ tabWf [] s.cores.bn = true) := by
  intro s
  exact by decide +kernel

theorem witness_bnEveryOperation :
    (∀ op ∈ [1, 2, 3, 5, 6, 7, 0x20, 0x21, 0x22, 0x28, 0x29, 0x2A, 0x10, 0x11, 0x12, 0x13, 0x14], ((running op { state := .fgOpen }).jobOn 0).map (fun q => q.2.2.x.op) = some op ∧ (((running op { state := .fgOpen }).engine 0).bank 0).state = .fgOpen) := by
  exact by decide +kernel

theorem witness_bnNoJob :
    let s : State := State.reset
    (s.rng.state = .failed ∨ ((s.jobOn 0).map (·.1)) = none) := by
  intro s
  exact by decide +kernel

theorem witness_bnRandomFailed :
    let s : State := let s := running 5 { state := .fgOpen }; { s with rng := { s.rng with state := .failed } }
    (((s.jobOn 0).map (fun q => (q.1, q.2.1))) = some (0, 0) ∧ ((s.engine 0).bank (jobOf s).x.bank).state = .fgOpen ∧ s.rng.state = .failed ∧ opUsesRandom (jobOf s).x.op = true) := by
  intro s
  exact by decide +kernel

theorem witness_bnBadInput :
    let s : State := running 1 { state := .fgOpen }
    (((s.jobOn 0).map (fun q => (q.1, q.2.1))) = some (0, 0) ∧ ((s.engine 0).bank (jobOf s).x.bank).state = .fgOpen ∧ ¬ (s.rng.state = .failed ∧ opUsesRandom (jobOf s).x.op = true) ∧ bnValidate (jobOf s) ≠ stOk) := by
  intro s
  exact by decide +kernel

theorem witness_bnRsaPublic :
    let s : State := bn { state := .running, started := true, op := 1, e := 3 } (owned { state := .fgOpen, mem := rsaMem }) task0
    (((s.jobOn 0).map (fun q => (q.1, q.2.1))) = some (0, 0) ∧ ((s.engine 0).bank (jobOf s).x.bank).state = .fgOpen ∧ ¬ (s.rng.state = .failed ∧ opUsesRandom (jobOf s).x.op = true) ∧ bnValidate (jobOf s) = stOk ∧ (jobOf s).x.op = 1) := by
  intro s
  exact by decide +kernel

theorem witness_bnRsaPrivate :
    let s : State := bn { state := .running, started := true, op := 5, hasKey := true, keyAttr := { alg := 7 } } (owned { state := .fgOpen, mem := [(0x2FF, 1)], key := rsaKey }) task0
    (((s.jobOn 0).map (fun q => (q.1, q.2.1))) = some (0, 0) ∧ ((s.engine 0).bank (jobOf s).x.bank).state = .fgOpen ∧ ¬ (s.rng.state = .failed ∧ opUsesRandom (jobOf s).x.op = true) ∧ bnValidate (jobOf s) = stOk ∧ (jobOf s).x.op = 5) ∧
      ((let j := jobOf s; powMod ((rsaKeyOf j.key).crt (j.num 0x200 256)) 65537 (rsaKeyOf j.key).n = j.num 0x200 256)) := by
  intro s
  exact ⟨by decide +kernel, by decide +kernel⟩

theorem witness_mlDsaIteration :
    let s : State := (bn { state := .running, op := 0x29, outcome := some 0, need := 20, iterations := 16 } (owned {}) task0).modSlot 0 (fun x => { x with deadline := 10 })
    ((s.engine 0).owner = some (0, 0) ∧ s.taskOf 0 = some (0, s.slot 0, 0) ∧ (let y := s.bnHandle 0 0; y.state = .running ∧ y.op = 0x29 ∧ y.outcome.isSome = true ∧ y.refusedInput = false ∧ y.iterations < y.need)) ∧
      (3200 ≤ s.reserveLeft s.folio.now - s.bn.drawn ∧ 23600 + 12800 ≤ s.toMissPoint (s.slot 0)) := by
  intro s
  exact ⟨by decide +kernel, by decide +kernel⟩

theorem witness_mlDsaIterationLate :
    let s : State := let s := bn { state := .running, op := 0x29, outcome := some 0, need := 20, iterations := 16 } (owned {}) task0; { s with folio := { s.folio with delayTick := 60 } }
    ((s.engine 0).owner = some (0, 0) ∧ s.taskOf 0 = some (0, s.slot 0, 0) ∧ (let y := s.bnHandle 0 0; y.state = .running ∧ y.op = 0x29 ∧ y.outcome.isSome = true ∧ y.refusedInput = false ∧ y.iterations < y.need)) ∧
      (s.toMissPoint (s.slot 0) < 23600 + 12800) := by
  intro s
  exact ⟨by decide +kernel, by decide +kernel⟩

theorem witness_bnJobComplete :
    let s : State := bn { state := .running, op := 1, outcome := some 0 } (owned { state := .fgOpen }) task0
    ((s.engine 0).owner = some (0, 0) ∧ (let y := s.bnHandle 0 0; y.outcome = some 0 ∧ y.state = .running ∧ y.abortStatus = none ∧ y.op ≠ 0x29 ∧ y.paired = false ∧ y.engine = 0)) := by
  intro s
  exact by decide +kernel

theorem witness_bankClearComplete :
    let s : State := bn {} { banks := [(2, { state := .clearing })] } task0
    (((s.engine 0).bank 2).state = .clearing ∧ (s.engine 0).owner = none) := by
  intro s
  exact by decide +kernel

theorem witness_bankClearIdle :
    let s : State := task0
    (((s.engine 0).bank 2).state ≠ .clearing) := by
  intro s
  exact by decide +kernel

theorem witness_bnSlice :
    let s : State := let s := bn {} { background := some (3, 1), sliceRunning := true } task0; { s with bn := { s.bn with curves := [(3, { state := .validating, pbits := 256, h := 1 })] } }
    ((s.engine 0).background = some (3, 1) ∧ (s.engine 0).sliceRunning = true ∧ (s.curve 3).state = .validating ∧ (s.engine 0).owner = none) ∧
      (curveCheck (s.curve 3) (s.bases 80).1 ≠ 0) := by
  intro s
  exact ⟨by decide +kernel, by decide +kernel⟩

theorem witness_bnSliceStopped :
    let s : State := let s := bn {} { background := some (3, 1), sliceRunning := true, owner := some (0, 0) } task0; { s with bn := { s.bn with curves := [(3, { state := .validating })] } }
    ((s.engine 0).background = some (3, 1) ∧ (s.engine 0).sliceRunning = true ∧ (s.curve 3).state = .validating ∧ (s.engine 0).owner = some (0, 0)) := by
  intro s
  exact by decide +kernel

theorem witness_bnNoBackground :
    let s : State := task0
    ((s.engine 0).background = none) := by
  intro s
  exact by decide +kernel

theorem witness_bksub :
    let s : State := fn 0x0802 [] []
    (s.taskOf 0 = some (0, s.slot 0, 0) ∧ (s.slot 0).func / 256 = 8 ∧ (s.bulkStat 0).submitted = false) := by
  intro s
  exact by decide +kernel

theorem witness_bksubFault :
    let s : State := task0
    (s.taskOf 0 = some (0, s.slot 0, 0) ∧ (s.slot 0).func / 256 ≠ 8) := by
  intro s
  exact by decide +kernel

theorem witness_bulkSubmissionAnswer2 :
    let s : State := let s := fn 0x0802 [] []; { s with bulk := { s.bulk with submissions := [{ core := 0, op := 2, kin := 0, kout := 1 }] } }
    ∃ b : BulkSubmission, (s.taskOf 0 = some (0, s.slot 0, 0) ∧ s.bulk.submissions.find? (fun b => b.core == 0) = some b ∧ (bulkOpOf b.op).isSome = true) := by
  intro s
  exact ⟨{ core := 0, op := 2, kin := 0, kout := 1 }, by decide +kernel⟩

theorem witness_bulkSubmissionAnswer7 :
    let s : State := let s := fn 0x0802 [] []; { s with bulk := { s.bulk with submissions := [{ core := 0, op := 7, kin := 0, kout := 1 }] } }
    ∃ b : BulkSubmission, (s.taskOf 0 = some (0, s.slot 0, 0) ∧ s.bulk.submissions.find? (fun b => b.core == 0) = some b ∧ (bulkOpOf b.op).isSome = false) := by
  intro s
  exact ⟨{ core := 0, op := 7, kin := 0, kout := 1 }, by decide +kernel⟩

theorem witness_bulkJobComplete :
    let s : State := withJob { job0 with running := true, handed := true } (fn 0x0802 [] [])
    ∃ j : BulkJob, (s.taskOf 0 = some (0, s.slot 0, 0) ∧ s.jobOf 0 = some j ∧ j.running = true ∧ j.handed = true) := by
  intro s
  exact ⟨{ job0 with running := true, handed := true }, by decide +kernel⟩

theorem witness_bulkNoJob :
    let s : State := fn 0x0802 [] []
    (s.taskOf 0 = some (0, s.slot 0, 0) ∧ s.jobOf 0 = none ∧ s.nextJob = none) := by
  intro s
  exact by decide +kernel

theorem witness_bulkJobStart :
    let s : State := withJob job0 (fn 0x0802 [] [])
    (s.taskOf 0 = some (0, s.slot 0, 0) ∧ s.nextJob = some job0 ∧ ((List.range 16).filter s.bulkReady).length ≥ 1 ∧ job0.rekey = false) := by
  intro s
  exact by decide +kernel

theorem witness_bulkJobStartTwo :
    let s : State := withJob { job0 with rekey := true } (fn 0x0802 [] [])
    (s.taskOf 0 = some (0, s.slot 0, 0) ∧ s.nextJob = some { job0 with rekey := true } ∧ (((List.range 16).filter s.bulkReady).take 2).length = 2) := by
  intro s
  exact by decide +kernel

theorem witness_bulkJobWaits :
    let s : State := let s := withJob job0 (fn 0x0802 [] []); { s with pwr := { s.pwr with districts := [(20, { state := .off }), (21, { state := .off }), (22, { state := .off }), (23, { state := .off })] } }
    (s.taskOf 0 = some (0, s.slot 0, 0) ∧ s.nextJob = some job0 ∧ (((List.range 16).filter s.bulkReady).take 1).length < 1) := by
  intro s
  exact by decide +kernel


/-! ### Ports, channels and the folio clock -/

/-- In SERVICE, logical port 0 is `p`. -/
def withPort (p : Port) (s : State) : State := { s with dev := { s.dev with state := .service }, ports := [(0, p)] }
def upPort : Port :=
  { link := true, cfg := { present := true, mac := 7, ipv4 := [(0, 9)], ipv6 := [(0, 11)] } }
/-- An SRP frame that the port takes. -/
def goodFrame : RxFrame :=
  { len := 100, dst := 7, srcMac := 8, ethertype := 0x0800, dstIp := 9, srcIp := 10, proto := 17, udpDst := State.reset.srp.udpPort }
/-- The datagram `b` stands at the head of port 0. -/
def arrived (b : Bytes) (s : State) : State := withPort { upPort with ingress := [{ bytes := b }] } s
/-- A header: version and type, flags, tenant and count, channel, sequence. -/
def header (type count chan seq : Nat) : Bytes :=
  beBytes 1 (32 + type) ++ [0] ++ beBytes 2 (count * 1024) ++ beBytes 4 chan ++ beBytes 8 seq ++ zeros 16
/-- Channel `c` is `x`. -/
def withChan (c : Nat) (x : Channel) (s : State) : State := { s with srp := { s.srp with channels := [(c, x)] } }
/-- An open channel of generation 1. -/
def chan0 : Channel := { state := .open, gen := 1, c2d := zeros 36 }

/-- A datagram with an empty payload, sealed under a key, and the same with every bit of its tag wrong. -/
def sealed (key iv hdr : Bytes) : Bytes := hdr ++ (gcmSeal key iv hdr []).2
def spoiled (key iv hdr : Bytes) : Bytes := hdr ++ (gcmSeal key iv hdr []).2.map (fun b => ~~~b)

theorem tag_length (key iv hdr : Bytes) : (gcmSeal key iv hdr []).2.length = 16 := rfl

theorem sealed_opens {key iv hdr : Bytes} (h : hdr.length = 32) :
    gcmOpen key iv ((sealed key iv hdr).take 32) (((sealed key iv hdr).drop 32).take (((sealed key iv hdr).drop 32).length - 16))
      (((sealed key iv hdr).drop 32).drop (((sealed key iv hdr).drop 32).length - 16)) = some [] := by
  have h1 : (sealed key iv hdr).take 32 = hdr := by simp [sealed, ← h]
  have h2 : (sealed key iv hdr).drop 32 = (gcmSeal key iv hdr []).2 := by simp [sealed, ← h]
  rw [h1, h2, tag_length]
  unfold gcmOpen
  have h3 : (gcmSeal key iv hdr []).2 =
      bytes128 (aesEncrypt key (word128 (gcmJ0 key iv)) ^^^ gcmHash key hdr []) := rfl
  simp only [Nat.sub_self, List.take_zero, List.drop_zero, h3]
  rw [if_pos (by simp)]
  rfl

theorem not_flip (l : Bytes) (h : l ≠ []) : l ≠ l.map (fun b => ~~~b) := by
  cases l with
  | nil => exact absurd rfl h
  | cons a t =>
    intro h1
    have h2 : a = ~~~a := (List.cons.inj h1).1
    have h3 : ∀ b : Byte, b ≠ ~~~b := by decide
    exact h3 a h2

theorem spoiled_closed {key iv hdr : Bytes} (h : hdr.length = 32) :
    gcmOpen key iv ((spoiled key iv hdr).take 32) (((spoiled key iv hdr).drop 32).take (((spoiled key iv hdr).drop 32).length - 16))
      (((spoiled key iv hdr).drop 32).drop (((spoiled key iv hdr).drop 32).length - 16)) = none := by
  have h1 : (spoiled key iv hdr).take 32 = hdr := by simp [spoiled, ← h]
  have h2 : (spoiled key iv hdr).drop 32 = (gcmSeal key iv hdr []).2.map (fun b => ~~~b) := by simp [spoiled, ← h]
  rw [h1, h2, List.length_map, tag_length]
  unfold gcmOpen
  have h3 : (gcmSeal key iv hdr []).2 =
      bytes128 (aesEncrypt key (word128 (gcmJ0 key iv)) ^^^ gcmHash key hdr []) := rfl
  simp only [Nat.sub_self, List.take_zero, List.drop_zero, List.length_map, tag_length]
  rw [if_neg]
  rw [h3]
  have h4 : ∀ w : Word128, (bytes128 w).take 16 = bytes128 w := fun w => by rw [List.take_of_length_le]; exact Nat.le_refl 16
  rw [h4]
  exact not_flip _ (by intro h5; exact absurd (congrArg List.length h5) (by simp [bytes128, beBytes]))

theorem witness_linkUp :
    let s : State := withPort { upPort with link := false } State.reset
    (tabWf {} s.ports = true ∧ s.portRuns 0 = true ∧ (s.port 0).link = false) := by
  intro s
  exact by decide +kernel

theorem witness_linkUpNoAddress :
    let s : State := withPort { cfg := { present := true } } State.reset
    (tabWf {} s.ports = true ∧ s.portRuns 0 = true ∧ (s.port 0).link = false ∧ (s.port 0).cfg.ipv4 = [] ∧ (s.port 0).cfg.ipv6 = []) := by
  intro s
  exact by decide +kernel

theorem witness_linkDown_fec :
    let s : State := withPort upPort State.reset
    (tabWf {} s.ports = true ∧ (s.port 0).link = true) := by
  intro s
  exact by decide +kernel

theorem witness_macsecPeerLost :
    let s : State := withPort { upPort with cfg := { upPort.cfg with macsec := true }, peers := [5], macsecLive := true } State.reset
    (tabWf {} s.ports = true ∧ (s.port 0).cfg.macsec = true ∧ (s.port 0).peers = [5] ∧ (s.port 0).macsecLive = true) := by
  intro s
  exact by decide +kernel

theorem witness_linkCommandsIdle :
    let s : State := State.reset
    (tabWf {} s.ports = true ∧ (s.port 0).link = false ∧ 5 ∉ (s.port 0).peers ∧ s.portRuns 0 = false ∧ s.ipRuns 0 = false) := by
  intro s
  exact by decide +kernel

theorem witness_frameReceive :
    let s : State := withPort upPort State.reset
    (s.portRuns 0 = true ∧ (s.port 0).link = true ∧ s.lc.state ≠ .scrapped) ∧
      ((let f := goodFrame; 64 ≤ f.len ∧ f.len ≤ 9216 ∧ f.fcsOk = true ∧ f.ethertype = 0x0800 ∧ s.dstAccepted 0 f.dst = true ∧ f.bufferFull = false ∧ (s.port 0).cfg.macsec = false ∧ (s.port 0).cfg.vlan = 0 ∧ f.tags = [] ∧ f.ipOk = true ∧ f.proto = 17 ∧ s.own4 0 f.dstIp = true ∧ f.udpSumOk = true ∧ f.udpZeroSum = false ∧ f.udpDst = s.srp.udpPort)) := by
  intro s
  exact ⟨by decide +kernel, by decide +kernel⟩

theorem witness_frameReceiveBad :
    let s : State := withPort upPort State.reset
    (s.portRuns 0 = true ∧ (s.port 0).link = true ∧ s.lc.state ≠ .scrapped) ∧
      ((let f := { goodFrame with len := 63 }; f.len < 64) ∧ (let f := { goodFrame with len := 9217 }; 9216 < f.len) ∧ (let f := { goodFrame with len := 64, fcsOk := false }; 64 ≤ f.len ∧ f.len ≤ 9216 ∧ f.fcsOk = false) ∧ s.dstAccepted 0 1 = false) := by
  intro s
  exact ⟨by decide +kernel, by decide +kernel⟩

theorem witness_neighbours :
    let s : State := withPort upPort State.reset
    (s.ipRuns 0 = true ∧ (s.port 0).link = true ∧ (∀ e ∈ (s.port 0).cfg.ipv4, e.2 ≠ 12) ∧ (∀ e ∈ (s.port 0).cfg.ipv6, e.2 ≠ 12)) := by
  intro s
  exact by decide +kernel

theorem witness_addressConflict :
    let s : State := withPort upPort State.reset
    (s.ipRuns 0 = true ∧ (s.port 0).link = true ∧ 8 ≠ (s.port 0).cfg.mac ∧ s.own4 0 9 = true ∧ s.own6 0 11 = true) := by
  intro s
  exact by decide +kernel

theorem witness_dadComplete :
    let s : State := withPort { upPort with addr6 := [(0, .probing)] } State.reset
    (s.ipRuns 0 = true ∧ (s.port 0).link = true ∧ tabGet .untested (s.port 0).addr6 0 = .probing) := by
  intro s
  exact by decide +kernel

theorem witness_icmpEcho :
    let s : State := withPort { upPort with echoes := 99 } State.reset
    ∃ src : Source4, (s.ipRuns 0 = true ∧ (s.port 0).link = true ∧ src.v6 = false ∧ s.own4 0 src.dstIp = true ∧ (s.port 0).second = s.second ∧ (s.port 0).echoes < 100) := by
  intro s
  exact ⟨{ mac := 8, ip := 10, dstIp := 9 }, by decide +kernel⟩

theorem witness_icmpEchoLimited :
    let s : State := withPort { upPort with echoes := 100 } State.reset
    ∃ src : Source4, (s.ipRuns 0 = true ∧ (s.port 0).link = true ∧ src.v6 = false ∧ s.own4 0 src.dstIp = true ∧ (s.port 0).second = s.second ∧ 100 ≤ (s.port 0).echoes) := by
  intro s
  exact ⟨{ mac := 8, ip := 10, dstIp := 9 }, by decide +kernel⟩

/-- The check value alone: a wrapped key of no words. -/
def wrappedSak : Bytes := List.replicate 8 0xA6

theorem witness_mkaFrameReceive :
    let s : State := withPort { upPort with cfg := { upPort.cfg with macsec := true }, cak := zeros 32, ckn := [1] } State.reset
    ∃ m : MkaMsg, (s.portRuns 0 = true ∧ (s.port 0).link = true ∧ (s.port 0).cfg.macsec = true ∧ (s.port 0).cak ≠ [] ∧ m.icvOk = true ∧ m.sak = some (1, 1, wrappedSak) ∧ keyUnwrap (mkaKek (s.port 0).cak (s.port 0).ckn) wrappedSak = some []) := by
  intro s
  exact ⟨{ icvOk := true, peer := 5, sak := some (1, 1, wrappedSak) }, by decide +kernel⟩

theorem witness_mkaFrameBadSak :
    let s : State := withPort { upPort with cfg := { upPort.cfg with macsec := true }, cak := zeros 32, ckn := [1] } State.reset
    ∃ m : MkaMsg, (s.portRuns 0 = true ∧ (s.port 0).link = true ∧ (s.port 0).cfg.macsec = true ∧ (s.port 0).cak ≠ [] ∧ m.icvOk = true ∧ m.sak = some (1, 1, []) ∧ keyUnwrap (mkaKek (s.port 0).cak (s.port 0).ckn) [] = none) := by
  intro s
  exact ⟨{ icvOk := true, peer := 5, sak := some (1, 1, []) }, by decide +kernel⟩

theorem witness_mkaFrameBad :
    ∃ m : MkaMsg, (m.icvOk = false) := by
  exact ⟨{ icvOk := false, peer := 5 }, by decide +kernel⟩

theorem witness_hsNothing :
    let s : State := State.reset
    (s.head 0 = none) := by
  intro s
  exact by decide +kernel

/-- An HS1 of tenant 0, client key 2, ECDSA. -/
def hs1Bytes : Bytes := pay 1348 [(0, header 3 0 0 0), (161, [2, 1])]
/-- Tenant 0 has room for a handshake and the client key 2. -/
def roomForHs (s : State) : State :=
  { s with image := { s.image with tenants := [(0, { channelQuota := 1, hsRate := 1 })] }, ks := { s.ks with clientKeys := [(2, { alg := 1 })] } }

theorem witness_hs1 :
    let s : State := arrived hs1Bytes (roomForHs State.reset)
    (s.head 0 = some { bytes := hs1Bytes } ∧ fld (hs1Bytes) 0 1 / 16 = 2) ∧
      (dgramType hs1Bytes = 3) ∧
      ((let b := hs1Bytes; let tn := fld b 2 2 % 1024; let idx := fld b 161 1; let im := tabGet ({} : TenantImage) s.image.tenants tn; let quota := if s.dev.state = .recovery then 4096 else im.channelQuota; let c := firstFreeChan s.srp.channels 0; b.length = 1348 ∧ tn ≤ 512 ∧ idx ≤ 63 ∧ s.tenantChannels tn < quota ∧ s.pendingChannels < 4096 ∧ s.hsBegun tn < im.hsRate ∧ (s.clientKey tn (idx % 64)).alg ≠ 0 ∧ (s.clientKey tn (idx % 64)).alg = fld b 162 1 ∧ s.acceptsHs tn 0 = true ∧ c < 32768 ∧ s.freeSlot < 65536 ∧ s.cellsUsed + ceilDiv b.length 256 + ceilDiv (s.hsCost 0xC0).lmax 256 ≤ 196608)) := by
  intro s
  exact ⟨by decide +kernel, by decide +kernel, by decide +kernel⟩

theorem witness_hs1Refused :
    let s : State := arrived hs1Bytes State.reset
    (s.head 0 = some { bytes := hs1Bytes } ∧ fld (hs1Bytes) 0 1 / 16 = 2) ∧
      (dgramType hs1Bytes = 3) ∧
      (¬ (let b := hs1Bytes; let tn := fld b 2 2 % 1024; let idx := fld b 161 1; let im := tabGet ({} : TenantImage) s.image.tenants tn; let quota := if s.dev.state = .recovery then 4096 else im.channelQuota; let c := firstFreeChan s.srp.channels 0; b.length = 1348 ∧ tn ≤ 512 ∧ idx ≤ 63 ∧ s.tenantChannels tn < quota ∧ s.pendingChannels < 4096 ∧ s.hsBegun tn < im.hsRate ∧ (s.clientKey tn (idx % 64)).alg ≠ 0 ∧ (s.clientKey tn (idx % 64)).alg = fld b 162 1 ∧ s.acceptsHs tn 0 = true ∧ c < 32768 ∧ s.freeSlot < 65536 ∧ s.cellsUsed + ceilDiv b.length 256 + ceilDiv (s.hsCost 0xC0).lmax 256 ≤ 196608)) := by
  intro s
  exact ⟨by decide +kernel, by decide +kernel, by decide +kernel⟩

theorem witness_hs3 :
    let s : State := withChan 0 { chan0 with state := .pending, hsC := zeros 32 } (arrived (sealed (zeros 32) (zeros 12) (header 5 0 32768 1)) State.reset)
    ∃ d : Dgram, (s.head 0 = some d) ∧
      (dgramType d.bytes = 5 ∧ 48 ≤ d.bytes.length ∧ fld d.bytes 0 1 / 16 = 2) ∧
      ((s.popIngress 0).channelDrop d .pending = none) ∧
      ((s.chan (fld d.bytes 4 4 % 2 ^ 15)).hsC ≠ [] ∧ fld d.bytes 2 2 % 1024 = (s.chan (fld d.bytes 4 4 % 2 ^ 15)).tenant) ∧
      (gcmOpen (zeros 32) (zeros 12) (d.bytes.take 32) ((d.bytes.drop 32).take ((d.bytes.drop 32).length - 16)) ((d.bytes.drop 32).drop ((d.bytes.drop 32).length - 16)) = some []) ∧
      ((s.chan (fld d.bytes 4 4 % 2 ^ 15)).hsC = zeros 32 ∧ s.sq.slots = []) ∧
      (fld d.bytes 2 2 / 1024 = 0 ∧ fld d.bytes 8 8 < 2 ^ 48 ∧ s.freeSlot < 65536 ∧ s.cellsUsed + ceilDiv (d.bytes.drop 32).length 256 + ceilDiv (s.hsCost 0xC1).lmax 256 ≤ 196608) := by
  intro s
  exact ⟨{ bytes := sealed (zeros 32) (zeros 12) (header 5 0 32768 1) }, rfl, by decide +kernel, rfl, by decide +kernel, sealed_opens rfl, by decide +kernel, by decide +kernel⟩

theorem witness_hs3Count :
    let s : State := withChan 0 { chan0 with state := .pending, hsC := zeros 32 } (arrived (sealed (zeros 32) (zeros 12) (header 5 1 32768 1)) State.reset)
    ∃ d : Dgram, (s.head 0 = some d) ∧
      (dgramType d.bytes = 5 ∧ 48 ≤ d.bytes.length ∧ fld d.bytes 0 1 / 16 = 2) ∧
      ((s.popIngress 0).channelDrop d .pending = none) ∧
      ((s.chan (fld d.bytes 4 4 % 2 ^ 15)).hsC ≠ [] ∧ fld d.bytes 2 2 % 1024 = (s.chan (fld d.bytes 4 4 % 2 ^ 15)).tenant) ∧
      (gcmOpen (zeros 32) (zeros 12) (d.bytes.take 32) ((d.bytes.drop 32).take ((d.bytes.drop 32).length - 16)) ((d.bytes.drop 32).drop ((d.bytes.drop 32).length - 16)) = some []) ∧
      ((s.chan (fld d.bytes 4 4 % 2 ^ 15)).hsC = zeros 32 ∧ fld d.bytes 2 2 / 1024 ≠ 0) := by
  intro s
  exact ⟨{ bytes := sealed (zeros 32) (zeros 12) (header 5 1 32768 1) }, rfl, by decide +kernel, rfl, by decide +kernel, sealed_opens rfl, by decide +kernel⟩

theorem witness_hs2 :
    let s : State := withChan 32768 { state := .pending, gen := 1, member := some 1 } (arrived (pay 4718 [(0, header 4 0 0 0)]) State.reset)
    ∃ b : Bytes, (s.head 0 = some { bytes := b }) ∧
      (fld b 0 1 / 16 = 2 ∧ dgramType b = 4 ∧ b.length = 4718 ∧ fld b 8 8 < 16) ∧
      ((let y := s.chan (32768 + fld b 8 8); y.member = some 1 ∧ y.state = .pending ∧ y.hs2 = [] ∧ y.phys = physOf 0)) := by
  intro s
  exact ⟨pay 4718 [(0, header 4 0 0 0)], rfl, by decide +kernel, by decide +kernel⟩

theorem ready_opens : openDgram (zeros 36) (sealed (zeros 32) (zeros 4 ++ beBytes 8 1) (header 2 0 9 1)) = some [] := by
  have h1 : (zeros 36).take 32 = zeros 32 := rfl
  have h2 : slice (zeros 36) 32 4 = zeros 4 := rfl
  have h3 : slice (sealed (zeros 32) (zeros 4 ++ beBytes 8 1) (header 2 0 9 1)) 8 8 = beBytes 8 1 := rfl
  unfold openDgram
  simp only [h1, h2, h3]
  exact sealed_opens rfl

/-- The device's own channel to member 1, whose peer calls it 9. -/
def own0 : Channel := { state := .pending, gen := 1, member := some 1, peerId := some 9, c2d := zeros 36 }

theorem ready_taken :
    (takeRep (withChan 32768 own0 (arrived (sealed (zeros 32) (zeros 4 ++ beBytes 8 1) (header 2 0 9 1)) State.reset)) 0 .pending).1 =
      some (32768, own0, sealed (zeros 32) (zeros 4 ++ beBytes 8 1) (header 2 0 9 1), []) := by
  unfold takeRep
  rw [show (State.head _ 0) = some { bytes := sealed (zeros 32) (zeros 4 ++ beBytes 8 1) (header 2 0 9 1) } from rfl]
  dsimp only
  rw [if_neg (by decide +kernel)]
  rw [show State.ownChannel _ 0 _ = some (32768, own0) from rfl]
  dsimp only
  rw [if_neg (by decide +kernel), if_neg (by decide +kernel), show own0.c2d = zeros 36 from rfl, ready_opens]
  rfl

theorem witness_readyRep :
    let s : State := withChan 32768 own0 (arrived (sealed (zeros 32) (zeros 4 ++ beBytes 8 1) (header 2 0 9 1)) State.reset)
    ∃ b : Bytes, ((takeRep s 0 .pending).1 = some (32768, own0, b, [])) ∧
      (fld b 2 2 / 1024 = 0 ∧ fld b 8 8 = 1) := by
  intro s
  exact ⟨sealed (zeros 32) (zeros 4 ++ beBytes 8 1) (header 2 0 9 1), ready_taken, by decide +kernel⟩

theorem witness_readyRepNone :
    let s : State := State.reset
    ((takeRep s 0 .pending).1 = none) := by
  intro s
  exact rfl

theorem witness_handshakeTimeout :
    let s : State := let s := withChan 3 { state := .pending, gen := 1, admitted := some 0 } State.reset; { s with folio := { s.folio with now := 1000000 } }
    ((s.chan 3).state = .pending ∧ (s.chan 3).admitted = some 0 ∧ s.srp.hsMs * 1000 ≤ folioDiff s.folio.now 0 * s.folio.periodUs ∧ tabWf {} s.srp.channels = true) := by
  intro s
  exact by decide +kernel

theorem witness_handshakeNoTimeout :
    let s : State := withChan 3 { state := .pending, gen := 1, admitted := some 0 } State.reset
    ((s.chan 3).state = .pending ∧ (s.chan 3).admitted = some 0 ∧ folioDiff s.folio.now 0 * s.folio.periodUs < s.srp.hsMs * 1000) := by
  intro s
  exact by decide +kernel

theorem witness_channelIdleTimeout :
    let s : State := withChan 0 { chan0 with idle := 2 ^ 40 } State.reset
    ((s.chan 0).state = .open ∧ s.srp.idleS ≠ 0 ∧ s.srp.idleS * 1000000 ≤ (s.chan 0).idle * s.folio.periodUs) := by
  intro s
  exact by decide +kernel

theorem witness_channelNoIdleTimeout :
    let s : State := let s := withChan 0 chan0 State.reset; { s with srp := { s.srp with idleS := 0 } }
    ((s.chan 0).state = .open ∧ s.srp.idleS = 0) := by
  intro s
  exact by decide +kernel

theorem dgramOpens1 : openDgram (zeros 36) (sealed (zeros 32) (zeros 4 ++ beBytes 8 1) (header 1 1 32768 1)) = some [] := by
  have h1 : (zeros 36).take 32 = zeros 32 := rfl
  have h2 : slice (zeros 36) 32 4 = zeros 4 := rfl
  have h3 : slice (sealed (zeros 32) (zeros 4 ++ beBytes 8 1) (header 1 1 32768 1)) 8 8 = beBytes 8 1 := rfl
  unfold openDgram
  simp only [h1, h2, h3]
  exact sealed_opens rfl

theorem witness_dgramOpens1 :
    let s : State := withChan 0 chan0 (arrived (sealed (zeros 32) (zeros 4 ++ beBytes 8 1) (header 1 1 32768 1)) State.reset)
    ∃ d : Dgram, (s.head 0 = some d) ∧
      (48 ≤ d.bytes.length ∧ fld d.bytes 0 1 / 16 = 2 ∧ dgramType d.bytes = 1 ∧ fld d.bytes 4 4 % 2 ^ 15 = 0) ∧
      ((let s0 := s.popIngress 0; s0.moverServes (srcIngress 0) 0 = true ∧ s0.acceptsFrom (s0.chan 0).tenant 0 = true)) ∧
      ((s.popIngress 0).channelDrop d .open = none) ∧
      (openDgram ((s.popIngress 0).chan 0).c2d d.bytes = some []) ∧
      ((((s.popIngress 0).chan 0).window (fld d.bytes 8 8)).isSome = true) := by
  intro s
  exact ⟨{ bytes := sealed (zeros 32) (zeros 4 ++ beBytes 8 1) (header 1 1 32768 1) }, rfl, by decide +kernel, by decide +kernel, rfl, dgramOpens1, by decide +kernel⟩

theorem dgramSpoiled1 : openDgram (zeros 36) (spoiled (zeros 32) (zeros 4 ++ beBytes 8 1) (header 1 1 32768 1)) = none := by
  have h1 : (zeros 36).take 32 = zeros 32 := rfl
  have h2 : slice (zeros 36) 32 4 = zeros 4 := rfl
  have h3 : slice (spoiled (zeros 32) (zeros 4 ++ beBytes 8 1) (header 1 1 32768 1)) 8 8 = beBytes 8 1 := rfl
  unfold openDgram
  simp only [h1, h2, h3]
  exact spoiled_closed rfl

theorem witness_dgramSpoiled1 :
    let s : State := withChan 0 chan0 (arrived (spoiled (zeros 32) (zeros 4 ++ beBytes 8 1) (header 1 1 32768 1)) State.reset)
    ∃ d : Dgram, (s.head 0 = some d) ∧
      (48 ≤ d.bytes.length ∧ fld d.bytes 0 1 / 16 = 2 ∧ dgramType d.bytes = 1 ∧ fld d.bytes 4 4 % 2 ^ 15 = 0) ∧
      ((let s0 := s.popIngress 0; s0.moverServes (srcIngress 0) 0 = true ∧ s0.acceptsFrom (s0.chan 0).tenant 0 = true)) ∧
      ((s.popIngress 0).channelDrop d .open = none) ∧
      (openDgram ((s.popIngress 0).chan 0).c2d d.bytes = none) := by
  intro s
  exact ⟨{ bytes := spoiled (zeros 32) (zeros 4 ++ beBytes 8 1) (header 1 1 32768 1) }, rfl, by decide +kernel, by decide +kernel, rfl, dgramSpoiled1⟩

theorem dgramReplayed1 : openDgram (zeros 36) (sealed (zeros 32) (zeros 4 ++ beBytes 8 0) (header 1 1 32768 0)) = some [] := by
  have h1 : (zeros 36).take 32 = zeros 32 := rfl
  have h2 : slice (zeros 36) 32 4 = zeros 4 := rfl
  have h3 : slice (sealed (zeros 32) (zeros 4 ++ beBytes 8 0) (header 1 1 32768 0)) 8 8 = beBytes 8 0 := rfl
  unfold openDgram
  simp only [h1, h2, h3]
  exact sealed_opens rfl

theorem witness_dgramReplayed1 :
    let s : State := withChan 0 chan0 (arrived (sealed (zeros 32) (zeros 4 ++ beBytes 8 0) (header 1 1 32768 0)) State.reset)
    ∃ d : Dgram, (s.head 0 = some d) ∧
      (48 ≤ d.bytes.length ∧ fld d.bytes 0 1 / 16 = 2 ∧ dgramType d.bytes = 1 ∧ fld d.bytes 4 4 % 2 ^ 15 = 0) ∧
      ((let s0 := s.popIngress 0; s0.moverServes (srcIngress 0) 0 = true ∧ s0.acceptsFrom (s0.chan 0).tenant 0 = true)) ∧
      ((s.popIngress 0).channelDrop d .open = none) ∧
      (openDgram ((s.popIngress 0).chan 0).c2d d.bytes = some []) ∧
      ((((s.popIngress 0).chan 0).window (fld d.bytes 8 8)).isSome = false) := by
  intro s
  exact ⟨{ bytes := sealed (zeros 32) (zeros 4 ++ beBytes 8 0) (header 1 1 32768 0) }, rfl, by decide +kernel, by decide +kernel, rfl, dgramReplayed1, by decide +kernel⟩

theorem dgramOpens6 : openDgram (zeros 36) (sealed (zeros 32) (zeros 4 ++ beBytes 8 1) (header 6 1 32768 1)) = some [] := by
  have h1 : (zeros 36).take 32 = zeros 32 := rfl
  have h2 : slice (zeros 36) 32 4 = zeros 4 := rfl
  have h3 : slice (sealed (zeros 32) (zeros 4 ++ beBytes 8 1) (header 6 1 32768 1)) 8 8 = beBytes 8 1 := rfl
  unfold openDgram
  simp only [h1, h2, h3]
  exact sealed_opens rfl

theorem witness_dgramOpens6 :
    let s : State := withChan 0 chan0 (arrived (sealed (zeros 32) (zeros 4 ++ beBytes 8 1) (header 6 1 32768 1)) State.reset)
    ∃ d : Dgram, (s.head 0 = some d) ∧
      (48 ≤ d.bytes.length ∧ fld d.bytes 0 1 / 16 = 2 ∧ dgramType d.bytes = 6 ∧ fld d.bytes 4 4 % 2 ^ 15 = 0) ∧
      ((let s0 := s.popIngress 0; s0.moverServes (srcIngress 0) 0 = true ∧ s0.acceptsFrom (s0.chan 0).tenant 0 = true)) ∧
      ((s.popIngress 0).channelDrop d .open = none) ∧
      (openDgram ((s.popIngress 0).chan 0).c2d d.bytes = some []) ∧
      ((((s.popIngress 0).chan 0).window (fld d.bytes 8 8)).isSome = true) := by
  intro s
  exact ⟨{ bytes := sealed (zeros 32) (zeros 4 ++ beBytes 8 1) (header 6 1 32768 1) }, rfl, by decide +kernel, by decide +kernel, rfl, dgramOpens6, by decide +kernel⟩

theorem dgramSpoiled6 : openDgram (zeros 36) (spoiled (zeros 32) (zeros 4 ++ beBytes 8 1) (header 6 1 32768 1)) = none := by
  have h1 : (zeros 36).take 32 = zeros 32 := rfl
  have h2 : slice (zeros 36) 32 4 = zeros 4 := rfl
  have h3 : slice (spoiled (zeros 32) (zeros 4 ++ beBytes 8 1) (header 6 1 32768 1)) 8 8 = beBytes 8 1 := rfl
  unfold openDgram
  simp only [h1, h2, h3]
  exact spoiled_closed rfl

theorem witness_dgramSpoiled6 :
    let s : State := withChan 0 chan0 (arrived (spoiled (zeros 32) (zeros 4 ++ beBytes 8 1) (header 6 1 32768 1)) State.reset)
    ∃ d : Dgram, (s.head 0 = some d) ∧
      (48 ≤ d.bytes.length ∧ fld d.bytes 0 1 / 16 = 2 ∧ dgramType d.bytes = 6 ∧ fld d.bytes 4 4 % 2 ^ 15 = 0) ∧
      ((let s0 := s.popIngress 0; s0.moverServes (srcIngress 0) 0 = true ∧ s0.acceptsFrom (s0.chan 0).tenant 0 = true)) ∧
      ((s.popIngress 0).channelDrop d .open = none) ∧
      (openDgram ((s.popIngress 0).chan 0).c2d d.bytes = none) := by
  intro s
  exact ⟨{ bytes := spoiled (zeros 32) (zeros 4 ++ beBytes 8 1) (header 6 1 32768 1) }, rfl, by decide +kernel, by decide +kernel, rfl, dgramSpoiled6⟩

theorem dgramReplayed6 : openDgram (zeros 36) (sealed (zeros 32) (zeros 4 ++ beBytes 8 0) (header 6 1 32768 0)) = some [] := by
  have h1 : (zeros 36).take 32 = zeros 32 := rfl
  have h2 : slice (zeros 36) 32 4 = zeros 4 := rfl
  have h3 : slice (sealed (zeros 32) (zeros 4 ++ beBytes 8 0) (header 6 1 32768 0)) 8 8 = beBytes 8 0 := rfl
  unfold openDgram
  simp only [h1, h2, h3]
  exact sealed_opens rfl

theorem witness_dgramReplayed6 :
    let s : State := withChan 0 chan0 (arrived (sealed (zeros 32) (zeros 4 ++ beBytes 8 0) (header 6 1 32768 0)) State.reset)
    ∃ d : Dgram, (s.head 0 = some d) ∧
      (48 ≤ d.bytes.length ∧ fld d.bytes 0 1 / 16 = 2 ∧ dgramType d.bytes = 6 ∧ fld d.bytes 4 4 % 2 ^ 15 = 0) ∧
      ((let s0 := s.popIngress 0; s0.moverServes (srcIngress 0) 0 = true ∧ s0.acceptsFrom (s0.chan 0).tenant 0 = true)) ∧
      ((s.popIngress 0).channelDrop d .open = none) ∧
      (openDgram ((s.popIngress 0).chan 0).c2d d.bytes = some []) ∧
      ((((s.popIngress 0).chan 0).window (fld d.bytes 8 8)).isSome = false) := by
  intro s
  exact ⟨{ bytes := sealed (zeros 32) (zeros 4 ++ beBytes 8 0) (header 6 1 32768 0) }, rfl, by decide +kernel, by decide +kernel, rfl, dgramReplayed6, by decide +kernel⟩

theorem dgramOpens7 : openDgram (zeros 36) (sealed (zeros 32) (zeros 4 ++ beBytes 8 1) (header 7 1 32768 1)) = some [] := by
  have h1 : (zeros 36).take 32 = zeros 32 := rfl
  have h2 : slice (zeros 36) 32 4 = zeros 4 := rfl
  have h3 : slice (sealed (zeros 32) (zeros 4 ++ beBytes 8 1) (header 7 1 32768 1)) 8 8 = beBytes 8 1 := rfl
  unfold openDgram
  simp only [h1, h2, h3]
  exact sealed_opens rfl

theorem witness_dgramOpens7 :
    let s : State := withChan 0 chan0 (arrived (sealed (zeros 32) (zeros 4 ++ beBytes 8 1) (header 7 1 32768 1)) State.reset)
    ∃ d : Dgram, (s.head 0 = some d) ∧
      (48 ≤ d.bytes.length ∧ fld d.bytes 0 1 / 16 = 2 ∧ dgramType d.bytes = 7 ∧ fld d.bytes 4 4 % 2 ^ 15 = 0) ∧
      ((let s0 := s.popIngress 0; s0.moverServes (srcIngress 0) 0 = true ∧ s0.acceptsFrom (s0.chan 0).tenant 0 = true)) ∧
      ((s.popIngress 0).channelDrop d .open = none) ∧
      (openDgram ((s.popIngress 0).chan 0).c2d d.bytes = some []) ∧
      ((((s.popIngress 0).chan 0).window (fld d.bytes 8 8)).isSome = true) := by
  intro s
  exact ⟨{ bytes := sealed (zeros 32) (zeros 4 ++ beBytes 8 1) (header 7 1 32768 1) }, rfl, by decide +kernel, by decide +kernel, rfl, dgramOpens7, by decide +kernel⟩

theorem dgramSpoiled7 : openDgram (zeros 36) (spoiled (zeros 32) (zeros 4 ++ beBytes 8 1) (header 7 1 32768 1)) = none := by
  have h1 : (zeros 36).take 32 = zeros 32 := rfl
  have h2 : slice (zeros 36) 32 4 = zeros 4 := rfl
  have h3 : slice (spoiled (zeros 32) (zeros 4 ++ beBytes 8 1) (header 7 1 32768 1)) 8 8 = beBytes 8 1 := rfl
  unfold openDgram
  simp only [h1, h2, h3]
  exact spoiled_closed rfl

theorem witness_dgramSpoiled7 :
    let s : State := withChan 0 chan0 (arrived (spoiled (zeros 32) (zeros 4 ++ beBytes 8 1) (header 7 1 32768 1)) State.reset)
    ∃ d : Dgram, (s.head 0 = some d) ∧
      (48 ≤ d.bytes.length ∧ fld d.bytes 0 1 / 16 = 2 ∧ dgramType d.bytes = 7 ∧ fld d.bytes 4 4 % 2 ^ 15 = 0) ∧
      ((let s0 := s.popIngress 0; s0.moverServes (srcIngress 0) 0 = true ∧ s0.acceptsFrom (s0.chan 0).tenant 0 = true)) ∧
      ((s.popIngress 0).channelDrop d .open = none) ∧
      (openDgram ((s.popIngress 0).chan 0).c2d d.bytes = none) := by
  intro s
  exact ⟨{ bytes := spoiled (zeros 32) (zeros 4 ++ beBytes 8 1) (header 7 1 32768 1) }, rfl, by decide +kernel, by decide +kernel, rfl, dgramSpoiled7⟩

theorem dgramReplayed7 : openDgram (zeros 36) (sealed (zeros 32) (zeros 4 ++ beBytes 8 0) (header 7 1 32768 0)) = some [] := by
  have h1 : (zeros 36).take 32 = zeros 32 := rfl
  have h2 : slice (zeros 36) 32 4 = zeros 4 := rfl
  have h3 : slice (sealed (zeros 32) (zeros 4 ++ beBytes 8 0) (header 7 1 32768 0)) 8 8 = beBytes 8 0 := rfl
  unfold openDgram
  simp only [h1, h2, h3]
  exact sealed_opens rfl

theorem witness_dgramReplayed7 :
    let s : State := withChan 0 chan0 (arrived (sealed (zeros 32) (zeros 4 ++ beBytes 8 0) (header 7 1 32768 0)) State.reset)
    ∃ d : Dgram, (s.head 0 = some d) ∧
      (48 ≤ d.bytes.length ∧ fld d.bytes 0 1 / 16 = 2 ∧ dgramType d.bytes = 7 ∧ fld d.bytes 4 4 % 2 ^ 15 = 0) ∧
      ((let s0 := s.popIngress 0; s0.moverServes (srcIngress 0) 0 = true ∧ s0.acceptsFrom (s0.chan 0).tenant 0 = true)) ∧
      ((s.popIngress 0).channelDrop d .open = none) ∧
      (openDgram ((s.popIngress 0).chan 0).c2d d.bytes = some []) ∧
      ((((s.popIngress 0).chan 0).window (fld d.bytes 8 8)).isSome = false) := by
  intro s
  exact ⟨{ bytes := sealed (zeros 32) (zeros 4 ++ beBytes 8 0) (header 7 1 32768 0) }, rfl, by decide +kernel, by decide +kernel, rfl, dgramReplayed7, by decide +kernel⟩

theorem witness_dgramOtherType :
    let s : State := arrived (pay 48 [(0, header 3 0 0 0)]) State.reset
    ∃ b : Bytes, (s.head 0 = some { bytes := b } ∧ 48 ≤ b.length ∧ fld b 0 1 / 16 = 2 ∧ dgramType b ≠ 1 ∧ dgramType b ≠ 6 ∧ dgramType b ≠ 7 ∧ dgramType b ∈ [1, 3, 5, 6, 7]) := by
  intro s
  exact ⟨pay 48 [(0, header 3 0 0 0)], by decide +kernel⟩

theorem witness_dgramNoClient :
    let s : State := arrived (pay 48 [(0, header 2 0 0 0)]) State.reset
    ∃ b : Bytes, (s.head 0 = some { bytes := b } ∧ 48 ≤ b.length ∧ fld b 0 1 / 16 = 2 ∧ dgramType b ∉ [1, 3, 5, 6, 7] ∧ s.ownDgram 0 b = false) := by
  intro s
  exact ⟨pay 48 [(0, header 2 0 0 0)], by decide +kernel⟩

theorem witness_nackTenant :
    let s : State := withChan 0 { chan0 with tenant := 1 } State.reset
    ∃ b : Bytes, (fld b 2 2 % 1024 ≠ (s.chan 0).tenant) := by
  intro s
  exact ⟨header 1 1 32768 1, by decide +kernel⟩

theorem witness_nackCount0 :
    let s : State := withChan 0 chan0 State.reset
    ∃ b : Bytes, (fld b 2 2 % 1024 = (s.chan 0).tenant) ∧
      (¬ (let y := s.chan 0; let type := dgramType b; let count := fld b 2 2 / 1024; ¬ ((type = 6 ∧ y.tenant ≠ 0) ∨ (type = 7 ∧ count ≠ 1) ∨ (type ≠ 7 ∧ (32 < count ∨ (count = 0 ∧ (fld b 1 1).testBit 7 = false)))))) := by
  intro s
  exact ⟨header 1 0 32768 1, by decide +kernel, by decide +kernel⟩

theorem witness_nackCount1 :
    let s : State := withChan 0 chan0 State.reset
    ∃ b : Bytes, (fld b 2 2 % 1024 = (s.chan 0).tenant) ∧
      (¬ (let y := s.chan 0; let type := dgramType b; let count := fld b 2 2 / 1024; ¬ ((type = 6 ∧ y.tenant ≠ 0) ∨ (type = 7 ∧ count ≠ 1) ∨ (type ≠ 7 ∧ (32 < count ∨ (count = 0 ∧ (fld b 1 1).testBit 7 = false)))))) := by
  intro s
  exact ⟨header 1 33 32768 1, by decide +kernel, by decide +kernel⟩

theorem witness_nackCount2 :
    let s : State := withChan 0 chan0 State.reset
    ∃ b : Bytes, (fld b 2 2 % 1024 = (s.chan 0).tenant) ∧
      (¬ (let y := s.chan 0; let type := dgramType b; let count := fld b 2 2 / 1024; ¬ ((type = 6 ∧ y.tenant ≠ 0) ∨ (type = 7 ∧ count ≠ 1) ∨ (type ≠ 7 ∧ (32 < count ∨ (count = 0 ∧ (fld b 1 1).testBit 7 = false)))))) := by
  intro s
  exact ⟨header 7 2 32768 1, by decide +kernel, by decide +kernel⟩

theorem witness_nackRecords :
    let s : State := withChan 0 chan0 State.reset
    ∃ b : Bytes, (fld b 2 2 % 1024 = (s.chan 0).tenant) ∧
      ((let y := s.chan 0; let type := dgramType b; let count := fld b 2 2 / 1024; ¬ ((type = 6 ∧ y.tenant ≠ 0) ∨ (type = 7 ∧ count ≠ 1) ∨ (type ≠ 7 ∧ (32 < count ∨ (count = 0 ∧ (fld b 1 1).testBit 7 = false)))))) ∧
      (fld b 8 8 < 2 ^ 48 ∧ (records (fld b 2 2 / 1024) b [1]).isNone = true) := by
  intro s
  exact ⟨header 1 1 32768 1, by decide +kernel, by decide +kernel, by decide +kernel⟩

/-- The payload of a datagram whose one record is empty. -/
def oneRecord : Bytes := []
/-- Tenant 0 may hold `n` request slots. -/
def slotQuota (n : Nat) (s : State) : State := { s with image := { s.image with tenants := [(0, { slotQuota := n, cellQuota := 100 })] } }

theorem witness_recordsPlaced :
    let s : State := slotQuota 1 (withChan 0 chan0 State.reset)
    ∃ b : Bytes, ∃ rs : List Rec, (fld b 2 2 % 1024 = (s.chan 0).tenant) ∧
      ((let y := s.chan 0; let type := dgramType b; let count := fld b 2 2 / 1024; ¬ ((type = 6 ∧ y.tenant ≠ 0) ∨ (type = 7 ∧ count ≠ 1) ∨ (type ≠ 7 ∧ (32 < count ∨ (count = 0 ∧ (fld b 1 1).testBit 7 = false)))))) ∧
      (fld b 8 8 < 2 ^ 48 ∧ (records (fld b 2 2 / 1024) b oneRecord).map (fun l => l.length) = some 1 ∧ rs.length = 1 ∧ s.placeable (s.chan 0) (dgramType b) rs 0 0 = rs.length ∧ (s.chan 0).state = .open) := by
  intro s
  exact ⟨header 1 1 32768 1, (records 1 (header 1 1 32768 1) oneRecord).getD [], by decide +kernel, by decide +kernel, by decide +kernel⟩

theorem witness_recordsNoRoom :
    let s : State := slotQuota 0 (withChan 0 chan0 State.reset)
    ∃ b : Bytes, ∃ rs : List Rec, (fld b 2 2 % 1024 = (s.chan 0).tenant) ∧
      ((let y := s.chan 0; let type := dgramType b; let count := fld b 2 2 / 1024; ¬ ((type = 6 ∧ y.tenant ≠ 0) ∨ (type = 7 ∧ count ≠ 1) ∨ (type ≠ 7 ∧ (32 < count ∨ (count = 0 ∧ (fld b 1 1).testBit 7 = false)))))) ∧
      (fld b 8 8 < 2 ^ 48 ∧ (records (fld b 2 2 / 1024) b oneRecord).map (fun l => l.length) = some 1 ∧ rs.length = 1 ∧ s.placeable (s.chan 0) (dgramType b) rs 0 0 < rs.length ∧ (s.chan 0).state = .open) := by
  intro s
  exact ⟨header 1 1 32768 1, (records 1 (header 1 1 32768 1) oneRecord).getD [], by decide +kernel, by decide +kernel, by decide +kernel⟩

/-- A reply of slot 0 waits on channel 0. -/
def replyWaits (p : Port) : State :=
  let s := withChan 0 chan0 (withPort p State.reset)
  { s with sq := { slots := [(0, { state := .sending, req := 1, chanGen := 1, commit := some (0, 0) })] } }

theorem witness_repFormNone :
    let s : State := State.reset
    (s.waitingReplies 0 = []) := by
  intro s
  exact by decide +kernel

theorem witness_repForm :
    let s : State := replyWaits upPort
    (s.waitingReplies 0 = [(0, s.slot 0)] ∧ s.egressServes (s.slot 0).lport = true ∧ (s.port (s.slot 0).lport).link = true ∧ (s.slot 0).bulk = false) := by
  intro s
  exact by decide +kernel

theorem witness_repFormNoLink :
    let s : State := replyWaits {}
    (s.waitingReplies 0 = [(0, s.slot 0)] ∧ s.egressServes (s.slot 0).lport = true ∧ (s.port (s.slot 0).lport).link = false ∧ tabWf {} s.sq.slots = true ∧ (s.chan 0).state = .open) := by
  intro s
  exact by decide +kernel

theorem witness_replyFrameIdle :
    let s : State := State.reset
    ((s.port 0).tx = []) := by
  intro s
  exact by decide +kernel

theorem witness_replyFrameLeft :
    let s : State := replyWaits { upPort with tx := [{ bytes := [], dst := {}, slots := [0] }] }
    ∃ f : TxFrame, ((s.port 0).tx = [f] ∧ (s.port 0).link = true ∧ s.tmp.egress = true ∧ ((s.port 0).cfg.macsec = true → (s.port 0).txSa.isSome = true) ∧ tabWf {} s.sq.slots = true ∧ (∀ j ∈ f.slots, (s.chan (s.slot j).chan).state = .open)) := by
  intro s
  exact ⟨{ bytes := [], dst := {}, slots := [0] }, by decide +kernel⟩

/-- PTP runs on port 0, under the clock 5, with `c` the rest of the clock's state. -/
def ptpState (mode : SyncMode) (c : PtpClock) : State :=
  let s := withPort { upPort with cfg := { upPort.cfg with ptp := true } } State.reset
  { s with folio := { s.folio with mode := mode, ptp := c } }

theorem witness_ptpSyncTwoStep :
    let s : State := ptpState .ptp { parent := some 5 }
    ∃ m : PtpSync, (s.ptpRuns 0 s.image.ptpDomain = true ∧ s.folio.ptp.parent = some m.source ∧ m.domain = s.image.ptpDomain ∧ m.twoStep = true) := by
  intro s
  exact ⟨{ domain := State.reset.image.ptpDomain, source := 5, seq := 1, twoStep := true, t1 := 0, t2 := 0 }, by decide +kernel⟩

theorem witness_ptpSyncOneStep :
    let s : State := ptpState .ptp { parent := some 5 }
    ∃ m : PtpSync, (s.ptpRuns 0 s.image.ptpDomain = true ∧ s.folio.ptp.parent = some m.source ∧ m.domain = s.image.ptpDomain ∧ m.twoStep = false) := by
  intro s
  exact ⟨{ domain := State.reset.image.ptpDomain, source := 5, seq := 1, twoStep := false, t1 := 0, t2 := 0 }, by decide +kernel⟩

theorem witness_ptpSyncOther :
    let s : State := ptpState .ptp { parent := some 5 }
    (s.folio.ptp.parent ≠ some 6) := by
  intro s
  exact by decide +kernel

theorem witness_ptpFollowUp :
    let s : State := ptpState .ptp { parent := some 5, pendingSync := some (1, 7) }
    (s.ptpRuns 0 s.image.ptpDomain = true ∧ s.folio.ptp.parent = some 5 ∧ s.folio.ptp.pendingSync = some (1, 7)) := by
  intro s
  exact by decide +kernel

theorem witness_ptpDelayResp :
    let s : State := ptpState .ptp { parent := some 5, reqOpen := true }
    (s.ptpRuns 0 s.image.ptpDomain = true ∧ s.folio.ptp.parent = some 5 ∧ s.folio.ptp.reqOpen = true) := by
  intro s
  exact by decide +kernel

theorem witness_ptpAnnounceParent :
    let s : State := ptpState .ptp { parent := some 5 }
    ∃ m : PtpAnnounce, (s.ptpRuns 0 m.domain = true ∧ s.folio.ptp.parent = some m.identity) := by
  intro s
  exact ⟨{ domain := State.reset.image.ptpDomain, priority1 := 1, clockClass := 6, accuracy := 0x21, variance := 0, priority2 := 1, identity := 5 }, by decide +kernel⟩

theorem witness_ptpAnnounceFirst :
    let s : State := ptpState .ptp {}
    ∃ m : PtpAnnounce, (s.ptpRuns 0 m.domain = true ∧ s.folio.ptp.parent = none) := by
  intro s
  exact ⟨{ domain := State.reset.image.ptpDomain, priority1 := 1, clockClass := 6, accuracy := 0x21, variance := 0, priority2 := 1, identity := 5 }, by decide +kernel⟩

theorem witness_ptpAnnounceBetter :
    let s : State := ptpState .ptp { parent := some 4, parentRank := 2 ^ 120 }
    ∃ m : PtpAnnounce, (s.ptpRuns 0 m.domain = true ∧ s.folio.ptp.parent ≠ some m.identity ∧ announceRank m < s.folio.ptp.parentRank) := by
  intro s
  exact ⟨{ domain := State.reset.image.ptpDomain, priority1 := 1, clockClass := 6, accuracy := 0x21, variance := 0, priority2 := 1, identity := 5 }, by decide +kernel⟩

theorem witness_ppsInEdge :
    let s : State := ptpState .ptpPps { valid := true }
    (s.folio.mode = .ptpPps ∧ s.folio.ptp.valid = true) := by
  intro s
  exact by decide +kernel

theorem witness_offsetFar :
    let s : State := let s := ptpState .ptp {}; { s with folio := { s.folio with sync := .locked } }
    (s.dev.state = .service ∧ s.folio.sync = .locked ∧ s.fourPeriods < 10 ^ 9) := by
  intro s
  exact by decide +kernel

theorem witness_offsetGood :
    let s : State := let s := ptpState .ptp {}; { s with folio := { s.folio with sync := .acquire, goodRun := 3 } }
    (s.dev.state = .service ∧ s.folio.sync = .acquire ∧ 0 < s.folio.periodUs ∧ (-100 : Int) ≤ 100 ∧ 3 ≤ s.folio.goodRun) := by
  intro s
  exact by decide +kernel

theorem witness_holdover :
    let s : State := let s := ptpState .ptp {}; { s with folio := { s.folio with sync := .locked, sinceSync := 2000000 } }
    ((s.folio.sync = .acquire ∨ s.folio.sync = .locked) ∧ 2000000 ≤ s.folio.sinceSync * s.folio.periodUs) := by
  intro s
  exact by decide +kernel


/-! ### Time, starts, power and sensors -/

/-- A device in START, with step `n` running. -/
def starting (n attempts : Nat) (f : Boot → Boot) : State :=
  { State.reset with dev := { State.reset.dev with state := .start },
                     boot := f { State.reset.boot with running := some n, attempts := attempts } }
/-- In START at step 12 the wait for a time source runs. -/
def acquiring (port : Option Nat) : State :=
  let s := starting 12 1 (fun b => { b with env := { portFail := port } })
  { s with folio := { s.folio with acquiring := true } }
def inState (d : DevState) : State := { State.reset with dev := { State.reset.dev with state := d } }

/-- Events of one core cycle are taken in order of code (R456). -/
theorem test_events_of_one_cycle :
    (((inState .service).inOneCycle (fun s => (s.raise 0x8B 2 0 []).raise 0x82 2 0 [])).recorder.offered.map (fun r => r.code)) =
      [0x82, 0x8B] := by decide +kernel

/-- A jump of the replay window beyond its width leaves one bit set (R71). -/
theorem test_window_jump : ((({} : Channel).window (2 ^ 47)).map (fun y => (y.rxHigh, y.rxBits))) = some (2 ^ 47, 1) := by decide +kernel

theorem witness_tickNone :
    let s : State := State.reset
    (s.folioRuns = false) := by
  intro s
  exact by decide +kernel

theorem witness_tickRuns :
    let s : State := inState .service
    (s.folioRuns = true ∧ s.folio.delayTick < 63) ∧
      (∃ u : State, exec .tick s = .next u ∧ u.dev.state ≠ .reset ∧ u.dev.state ≠ .tampered) := by
  intro s
  exact ⟨by decide +kernel, ⟨_, rfl, by decide +kernel, by decide +kernel⟩⟩

theorem witness_delayTickPast :
    let s : State := inState .service
    (0 ≤ s.folio.delayTick) := by
  intro s
  exact by decide +kernel

theorem witness_startBegin :
    let s : State := State.reset
    ∃ env : StartEnv, (env.hang = some 1 ∧ s.dev.state = .reset ∧ s.dev.mainRails = true ∧ s.boot.restart = none) := by
  intro s
  exact ⟨{ hang := some 1 }, by decide +kernel⟩

theorem witness_internalRestart :
    let s : State := { State.reset with boot := { State.reset.boot with restart := some .recovery } }
    ∃ env : StartEnv, (env.hang = some 1 ∧ s.dev.state = .reset ∧ s.boot.restart = some .recovery) := by
  intro s
  exact ⟨{ hang := some 1 }, by decide +kernel⟩

theorem witness_startBeginNot :
    let s : State := inState .service
    (s.dev.state ≠ .reset) := by
  intro s
  exact by decide +kernel

theorem witness_stepTimeout :
    let s : State := starting 5 2 id
    (s.boot.running = some 5 ∧ s.dev.state = .start ∧ s.folio.acquiring = false ∧ s.boot.attempts < 3) := by
  intro s
  exact by decide +kernel

theorem witness_stepTimeoutThird :
    let s : State := starting 5 3 id
    (s.boot.running = some 5 ∧ s.dev.state = .start ∧ s.folio.acquiring = false ∧ 3 ≤ s.boot.attempts) := by
  intro s
  exact by decide +kernel

theorem witness_stepTimeoutNot :
    let s : State := State.reset
    (s.boot.running = none) := by
  intro s
  exact by decide +kernel

theorem witness_acquireEndFail :
    let s : State := acquiring (some 3)
    (s.boot.running = some 12 ∧ s.dev.state = .start ∧ s.folio.acquiring = true ∧ s.boot.env.hang = none ∧ s.boot.env.portFail = some 3) := by
  intro s
  exact by decide +kernel

theorem witness_acquireEnd :
    let s : State := acquiring none
    (s.boot.running = some 12 ∧ s.dev.state = .start ∧ s.folio.acquiring = true ∧ s.boot.env.hang = none ∧ s.boot.env.portFail = none ∧ s.paired = false) := by
  intro s
  exact by decide +kernel

theorem witness_acquireEndNot :
    let s : State := State.reset
    (s.folio.acquiring = false) := by
  intro s
  exact by decide +kernel

theorem witness_imageWritten :
    let s : State := { State.reset with boot := { State.reset.boot with load := { State.reset.boot.load with state := 2 } } }
    (s.boot.load.state = 2) := by
  intro s
  exact by decide +kernel

theorem witness_imageWrittenNot :
    let s : State := State.reset
    (s.boot.load.state ≠ 2) := by
  intro s
  exact by decide +kernel

theorem witness_resetAsserted :
    let s : State := inState .service
    (s.dev.state ≠ .sleep ∧ s.dev.vsec = true) := by
  intro s
  exact by decide +kernel

theorem witness_railsRemovedNoVsec :
    let s : State := let s := inState .service; { s with dev := { s.dev with vsec := false } }
    (s.dev.state ≠ .sleep ∧ s.dev.vsec = false) := by
  intro s
  exact by decide +kernel

theorem witness_resetInSleep :
    let s : State := inState .sleep
    (s.dev.state = .sleep) := by
  intro s
  exact by decide +kernel

/-! The sensors. -/

theorem frame_opens (key iv : Bytes) : gcmOpen key iv [] [] (gcmSeal key iv [] []).2 = some [] := by
  have h3 : (gcmSeal key iv [] []).2 =
      bytes128 (aesEncrypt key (word128 (gcmJ0 key iv)) ^^^ gcmHash key [] []) := rfl
  unfold gcmOpen
  simp only [h3]
  rw [if_pos (by simp)]
  rfl

theorem gcm_tag_length (key iv : Bytes) : (gcmSeal key iv [] []).2.length = 16 := rfl

theorem frame_parts (key iv k2 iv2 : Bytes) (h1 : k2 = key) (h2 : iv2 = iv) :
    let f := (gcmSeal key iv [] []).2
    (gcmOpen k2 iv2 [] (f.take (f.length - 16)) (f.drop (f.length - 16))).isSome = true := by
  intro f
  have h3 : f.length = 16 := gcm_tag_length key iv
  rw [h3, h1, h2]
  simp only [Nat.sub_self, List.take_zero, List.drop_zero]
  rw [frame_opens]
  rfl

/-- A keyed gutter link. -/
def gutter : State := { State.reset with dev := { State.reset.dev with gutterKeyed := true, gutterKey := zeros 64 } }
/-- A device in SERVICE, its sensors erasing where `action` says. -/
def watching (action : BitVec 29) : State := let s := inState .service; { s with tmp := { s.tmp with action := action } }

theorem witness_patrolsCalm :
    let s : State := State.reset
    (s.dev.vsec = true ∧ s.dev.mainRails = true ∧ tabWf 0 s.tmp.runs = true ∧ tabWf 0 s.tmp.temps = true) := by
  intro s
  exact by decide +kernel

theorem witness_switchCalm :
    let s : State := { State.reset with tmp := { State.reset.tmp with filter := [(0, 1)] } }
    (s.dev.vsec = true ∧ tabWf 0 s.tmp.runs = true ∧ tabGet 0 s.tmp.runs 0 + 1 < filterSamples (tabGet 0 s.tmp.filter 0 % 4)) := by
  intro s
  exact by decide +kernel

theorem witness_temperaturesCalm :
    let s : State := State.reset
    (s.dev.vsec = true ∧ s.dev.mainRails = true ∧ tabWf 0 s.tmp.temps = true ∧ [2640#16, 0#16, 0#16, BitVec.ofInt 16 (-800), 0#16].all (fun q => decide (-800 ≤ q.toInt ∧ q.toInt ≤ 2640)) = true ∧ 2400 ≤ (2640#16).toInt) := by
  intro s
  exact by decide +kernel

theorem witness_gutterCalm :
    let s : State := gutter
    ∃ frame : Bytes, (s.dev.vsec = true ∧ s.dev.gutterKeyed = true) ∧
      (16 ≤ frame.length) ∧
      ((gcmOpen (slice s.dev.gutterKey 0 32) (beBytes 12 s.dev.gutterTx) [] (frame.take (frame.length - 16)) (frame.drop (frame.length - 16))).isSome = true) ∧
      ((gcmOpen (slice s.dev.gutterKey 32 32) (beBytes 12 s.dev.gutterRx) [] (frame.take (frame.length - 16)) (frame.drop (frame.length - 16))).isSome = true) := by
  intro s
  exact ⟨(gcmSeal (zeros 32) (zeros 12) [] []).2, by decide +kernel, (gcm_tag_length _ _).ge, frame_parts _ _ _ _ (by decide +kernel) (by decide +kernel), frame_parts _ _ _ _ (by decide +kernel) (by decide +kernel)⟩

theorem witness_detectionErases :
    let s : State := watching 0
    (s.dev.vsec = true ∧ s.dev.mainRails = true ∧ s.dev.pwrGood = true ∧ s.dev.state ≠ .sleep ∧ s.folioRuns = true ∧ s.tmp.latch = false) ∧
      ((s.tmp.action ||| fixedSensors).getLsbD 0 = true ∧ (s.tmp.action ||| fixedSensors).getLsbD 25 = false ∧ s.tmp.active.getLsbD 25 = false) := by
  intro s
  exact ⟨by decide +kernel, by decide +kernel⟩

theorem witness_detectionLatched :
    let s : State := let s := watching 0; { s with tmp := { s.tmp with latch := true } }
    (s.dev.vsec = true ∧ s.dev.mainRails = true ∧ s.dev.pwrGood = true ∧ s.dev.state ≠ .sleep ∧ s.tmp.latch = true) ∧
      ((s.tmp.action ||| fixedSensors).getLsbD 0 = true) := by
  intro s
  exact ⟨by decide +kernel, by decide +kernel⟩

theorem witness_detectionConfigured :
    let s : State := watching (-1)
    ((s.tmp.action ||| fixedSensors).getLsbD 25 = true ∧ s.tmp.active.getLsbD 25 = false ∧ s.tmp.active.getLsbD 23 = false ∧ (-801 : Int) < -800) := by
  intro s
  exact by decide +kernel

theorem witness_detectionSwitch :
    let s : State := let s := watching 0; { s with tmp := { s.tmp with filter := [(0, 1)], runs := [(0, 1)] } }
    (s.dev.vsec = true ∧ s.tmp.active.getLsbD 6 = false ∧ filterSamples (tabGet 0 s.tmp.filter 0 % 4) ≤ tabGet 0 s.tmp.runs 0 + 1) := by
  intro s
  exact by decide +kernel

theorem witness_detectionGutter :
    let s : State := let s := watching 0; { s with dev := { s.dev with gutterKeyed := true, gutterKey := zeros 64 } }
    (s.dev.gutterKeyed = true ∧ 1 ≠ s.dev.gutterTx ∧ 1 ≠ s.dev.gutterRx) := by
  intro s
  exact by decide +kernel


/-! ### Recorder, counters, faults, key store and random number generator -/

/-- A record, and a capture of the mesh sensor. -/
def rec1 : Record := { seconds := 0, cycles := 0, folio := 0, code := 1, source := 0, tenant := 0, data := [1] }
def capture1 (erase : Bool) : Capture :=
  { sensor := 0, data := 1, devState := 0, step := 0, seconds := 0, cycles := 0, folio := 0, erase := erase }
def recording (l : List Record) : State := { State.reset with recorder := { State.reset.recorder with offered := l, next := 1 } }

theorem witness_recordWrite :
    let s : State := recording [rec1]
    (s.recorder.offered = rec1 :: [] ∧ 0 < s.recorder.next % 1024 ∧ (s.recorder.frontCount + 1 < 1024 ∨ s.recorder.everDeployed = false)) := by
  intro s
  exact by decide +kernel

theorem witness_recordWriteDeployed :
    let s : State := let s := recording [rec1]; { s with recorder := { s.recorder with everDeployed := true, frontCount := 1022, next := 1023 } }
    (s.recorder.offered = rec1 :: [] ∧ 0 < s.recorder.next % 1024 ∧ s.recorder.frontCount + 1 < 1024 ∧ s.recorder.everDeployed = true) := by
  intro s
  exact by decide +kernel

theorem witness_recordWriteNone :
    let s : State := State.reset
    (s.recorder.offered = [] ∧ s.recorder.suppressed = [] ∧ s.tmp.captures = []) := by
  intro s
  exact by decide +kernel

theorem witness_captureAlert :
    let s : State := { State.reset with tmp := { State.reset.tmp with captures := [capture1 false] } }
    (s.tmp.captures = capture1 false :: [] ∧ s.dev.state ≠ .sleep ∧ (capture1 false).erase = false) := by
  intro s
  exact by decide +kernel

theorem witness_captureErase :
    let s : State := let s := recording []; { s with tmp := { s.tmp with captures := [capture1 true], first := some (capture1 true) } }
    (s.tmp.captures = capture1 true :: [] ∧ s.dev.state ≠ .sleep ∧ (capture1 true).erase = true ∧ s.tmp.first = some (capture1 true) ∧ 0 < s.recorder.next % 1024 ∧ s.recorder.everDeployed = false) := by
  intro s
  exact by decide +kernel

theorem witness_captureSleep :
    let s : State := inState .sleep
    (s.dev.state = .sleep) := by
  intro s
  exact by decide +kernel

theorem witness_suppression :
    let s : State := { State.reset with recorder := { State.reset.recorder with suppressed := [(1, 3)] } }
    (s.recorder.suppressed ≠ []) := by
  intro s
  exact by decide +kernel

theorem witness_operatingSecond :
    let s : State := State.reset
    (s.dev.pwrGood = true ∧ s.dev.vsec = true ∧ (s.recorder.seconds + 1) % 64 ≠ 0) := by
  intro s
  exact by decide +kernel

theorem witness_operatingSecondStored :
    let s : State := { State.reset with recorder := { State.reset.recorder with seconds := 63 } }
    (s.dev.pwrGood = true ∧ s.dev.vsec = true ∧ (s.recorder.seconds + 1) % 64 = 0) := by
  intro s
  exact by decide +kernel

theorem witness_operatingSecondNot :
    let s : State := let s := State.reset; { s with dev := { s.dev with pwrGood := false } }
    (s.dev.pwrGood = false) := by
  intro s
  exact by decide +kernel

/-! Counters and split registers. -/

def counting (sel live : List (Nat × Nat)) : State :=
  let s := inState .service
  { s with pmc := { s.pmc with select := sel, live := live } }

theorem witness_pmcSel :
    let s : State := counting [(4, 1)] [(4, 9)]
    (tabWf 0 s.pmc.live = true ∧ tabWf 0 s.pmc.select = true ∧ s.managed = true ∧ 4 < 1024) := by
  intro s
  exact by decide +kernel

theorem witness_pmcNotManaged :
    let s : State := State.reset
    (tabWf 0 s.pmc.live = true ∧ tabWf 0 s.pmc.select = true ∧ s.managed = false) := by
  intro s
  exact by decide +kernel

theorem witness_counterWraps :
    let s : State := counting [(4, 1)] [(4, 0xFFFFFFFF)]
    (tabWf 0 s.pmc.live = true ∧ tabWf 0 s.pmc.select = true ∧ tabGet 0 s.pmc.select 4 ≠ 0 ∧ tabGet 0 s.pmc.select 5 ≠ 0xFF) := by
  intro s
  exact by decide +kernel

theorem witness_counterWrapsChained :
    let s : State := counting [(4, 1), (5, 0xFF)] [(4, 0xFFFFFFFF), (5, 7)]
    (tabWf 0 s.pmc.live = true ∧ tabWf 0 s.pmc.select = true ∧ tabGet 0 s.pmc.select 4 ≠ 0 ∧ tabGet 0 s.pmc.select (4 + 1) = 0xFF ∧ pmcBlockFirst (4 + 1) ≠ 4 + 1 ∧ 4 + 1 < 1024 ∧ tabGet 0 s.pmc.live (4 + 1) + 1 < 2 ^ 32) := by
  intro s
  exact by decide +kernel

theorem witness_counterWrapsBlockEnd :
    let s : State := counting [(7, 1), (8, 0xFE)] []
    (tabWf 0 s.pmc.select = true ∧ tabGet 0 s.pmc.select 7 ≠ 0 ∧ tabGet 0 s.pmc.select (7 + 1) ≠ 0xFF ∧ pmcBlockFirst (7 + 1) = 7 + 1) := by
  intro s
  exact by decide +kernel

theorem witness_hiRead :
    let s : State := withChan 3 chan0 { inState .service with folio := { State.reset.folio with now := 0x123456789A } }
    ∃ v : Nat, (s.managed = true ∧ (s.chan 3).state = .open ∧ (s.chan 3).tenant = 0 ∧ splitValue s 3 0x10004 = some (v, 0x10004) ∧ lo32 v ≠ 0) := by
  intro s
  exact ⟨0x123456789A, by decide +kernel⟩

/-! Faults and tests. -/

def faulty (f : Faults → Faults) : State := let s := inState .service; { s with faults := f s.faults }
def wakes (d : DistrictState) : State :=
  let s := inState .service
  { s with pwr := { s.pwr with districts := [(1, { state := d, waking := true })] } }

theorem witness_errorNoFolio :
    let s : State := State.reset
    (s.folioRuns = false) := by
  intro s
  exact by decide +kernel

theorem witness_errorInMemory :
    let s : State := fn 1 [] []
    (s.folioRuns = true ∧ (s.slot 0).live = true) := by
  intro s
  exact by decide +kernel

theorem witness_errorCorrected :
    let s : State := faulty (fun f => { f with corrected := [(0x40, (0, 2))] })
    (s.folioRuns = true ∧ (0x40 : Nat) < 0x80 ∧ (tabGet (0, 0) s.faults.corrected 0x40).1 = s.second) := by
  intro s
  exact by decide +kernel

theorem witness_errorCorrectedNewSecond :
    let s : State := let s := faulty (fun f => { f with corrected := [(0x40, (0, 2))] }); { s with folio := { s.folio with ticks := 1000000 } }
    (s.folioRuns = true ∧ (tabGet (0, 0) s.faults.corrected 0x40).1 ≠ s.second) := by
  intro s
  exact by decide +kernel

theorem witness_errorInUnit :
    let s : State := faulty id
    (s.folioRuns = true ∧ (1 : Nat) ≠ 5 ∧ detects 0x40 1 = true ∧ s.quarantined 0x40 = false) := by
  intro s
  exact by decide +kernel

theorem witness_errorInCore :
    let s : State := faulty id
    (s.folioRuns = true ∧ s.quarantined (0x80 + 127) = false ∧ s.taskOf 127 = none) := by
  intro s
  exact by decide +kernel

theorem witness_testCompletes :
    let s : State := faulty (fun f => { f with withdrawn := [0x80] })
    (s.testing 0x80 = true ∧ 0x80 ∉ s.faults.returning) ∧
      (¬ ∃ n, (0x80, n) ∈ s.faults.toQuarantine) := by
  intro s
  exact ⟨by decide +kernel, fun h => h.elim fun _ h2 => absurd h2 List.not_mem_nil⟩

theorem witness_testNone :
    let s : State := faulty id
    (s.testing 0x80 = false) := by
  intro s
  exact by decide +kernel

theorem witness_wakeFromGated :
    let s : State := wakes .gated
    ((s.district 1).waking = true ∧ (s.district 1).state ≠ .off) := by
  intro s
  exact by decide +kernel

theorem witness_wakeFromOff :
    let s : State := wakes .off
    ((s.district 1).waking = true ∧ (s.district 1).state = .off ∧ 0x88 < 256 ∧ (districtUnits 1).contains 0x88 = true ∧ s.quarantined 0x88 = false) := by
  intro s
  exact by decide +kernel

theorem witness_wakeNone :
    let s : State := State.reset
    ((s.district 1).waking = false) := by
  intro s
  exact by decide +kernel

/-! The key store. -/

def storing (f : KeyStore → KeyStore) : State := let s := inState .service; { s with ks := f s.ks }
def binding1 : CacheBinding :=
  { tenant := 0, units := 2, attr := {}, shareA := [1], shareB := [2], rootSlot := 0, rootGen := 1, parent := .none, digest := [] }

theorem witness_refreshOff :
    let s : State := State.reset
    (tabWf {} s.ks.resident = true ∧ s.ks.refresh = false) := by
  intro s
  exact by decide +kernel

theorem witness_refreshStep :
    let s : State := storing (fun k => { k with refresh := true, refreshUnit := 196607, resident := [(8256, key uK0 5 0x42 32)], cache := [binding1] })
    (tabWf {} s.ks.resident = true ∧ s.ks.refresh = true ∧ s.rng.state ≠ .failed ∧ (s.resident 8256).shareA.length = (s.resident 8256).shareB.length ∧ (∀ c ∈ s.ks.cache, c.shareA.length = c.shareB.length)) := by
  intro s
  exact by decide +kernel

theorem witness_cacheError :
    let s : State := storing (fun k => { k with cache := [binding1, binding1] })
    (tabWf {} s.ks.resident = true ∧ cacheAt 2 s.ks.cache = some binding1) := by
  intro s
  exact by decide +kernel

theorem witness_residentError :
    let s : State := storing (fun k => { k with resident := [(8256, key uK0 5 0x42 32)] })
    (tabWf {} s.ks.resident = true ∧ s.residentAt 8256 = some 8256) := by
  intro s
  exact by decide +kernel

theorem witness_residentReload :
    let s : State := let s := storing (fun k => { k with resident := [(8256, { key uK0 5 0x42 32 with reloading := true })] }); { s with vault := { s.vault with store := { s.vault.store with resident := [(8256, key uK0 5 0x42 32)] } } }
    (tabWf {} s.ks.resident = true ∧ (s.resident 8256).reloading = true ∧ (tabGet ({} : Resident) s.vault.store.resident 8256).kind ≠ .free) := by
  intro s
  exact by decide +kernel

theorem witness_residentReloadNone :
    let s : State := State.reset
    (tabWf {} s.ks.resident = true ∧ (s.resident 0).reloading = false) := by
  intro s
  exact by decide +kernel

theorem witness_vaultBatch :
    let s : State := storing (fun k => { k with unsealed := true, changes := 1, vaultKey := zeros 32 })
    (tabWf {} s.ks.resident = true ∧ s.ks.unsealed = true ∧ 0 < s.ks.changes ∧ s.ks.vaultKey ≠ []) := by
  intro s
  exact by decide +kernel

theorem witness_vaultBatchNone :
    let s : State := State.reset
    (tabWf {} s.ks.resident = true ∧ s.ks.changes = 0 ∧ s.ks.unsealed = false) := by
  intro s
  exact by decide +kernel

/-! The random number generator. -/

/-- Ready, with source A healthy and holding `seeds`, its released blocks `blocks`, and instance 0 as given. -/
def rngState (blocks seeds : List Bytes) (d : Drbg) (f : Rng → Rng) : State :=
  let s := inState .service
  { s with rng := f { s.rng with state := .ready, ready := true, active := 0, poolInt := 8,
                                 sources := [(0, { health := .healthy, blocks := blocks, seeds := seeds })],
                                 drbgs := [(0, d)] } }
/-- A window whose samples alternate, and one of a single value. -/
def window1 : Bytes := List.replicate 128 0x55
def window0 : Bytes := zeros 128

theorem witness_windowPasses :
    let s : State := rngState [] [] { state := .running } id
    (tabWf {} s.rng.sources = true ∧ tabWf {} s.rng.drbgs = true ∧ window1.length = 128 ∧ (s.source 0).health = .healthy ∧ rctFails (rctCutoff 0) ((s.source 0).run, (s.source 0).runBit) (sampleBits window1) = false ∧ aptCount (sampleBits window1) < aptCutoff 0 ∧ (s.source 0).blocks = []) := by
  intro s
  exact by decide +kernel

theorem witness_windowPassesSecond :
    let s : State := rngState [zeros 48] [] { state := .running } id
    (tabWf {} s.rng.sources = true ∧ tabWf {} s.rng.drbgs = true ∧ window1.length = 128 ∧ (s.source 0).health = .healthy ∧ rctFails (rctCutoff 0) ((s.source 0).run, (s.source 0).runBit) (sampleBits window1) = false ∧ aptCount (sampleBits window1) < aptCutoff 0 ∧ (s.source 0).blocks = [zeros 48] ∧ (s.source 0).seeds.length < 8) := by
  intro s
  exact by decide +kernel

theorem witness_windowFails :
    let s : State := rngState [] [] { state := .running } id
    (tabWf {} s.rng.sources = true ∧ tabWf {} s.rng.drbgs = true ∧ window0.length = 128 ∧ (s.source 0).health = .healthy ∧ rctFails (rctCutoff 0) ((s.source 0).run, (s.source 0).runBit) (sampleBits window0) = true) := by
  intro s
  exact by decide +kernel

theorem witness_testFailure :
    let s : State := rngState [] [] { state := .running } id
    (tabWf {} s.rng.sources = true ∧ tabWf {} s.rng.drbgs = true ∧ (s.source 0).health = .healthy) := by
  intro s
  exact by decide +kernel

theorem witness_testFailureThird :
    let s : State := let s := rngState [] [] { state := .running } id; { s with rng := { s.rng with sources := [(0, { health := .healthy, failTimes := [0, 0] })] } }
    (tabWf {} s.rng.sources = true ∧ tabWf {} s.rng.drbgs = true ∧ (s.source 0).health = .healthy ∧ 2 ≤ ((s.source 0).failTimes.filter (fun q => decide (s.second < q + 3600))).length) := by
  intro s
  exact by decide +kernel

theorem witness_scheduledReseed :
    let s : State := let s := rngState [] [zeros 96] { state := .running } id; { s with folio := { s.folio with ticks := 128, periodUs := 1 } }
    (tabWf {} s.rng.sources = true ∧ tabWf {} s.rng.drbgs = true ∧ s.rng.state = .ready ∧ s.rng.forced = none ∧ (s.drbg 0).state = .running ∧ (s.drbg 0).lastReseed + 128 ≤ s.micros ∧ (s.source s.rng.active).seeds = zeros 96 :: []) := by
  intro s
  exact by decide +kernel

theorem witness_forcedReseedBegins :
    let s : State := rngState [] [] { state := .running } id
    (tabWf {} s.rng.sources = true ∧ tabWf {} s.rng.drbgs = true ∧ s.managed = true ∧ s.rng.state = .ready ∧ (s.drbg 0).state = .running) := by
  intro s
  exact by decide +kernel

theorem witness_forcedReseedEnds :
    let s : State := rngState [] (List.replicate 8 (zeros 96)) { state := .reseeding } (fun r => { r with forced := some 0 })
    (tabWf {} s.rng.sources = true ∧ tabWf {} s.rng.drbgs = true ∧ s.rng.forced = some 0 ∧ 8 ≤ (s.source 0).seeds.length ∧ (s.drbg 0).state = .reseeding) := by
  intro s
  exact by decide +kernel

theorem witness_forcedReseedNone :
    let s : State := State.reset
    (tabWf {} s.rng.sources = true ∧ tabWf {} s.rng.drbgs = true ∧ s.rng.forced = none) := by
  intro s
  exact by decide +kernel

theorem witness_tenantPool :
    let s : State := rngState [] [] { state := .running } (fun r => { r with refilling := true, state := .degraded })
    (tabWf {} s.rng.sources = true ∧ tabWf {} s.rng.drbgs = true ∧ s.rng.refilling = true ∧ s.rng.forced = none ∧ s.rng.state = .degraded) := by
  intro s
  exact by decide +kernel

theorem witness_instanceError :
    let s : State := rngState [] [] { state := .running } id
    (tabWf {} s.rng.sources = true ∧ tabWf {} s.rng.drbgs = true ∧ (s.drbg 0).state = .running) := by
  intro s
  exact by decide +kernel

theorem witness_instanceReturns :
    let s : State := rngState [] [zeros 96] { state := .withdrawn } id
    (tabWf {} s.rng.sources = true ∧ tabWf {} s.rng.drbgs = true ∧ (s.drbg 0).state = .withdrawn ∧ (s.drbg 0).quarantined = false ∧ s.rng.state = .ready ∧ s.rng.forced = none ∧ (s.source s.rng.active).seeds = zeros 96 :: []) := by
  intro s
  exact by decide +kernel

theorem witness_draw :
    let s : State := let s := fn 1 [] []; { s with cores := { s.cores with rand := [(0, { draw := some (false, 4, 0) })] } }
    (tabWf {} s.rng.sources = true ∧ tabWf {} s.rng.drbgs = true ∧ (s.randPort 0).draw = some (false, 4, 0) ∧ s.taskOf 0 = some (0, s.slot 0, 0) ∧ s.rng.ready = true ∧ s.rng.state = .ready) := by
  intro s
  exact by decide +kernel

theorem witness_drawNone :
    let s : State := State.reset
    (tabWf {} s.rng.sources = true ∧ tabWf {} s.rng.drbgs = true ∧ (s.randPort 0).draw = none) := by
  intro s
  exact by decide +kernel

theorem witness_randomRead :
    let s : State := rngState [] [] { state := .running } id
    (tabWf {} s.rng.sources = true ∧ tabWf {} s.rng.drbgs = true ∧ s.managed = true ∧ (s.chan (2 % 2 ^ 15)).state = .free ∧ s.rng.ready = true ∧ s.rng.state = .ready) := by
  intro s
  exact by decide +kernel


/-! ### Cards and sessions, life cycle, chain, graph requests -/

def withSession (x : Session) : State := { State.reset with dual := { State.reset.dual with sessions := [(3, x)] } }
def withIface (x : CardIface) (s : State) : State := { s with dual := { s.dual with ifaces := [(0, x)] } }
def withCard (c : Card) : State := { State.reset with dual := { State.reset.dual with cards := [(0, c)] } }

theorem witness_sessionEnds :
    let s : State := let s := withSession { state := .granted, gen := 1, expires := 10, ephemeral := [1] }; { s with folio := { s.folio with now := 10 } }
    ((s.session 3).state = .granted ∧ State.pastE (s.session 3) s.folio.now = true) := by
  intro s
  exact by decide +kernel

theorem witness_sessionGoesOn :
    let s : State := withSession { state := .open, gen := 1, expires := 10 }
    ((s.session 3).state = .open ∧ State.pastE (s.session 3) s.folio.now = false) := by
  intro s
  exact by decide +kernel

theorem witness_exchangeCompletes :
    let s : State := withIface { present := true, exchange := some 0x103, powered := true } (withSession { state := .open, gen := 1, expires := 10 })
    (tabWf {} s.dual.ifaces = true ∧ tabWf {} s.dual.sessions = true ∧ (s.iface 0).exchange = some 0x103) := by
  intro s
  exact by decide +kernel

theorem witness_exchangeNone :
    let s : State := State.reset
    ((s.iface 0).exchange = none) := by
  intro s
  exact by decide +kernel

theorem witness_cardPresence :
    let s : State := State.reset
    (s.dev.mainRails = true ∧ (s.iface 0).present ≠ true ∧ tabWf {} s.dual.ifaces = true) := by
  intro s
  exact by decide +kernel

theorem witness_cardRemoved :
    let s : State := withIface { present := true } State.reset
    (s.dev.mainRails = true ∧ (s.iface 0).present ≠ false ∧ tabWf {} s.dual.ifaces = true) := by
  intro s
  exact by decide +kernel

theorem witness_cardUsedUp :
    let s : State := withCard { state := .warned, usesLeft := 0, notAfter := 100 }
    ((s.card 0).state = .warned ∧ (s.card 0).usesLeft = 0) := by
  intro s
  exact by decide +kernel

theorem witness_cardPastEnd :
    let s : State := let s := withCard { state := .active, usesLeft := 50000, notAfter := 0 }; { s with dual := { s.dual with timeWritten := 1 } }
    ((s.card 0).state = .active ∧ (s.card 0).notAfter < s.registryTime) := by
  intro s
  exact by decide +kernel

theorem witness_cardWarned :
    let s : State := withCard { state := .active, usesLeft := 20000, notAfter := 100 }
    ((s.card 0).state = .active ∧ 0 < (s.card 0).usesLeft ∧ s.registryTime ≤ (s.card 0).notAfter ∧ (s.card 0).usesLeft ≤ 20000) := by
  intro s
  exact by decide +kernel

theorem witness_cardWarnedLate :
    let s : State := let s := withCard { state := .active, usesLeft := 20001, notAfter := 100 }; { s with dual := { s.dual with timeWritten := 91 } }
    ((s.card 0).state = .active ∧ 0 < (s.card 0).usesLeft ∧ s.registryTime ≤ (s.card 0).notAfter ∧ (s.card 0).late s.registryTime = true) := by
  intro s
  exact by decide +kernel

theorem witness_cardStays :
    let s : State := withCard { state := .active, usesLeft := 20001, notAfter := 100 }
    ((s.card 0).state = .active ∧ s.registryTime ≤ (s.card 0).notAfter ∧ 20000 < (s.card 0).usesLeft ∧ (s.card 0).late s.registryTime = false) := by
  intro s
  exact by decide +kernel

/-! Life cycle and debug. -/

def lifeState (l : LcState) (d : DevState) (f : Lc → Lc) : State :=
  let s := inState d
  { s with lc := f { s.lc with state := l } }
def intentLive : Intent := { source := 1, target := 2, stripe := 2, slot := 0, quorum := true, valid := true }

theorem witness_tapOpen :
    let s : State := lifeState .deployed .service id
    (s.lc.state ≠ .scrapped ∧ s.debugAllowed = false ∧ ([0] : Bytes) ≠ []) := by
  intro s
  exact by decide +kernel

theorem witness_tapScrapped :
    let s : State := lifeState .scrapped .recovery id
    (s.lc.state = .scrapped ∧ s.dev.state = .recovery) := by
  intro s
  exact by decide +kernel

theorem witness_debugRead :
    let s : State := lifeState .returned .service (fun l => { l with dbg := { l.dbg with active := true } })
    (s.debugAllowed = true) := by
  intro s
  exact by decide +kernel

theorem witness_mailbox :
    let s : State := lifeState .deployed .recovery id
    (s.lc.state ≠ .scrapped ∧ s.dev.state = .recovery ∧ mailboxFn 0x70 = true ∧ mailboxFn 0x76 = false) := by
  intro s
  exact by decide +kernel

theorem witness_transition :
    let s : State := lifeState .invalid .recovery (fun l => { l with intents := [intentLive], inProgress := true })
    (s.lc.liveIntent = some intentLive ∧ s.lc.inProgress = true ∧ s.dev.state = .recovery) := by
  intro s
  exact by decide +kernel

theorem witness_transitionNot :
    let s : State := State.reset
    (s.lc.liveIntent = none ∧ s.lc.state ≠ .scrapped) := by
  intro s
  exact by decide +kernel

/-! The chain. This device stands in record slot `own` at position `p`; record slot 2 at position `q`. -/

def chained (d : DevState) (p q : Nat) (f : Pair → Pair) : State :=
  let s := inState d
  { s with pair := f { s.pair with count := 2, slot := 1, members := [(1, { position := p, state := 1 }), (2, { position := q, state := 1 })] } }

/-- A REP of no records on the device's own channel 9. -/
def repBytes : Bytes := sealed (zeros 32) (zeros 4 ++ beBytes 8 1) (header 2 0 9 1)

theorem take_rep :
    let s : State := withChan 32768 { own0 with state := .open } (arrived repBytes State.reset)
    takeRep s 0 .open = (some (32768, { own0 with state := .open }, repBytes, []),
      (s.popIngress 0).putChan 32768 { (((s.popIngress 0).chan 32768).window (fld repBytes 8 8)).getD {} with idle := 0 }) := by
  intro s
  have h1 : s.head 0 = some { bytes := repBytes } := rfl
  have h0 : (s.headerDrop 0 repBytes).isSome = false := rfl
  have h2 : s.ownChannel 0 (fld repBytes 4 4) = some (32768, { own0 with state := .open }) := rfl
  have h3 : openDgram own0.c2d repBytes = some [] := ready_opens
  have h5 : dgramType repBytes = 2 := rfl
  have h7 : repBytes.length = 48 := rfl
  have h8 : ((s.popIngress 0).chan 32768) = { own0 with state := .open } := rfl
  have h9 : fld repBytes 8 8 = 1 := rfl
  have h10 : (({ own0 with state := .open } : Channel).window 1).isSome = true := by decide +kernel
  obtain ⟨y, h11⟩ := Option.isSome_iff_exists.1 h10
  rw [h8, h9, h11]
  unfold takeRep
  simp only [h0, h1, h2, h3, h5, h7, h9, h11, ne_eq, not_true_eq_false, or_self, if_false, Bool.false_eq_true, Nat.lt_irrefl]
  rfl

theorem witness_repTaken :
    let s : State := withChan 32768 { own0 with state := .open } (arrived repBytes State.reset)
    ∃ y : Channel, (takeRep s 0 .open = (some (32768, { own0 with state := .open }, repBytes, []), (s.popIngress 0).putChan 32768 { y with idle := 0 })) ∧
      (({ own0 with state := .open } : Channel).member = some 1) := by
  intro s
  exact ⟨(((s.popIngress 0).chan 32768).window (fld repBytes 8 8)).getD {}, take_rep, by decide +kernel⟩

theorem witness_repNone :
    let s : State := State.reset
    (takeRep s 0 .open = (none, s)) := by
  intro s
  exact by decide +kernel

theorem witness_heldRises :
    let s : State := chained .service 0 1 id
    ∃ r : ReplyRec, (s.dev.state = .service ∧ s.position = 0 ∧ (s.member 2).position = 1 ∧ (s.member 2).state ≠ 0 ∧ s.pair.handover = none ∧ s.pair.confirmed = true ∧ r.status = stOk ∧ r.result.length = 8 ∧ folioReached (fld r.result 0 6) s.pair.held = true ∧ fld r.result 0 6 ≠ s.pair.held) := by
  intro s
  exact ⟨{ status := 0, result := [0, 0, 0, 0, 0, 7, 0, 0] }, by decide +kernel⟩

theorem witness_heldStays :
    let s : State := chained .service 0 1 (fun p => { p with held := 7 })
    ∃ r : ReplyRec, (s.dev.state = .service ∧ s.position = 0 ∧ (s.member 2).position = 1 ∧ (s.member 2).state ≠ 0 ∧ s.pair.handover = none ∧ s.pair.confirmed = true ∧ r.status = stOk ∧ r.result.length = 8 ∧ fld r.result 0 6 = s.pair.held) := by
  intro s
  exact ⟨{ status := 0, result := [0, 0, 0, 0, 0, 7, 0, 0] }, by decide +kernel⟩

theorem witness_fence :
    let s : State := chained .service 0 1 (fun p => { p with ackSilence := 40 })
    (s.fenceArmed = true ∧ 40 ≤ s.pair.ackSilence) := by
  intro s
  exact by decide +kernel

theorem witness_fenceNot :
    let s : State := chained .service 0 1 (fun p => { p with ackSilence := 39 })
    (s.pair.ackSilence < 40) := by
  intro s
  exact by decide +kernel

theorem witness_takeover :
    let s : State := chained .standby 1 0 (fun p => { p with timer := true, aheadSilence := 50 })
    (s.paired = true ∧ s.dev.state = .standby ∧ s.pair.timer = true ∧ 1 ≤ s.position ∧ (s.member s.pair.slot).state = 1 ∧ s.pair.takeover = none ∧ 50 + 10 * (s.position - 1) ≤ s.pair.aheadSilence) := by
  intro s
  exact by decide +kernel

theorem witness_takeoverThird :
    let s : State := chained .standby 3 0 (fun p => { p with timer := true, aheadSilence := 69 })
    (s.paired = true ∧ s.dev.state = .standby ∧ s.pair.timer = true ∧ 1 ≤ s.position ∧ (s.member s.pair.slot).state = 1 ∧ s.pair.takeover = none ∧ s.pair.aheadSilence < 50 + 10 * (s.position - 1)) := by
  intro s
  exact by decide +kernel

theorem witness_memberDrops :
    let s : State := chained .service 0 1 (fun p => { p with members := [(1, { position := 0, state := 1 }), (2, { position := 1, state := 1, silentA := 1024, silentB := 1024 })] })
    (s.paired = true ∧ s.dev.state = .service ∧ s.pair.epoch + 1 < 2 ^ 32 ∧ (s.member 2).state ≠ 0 ∧ (s.member 2).position = s.position + 1 ∧ 1024 ≤ (s.member 2).silentA ∧ 1024 ≤ (s.member 2).silentB) := by
  intro s
  exact by decide +kernel

theorem witness_memberStays :
    let s : State := chained .service 0 1 (fun p => { p with members := [(1, { position := 0, state := 1 }), (2, { position := 1, state := 1, silentA := 1024, silentB := 1023 })] })
    (s.paired = true ∧ s.dev.state = .service ∧ s.pair.epoch + 1 < 2 ^ 32 ∧ (s.member 2).state ≠ 0 ∧ (s.member 2).position = s.position + 1 ∧ (s.member 2).silentB < 1024) := by
  intro s
  exact by decide +kernel

theorem witness_consolidate :
    let s : State := { State.reset with vault := { State.reset.vault with log := [(5, [])] } }
    (s.vault.log = (5, []) :: []) := by
  intro s
  exact by decide +kernel

theorem witness_consolidateNone :
    let s : State := State.reset
    (s.vault.log = [] ∧ s.boot.drain = none) := by
  intro s
  exact by decide +kernel

theorem witness_drainEnds :
    let s : State := let s := inState .service; { s with boot := { s.boot with drain := some (0, .start) } }
    (s.boot.drain = some (0, .start) ∧ (∀ q ∈ s.sq.slots, q.2.owed = false) ∧ s.dev.state = .service ∧ s.pair.handover = none) := by
  intro s
  exact by decide +kernel

theorem witness_drainWaits :
    let s : State := let s := fn 1 [] []; { s with boot := { s.boot with drain := some (0, .start) } }
    (s.boot.drain = some (0, .start) ∧ (0, s.slot 0) ∈ s.sq.slots ∧ (s.slot 0).owed = true) := by
  intro s
  exact by decide +kernel

/-! Graph requests. -/

/-- Slot 0 holds an admitted graph request whose node 0 is ready; core 0 waits at TAKE where `takes`, and is fenced off otherwise. -/
def graphState (takes : Bool) (commit : Option (Nat × Nat)) : State :=
  let s := fn 0x0A01 [] []
  { s with sq := { slots := [(0, { state := .admitted, req := 1, func := 0x0A01, block := some 0, commit := commit })],
                   takers := if takes then [0] else [], ready := [((s.queue 0).priority, [{ slot := 0, node := 0, block := 0 }])] },
           cores := { core := [(0, { stall := .take })] } }

theorem witness_graphNot :
    let s : State := graphState true (some (1, 1))
    (s.graphRuns 0 = false) := by
  intro s
  exact by decide +kernel

theorem witness_graphGiven :
    let s : State := graphState true none
    ∃ e : ReadyEntry, (s.graphRuns 0 = true ∧ (s.slot 0).live = true ∧ s.coresOf 0 = [] ∧ s.readyFor ((s.slot 0).block.getD 0) = some e ∧ e.slot = 0 ∧ s.taker ((s.slot 0).block.getD 0) = some 0) := by
  intro s
  exact ⟨{ slot := 0, node := 0, block := 0 }, by decide +kernel⟩

theorem witness_graphIdle :
    let s : State := graphState false none
    (s.graphRuns 0 = true ∧ (s.slot 0).live = true ∧ (graphAdvance s 0).isNone = true) := by
  intro s
  exact by decide +kernel

/-- Core 0 runs node 0 of the request of slot 0, issues no more bundles, and has one access left to perform. -/
def graphAccess (addr : Nat) (op : AccessOp) : State :=
  let s := graphState false none
  { s with sq := { s.sq with ready := [] },
           cores := { core := [(0, { task := some { slot := 0, node := 0, req := 1 }, stall := .halted,
                                     accesses := [{ due := 1, ready := 1, addr := addr, op := op, pc := 0, computed := false }] })] } }

theorem witness_graphOneThing :
    let s : State := graphAccess 0 (.bitWrite true)
    (s.graphRuns 0 = true ∧ (s.slot 0).live = true ∧ (graphAdvance s 0).isSome = true ∧ ((graphAdvance s 0).map (fun q => (graphAdvance q 0).isNone)) = some true) := by
  intro s
  exact by decide +kernel

theorem witness_graphCommits :
    let s : State := graphAccess 0x20 (.ioWrite 8 0)
    (s.graphRuns 0 = true ∧ (s.slot 0).live = true ∧ (graphAdvance s 0).isSome = true ∧ ((graphAdvance s 0).map (fun q => (q.slot 0).commit.isSome)) = some true) := by
  intro s
  exact by decide +kernel


end Sys2Proof.Tests
end

section
/-! SUPPORT. Chapter 01 (family 01_device_architecture): what the compute-die reset clears, what the bookkeeping of a sensor
changes, and what a detection does; then the statements about power, calm sensors and detections. -/

namespace Sys2Proof.Machine

open Sys2Proof

/-! ### The compute die held in reset -/

/-- What the compute die held is cleared in `u`, and what the security die and the life cycle of `s` keep is kept. -/
def State.HeldCleared (s u : State) : Prop :=
  u.folio = {} ∧ u.sq = {} ∧ u.ks = {} ∧ u.cores = {} ∧ u.ports = [] ∧ u.srp = {} ∧ u.adm = {} ∧
    u.bn = {} ∧ u.bulk = {} ∧ u.pair = {} ∧ u.pwr = {} ∧ u.dual.sessions = [] ∧ u.boot.restart = none ∧ u.boot.running = none ∧
    u.vault.store = s.vault.store ∧ u.vault.batches = s.vault.batches ∧ u.tmp.share = s.tmp.share ∧ u.tmp.presence = s.tmp.presence ∧
    u.tmp.latch = s.tmp.latch ∧ u.lc.word0 = s.lc.word0 ∧ u.lc.word1 = s.lc.word1 ∧ u.dual.cards = s.dual.cards

/-- The compute-die reset of `s` with no start and no restart owed, and the device and recorder as the command leaves them. -/
def State.intoReset (s : State) (d : Dev) (x : Recorder) : State :=
  { s.computeReset with dev := d, boot := { s.computeReset.boot with restart := none, running := none }, recorder := x }

theorem State.intoReset_heldCleared (s : State) (d : Dev) (x : Recorder) : s.HeldCleared (s.intoReset d x) :=
  ⟨rfl, rfl, rfl, rfl, rfl, rfl, rfl, rfl, rfl, rfl, rfl, rfl, rfl, rfl, rfl, rfl, rfl, rfl, rfl, rfl, rfl, rfl⟩

/-- A falling reset pin outside SLEEP: the pin's own level is all that tells the two pins apart in the device. -/
theorem execResetAsserted_awake (s : State) (pin : ResetPin) (h : s.dev.state ≠ .sleep) :
    ∃ u, execResetAsserted pin s = .next u ∧ s.HeldCleared u ∧ u.dev.state = .reset ∧
      match pin with
      | .pwrGood => u.dev.pwrGood = false
      | .resetN => u.dev.resetN = false := by
  unfold execResetAsserted
  simp only [if_neg h]
  refine ⟨_, rfl, s.intoReset_heldCleared _ _, rfl, ?_⟩
  cases pin <;> rfl

theorem execResetAsserted_sleep (s : State) (pin : ResetPin) (h : s.dev.state = .sleep) :
    ∃ u, execResetAsserted pin s = .next u ∧ u = { s with dev := u.dev, recorder := u.recorder } ∧ u.dev.state = .sleep := by
  unfold execResetAsserted
  simp only [if_pos h]
  refine ⟨_, rfl, rfl, ?_⟩
  cases pin <;> exact h

theorem execMainRailsRemoved_vsec (s : State) (h : s.dev.state ≠ .sleep) (hv : s.dev.vsec = true) :
    ∃ u, execMainRailsRemoved s = .next u ∧ s.HeldCleared u ∧ u.dev.state = .sleep ∧ u.dev.mainRails = false ∧
      u.dev.pwrGood = false ∧ u.recorder.storedSeconds = s.recorder.seconds := by
  unfold execMainRailsRemoved
  rw [if_neg h, if_neg (not_not.2 hv)]
  exact ⟨_, rfl, s.intoReset_heldCleared _ _, rfl, rfl, rfl, rfl⟩

theorem execMainRailsRemoved_noVsec (s : State) (h : s.dev.state ≠ .sleep) (hv : s.dev.vsec = false) :
    ∃ u, execMainRailsRemoved s = .next u ∧ s.HeldCleared u ∧ u.dev.state = .reset ∧ u.dev.mainRails = false ∧
      u.recorder.storedSeconds = s.recorder.storedSeconds := by
  unfold execMainRailsRemoved
  rw [if_neg h, if_pos (by simp [hv])]
  exact ⟨_, rfl, s.intoReset_heldCleared _ _, rfl, rfl, rfl⟩

theorem execMainRailsPresent_sleep (s : State) (h : s.dev.state = .sleep) :
    ∃ u, execMainRailsPresent s = .next u ∧ u.dev.state = .reset ∧ u.dev.mainRails = true ∧ u.dev.pwrGood = true ∧
      u = { s with dev := u.dev } := by
  unfold execMainRailsPresent
  simp only [if_pos h]
  exact ⟨_, rfl, rfl, rfl, rfl, rfl⟩

theorem execMainRailsPresent_awake (s : State) (h : s.dev.state ≠ .sleep) :
    ∃ u, execMainRailsPresent s = .next u ∧ u.dev.state = s.dev.state ∧ u.dev.mainRails = true ∧ u = { s with dev := u.dev } := by
  unfold execMainRailsPresent
  simp only [if_neg h]
  exact ⟨_, rfl, rfl, rfl, rfl⟩

theorem execVidValid_eq (s : State) :
    execVidValid s = .next (if s.dev.vsec = true then { s with dev := { s.dev with vidValid := true } } else s) := by
  unfold execVidValid
  split <;> rfl

theorem execCrystalStop_eq (s : State) :
    execCrystalStop s = .next (if s.dev.vsec = true then { s with tmp := { s.tmp with internalOsc := true } } else s) := by
  unfold execCrystalStop State.watches
  split <;> rfl

/-- Settles O49: each command of the pins, the rails and the always-on domain by its own lemma above. -/
theorem powerAndReset : Obligations.PowerAndReset := by
  intro s cleared
  refine ⟨fun h => ⟨?_, ?_, execMainRailsRemoved_vsec s h, execMainRailsRemoved_noVsec s h⟩,
    fun h => ⟨fun pin => execResetAsserted_sleep s pin h, execMainRailsPresent_sleep s h⟩, execMainRailsPresent_awake s,
    ⟨_, rfl, rfl, rfl, rfl, rfl, rfl, rfl, rfl⟩, fun h => ⟨?_, ?_⟩, fun h => ⟨?_, ?_⟩⟩
  · exact execResetAsserted_awake s .pwrGood h
  · exact execResetAsserted_awake s .resetN h
  · exact (execVidValid_eq s).trans (by rw [if_pos h])
  · exact (execCrystalStop_eq s).trans (by rw [if_pos h])
  · exact (execVidValid_eq s).trans (by simp [h])
  · exact (execCrystalStop_eq s).trans (by simp [h])

/-! ### The condition of a sensor (TMP_ACTIVE) -/

/-- The mask of sensor `n` has bit `n` alone. -/
theorem sensorBit_getLsbD (n : Nat) {m : Nat} (hm : m < 29) : (BitVec.ofNat 29 (2 ^ n)).getLsbD m = decide (n = m) := by
  rw [BitVec.getLsbD_ofNat, Nat.testBit_two_pow, decide_eq_true hm, Bool.true_and]

/-- Marking a sensor's condition writes that sensor's bit of TMP_ACTIVE alone. -/
theorem setActive_active (s : State) (n : Nat) (v : Bool) {m : Nat} (hm : m < 29) :
    (setActive s n v).tmp.active.getLsbD m = if n = m then v else s.tmp.active.getLsbD m := by
  unfold setActive
  cases v
  · simp only [Bool.false_eq_true, if_false, BitVec.getLsbD_and, BitVec.getLsbD_not, sensorBit_getLsbD n hm, hm]
    split_ifs <;> simp_all
  · simp only [if_true, BitVec.getLsbD_or, sensorBit_getLsbD n hm]
    split_ifs <;> simp_all

@[simp] theorem setActive_counters (s : State) (n : Nat) (v : Bool) : (setActive s n v).tmp.counters = s.tmp.counters := rfl
@[simp] theorem setActive_runs (s : State) (n : Nat) (v : Bool) : (setActive s n v).tmp.runs = s.tmp.runs := rfl
@[simp] theorem State.tmpCnt_runs (s : State) (k n : Nat) : (s.tmpCnt k n).tmp.runs = s.tmp.runs := rfl

/-- A condition that does not hold is marked so, and detects nothing. -/
theorem judge_false (s : State) (n : Nat) (data : BitVec 16) : judge s n false data = setActive s n false := by
  simp [judge]

/-- A condition that begins to hold is a detection. -/
theorem judge_begins (s : State) (n : Nat) (data : BitVec 16) (h : s.tmp.active.getLsbD n = false) :
    judge s n true data = detect (setActive s n true) n data := by
  simp [judge, State.activeSensor, h]

theorem filterSamples_pos (f : Nat) : 0 < filterSamples f := by
  unfold filterSamples
  split_ifs <;> decide

/-! ### Temperatures -/

/-- An event raised, as a write of the recorder alone. -/
theorem State.raise_eq (s : State) (code source tenant : Nat) (data : Bytes) :
    s.raise code source tenant data = { s with recorder := (s.raise code source tenant data).recorder } := by
  obtain ⟨x, h⟩ := s.raise_changes_recorder code source tenant data
  rw [h]

/-- Writing `f k` at each key `k < n` of a canonical table keeps it canonical, and each of these keys reads what was written. -/
theorem tabGet_foldl_put {α : Type} [DecidableEq α] {d : α} {m : List (Nat × α)} (h : tabWf d m = true) (f : Nat → α) (n : Nat) :
    let t := (List.range n).foldl (fun m k => tabPut d m k (f k)) m
    tabWf d t = true ∧ ∀ k, k < n → tabGet d t k = f k := by
  induction n with
  | zero => exact ⟨h, fun k hk => absurd hk (Nat.not_lt_zero k)⟩
  | succ n ih =>
    obtain ⟨hwf, hget⟩ := ih
    simp only [List.range_succ, List.foldl_append, List.foldl_cons, List.foldl_nil]
    refine ⟨tabWf_put hwf n (f n), fun k hk => ?_⟩
    rcases Nat.lt_succ_iff_lt_or_eq.1 hk with hlt | rfl
    · rw [tabGet_put_other d _ (f n) (Nat.ne_of_lt hlt), hget k hlt]
    · exact tabGet_put_same hwf k (f k)

/-- The thermal part of a reading changes the power registers and the recorder alone, and gives the state of R478. -/
theorem thermalUpdate_changes (s : State) (r : List Int) :
    ∃ p x, thermalUpdate s r = { s with pwr := p, recorder := x } ∧ p.thermal = thermalNext s.pwr.thermal s.pwr.warmAt r := by
  unfold thermalUpdate
  dsimp only
  generalize (if s.pwr.tmax.toInt < (hottest r 0 (0, -32768)).2 then BitVec.ofInt 16 (hottest r 0 (0, -32768)).2 else s.pwr.tmax) = top
  split_ifs
  · exact ⟨_, _, rfl, rfl⟩
  all_goals
    rw [State.raise_eq]
    exact ⟨_, _, rfl, rfl⟩

/-- A reading of 150.0 °C or more is hot (R478). -/
theorem thermalNext_hot {now : Nat} {warmAt : Int} {r : List Int} {t : Int} (hmem : t ∈ r) (ht : 2400 ≤ t) :
    thermalNext now warmAt r = 2 := by
  unfold thermalNext
  rw [if_pos (List.any_eq_true.2 ⟨t, hmem, decide_eq_true ht⟩)]

/-- The state of a reading before TEMP_LOW and TEMP_HIGH are judged: the temperatures kept and the thermal state updated. -/
def State.withTemps (s : State) (ts : List (BitVec 16)) : State :=
  thermalUpdate { s with tmp := { s.tmp with temps := (List.range ts.length).foldl (fun m k => tabPut 0 m k (ts.getD k 0)) s.tmp.temps } }
    (ts.map (fun t => t.toInt))

theorem State.withTemps_changes (s : State) (ts : List (BitVec 16)) :
    ∃ m p x, s.withTemps ts = { s with tmp := { s.tmp with temps := m }, pwr := p, recorder := x } ∧
      (tabWf 0 s.tmp.temps = true → ∀ k, k < ts.length → tabGet 0 m k = ts.getD k 0) ∧
      ((∃ t ∈ ts, 2400 ≤ t.toInt) → p.thermal = 2) := by
  obtain ⟨p, x, hu, hp⟩ := thermalUpdate_changes
    { s with tmp := { s.tmp with temps := (List.range ts.length).foldl (fun m k => tabPut 0 m k (ts.getD k 0)) s.tmp.temps } }
    (ts.map (fun t => t.toInt))
  refine ⟨_, p, x, hu, fun hwf => (tabGet_foldl_put hwf _ _).2, ?_⟩
  rintro ⟨t, hmem, ht⟩
  rw [hp, thermalNext_hot (List.mem_map_of_mem hmem) ht]

/-- TEMP_READING with the main rails up: the readings are kept, then TEMP_LOW and TEMP_HIGH are judged in this order. -/
theorem execTempReading_judges (s : State) (t0 t1 t2 t3 t4 : BitVec 16) (hv : s.dev.vsec = true) (hm : s.dev.mainRails = true) :
    let r := [t0, t1, t2, t3, t4].map (fun t => t.toInt)
    let low := fun (t : Int) => decide (t < -800)
    let high := fun (t : Int) => decide (2640 < t)
    execTempReading t0 t1 t2 t3 t4 s = .next (judge (judge (s.withTemps [t0, t1, t2, t3, t4]) 23 (r.any low) (BitVec.ofNat 16 (r.findIdx low)))
      24 (r.any high) (BitVec.ofNat 16 (r.findIdx high))) := by
  simp only [execTempReading, State.watches, State.withTemps, hv, hm, not_true_eq_false, if_false, if_true]

/-! ### Commands that detect nothing -/

/-- `u` has the device state, the latch, the battery-backed RAM, the alerts, the captures, the key store and the Square of `s`. -/
def State.Calm (s u : State) : Prop :=
  u.dev.state = s.dev.state ∧ u.tmp.latch = s.tmp.latch ∧ u.tmp.share = s.tmp.share ∧ u.tmp.presence = s.tmp.presence ∧
    u.tmp.alerts = s.tmp.alerts ∧ u.tmp.captures = s.tmp.captures ∧ u.ks = s.ks ∧ u.sq = s.sq

/-- Marking one more condition keeps a state calm. -/
theorem State.Calm.setActive {s u : State} (h : s.Calm u) (n : Nat) (v : Bool) : s.Calm (setActive u n v) := h

/-- Marking one more condition keeps a state one that changed the tamper block alone. -/
theorem setActive_changes_tmp {s u : State} (h : u = { s with tmp := u.tmp }) (n : Nat) (v : Bool) :
    setActive u n v = { s with tmp := (setActive u n v).tmp } :=
  congrArg (fun w => Machine.setActive w n v) h

/-- COVER_MESH_PATROL without a difference counts and marks the four nets inactive. -/
theorem execCoverMeshPatrol_same (s : State) (hv : s.dev.vsec = true) :
    execCoverMeshPatrol 0 0 0 0 s =
      .next (setActive (setActive (setActive (setActive (s.tmpCnt 0 1) 0 false) 1 false) 2 false) 3 false) := by
  simp [execCoverMeshPatrol, State.watches, hv]

theorem execEncMeshPatrol_same (s : State) (k : Nat) (hv : s.dev.vsec = true) (hk : k < 2) :
    execEncMeshPatrol k 0 s = .next (setActive (s.tmpCnt 0 1) (4 + k) false) := by
  simp [execEncMeshPatrol, State.watches, hv, hk]

/-- The runs of the switches with that of switch `k` at `n`. -/
def State.putRun (s : State) (k n : Nat) : State := { s with tmp := { s.tmp with runs := tabPut 0 s.tmp.runs k n } }

@[simp] theorem State.putRun_runs (s : State) (k n : Nat) : (s.putRun k n).tmp.runs = tabPut 0 s.tmp.runs k n := rfl

theorem execSwitchSample_inactive (s : State) (k : Nat) (hv : s.dev.vsec = true) (hk : k < 8) :
    execSwitchSample k (!s.tmp.level.getLsbD k) s = .next (setActive (s.putRun k 0) (6 + k) false) := by
  have hpos := filterSamples_pos (tabGet 0 s.tmp.filter k % 4)
  simp [execSwitchSample, State.watches, hv, Nat.not_le.2 hk, hpos.ne, judge_false, State.putRun]

/-- A sample at the active level advances the run; short of the filter's count it is counted and detects nothing. -/
theorem execSwitchSample_short (s : State) (k : Nat) (hv : s.dev.vsec = true) (hk : k < 8)
    (hshort : tabGet 0 s.tmp.runs k + 1 < filterSamples (tabGet 0 s.tmp.filter k % 4)) :
    execSwitchSample k (s.tmp.level.getLsbD k) s =
      .next (setActive ((s.putRun k (tabGet 0 s.tmp.runs k + 1)).tmpCnt 3 1) (6 + k) false) := by
  simp [execSwitchSample, State.watches, hv, Nat.not_le.2 hk, Nat.min_eq_right hshort.le, hshort, hshort.ne, judge_false, State.putRun]

/-- A sample at the active level that reaches the filter's count is judged with the condition holding. -/
theorem execSwitchSample_full (s : State) (k : Nat) (hv : s.dev.vsec = true) (hk : k < 8)
    (hfull : filterSamples (tabGet 0 s.tmp.filter k % 4) ≤ tabGet 0 s.tmp.runs k + 1) :
    execSwitchSample k (s.tmp.level.getLsbD k) s =
      .next (judge (s.putRun k (filterSamples (tabGet 0 s.tmp.filter k % 4))) (6 + k) true (BitVec.ofNat 16 k)) := by
  simp [execSwitchSample, State.watches, hv, Nat.not_le.2 hk, Nat.min_eq_left hfull, State.putRun]

theorem execLight_eq (s : State) (d : Nat) (v : Bool) (hv : s.dev.vsec = true) :
    execLight d v s = .next (judge s 25 v (BitVec.ofNat 16 d)) := if_pos hv
theorem execLaser_eq (s : State) (d : Nat) (v : Bool) (hv : s.dev.vsec = true) :
    execLaser d v s = .next (judge s 26 v (BitVec.ofNat 16 d)) := if_pos hv
theorem execEm_eq (s : State) (d : Nat) (v : Bool) (hv : s.dev.vsec = true) :
    execEm d v s = .next (judge s 27 v (BitVec.ofNat 16 d)) := if_pos hv

/-- Marking a condition as ended changes that bit of TMP_ACTIVE alone. -/
theorem setActive_false_calm (s : State) (n : Nat) (hn : n < 29) :
    s.Calm (setActive s n false) ∧ (setActive s n false).tmp.active.getLsbD n = false ∧
      setActive s n false = { s with tmp := (setActive s n false).tmp } :=
  ⟨⟨rfl, rfl, rfl, rfl, rfl, rfl, rfl, rfl⟩, by rw [setActive_active s n false hn, if_pos rfl], rfl⟩

/-- Temperatures inside both limits are kept and clear both conditions. -/
theorem execTempReading_inLimits (s : State) (t0 t1 t2 t3 t4 : BitVec 16) (hv : s.dev.vsec = true) (hm : s.dev.mainRails = true)
    (hin : ∀ t ∈ [t0, t1, t2, t3, t4], -800 ≤ t.toInt ∧ t.toInt ≤ 2640) :
    execTempReading t0 t1 t2 t3 t4 s = .next (setActive (setActive (s.withTemps [t0, t1, t2, t3, t4]) 23 false) 24 false) := by
  have hlow : ([t0, t1, t2, t3, t4].map (fun t => t.toInt)).any (fun t => decide (t < -800)) = false := by
    simpa using fun t ht => (hin t ht).1
  have hhigh : ([t0, t1, t2, t3, t4].map (fun t => t.toInt)).any (fun t => decide (2640 < t)) = false := by
    simpa using fun t ht => (hin t ht).2
  rw [execTempReading_judges s t0 t1 t2 t3 t4 hv hm, hlow, hhigh, judge_false, judge_false]

/-- The next count of a direction of the gutter link (R14). -/
def State.gutterWant (s : State) (toCompute : Bool) : Nat := if toCompute then s.dev.gutterTx else s.dev.gutterRx

theorem execGutterFrameReceive_opens (s : State) (toCompute : Bool) (frame : Bytes) (hk : s.dev.gutterKeyed = true)
    (hlen : 16 ≤ frame.length)
    (hopen : (gcmOpen (slice s.dev.gutterKey (if toCompute then 0 else 32) 32) (beBytes 12 (s.gutterWant toCompute)) []
      (frame.take (frame.length - 16)) (frame.drop (frame.length - 16))).isSome = true) :
    execGutterFrameReceive toCompute (s.gutterWant toCompute) frame s =
      .next { s with dev := if toCompute then { s.dev with gutterTx := s.gutterWant toCompute + 1 }
                            else { s.dev with gutterRx := s.gutterWant toCompute + 1 } } := by
  unfold execGutterFrameReceive
  rw [if_neg (not_not.2 hk)]
  exact if_pos ⟨hlen, rfl, hopen⟩

/-- A frame of a count that is not the next of its direction is a detection. -/
theorem execGutterFrameReceive_count (s : State) (toCompute : Bool) (count : Nat) (frame : Bytes) (hk : s.dev.gutterKeyed = true)
    (hc : count ≠ s.gutterWant toCompute) :
    execGutterFrameReceive toCompute count frame s = .next (detect s 28 (BitVec.ofNat 16 (bit toCompute))) := by
  unfold execGutterFrameReceive
  rw [if_neg (not_not.2 hk)]
  exact if_neg fun h => hc h.2.1

/-- Settles O50: each command that detects nothing is a write of sensor bookkeeping alone. -/
theorem sensorsWithoutDetection : Obligations.SensorsWithoutDetection := by
  intro s hv calm
  refine ⟨?mesh, ?enc, ?switch, ?probes, ?temps, ?gutter⟩
  case mesh =>
    have hcalm : s.Calm (s.tmpCnt 0 1) := ⟨rfl, rfl, rfl, rfl, rfl, rfl, rfl, rfl⟩
    have htmp : s.tmpCnt 0 1 = { s with tmp := (s.tmpCnt 0 1).tmp } := rfl
    refine ⟨_, execCoverMeshPatrol_same s hv, (((hcalm.setActive 0 _).setActive 1 _).setActive 2 _).setActive 3 _, ?_, fun k hk => ?_,
      setActive_changes_tmp (setActive_changes_tmp (setActive_changes_tmp (setActive_changes_tmp htmp 0 _) 1 _) 2 _) 3 _⟩
    · simp only [setActive_counters]
      rfl
    have h29 : k < 29 := by omega
    simp only [setActive_active _ _ _ h29]
    split_ifs
    · rfl
    · rfl
    · rfl
    · rfl
    · omega
  case enc =>
    intro k hk
    exact ⟨_, execEncMeshPatrol_same s k hv hk, ⟨rfl, rfl, rfl, rfl, rfl, rfl, rfl, rfl⟩, rfl,
      (setActive_false_calm _ _ (by omega)).2.1, rfl⟩
  case switch =>
    intro k hk hwf
    constructor
    · refine ⟨_, execSwitchSample_inactive s k hv hk, ⟨rfl, rfl, rfl, rfl, rfl, rfl, rfl, rfl⟩, ?_,
        (setActive_false_calm _ _ (by omega)).2.1, rfl⟩
      rw [setActive_runs, State.putRun_runs, tabGet_put_same hwf]
    · intro hshort
      refine ⟨_, execSwitchSample_short s k hv hk hshort, ⟨rfl, rfl, rfl, rfl, rfl, rfl, rfl, rfl⟩, ?_, rfl, rfl⟩
      rw [setActive_runs, State.tmpCnt_runs, State.putRun_runs, tabGet_put_same hwf]
  case probes =>
    intro d p hp
    simp only [List.mem_cons, List.not_mem_nil, or_false] at hp
    rcases hp with rfl | rfl | rfl
    · exact ⟨_, (execLight_eq s d false hv).trans (by rw [judge_false]), setActive_false_calm s 25 (by decide)⟩
    · exact ⟨_, (execLaser_eq s d false hv).trans (by rw [judge_false]), setActive_false_calm s 26 (by decide)⟩
    · exact ⟨_, (execEm_eq s d false hv).trans (by rw [judge_false]), setActive_false_calm s 27 (by decide)⟩
  case temps =>
    intro t0 t1 t2 t3 t4 hm hwf hin
    obtain ⟨m, p, x, hu, hget, hhot⟩ := s.withTemps_changes [t0, t1, t2, t3, t4]
    refine ⟨_, execTempReading_inLimits s t0 t1 t2 t3 t4 hv hm hin, ?_⟩
    rw [hu]
    refine ⟨⟨rfl, rfl, rfl, rfl, rfl, rfl, rfl, rfl⟩, hget hwf, ?_, ?_, fun h0 => hhot ⟨t0, by simp, h0⟩, rfl⟩
    · rw [setActive_active _ 24 _ (by decide), if_neg (by decide), setActive_active _ 23 _ (by decide), if_pos rfl]
    · rw [setActive_active _ 24 _ (by decide), if_pos rfl]
  case gutter =>
    intro frame hk hlen body tag
    exact ⟨execGutterFrameReceive_opens s true frame hk hlen, execGutterFrameReceive_opens s false frame hk hlen⟩

/-! ### Detections -/

/-- The erase response of R397 and R402 in `u`: the device TAMPERED, the latch set, egress closed, the battery-backed RAM and the
compute die cleared, and, the latch of `s` having been clear, the sensor kept and the response counted. -/
def State.Erased (s u : State) (n : Nat) : Prop :=
  u.dev.state = .tampered ∧ u.tmp.latch = true ∧ u.tmp.egress = false ∧ u.tmp.share = [] ∧ u.tmp.presence = false ∧
    u.vault.heldSeq = 0 ∧ u.ks = {} ∧ u.sq = {} ∧ u.cores = {} ∧ u.ports = [] ∧
    (s.tmp.latch = false → u.tmp.sensor = n ∧ u.tmp.erases = s.tmp.erases + 1)

/-- The alert of R400 in `u`: the sensor's alert bit is set, and the device state, the latch and the battery-backed RAM stay. -/
def State.Alerted (s u : State) (n : Nat) : Prop :=
  u.tmp.alerts.getLsbD n = true ∧ u.dev.state = s.dev.state ∧ u.tmp.latch = s.tmp.latch ∧ u.tmp.share = s.tmp.share ∧
    u.tmp.presence = s.tmp.presence ∧ u.ks = s.ks ∧ u.sq = s.sq

/-- Sensor `n` of `s` has had the response that it is fixed or configured to have. -/
def State.Responded (s u : State) (n : Nat) : Prop :=
  (s.erases n = true → s.Erased u n) ∧ (s.erases n = false → s.Alerted u n)

@[simp] theorem keepCapture_latch (t : Tamper) (c : Capture) : (keepCapture t c).latch = t.latch := by
  unfold keepCapture
  split <;> rfl

/-- An erase response outside SLEEP, the latch clear. -/
theorem eraseResponse_erased (s : State) (n : Nat) (data : BitVec 16) (hs : s.dev.state ≠ .sleep) : s.Erased (eraseResponse s n data) n := by
  unfold eraseResponse
  simp only [if_neg hs]
  exact ⟨rfl, rfl, rfl, rfl, rfl, rfl, rfl, rfl, rfl, rfl, fun _ => ⟨rfl, rfl⟩⟩

/-- The compute-die reset of a state whose battery-backed RAM is cleared and whose latch is set, egress closed and TAMPERED
entered, has the erase response of R402. -/
theorem computeReset_erased {s u v : State} {n : Nat} (hl : s.tmp.latch = true) (hlatch : v.tmp.latch = true) (hshare : v.tmp.share = [])
    (hpresence : v.tmp.presence = false) (hheld : v.vault.heldSeq = 0) {x : Option Nat} {f : Nat}
    (hu : u = { v.computeReset with
      tmp := { v.computeReset.tmp with egress := false, latchedSecond := x },
      dev := { v.computeReset.dev with state := .tampered, entryFolio := f } }) : s.Erased u n := by
  subst hu
  exact ⟨rfl, hlatch, rfl, hshare, hpresence, hheld, rfl, rfl, rfl, rfl, fun h => absurd (hl.symm.trans h) (by decide)⟩

/-- A detection while the latch is set, outside SLEEP: whether or not its event is raised. -/
theorem detectLatched_erased (s : State) (n : Nat) (data : BitVec 16) (hs : s.dev.state ≠ .sleep) (hl : s.tmp.latch = true) :
    s.Erased (detectLatched s n data) n := by
  unfold detectLatched
  simp only [if_neg hs]
  refine computeReset_erased hl ?_ ?_ ?_ ?_ rfl
  all_goals split_ifs
  all_goals simp [State.clearBattery, State.tmpCnt, hl]

/-- A detection by an alerting sensor outside SLEEP: whether or not its event is raised. -/
theorem alert_alerted (s : State) (n : Nat) (data : BitVec 16) (hs : s.dev.state ≠ .sleep) (hn : n < 29) : s.Alerted (alert s n data) n := by
  have hbit : (s.tmp.alerts ||| BitVec.ofNat 29 (2 ^ n)).getLsbD n = true := by
    rw [BitVec.getLsbD_or, sensorBit_getLsbD n hn, decide_eq_true rfl, Bool.or_true]
  unfold alert
  simp only [if_neg hs]
  split_ifs
  · exact ⟨hbit, rfl, rfl, rfl, rfl, rfl, rfl⟩
  · rw [State.raise_eq]
    exact ⟨hbit, rfl, rfl, rfl, rfl, rfl, rfl⟩

/-- A detection outside SLEEP has the response of its sensor, whatever the latch. -/
theorem detect_responded (s : State) (n : Nat) (data : BitVec 16) (hs : s.dev.state ≠ .sleep) (hn : n < 29) :
    s.Responded (detect s n data) n := by
  constructor
  · intro he
    rw [detect, if_pos he]
    by_cases hl : s.tmp.latch = true
    · rw [if_pos hl]
      exact detectLatched_erased s n data hs hl
    · rw [if_neg hl]
      exact eraseResponse_erased s n data hs
  · intro he
    rw [detect, if_neg (by simp [he])]
    exact alert_alerted s n data hs hn

/-- What a command writes before it detects: `t` has of `s` all that the response of a sensor reads or keeps. -/
structure State.SameWatch (s t : State) : Prop where
  dev : t.dev = s.dev
  action : t.tmp.action = s.tmp.action
  latch : t.tmp.latch = s.tmp.latch
  share : t.tmp.share = s.tmp.share
  presence : t.tmp.presence = s.tmp.presence
  erases : t.tmp.erases = s.tmp.erases
  ks : t.ks = s.ks
  sq : t.sq = s.sq

theorem State.SameWatch.refl (s : State) : s.SameWatch s := ⟨rfl, rfl, rfl, rfl, rfl, rfl, rfl, rfl⟩

theorem State.SameWatch.setActive {s t : State} (h : s.SameWatch t) (n : Nat) (v : Bool) : s.SameWatch (setActive t n v) :=
  ⟨h.dev, h.action, h.latch, h.share, h.presence, h.erases, h.ks, h.sq⟩

theorem State.tmpCnt_sameWatch (s : State) (k n : Nat) : s.SameWatch (s.tmpCnt k n) := ⟨rfl, rfl, rfl, rfl, rfl, rfl, rfl, rfl⟩

theorem State.putRun_sameWatch (s : State) (k n : Nat) : s.SameWatch (s.putRun k n) := ⟨rfl, rfl, rfl, rfl, rfl, rfl, rfl, rfl⟩

theorem State.withTemps_sameWatch (s : State) (ts : List (BitVec 16)) : s.SameWatch (s.withTemps ts) := by
  obtain ⟨m, p, x, hu, -, -⟩ := s.withTemps_changes ts
  rw [hu]
  exact ⟨rfl, rfl, rfl, rfl, rfl, rfl, rfl, rfl⟩

/-- A response in a state with the same watch is the response of the state before it. -/
theorem State.SameWatch.responded {s t u : State} {n : Nat} (h : s.SameWatch t) (hr : t.Responded u n) : s.Responded u n := by
  simpa only [State.Responded, State.Erased, State.Alerted, State.erases, h.dev, h.action, h.latch, h.share, h.presence, h.erases,
    h.ks, h.sq] using hr

/-- Marking a condition after a response leaves the response as it is. -/
theorem State.Responded.setActive {s u : State} {n : Nat} (h : s.Responded u n) (m : Nat) (v : Bool) :
    s.Responded (setActive u m v) n := h

/-- A detection in a state with the same watch as `s`, outside SLEEP, is a response of `s`. -/
theorem State.SameWatch.detect_responded {s t : State} (h : s.SameWatch t) (hs : s.dev.state ≠ .sleep) (n : Nat) (data : BitVec 16)
    (hn : n < 29) : s.Responded (detect t n data) n :=
  h.responded (Machine.detect_responded t n data (h.dev ▸ hs) hn)

/-- A condition that begins to hold in a state with the same watch as `s`, outside SLEEP, is a response of `s`. -/
theorem State.SameWatch.judge_responded {s t : State} (h : s.SameWatch t) (hs : s.dev.state ≠ .sleep) (n : Nat) (data : BitVec 16)
    (hn : n < 29) (hbegins : t.tmp.active.getLsbD n = false) : s.Responded (judge t n true data) n := by
  rw [judge_begins t n data hbegins]
  exact (h.setActive n true).detect_responded hs n data hn

/-- The state of a patrol of `nets` before it detects: counted, each net's condition marked. -/
def State.patrolled (s : State) (nets : List (Nat × BitVec 64)) : State :=
  nets.foldl (fun s p => setActive s p.1 (p.2 != 0)) (s.tmpCnt 0 1)

theorem State.patrolled_sameWatch (s : State) (nets : List (Nat × BitVec 64)) : s.SameWatch (s.patrolled nets) :=
  List.foldlRecOn nets _ (s.tmpCnt_sameWatch 0 1) fun _ h p _ => h.setActive p.1 (p.2 != 0)

/-! ### Commands that detect -/

section Detecting

variable {s : State} (hv : s.dev.vsec = true) (hs : s.dev.state ≠ .sleep)
include hv hs

/-- A patrol that finds one net different. -/
theorem execCoverMeshPatrol_responded {d0 d1 d2 d3 d : BitVec 64} {n : Nat} (hn : n < 29)
    (hone : [(0, d0), (1, d1), (2, d2), (3, d3)].filter (fun p => p.2 != 0) = [(n, d)]) :
    ∃ u, execCoverMeshPatrol d0 d1 d2 d3 s = .next u ∧ s.Responded u n := by
  refine ⟨detect (s.patrolled [(0, d0), (1, d1), (2, d2), (3, d3)]) n (BitVec.ofNat 16 n), ?_,
    (s.patrolled_sameWatch _).detect_responded hs n _ hn⟩
  unfold execCoverMeshPatrol State.watches
  rw [if_neg (not_not.2 hv)]
  simp only [hone, List.foldl_cons (l := []), List.foldl_nil]
  rfl

theorem execEncMeshPatrol_responded {k : Nat} {d : BitVec 64} (hk : k < 2) (hd : d ≠ 0) :
    ∃ u, execEncMeshPatrol k d s = .next u ∧ s.Responded u (4 + k) := by
  refine ⟨_, ?_, ((s.tmpCnt_sameWatch 0 1).setActive (4 + k) true).detect_responded hs (4 + k) (BitVec.ofNat 16 k) (by omega)⟩
  unfold execEncMeshPatrol State.watches
  rw [if_neg (by simp [hv, hk])]
  simp only [bne_iff_ne.2 hd, if_true]

theorem execSwitchSample_responded {k : Nat} (hk : k < 8) (hbegins : s.tmp.active.getLsbD (6 + k) = false)
    (hfull : filterSamples (tabGet 0 s.tmp.filter k % 4) ≤ tabGet 0 s.tmp.runs k + 1) :
    ∃ u, execSwitchSample k (s.tmp.level.getLsbD k) s = .next u ∧ s.Responded u (6 + k) :=
  ⟨_, execSwitchSample_full s k hv hk hfull, (s.putRun_sameWatch k _).judge_responded hs (6 + k) _ (by omega) hbegins⟩

omit hv in
/-- A detection that a command reports at once. -/
theorem detect_next_responded {o : Host.Outcome State Fault Refusal} {n : Nat} {data : BitVec 16} (hn : n < 29)
    (ho : o = .next (detect s n data)) : ∃ u, o = .next u ∧ s.Responded u n :=
  ⟨_, ho, detect_responded s n data hs hn⟩

omit hv in
/-- A condition that a command reports as holding, and that did not hold before. -/
theorem judge_next_responded {o : Host.Outcome State Fault Refusal} {n : Nat} {data : BitVec 16} (hn : n < 29)
    (hbegins : s.tmp.active.getLsbD n = false) (ho : o = .next (judge s n true data)) : ∃ u, o = .next u ∧ s.Responded u n :=
  ⟨_, ho, (State.SameWatch.refl s).judge_responded hs n data hn hbegins⟩

theorem execVmonExcursion_responded {r : Nat} (above : Bool) (hp : s.dev.pwrGood = true) (hm : s.dev.mainRails = true) (hr : r < 6) :
    ∃ u, execVmonExcursion r above s = .next u ∧ s.Responded u (14 + r) := by
  refine detect_next_responded hs (data := BitVec.ofNat 16 (bit above)) (by omega) ?_
  unfold execVmonExcursion
  by_cases h5 : r = 5
  · rw [if_pos h5, h5]
  · rw [if_neg h5, if_pos ⟨by omega, hv, hp, hm⟩]

theorem execSupplyGlitch_responded {w : Nat} (hm : s.dev.mainRails = true) (hw : w < 2) :
    ∃ u, execSupplyGlitch w s = .next u ∧ s.Responded u 20 := by
  refine detect_next_responded hs (data := BitVec.ofNat 16 w) (by decide) ?_
  have hwatched : w = 1 ∨ (w = 0 ∧ s.dev.mainRails = true) := (show w = 1 ∨ w = 0 by omega).imp_right fun h => ⟨h, hm⟩
  unfold execSupplyGlitch
  rw [if_pos ⟨hv, hwatched⟩]

omit hs in
theorem clocksArmed_of_folioRuns (hm : s.dev.mainRails = true) (hf : s.folioRuns = true) : s.clocksArmed = true := by
  simp [State.clocksArmed, State.watches, hv, hm, hf]

/-- A clock outside its range, once the clock sensors are armed. -/
theorem execClockFreq_responded {which khz : Nat} (hm : s.dev.mainRails = true) (hf : s.folioRuns = true)
    (hout : (which = 0 ∧ (khz < 95000 ∨ 105000 < khz)) ∨ (which = 1 ∧ (khz < 1520000 ∨ 1680000 < khz))) :
    ∃ u, execClockFreq which khz s = .next u ∧ s.Responded u 21 := by
  refine detect_next_responded hs (by decide) (if_pos ⟨clocksArmed_of_folioRuns hv hm hf, ?_⟩)
  rcases hout with ⟨rfl, h⟩ | ⟨rfl, h⟩ <;> simp [h]

theorem execClockGlitch_responded {w : Nat} (hm : s.dev.mainRails = true) (hf : s.folioRuns = true) (hw : w < 2) :
    ∃ u, execClockGlitch w s = .next u ∧ s.Responded u 22 :=
  detect_next_responded hs (by decide) (if_pos ⟨clocksArmed_of_folioRuns hv hm hf, hw⟩)

/-- The security die's reading below its limit, the others inside theirs: TEMP_LOW detects, then TEMP_HIGH does not. -/
theorem execTempReading_low {t0 t1 t2 t3 t4 : BitVec 16} (hm : s.dev.mainRails = true)
    (hrest : ∀ t ∈ [t1, t2, t3, t4], -800 ≤ t.toInt ∧ t.toInt ≤ 2640) (hbegins : s.tmp.active.getLsbD 23 = false)
    (h0 : t0.toInt < -800) : ∃ u, execTempReading t0 t1 t2 t3 t4 s = .next u ∧ s.Responded u 23 := by
  have hlow : ([t0, t1, t2, t3, t4].map (fun t => t.toInt)).any (fun t => decide (t < -800)) = true := by
    simp [h0]
  have hhigh : ([t0, t1, t2, t3, t4].map (fun t => t.toInt)).any (fun t => decide (2640 < t)) = false := by
    simp only [List.map_cons, List.any_cons, decide_eq_false (show ¬ 2640 < t0.toInt by omega), Bool.false_or]
    simpa using fun t ht => (hrest t ht).2
  refine ⟨_, execTempReading_judges s t0 t1 t2 t3 t4 hv hm, ?_⟩
  rw [hlow, hhigh, judge_false]
  refine State.Responded.setActive ?_ 24 false
  obtain ⟨m, p, x, hu, -, -⟩ := s.withTemps_changes [t0, t1, t2, t3, t4]
  exact (s.withTemps_sameWatch _).judge_responded hs 23 _ (by decide) (by rw [hu]; exact hbegins)

/-- The security die's reading above its limit, the others inside theirs: TEMP_LOW does not detect, then TEMP_HIGH does. -/
theorem execTempReading_high {t0 t1 t2 t3 t4 : BitVec 16} (hm : s.dev.mainRails = true)
    (hrest : ∀ t ∈ [t1, t2, t3, t4], -800 ≤ t.toInt ∧ t.toInt ≤ 2640) (hbegins : s.tmp.active.getLsbD 24 = false)
    (h0 : 2640 < t0.toInt) : ∃ u, execTempReading t0 t1 t2 t3 t4 s = .next u ∧ s.Responded u 24 := by
  have hlow : ([t0, t1, t2, t3, t4].map (fun t => t.toInt)).any (fun t => decide (t < -800)) = false := by
    simp only [List.map_cons, List.any_cons, decide_eq_false (show ¬ t0.toInt < -800 by omega), Bool.false_or]
    simpa using fun t ht => (hrest t ht).1
  have hhigh : ([t0, t1, t2, t3, t4].map (fun t => t.toInt)).any (fun t => decide (2640 < t)) = true := by
    simp [h0]
  refine ⟨_, execTempReading_judges s t0 t1 t2 t3 t4 hv hm, ?_⟩
  rw [hlow, hhigh, judge_false]
  obtain ⟨m, p, x, hu, -, -⟩ := s.withTemps_changes [t0, t1, t2, t3, t4]
  refine ((s.withTemps_sameWatch _).setActive 23 false).judge_responded hs 24 _ (by decide) ?_
  rw [setActive_active _ 23 _ (by decide), if_neg (by decide), hu]
  exact hbegins

end Detecting

/-- Settles O51: each command that is a detection is a response of its sensor, by that command's lemma above. -/
theorem sensorsDetect : Obligations.SensorsDetect := by
  intro s hv hm hp hs begins inLimits detection c n hdet
  change ∃ u, exec c s = .next u ∧ s.Responded u n
  rcases hdet with ⟨d, hd, hmesh⟩ | ⟨k, hk, rfl, rfl, hbegins, hfull⟩ | ⟨r, above, hr, rfl, rfl⟩ | ⟨w, hw, rfl, rfl⟩ |
    ⟨hf, khz, hout, rfl, rfl⟩ | ⟨hf, khz, hout, rfl, rfl⟩ | ⟨hf, w, hw, rfl, rfl⟩ | ⟨d, hbegins, hprobe⟩ |
    ⟨t0, t1, t2, t3, t4, rfl, h1, h2, h3, h4, hbegins, htemp⟩ | ⟨hk, rfl, count, frame, hframe⟩
  · have hne : (d != 0) = true := bne_iff_ne.2 hd
    rcases hmesh with ⟨rfl, rfl⟩ | ⟨rfl, rfl⟩ | ⟨rfl, rfl⟩ | ⟨rfl, rfl⟩ | ⟨k, hk, rfl, rfl⟩
    · exact execCoverMeshPatrol_responded hv hs (d := d) (by decide) (by simp only [List.filter, hne]; rfl)
    · exact execCoverMeshPatrol_responded hv hs (d := d) (by decide) (by simp only [List.filter, hne]; rfl)
    · exact execCoverMeshPatrol_responded hv hs (d := d) (by decide) (by simp only [List.filter, hne]; rfl)
    · exact execCoverMeshPatrol_responded hv hs (d := d) (by decide) (by simp only [List.filter, hne]; rfl)
    · exact execEncMeshPatrol_responded hv hs hk hd
  · exact execSwitchSample_responded hv hs hk hbegins hfull
  · exact execVmonExcursion_responded hv hs above hp hm hr
  · exact execSupplyGlitch_responded hv hs hm hw
  · exact execClockFreq_responded hv hs hm hf (.inl ⟨rfl, hout⟩)
  · exact execClockFreq_responded hv hs hm hf (.inr ⟨rfl, hout⟩)
  · exact execClockGlitch_responded hv hs hm hf hw
  · rcases hprobe with ⟨rfl, rfl⟩ | ⟨rfl, rfl⟩ | ⟨rfl, rfl⟩
    · exact judge_next_responded hs (by decide) hbegins (execLight_eq s d true hv)
    · exact judge_next_responded hs (by decide) hbegins (execLaser_eq s d true hv)
    · exact judge_next_responded hs (by decide) hbegins (execEm_eq s d true hv)
  · have hrest : ∀ t ∈ [t1, t2, t3, t4], -800 ≤ t.toInt ∧ t.toInt ≤ 2640 := by
      simp only [List.forall_mem_cons]
      exact ⟨h1, h2, h3, h4, by simp⟩
    rcases htemp with ⟨h0, rfl⟩ | ⟨h0, rfl⟩
    · exact execTempReading_low hv hs hm hrest hbegins h0
    · exact execTempReading_high hv hs hm hrest hbegins h0
  · rcases hframe with ⟨hc, rfl⟩ | ⟨hc, rfl⟩
    · exact detect_next_responded hs (by decide) (execGutterFrameReceive_count s true count frame hk hc)
    · exact detect_next_responded hs (by decide) (execGutterFrameReceive_count s false count frame hk hc)

end Sys2Proof.Machine
end

section
/-! SUPPORT. Chapter 02 (family 02_folio_and_order), management: a range of registers read and written, the cases of a
commit, and the statement about the three functions. -/

namespace Sys2Proof.Machine

open Sys2Proof

/-! ### Register ranges -/

/-- A range of registers that passes the checks of R86. -/
theorem Fn.rangeOk_gives {p : Bytes} {len : Nat} (s : State) (hlen : p.length = len) (h1 : 1 ≤ fld p 4 2) (h256 : fld p 4 2 ≤ 256)
    (halign : fld p 0 4 % 4 = 0) (hdef : ∀ i, i < fld p 4 2 → undefinedAddr (fld p 0 4 + 4 * i) = false) :
    (Fn.rangeOk p len).gives s () s := by
  refine Fn.gives_bind (Fn.need_gives (decide_eq_true ⟨hlen, h1, h256⟩)) ?_
  refine Fn.gives_bind (Fn.need_gives (decide_eq_true halign)) (Fn.need_gives ?_)
  simpa using hdef

/-- The words of a range as MGMT_READ gathers them, each read acting on the state that the one before left. -/
def readStep (chan addr : Nat) (q : Bytes × State) (i : Nat) : Bytes × State :=
  let r := regRead q.2 chan (addr + 4 * i)
  (q.1 ++ beBytes 4 r.1, r.2)

/-- Reading a range without RNG_RANDOM reads its registers one after another. -/
theorem Fn.readRegs_gives (chan n addr : Nat) (s : State) (h : ∀ i, i < n → isRandomReg (addr + 4 * i) = false) :
    ∃ w t, (Fn.readRegs chan n addr).gives s w t ∧ ∀ acc, (List.range n).foldl (readStep chan addr) (acc, s) = (acc ++ w, t) := by
  induction n generalizing addr s with
  | zero => exact ⟨[], s, rfl, fun acc => by simp⟩
  | succ n ih =>
    obtain ⟨w, t, hw, hfold⟩ := ih (addr + 4) (regRead s chan addr).2 fun i hi => by
      simpa only [show addr + 4 + 4 * i = addr + 4 * (i + 1) by omega] using h (i + 1) (by omega)
    have hfirst : isRandomReg addr = false := h 0 (by omega)
    refine ⟨beBytes 4 (regRead s chan addr).1 ++ w, t, ?_, fun acc => ?_⟩
    · unfold Fn.readRegs
      rw [hfirst]
      exact Fn.gives_bind (Fn.act_gives (fun s => regRead s chan addr) s) (Fn.gives_bind hw (Fn.pure_gives _ t))
    · have hshift : (fun (q : Bytes × State) i => readStep chan addr q (i + 1)) = readStep chan (addr + 4) := by
        funext q i
        simp only [readStep, show addr + 4 * (i + 1) = addr + 4 + 4 * i by omega]
      rw [List.range_succ_eq_map, List.foldl_cons, List.foldl_map, hshift, ← List.append_assoc]
      exact hfold _

/-! ### The three functions -/

section Branches

variable {α : Type} {c : Prop} [Decidable c] {f g : Fn α} {s t : State} {a : α}

theorem Fn.gives_then (hc : c) (h : f.gives s a t) : Fn.gives (if c then f else g) s a t := by
  rwa [if_pos hc]

theorem Fn.gives_else (hc : ¬ c) (h : g.gives s a t) : Fn.gives (if c then f else g) s a t := by
  rwa [if_neg hc]

end Branches

theorem mgmtReadFn_gives {x : Slot} {s : State} (hlen : x.payload.length = 8) (h1 : 1 ≤ fld x.payload 4 2)
    (h256 : fld x.payload 4 2 ≤ 256) (halign : fld x.payload 0 4 % 4 = 0)
    (hdef : ∀ i, i < fld x.payload 4 2 → undefinedAddr (fld x.payload 0 4 + 4 * i) = false)
    (hrand : ∀ i, i < fld x.payload 4 2 → isRandomReg (fld x.payload 0 4 + 4 * i) = false) :
    let words := (List.range (fld x.payload 4 2)).foldl (readStep x.chan (fld x.payload 0 4)) ([], s)
    (mgmtReadFn x).gives s { result := words.1 } words.2 := by
  obtain ⟨w, t, hw, hfold⟩ := Fn.readRegs_gives x.chan (fld x.payload 4 2) (fld x.payload 0 4) s hrand
  have hnone : (List.range (fld x.payload 4 2)).any (fun i => isRandomReg (fld x.payload 0 4 + 4 * i)) = false := by
    simpa using hrand
  simp only [hfold [], List.nil_append]
  refine Fn.gives_bind (Fn.rangeOk_gives s hlen h1 h256 halign hdef) ?_
  simp only [hnone]
  exact Fn.gives_bind hw (Fn.done_gives w [] t)

theorem mgmtWriteFn_gives {x : Slot} {s : State} (hlen : x.payload.length = 8 + 4 * fld x.payload 4 2) (h1 : 1 ≤ fld x.payload 4 2)
    (h256 : fld x.payload 4 2 ≤ 256) (halign : fld x.payload 0 4 % 4 = 0)
    (hdef : ∀ i, i < fld x.payload 4 2 → undefinedAddr (fld x.payload 0 4 + 4 * i) = false)
    (hfree : ∀ g ∈ groupsOf (fld x.payload 0 4) (fld x.payload 4 2), (s.group g).state ≠ .armed) :
    (mgmtWriteFn x).gives s
      { effects := [.mgmtWrite (fld x.payload 0 4) ((chunks 4 (x.payload.drop 8)).map (fun w => fld w 0 4)) x.chan] } s := by
  refine Fn.gives_bind (Fn.rangeOk_gives s hlen h1 h256 halign hdef) (Fn.gives_bind (Fn.get_gives s) ?_)
  exact Fn.gives_bind (Fn.need_gives (by simpa using hfree)) (Fn.done_gives _ _ s)

section Commit

variable {k : Nat} {x : Slot} {s : State} (hlen : x.payload.length = 8) (h1 : 1 ≤ fld x.payload 0 1) (h4 : fld x.payload 0 1 ≤ 4)
  (hfree : (s.group (fld x.payload 0 1)).state ≠ .armed)
include hlen h1 h4 hfree

/-- MGMT_COMMIT of a known group that is not armed, past its first checks. -/
theorem mgmtCommitFn_discards (hflag : (fld x.payload 1 1).testBit 0 = true) :
    (mgmtCommitFn k x).gives s { result := zeros 12 } (s.putGroup (fld x.payload 0 1)
      { s.group (fld x.payload 0 1) with state := .clean, staged := [], writes := 0, lastRefused := false }) := by
  refine Fn.gives_bind (Fn.need_gives (decide_eq_true hlen)) (Fn.gives_bind (Fn.get_gives s) ?_)
  refine Fn.gives_else (show ¬ (fld x.payload 0 1 = 0 ∨ 5 ≤ fld x.payload 0 1) by omega) (Fn.gives_else hfree (Fn.gives_then hflag ?_))
  exact Fn.gives_bind (Fn.change_gives _ s) (Fn.done_gives _ _ _)

theorem mgmtCommitFn_clean (hflag : (fld x.payload 1 1).testBit 0 = false) (hclean : (s.group (fld x.payload 0 1)).state = .clean) :
    (mgmtCommitFn k x).gives s { result := zeros 12 } (s.putGroup (fld x.payload 0 1)
      { s.group (fld x.payload 0 1) with lastRefused := false }) := by
  refine Fn.gives_bind (Fn.need_gives (decide_eq_true hlen)) (Fn.gives_bind (Fn.get_gives s) ?_)
  have hcarried : ¬ (fld x.payload 1 1).testBit 0 = true := by simp [hflag]
  refine Fn.gives_else (show ¬ (fld x.payload 0 1 = 0 ∨ 5 ≤ fld x.payload 0 1) by omega)
    (Fn.gives_else hfree (Fn.gives_else hcarried (Fn.gives_then hclean ?_)))
  exact Fn.gives_bind (Fn.change_gives _ s) (Fn.done_gives _ _ _)

/-- The state in which MGMT_COMMIT leaves group `g` of `s` armed for `target` by the request in slot `k`. -/
def State.armGroup (s : State) (k g target : Nat) : State :=
  let u := s.putGroup g { s.group g with state := .armed, folio := target, lastRefused := false }
  let e : ArmedEffect := { folio := some target, slot := some k, effect := .commitGroup g }
  let v := { u with folio := { u.folio with effects := u.folio.effects ++ [e] } }
  if v.paired then v.journal 7 (configBody g target (s.group g).staged) else v

theorem mgmtCommitFn_arms {target : Nat} (hflag : (fld x.payload 1 1).testBit 0 = false)
    (hdirty : (s.group (fld x.payload 0 1)).state = .dirty)
    (htarget : target = if (fld x.payload 1 1).testBit 1 then fld x.payload 2 6 else folioAdd s.folio.now s.commitLead)
    (hearly : folioReached target (folioAdd s.folio.now s.commitLead) = true) (hfar : folioDiff target s.folio.now ≤ 2 ^ 20)
    (horder : ∀ h, h < 5 → (s.group h).state = .armed → folioReached target (s.group h).folio = true)
    (hrules : s.ruleFails (fld x.payload 0 1) = none) :
    (mgmtCommitFn k x).gives s { result := beBytes 6 target ++ zeros 6 } (s.armGroup k (fld x.payload 0 1) target) := by
  have hearlier : ((((List.range 5).filter (fun h => (s.group h).state == .armed)).map (fun h => (s.group h).folio)).any
      (fun f => !folioReached target f)) ≠ true := by
    intro hany
    obtain ⟨f, hf, hlate⟩ := List.any_eq_true.1 hany
    obtain ⟨h, hmem, rfl⟩ := List.mem_map.1 hf
    obtain ⟨hlt, harmed⟩ := List.mem_filter.1 hmem
    rw [horder h (List.mem_range.1 hlt) (eq_of_beq harmed)] at hlate
    exact absurd hlate (by decide)
  have hknown : ¬ (fld x.payload 0 1 = 0 ∨ 5 ≤ fld x.payload 0 1) := by omega
  have hnotClean : ¬ (s.group (fld x.payload 0 1)).state = .clean := by simp [hdirty]
  have hrange : ¬ (¬ folioReached target (folioAdd s.folio.now s.commitLead) = true ∨ 2 ^ 20 < folioDiff target s.folio.now) :=
    not_or.2 ⟨not_not.2 hearly, not_lt.2 hfar⟩
  have hcarried : ¬ (fld x.payload 1 1).testBit 0 = true := by simp [hflag]
  subst htarget
  refine Fn.gives_bind (Fn.need_gives (decide_eq_true hlen)) (Fn.gives_bind (Fn.get_gives s) ?_)
  refine Fn.gives_else hknown (Fn.gives_else hfree (Fn.gives_else hcarried (Fn.gives_else hnotClean ?_)))
  refine Fn.gives_else hrange (Fn.gives_else hearlier ?_)
  rw [hrules]
  exact Fn.gives_bind (Fn.change_gives _ s) (Fn.done_gives _ _ _)

end Commit

/-- A function command whose function ends, in a state where it may be computed. -/
theorem serveFn_gives {codes : Nat → Bool} {k : Nat} {s t : State} {r : FnRes} (f : Nat → Slot → Fn FnRes) (h : s.mayCompute k codes)
    (hf : (f k (s.asked k)).gives (s.computing k) r t) : serveFn codes f k s = s.ended k r t := by
  rw [serveFn_ended f h, State.endedBy, runFnOn_gives hf]

/-- Settles O25: each function gives what its lemma above says, and its command hands that over. -/
theorem managementFunctions : Obligations.ManagementFunctions := by
  intro s k x p t
  constructor
  · intro addr n h1 h256 halign hdef
    constructor
    · intro words hmay hlen hrand hwords
      subst hwords
      exact congrArg Host.Outcome.next (serveFn_gives _ hmay (mgmtReadFn_gives hlen h1 h256 halign hdef hrand))
    · intro hmay hlen hgroups
      exact congrArg Host.Outcome.next (serveFn_gives _ hmay (mgmtWriteFn_gives hlen h1 h256 halign hdef hgroups))
  · intro g flags y hmay hlen h1 h4 hfree
    refine ⟨?discards, ?clean, ?arms⟩
    case discards =>
      intro hflag
      exact congrArg Host.Outcome.next (serveFn_gives _ hmay (mgmtCommitFn_discards hlen h1 h4 hfree hflag))
    case clean =>
      intro hflag hclean
      exact congrArg Host.Outcome.next (serveFn_gives _ hmay (mgmtCommitFn_clean hlen h1 h4 hfree hflag hclean))
    case arms =>
      intro hflag hdirty early target hearly hfar horder hrules
      exact congrArg Host.Outcome.next
        (serveFn_gives _ hmay (mgmtCommitFn_arms hlen h1 h4 hfree hflag hdirty rfl hearly hfar horder hrules))

end Sys2Proof.Machine
end

section
/-! SUPPORT. What almost no operation changes: the device state, the folio's clock, the batches in the vault and the epoch
of the chain. Each operation that a tick, a stopped request or a change of the chain calls keeps them, in the order in
which the model defines it, each by the operations that it calls. A proof
`(rfl)` stands in parentheses so that `simp` takes the lemma for a rewriting step, not for a definitional unfolding. -/

namespace Sys2Proof.Machine

open Sys2Proof

/-- The device state and the folio's clock: its number, its delay tick and the ticks since release. -/
structure Pulse where
  state : DevState
  now : Nat
  delayTick : Nat
  ticks : Nat

/-- The pulse, the batches that the vault NVM holds, and the epoch of the chain. -/
structure Spine where
  pulse : Pulse
  batches : List VaultBatch
  epoch : Nat

def State.spine (s : State) : Spine :=
  ⟨⟨s.dev.state, s.folio.now, s.folio.delayTick, s.folio.ticks⟩, s.vault.batches, s.pair.epoch⟩

/-! The spine of a state written field by field, and of a state under a branch or a fold. -/

@[simp] theorem spine_mk (dev folio ports srp adm sq cores ks vault bn bulk rng dual lc tmp boot image pair recorder pmc pwr faults recovery
    readBack pending) :
    State.spine ⟨dev, folio, ports, srp, adm, sq, cores, ks, vault, bn, bulk, rng, dual, lc, tmp, boot, image, pair, recorder, pmc, pwr,
        faults, recovery, readBack, pending⟩ =
      ⟨⟨dev.state, folio.now, folio.delayTick, folio.ticks⟩, vault.batches, pair.epoch⟩ := rfl

@[simp] theorem spine_fold (s : State) :
    (⟨⟨s.dev.state, s.folio.now, s.folio.delayTick, s.folio.ticks⟩, s.vault.batches, s.pair.epoch⟩ : Spine) = s.spine := rfl

@[simp] theorem spine_ite (c : Prop) [Decidable c] (s t : State) : (if c then s else t).spine = if c then s.spine else t.spine :=
  apply_ite ..

/-- A fold whose steps keep the spine of the state `g` of what it carries keeps it. -/
theorem spine_foldl_of {σ α : Type} (g : σ → State) {f : σ → α → σ} (l : List α) (a : σ)
    (h : ∀ a x, (g (f a x)).spine = (g a).spine) : (g (l.foldl f a)).spine = (g a).spine := by
  induction l generalizing a with
  | nil => rfl
  | cons x l ih => rw [List.foldl_cons, ih, h]

@[simp] theorem spine_foldl {α : Type} {f : State → α → State} (l : List α) (s : State) (h : ∀ s x, (f s x).spine = s.spine) :
    (l.foldl f s).spine = s.spine :=
  spine_foldl_of id l s h

@[simp] theorem State.raise_spine (s : State) (code source tenant : Nat) (data : Bytes) :
    (s.raise code source tenant data).spine = s.spine := by
  obtain ⟨r, h⟩ := s.raise_changes_recorder code source tenant data
  rw [h]
  rfl

@[simp] theorem State.pmcAddTo_spine (s : State) (c n : Nat) : (s.pmcAddTo c n).spine = s.spine := by
  obtain ⟨p, r, h⟩ := s.pmcAddTo_changes_pmc c n
  rw [h]
  rfl

@[simp] theorem State.pmcEvent_spine (s : State) (first count ev n : Nat) : (s.pmcEvent first count ev n).spine = s.spine := by
  obtain ⟨p, r, h⟩ := s.pmcEvent_changes_pmc first count ev n
  rw [h]
  rfl

/-! ### Machine/Ops -/

@[simp] theorem State.random_spine (s : State) (n : Nat) : (s.random n).2.spine = s.spine := (rfl)
@[simp] theorem State.busyDistrict_spine (s : State) (d : Nat) : (s.busyDistrict d).spine = s.spine := (rfl)

@[simp] theorem State.pmcBn_spine (s : State) (e ev n : Nat) : (s.pmcBn e ev n).spine = s.spine := by
  simp [State.pmcBn]

@[simp] theorem State.pmcSrp_spine (s : State) (k ev n : Nat) : (s.pmcSrp k ev n).spine = s.spine := by
  simp [State.pmcSrp]

@[simp] theorem State.pmcSquare_spine (s : State) (ev n : Nat) : (s.pmcSquare ev n).spine = s.spine := by
  simp [State.pmcSquare]

@[simp] theorem State.pmcAdm_spine (s : State) (ev n : Nat) : (s.pmcAdm ev n).spine = s.spine := by
  simp [State.pmcAdm]

/-! ### Machine/Recorder -/

@[simp] theorem pmcSelect_spine (s : State) (counter event : Nat) : (pmcSelect s counter event).spine = s.spine := by
  simp [pmcSelect]

@[simp] theorem pmcSnapshot_spine (s : State) (cause : Nat) : (pmcSnapshot s cause).spine = s.spine := by
  simp [pmcSnapshot]

@[simp] theorem tickSnapshot_spine (s : State) : (tickSnapshot s).spine = s.spine := by
  simp [tickSnapshot]

/-! ### Machine/Square -/

@[simp] theorem State.putSlot_spine (s : State) (k : Nat) (x : Slot) : (s.putSlot k x).spine = s.spine := (rfl)
@[simp] theorem State.modSlot_spine (s : State) (k : Nat) (f : Slot → Slot) : (s.modSlot k f).spine = s.spine := (rfl)

@[simp] theorem State.joinReady_spine (s : State) (k n : Nat) : (s.joinReady k n).spine = s.spine := by
  simp [State.joinReady]

@[simp] theorem State.checkReady_spine (s : State) (k n : Nat) : (s.checkReady k n).spine = s.spine := by
  simp [State.checkReady]

@[simp] theorem State.setFlag_spine (s : State) (k n i : Nat) : (s.setFlag k n i).spine = s.spine := by
  simp [State.setFlag]

@[simp] theorem State.setFlagAll_spine (s : State) (k i : Nat) : (s.setFlagAll k i).spine = s.spine := by
  simp [State.setFlagAll]

@[simp] theorem State.insertDelay_spine (s : State) (e : DelayEntry) : (s.insertDelay e).spine = s.spine := (rfl)
@[simp] theorem State.dropDelay_spine (s : State) (k : Nat) (node : Option Nat) : (s.dropDelay k node).spine = s.spine := (rfl)

@[simp] theorem State.releaseEntry_spine (s : State) (e : DelayEntry) : (s.releaseEntry e).spine = s.spine := by
  unfold State.releaseEntry
  split <;> simp

@[simp] theorem State.releaseDue_spine (s : State) (unlisted : List DelayEntry) : (s.releaseDue unlisted).spine = s.spine := by
  simp [State.releaseDue]

@[simp] theorem State.dropReady_spine (s : State) (k : Nat) : (s.dropReady k).spine = s.spine := (rfl)

/-! ### Machine/Admission -/

@[simp] theorem State.grantAt_spine (s : State) (k : Nat) (c : Charge) (a d : Nat) : (s.grantAt k c a d).spine = s.spine := by
  simp [State.grantAt]

@[simp] theorem State.answer_spine (s : State) (k st : Nat) : (s.answer k st).spine = s.spine := (rfl)
@[simp] theorem State.release_spine (s : State) (req : Nat) : (s.release req).spine = s.spine := (rfl)
@[simp] theorem State.trimLedger_spine (s : State) : s.trimLedger.spine = s.spine := (rfl)

@[simp] theorem State.startWake_spine (s : State) (d cause : Nat) : (s.startWake d cause).spine = s.spine := by
  simp [State.startWake]

@[simp] theorem State.wakeFor_spine (s : State) (x : Slot) (a left lo : Nat) : (s.wakeFor x a left lo).spine = s.spine := by
  unfold State.wakeFor
  dsimp only
  split
  · simp
  · split <;> simp

/-- What holds with any test of folio numbers in the place of one holds with it: a proof by this rule never evaluates the test. -/
theorem forAnyTest {motive : (Nat → Nat → Bool) → Prop} (test : Nat → Nat → Bool) (any : ∀ t, motive t) : motive test :=
  any test

@[simp] theorem replacePass_spine (s : State) (a : Nat) : (replacePass s a).1.spine = s.spine := by
  unfold replacePass
  induction folioReached using forAnyTest with
  | any reached =>
    refine spine_foldl_of Prod.fst _ (s, _) fun acc p => ?_
    obtain ⟨s, failed, placed⟩ := acc
    dsimp only
    split
    · exact State.raise_spine ..
    · rfl

@[simp] theorem shedIn_spine (a : Nat) (r : Res) (f : Nat) (plazaToo : Bool) (fuel : Nat) (acc : State × List (Nat × ChargeKind)) :
    (shedIn a r f plazaToo fuel acc).1.spine = acc.1.spine := by
  induction fuel generalizing acc with
  | zero => rfl
  | succ fuel ih =>
    obtain ⟨s, shed⟩ := acc
    simp only [shedIn]
    split
    · split
      · rfl
      · split
        · rfl
        · simp [ih]
    · rfl

@[simp] theorem precedence_spine (s : State) (a : Nat) (plazaToo : Bool) : (precedence s a plazaToo).1.spine = s.spine := by
  have hfold := spine_foldl_of Prod.fst ((s.ledgerFolios a).flatMap (fun f => allRes.map (fun r => (f, r))))
    (s, ([] : List (Nat × ChargeKind))) fun acc p => shedIn_spine a p.2 p.1 plazaToo (s.adm.ledger.length + 1) acc
  unfold precedence
  dsimp only
  split
  · exact hfold
  · simp only [State.pmcAdm_spine, State.raise_spine]
    exact hfold

@[simp] theorem State.capacityLost_spine (s : State) (cls unit amount : Nat) : (s.capacityLost cls unit amount).spine = s.spine := by
  simp [State.capacityLost]

@[simp] theorem State.modPort_spine (s : State) (i : Nat) (f : Port → Port) : (s.modPort i f).spine = s.spine := (rfl)
@[simp] theorem State.refillPort_spine (s : State) (i : Nat) : (s.refillPort i).spine = s.spine := (rfl)
@[simp] theorem State.spend_spine (s : State) (i bytes : Nat) : (s.spend i bytes).spine = s.spine := (rfl)

/-! ### Machine/Ports -/

@[simp] theorem State.portCnt_spine (s : State) (i k n : Nat) : (s.portCnt i k n).spine = s.spine := (rfl)
@[simp] theorem State.transmit_spine (s : State) (i : Nat) (f : TxFrame) : (s.transmit i f).spine = s.spine := (rfl)

@[simp] theorem State.sendAllowed_spine (s : State) (i len : Nat) (f : TxFrame) : (s.sendAllowed i len f).spine = s.spine := by
  simp [State.sendAllowed]

@[simp] theorem State.keepPlace_spine (s : State) (i k : Nat) : (s.keepPlace i k).spine = s.spine := (rfl)

@[simp] theorem State.drainWaiting_spine (i n : Nat) (s : State) : (State.drainWaiting i n s).spine = s.spine := by
  induction n generalizing s with
  | zero => rfl
  | succ n ih =>
    unfold State.drainWaiting
    split
    · rfl
    · simp [ih]

/-! ### Machine/Srp -/

@[simp] theorem State.putChan_spine (s : State) (c : Nat) (x : Channel) : (s.putChan c x).spine = s.spine := (rfl)
@[simp] theorem State.modChan_spine (s : State) (c : Nat) (f : Channel → Channel) : (s.modChan c f).spine = s.spine := (rfl)
@[simp] theorem State.srpCnt_spine (s : State) (k n : Nat) : (s.srpCnt k n).spine = s.spine := (rfl)

@[simp] theorem State.freeChan_spine (s : State) (c : Nat) : (s.freeChan c).spine = s.spine := by
  unfold State.freeChan
  dsimp only
  split
  · exact State.raise_spine ..
  · rfl

@[simp] theorem State.beginClosing_spine (s : State) (c cause : Nat) : (s.beginClosing c cause).spine = s.spine := by
  simp [State.beginClosing]

@[simp] theorem State.dropReply_spine (s : State) (lport tenant : Nat) : (s.dropReply lport tenant).spine = s.spine := by
  simp [State.dropReply]

@[simp] theorem State.sendOn_spine (s : State) (c lport : Nat) (dst : Source4) (type : Nat) (close : Bool) (count : Nat)
    (rest pt : Bytes) (slots : List Nat) (allowed : Bool) :
    (s.sendOn c lport dst type close count rest pt slots allowed).spine = s.spine := by
  simp [State.sendOn]

@[simp] theorem State.nackHs_spine (s : State) (c lport : Nat) (dst : Source4) (reqSeq reason : Nat) :
    (s.nackHs c lport dst reqSeq reason).spine = s.spine := by
  simp [State.nackHs]

/-! ### Machine/Egress -/

@[simp] theorem State.freeSlotAt_spine (s : State) (k : Nat) : (s.freeSlotAt k).spine = s.spine := (rfl)

/-! ### Machine/KeyStore -/

@[simp] theorem State.ksEvent_spine (s : State) (b : Nat) : (s.ksEvent b).spine = s.spine := (rfl)
@[simp] theorem State.change_spine (s : State) : s.change.spine = s.spine := (rfl)

@[simp] theorem State.journal_spine (s : State) (kind : Nat) (body : Bytes) : (s.journal kind body).spine = s.spine := by
  simp [State.journal]

@[simp] theorem State.putSmk_spine (s : State) (t j : Nat) (x : SmkSlot) : (s.putSmk t j x).spine = s.spine := (rfl)

@[simp] theorem purge_spine (s : State) (p : CacheBinding → Bool) : (purge s p).2.spine = s.spine := by
  simp [purge]

@[simp] theorem State.putResident_spine (s : State) (slot : Nat) (r : Resident) : (s.putResident slot r).spine = s.spine := (rfl)

@[simp] theorem settleClaims_spine (s : State) (req : Nat) (claims : List (Nat × Nat)) (committed : Bool) :
    (settleClaims s req claims committed).spine = s.spine := by
  simp [settleClaims]

/-! ### Machine/Bn -/

@[simp] theorem State.putCurve_spine (s : State) (i : Nat) (c : CurveRec) : (s.putCurve i c).spine = s.spine := (rfl)
@[simp] theorem State.putBnHandle_spine (s : State) (core h : Nat) (x : BnHandle) : (s.putBnHandle core h x).spine = s.spine := (rfl)
@[simp] theorem State.modEngine_spine (s : State) (e : Nat) (f : BnEngine → BnEngine) : (s.modEngine e f).spine = s.spine := (rfl)
@[simp] theorem State.modBank_spine (s : State) (e b : Nat) (f : Bank → Bank) : (s.modBank e b f).spine = s.spine := (rfl)
@[simp] theorem State.bnCnt_spine (s : State) (e k n : Nat) : (s.bnCnt e k n).spine = s.spine := (rfl)
@[simp] theorem State.bnEvent_spine (s : State) (b : Nat) : (s.bnEvent b).spine = s.spine := (rfl)
@[simp] theorem clearBank_spine (s : State) (e b : Nat) : (clearBank s e b).spine = s.spine := (rfl)
@[simp] theorem freeEngine_spine (s : State) (e : Nat) : (freeEngine s e).spine = s.spine := (rfl)

@[simp] theorem abortJob_spine (s : State) (core h st : Nat) : (abortJob s core h st).spine = s.spine := by
  simp [abortJob]

@[simp] theorem releaseOne_spine (s : State) (core h : Nat) : (releaseOne s core h).spine = s.spine := by
  simp [releaseOne]

@[simp] theorem endBnHandles_spine (s : State) (core : Nat) : (endBnHandles s core).spine = s.spine := by
  simp [endBnHandles]

@[simp] theorem stopRandomJobs_spine (s : State) : (stopRandomJobs s).spine = s.spine := by
  unfold stopRandomJobs
  extract_lets jobs
  rw [spine_ite, State.bnEvent_spine, ite_self]
  refine spine_foldl_of Prod.fst jobs (s, false) fun acc p => ?_
  dsimp only
  split <;> simp

@[simp] theorem startValidation_spine (s : State) : (startValidation s).spine = s.spine := by
  unfold startValidation
  split
  · rfl
  · split
    · rfl
    · split <;> simp

@[simp] theorem endBackground_spine (s : State) (e b : Nat) : (endBackground s e b).spine = s.spine := by
  simp [endBackground]

/-! ### Machine/Bulk -/

@[simp] theorem State.bulkCnt_spine (s : State) (k n : Nat) : (s.bulkCnt k n).spine = s.spine := (rfl)
@[simp] theorem State.putStream_spine (s : State) (c : Nat) (x : Stream) : (s.putStream c x).spine = s.spine := (rfl)

@[simp] theorem removeJob_spine (s : State) (j : BulkJob) : (removeJob s j).spine = s.spine := by
  simp [removeJob]

@[simp] theorem withdrawJob_spine (s : State) (k : Nat) : (withdrawJob s k).spine = s.spine := by
  unfold withdrawJob
  split <;> simp

/-! ### Machine/Rng -/

@[simp] theorem State.rngCnt_spine (s : State) (k n : Nat) : (s.rngCnt k n).spine = s.spine := (rfl)
@[simp] theorem State.rngEvent_spine (s : State) (b : Nat) : (s.rngEvent b).spine = s.spine := (rfl)
@[simp] theorem State.putSource_spine (s : State) (k : Nat) (x : Source) : (s.putSource k x).spine = s.spine := (rfl)
@[simp] theorem State.putDrbg_spine (s : State) (i : Nat) (x : Drbg) : (s.putDrbg i x).spine = s.spine := (rfl)
@[simp] theorem State.setRng_spine (s : State) (r : RngState) : (s.setRng r).spine = s.spine := (rfl)

@[simp] theorem beginForced_spine (s : State) (k : Nat) : (beginForced s k).spine = s.spine := by
  simp [beginForced]

@[simp] theorem randLost_spine (s : State) (amount : Nat) : (randLost s amount).spine = s.spine := by
  simp [randLost]

@[simp] theorem changeActive_spine (s : State) (k discarded : Nat) : (changeActive s k discarded).spine = s.spine := by
  simp [changeActive]

@[simp] theorem rngFail_spine (s : State) (last : Nat) : (rngFail s last).spine = s.spine := by
  simp [rngFail]

@[simp] theorem rngCOnly_spine (s : State) (discarded : Nat) : (rngCOnly s discarded).spine = s.spine := by
  simp [rngCOnly]

@[simp] theorem sourceLost_spine (s : State) (k discarded : Nat) : (sourceLost s k discarded).spine = s.spine := by
  simp [sourceLost]

@[simp] theorem sourceBack_spine (s : State) (k : Nat) : (sourceBack s k).spine = s.spine := by
  unfold sourceBack
  dsimp only
  split
  · simp
  · split <;> simp

@[simp] theorem sourceFails_spine (s : State) (k test value : Nat) : (sourceFails s k test value).spine = s.spine := by
  simp [sourceFails]

@[simp] theorem windowEnd_spine (s : State) (k : Nat) (samples : Bytes) : (windowEnd s k samples).spine = s.spine := by
  unfold windowEnd
  dsimp only
  split
  · rfl
  · split
    · simp
    · split
      · simp
      · split <;> simp

theorem State.takeSeed_spine {s t : State} {k : Nat} {seed : Bytes} (h : s.takeSeed k = some (seed, t)) : t.spine = s.spine := by
  unfold State.takeSeed at h
  split at h
  · cases h
  · cases h
    rfl

@[simp] theorem commandReseed_spine (s : State) (chan : Nat) : (commandReseed s chan).spine = s.spine := by
  simp [commandReseed]

@[simp] theorem tickRng_spine (s : State) : (tickRng s).spine = s.spine := by
  simp [tickRng]

/-! ### Machine/Power -/

@[simp] theorem State.putDistrict_spine (s : State) (d : Nat) (x : District) : (s.putDistrict d x).spine = s.spine := (rfl)

/-! ### Machine/Regs1 -/

@[simp] theorem State.putGroup_spine (s : State) (g : Nat) (x : Group) : (s.putGroup g x).spine = s.spine := (rfl)

/-! ### Machine/Regs2 -/

@[simp] theorem State.modCore_spine (s : State) (c : Nat) (f : Core → Core) : (s.modCore c f).spine = s.spine := (rfl)
@[simp] theorem State.modMpu_spine (s : State) (u : Nat) (f : Mpu → Mpu) : (s.modMpu u f).spine = s.spine := (rfl)

/-! ### Machine/Regs3 -/

@[simp] theorem State.putSession_spine (s : State) (i : Nat) (x : Session) : (s.putSession i x).spine = s.spine := (rfl)
@[simp] theorem State.putCard_spine (s : State) (i : Nat) (x : Card) : (s.putCard i x).spine = s.spine := (rfl)
@[simp] theorem State.putMember_spine (s : State) (j : Nat) (m : Member) : (s.putMember j m).spine = s.spine := (rfl)
@[simp] theorem State.setSelector_spine (s : State) (chan addr v : Nat) : (s.setSelector chan addr v).spine = s.spine := (rfl)

@[simp] theorem regWrite_spine (s : State) (chan addr w : Nat) : (regWrite s chan addr w).spine = s.spine := by
  unfold regWrite
  split
  · simp
  · split
    · simp
    · split
      · simp
      · split
        · simp
        · split
          · simp
          · split
            · simp
            · split <;> simp

@[simp] theorem regWrites_spine (s : State) (chan addr : Nat) (l : List Nat) : (regWrites s chan addr l).spine = s.spine := by
  induction l generalizing s addr with
  | nil => rfl
  | cons w l ih => simp [regWrites, ih]

/-! ### Machine/Dual -/

@[simp] theorem State.dcCnt_spine (s : State) (k n : Nat) : (s.dcCnt k n).spine = s.spine := (rfl)

@[simp] theorem State.writeRegistry_spine (s : State) : s.writeRegistry.spine = s.spine := by
  simp [State.writeRegistry]

@[simp] theorem State.setCard_spine (s : State) (i : Nat) (c : Card) : (s.setCard i c).spine = s.spine := by
  simp [State.setCard]

@[simp] theorem restoreUse_spine (s : State) (serial : Nat) : (restoreUse s serial).spine = s.spine := by
  unfold restoreUse
  split <;> simp

@[simp] theorem registerCard_spine (s : State) (c : Card) : (registerCard s c).spine = s.spine := by
  unfold registerCard
  split <;> simp

@[simp] theorem endSession_spine (s : State) (i : Nat) (st : SessionState) : (endSession s i st).spine = s.spine := (rfl)

@[simp] theorem expireSession_spine (s : State) (i : Nat) : (expireSession s i).spine = s.spine := by
  simp [expireSession]

@[simp] theorem openSession_spine (s : State) (i : Nat) (x : Session) : (openSession s i x).spine = s.spine := by
  simp [openSession]

@[simp] theorem closeSession_spine (s : State) (i : Nat) : (closeSession s i).spine = s.spine := by
  simp [closeSession]

@[simp] theorem settleSession_spine (s : State) (i : Nat) (ok : Bool) : (settleSession s i ok).spine = s.spine := by
  simp [settleSession]

@[simp] theorem commitSignature_spine (s : State) (i k : Nat) : (commitSignature s i k).spine = s.spine := by
  simp [commitSignature]

@[simp] theorem withdrawSignature_spine (s : State) (k : Nat) : (withdrawSignature s k).spine = s.spine := by
  refine spine_foldl _ _ fun s p => ?_
  split <;> simp

@[simp] theorem tickSignatures_spine (s : State) : (tickSignatures s).spine = s.spine := by
  refine spine_foldl _ _ fun s p => ?_
  dsimp only
  split
  · rfl
  · have hcount := spine_foldl_of Prod.fst ((s.session p.1).counted.filter (fun c => c.effectAt == some s.folio.now))
      (s, (s.countedNow (s.session p.1)).length -
        ((s.session p.1).counted.filter (fun c => c.effectAt == some s.folio.now)).length)
      (f := fun acc c => ((acc.1.dcCnt 0 1).raise evSignatureCounted srcSecurity (s.session p.1).scope
        (items [(4, sessionId p.1 (s.session p.1)), (8, c.serial), (1, acc.2 + 1)]), acc.2 + 1)) fun acc c => by simp
    split <;> simp [hcount]

@[simp] theorem revokeCard_spine (s : State) (serial : Nat) : (revokeCard s serial).spine = s.spine := by
  unfold revokeCard
  split <;> simp

@[simp] theorem freeRevoked_spine (s : State) (serial : Nat) : (freeRevoked s serial).spine = s.spine := by
  unfold freeRevoked
  split <;> simp

@[simp] theorem setQuorum_spine (s : State) (scope role m : Nat) : (setQuorum s scope role m).spine = s.spine := by
  simp [setQuorum]

/-! ### Machine/Life -/

@[simp] theorem voidDebug_spine (s : State) (cause : Nat) : (voidDebug s cause).spine = s.spine := by
  simp [voidDebug]

@[simp] theorem beginTransition_spine (s : State) : (beginTransition s).spine = s.spine := by
  unfold beginTransition
  dsimp only
  split <;> simp

@[simp] theorem armDebug_spine (s : State) (starts grantState : Nat) (quorum : Bool) :
    (armDebug s starts grantState quorum).spine = s.spine := by
  simp [armDebug]

@[simp] theorem loadCert_spine (s : State) (index : Nat) (cert : Bytes) : (loadCert s index cert).spine = s.spine := by
  simp [loadCert]

/-! ### Machine/Boot -/

@[simp] theorem beginImageWrite_spine (s : State) : (beginImageWrite s).spine = s.spine := (rfl)
@[simp] theorem beginDrain_spine (s : State) (r : Restart) : (beginDrain s r).spine = s.spine := (rfl)

/-! ### Machine/Resolve -/

@[simp] theorem loadResident_spine (s : State) (unit : Nat) (r : Resident) : (loadResident s unit r).spine = s.spine := by
  simp [loadResident]

/-! ### Machine/KeyTick -/

@[simp] theorem revokeStreams_spine (s : State) (t : Nat) (p : StreamSide → Bool) : (revokeStreams s t p).spine = s.spine := by
  simp [revokeStreams]

@[simp] theorem retireGen_spine (s : State) (t j gen : Nat) : (retireGen s t j gen).2.spine = s.spine := by
  simp [retireGen]

@[simp] theorem applySmk_spine (s : State) (e : TickEffect) : (applySmk s e).spine = s.spine := by
  unfold applySmk
  dsimp only
  split <;> simp

@[simp] theorem retireResident_spine (s : State) (slot : Nat) : (retireResident s slot).spine = s.spine := by
  simp [retireResident]

@[simp] theorem setClientKey_spine (s : State) (t index : Nat) (k : ClientKey) : (setClientKey s t index k).spine = s.spine := by
  simp [setClientKey]

@[simp] theorem eraseRetired_spine (s : State) : (eraseRetired s).spine = s.spine := by
  unfold eraseRetired
  refine (spine_foldl _ _ fun s p => ?streams).trans ((spine_foldl _ _ fun s p => ?curves).trans
    ((spine_foldl _ _ fun s p => ?residents).trans (spine_foldl _ _ fun s p => ?generations)))
  case streams =>
    dsimp only
    split <;> simp
  case curves =>
    split <;> simp
  all_goals simp

/-! ### Machine/Pair -/

@[simp] theorem State.pairCnt_spine (s : State) (k n : Nat) : (s.pairCnt k n).spine = s.spine := (rfl)
@[simp] theorem State.pairEvent_spine (s : State) (b : Nat) : (s.pairEvent b).spine = s.spine := (rfl)

@[simp] theorem memberClientKeys_spine (s : State) : (memberClientKeys s).spine = s.spine := by
  simp [memberClientKeys]

@[simp] theorem dropMemberChannels_spine (s : State) : (dropMemberChannels s).spine = s.spine := (rfl)

@[simp] theorem openMemberChannel_spine (s : State) (j path : Nat) : (openMemberChannel s j path).spine = s.spine := by
  simp [openMemberChannel]

@[simp] theorem openMemberChannels_spine (s : State) : (openMemberChannels s).spine = s.spine := by
  simp [openMemberChannels]

@[simp] theorem sealPairing_spine (s : State) : (sealPairing s).spine = s.spine := by
  simp [sealPairing]

@[simp] theorem sendMember_spine (s : State) (j path func : Nat) (payload : Bytes) :
    (sendMember s j path func payload).spine = s.spine := by
  simp [sendMember]

@[simp] theorem sendBoth_spine (s : State) (j func : Nat) (payload : Bytes) : (sendBoth s j func payload).spine = s.spine := by
  simp [sendBoth]

@[simp] theorem heartbeats_spine (s : State) : (heartbeats s).spine = s.spine := by
  simp [heartbeats]

@[simp] theorem keepPart_spine (s : State) (b : BatchPart) : (keepPart s b).spine = s.spine := (rfl)

@[simp] theorem reserveForChain_spine (s : State) (g : Nat) : (reserveForChain s g).spine = s.spine := by
  simp [reserveForChain]

@[simp] theorem sendBatch_spine (s : State) (g : Nat) : (sendBatch s g).spine = s.spine := by
  unfold sendBatch
  split
  · rfl
  · extract_lets s1 rs n later parts pair s2 s3 s4
    have h1 : s1.spine = s.spine := by simp [s1]
    have h2 : s2.spine = s1.spine := rfl
    have h3 : s3.spine = s2.spine := spine_foldl _ _ fun s p => by simp
    have h4 : s4.spine = s3.spine := (State.pairCnt_spine ..).trans (State.pairCnt_spine ..)
    rw [h3, h2, h1] at h4
    clear_value s4
    split
    · exact h4
    · exact (State.raise_spine ..).trans h4

@[simp] theorem resend_spine (s : State) (j held : Nat) : (resend s j held).spine = s.spine := by
  simp [resend]

@[simp] theorem beginSnapshot_spine (s : State) (j : Nat) : (beginSnapshot s j).spine = s.spine := by
  simp [beginSnapshot]

@[simp] theorem sendSnapshotPart_spine (s : State) (used : Nat) : (sendSnapshotPart s used).spine = s.spine := by
  unfold sendSnapshotPart
  split <;> simp

@[simp] theorem countSilence_spine (s : State) : (countSilence s).spine = s.spine := by
  simp [countSilence]

@[simp] theorem countJournal_spine (s : State) : (countJournal s).spine = s.spine := by
  simp [countJournal]

@[simp] theorem declareTakeover_spine (s : State) (cause : Nat) : (declareTakeover s cause).spine = s.spine := by
  simp [declareTakeover]

@[simp] theorem replayConfig_spine (s : State) (b : Bytes) : (replayConfig s b).spine = s.spine := by
  unfold replayConfig
  dsimp only
  split <;> rfl

@[simp] theorem announceService_spine (s : State) : (announceService s).spine = s.spine := by
  simp [announceService]

/-! ### Machine/PairFns -/

@[simp] theorem clearStaging_spine (s : State) : (clearStaging s).spine = s.spine := (rfl)
@[simp] theorem keepOffer_spine (s : State) (offer keys nonce : Bytes) : (keepOffer s offer keys nonce).spine = s.spine := (rfl)
@[simp] theorem beginHandover_spine (s : State) : (beginHandover s).spine = s.spine := (rfl)

@[simp] theorem leaveChain_spine (s : State) (erase : Bool) : (leaveChain s erase).spine = s.spine := by
  simp [leaveChain]

/-! ### Machine/Tasks -/

@[simp] theorem endTask_spine (s : State) (core : Nat) : (endTask s core).spine = s.spine := by
  unfold endTask
  dsimp only
  split <;> simp

@[simp] theorem withdrawEffects_spine (s : State) (k : Nat) : (withdrawEffects s k).spine = s.spine := by
  simp [withdrawEffects]

@[simp] theorem stopSlot_spine (s : State) (k : Nat) : (stopSlot s k).spine = s.spine := by
  unfold stopSlot
  dsimp only
  split <;> simp

/-! ### Machine/Effects -/

@[simp] theorem wakeByCommit_spine (s : State) : (wakeByCommit s).spine = s.spine := by
  simp [wakeByCommit]

@[simp] theorem suspensionEvents_spine (before s : State) : (suspensionEvents before s).spine = s.spine := by
  simp [suspensionEvents]

@[simp] theorem applyGroup_spine (s : State) (g : Nat) : (applyGroup s g).spine = s.spine := by
  simp [applyGroup]

@[simp] theorem installCak_spine (s : State) (lport : Nat) (ckn cak : Bytes) : (installCak s lport ckn cak).spine = s.spine := (rfl)

@[simp] theorem deleteCurve_spine (s : State) (i : Nat) : (deleteCurve s i).spine = s.spine := by
  unfold deleteCurve
  dsimp only
  split
  · rfl
  · split <;> simp

@[simp] theorem applyTick_spine (s : State) (e : TickEffect) : (applyTick s e).spine = s.spine := by
  unfold applyTick
  split <;> simp

@[simp] theorem applyDue_spine (s : State) : (applyDue s).spine = s.spine := by
  simp [applyDue]

@[simp] theorem openChannel_spine (s : State) (c : Nat) (c2d d2c : Bytes) : (openChannel s c c2d d2c).spine = s.spine := by
  unfold openChannel
  dsimp only
  split
  · rfl
  · exact (State.sendOn_spine ..).trans (State.raise_spine ..)

@[simp] theorem refuseChannel_spine (s : State) (c reqSeq : Nat) : (refuseChannel s c reqSeq).spine = s.spine := by
  simp [refuseChannel]

@[simp] theorem sendHs2_spine (s : State) (c : Nat) (hs2 prk hsC hsD : Bytes) : (sendHs2 s c hs2 prk hsC hsD).spine = s.spine := by
  simp [sendHs2]

@[simp] theorem beginExchange_spine (s : State) (session iface : Nat) : (beginExchange s session iface).spine = s.spine := (rfl)

/-! ### Machine/Commit -/

@[simp] theorem missEvent_spine (s : State) (x : Slot) : (missEvent s x).spine = s.spine := by
  simp [missEvent]

@[simp] theorem noteStatus_spine (s : State) (x : Slot) (st : Nat) : (noteStatus s x st).spine = s.spine := by
  simp [noteStatus]

@[simp] theorem settleArmed_spine (s : State) (k : Nat) : (settleArmed s k).spine = s.spine := by
  simp [settleArmed]

@[simp] theorem setPred_spine (s : State) (k : Nat) : (setPred s k).spine = s.spine := by
  simp [setPred]

/-! ### Machine/Sync -/

@[simp] theorem State.slew_spine (s : State) : s.slew.spine = s.spine := by
  unfold State.slew
  split <;> simp

/-! ### Machine/Tick -/

@[simp] theorem countCycles_spine (s : State) : (countCycles s).spine = s.spine := by
  simp [countCycles]

@[simp] theorem validateCurves_spine (s : State) : (validateCurves s).spine = s.spine := by
  simp [validateCurves]

@[simp] theorem unitLeaves_spine (s : State) (unit : Nat) : (unitLeaves s unit).spine = s.spine := by
  have hlost : (match s.unitCapacity unit with
      | some (cls, amount) => s.capacityLost cls unit amount
      | none => s).spine = s.spine := by
    split <;> simp
  unfold unitLeaves
  extract_lets s1
  split
  · exact hlost
  · split
    · exact (State.modEngine_spine ..).trans hlost
    · split
      · split
        · exact (State.raise_spine ..).trans hlost
        · exact hlost
      · exact hlost

@[simp] theorem withdrawUnit_spine (s : State) (unit : Nat) : (withdrawUnit s unit).spine = s.spine := by
  simp [withdrawUnit]

@[simp] theorem quarantineUnit_spine (s : State) (p : Nat × Nat) : (quarantineUnit s p).spine = s.spine := by
  simp [quarantineUnit]

@[simp] theorem returnUnit_spine (s : State) (unit : Nat) : (returnUnit s unit).spine = s.spine := by
  unfold returnUnit
  dsimp only
  split <;> simp

@[simp] theorem tickUnits_spine (s : State) : (tickUnits s).spine = s.spine := by
  simp [tickUnits]

@[simp] theorem lateDistricts_spine (s : State) : (lateDistricts s).spine = s.spine := by
  simp [lateDistricts]

@[simp] theorem ageDistrict_spine (ended s : State) (d : Nat) : (ageDistrict ended s d).spine = s.spine := by
  simp [ageDistrict]

@[simp] theorem sleepDistrict_spine (s : State) (d code : Nat) : (sleepDistrict s d code).spine = s.spine := by
  simp [sleepDistrict]

@[simp] theorem trySleep_spine (s : State) (d : Nat) : (trySleep s d).spine = s.spine := by
  simp [trySleep]

@[simp] theorem standbyDistricts_spine (s : State) : (standbyDistricts s).spine = s.spine := by
  simp [standbyDistricts]

@[simp] theorem tickDistricts_spine (ended s : State) : (tickDistricts ended s).spine = s.spine := by
  unfold tickDistricts
  split <;> simp

@[simp] theorem answerAll_spine (s : State) (st : Nat) (l : List Nat) : (answerAll s st l).spine = s.spine := by
  simp [answerAll]

@[simp] theorem beginWait_spine (s : State) (k : Nat) : (beginWait s k).spine = s.spine := by
  unfold beginWait
  dsimp only
  split <;> simp

@[simp] theorem stopShed_spine (s : State) (l : List Nat) : (stopShed s l).spine = s.spine := by
  simp [stopShed]

@[simp] theorem countOwed_spine (s : State) : (countOwed s).spine = s.spine := by
  simp [countOwed]

@[simp] theorem tickApply_spine (s : State) : (tickApply s).spine = s.spine := by
  simp [tickApply]

@[simp] theorem refillPorts_spine (s : State) : (refillPorts s).spine = s.spine := by
  simp [refillPorts]

@[simp] theorem drainPorts_spine (s : State) : (drainPorts s).spine = s.spine := by
  simp [drainPorts]

/-! ### Machine/Start -/

@[simp] theorem passIdentity_spine (s : State) : (passIdentity s).spine = s.spine := by
  unfold passIdentity
  split <;> simp

@[simp] theorem startSource_spine (s : State) (k : Nat) (windows : List Bytes) : (startSource s k windows).spine = s.spine := by
  simp [startSource]

@[simp] theorem keyGutter_spine (s : State) : (keyGutter s).spine = s.spine := (rfl)

@[simp] theorem bistQuarantine_spine (s : State) (unit : Nat) : (bistQuarantine s unit).spine = s.spine := by
  simp [bistQuarantine]

@[simp] theorem runMbist_spine (s : State) (l : List BadMemory) : (runMbist s l).1.spine = s.spine := by
  refine spine_foldl_of Prod.fst l (s, none) fun a m => ?_
  split <;> simp

@[simp] theorem instantiateAll_spine (s : State) (k : Nat) (seed : Bytes) : (instantiateAll s k seed).spine = s.spine := by
  simp [instantiateAll]

/-- The state in which a step of START ends, whatever its end. -/
def StepEnd.after : StepEnd → State
  | .done t => t
  | .stop t => t
  | .fail t _ _ => t

theorem rngStart_spine (s : State) : (rngStart s).after.spine = s.spine := by
  unfold rngStart
  extract_lets env rng s0
  split
  · exact State.raise_spine ..
  · split
    · exact State.raise_spine ..
    · next s1 want k _ _ =>
      have h1 : s1.spine = s.spine := (startSource_spine ..).trans (startSource_spine ..)
      clear_value s1
      split
      · exact h1
      · split
        · exact h1
        · next seed s2 h =>
          have h2 : s2.spine = s.spine := (State.takeSeed_spine h).trans h1
          have h3 := (instantiateAll_spine s2 k seed).trans h2
          dsimp only
          split
          · exact h3
          · exact (State.raise_spine ..).trans h3

@[simp] theorem readyRecovery_spine (s : State) : (readyRecovery s).spine = s.spine := by
  unfold readyRecovery
  extract_lets up s1 s2
  have h1 : s1.spine = s.spine := by simp [s1]
  have h2 : s2.spine = s.spine := by simp [s2, h1]
  clear_value s2
  split
  · exact h2
  · have h3 := (rngStart_spine s2).trans h2
    split
    all_goals
      next heq =>
        rw [heq] at h3
        exact h3

end Sys2Proof.Machine
end

section
/-! SUPPORT. The tick: the pulse through the operations that do not keep the spine, the restart that a commit point may bring,
and the folio that begins. -/

namespace Sys2Proof.Machine

open Sys2Proof

/-! ### Admission at a tick -/

@[simp] theorem PassOut.answer_spine (o : PassOut) (k st : Nat) : (o.answer k st).s.spine = o.s.spine := by
  simp [PassOut.answer]

@[simp] theorem PassOut.grantAt_spine (o : PassOut) (k : Nat) (c : Charge) (a : Nat) : (o.grantAt k c a).s.spine = o.s.spine := by
  unfold PassOut.grantAt
  dsimp only
  split <;> simp

theorem frontagePass_spine (a : Nat) (o : PassOut) (k : Nat) : (frontagePass a o k).s.spine = o.s.spine := by
  unfold frontagePass
  dsimp only
  split
  · rfl
  · split
    · exact PassOut.answer_spine ..
    · split
      · rfl
      · split
        · exact PassOut.grantAt_spine ..
        · rfl

theorem plazaPass_spine (a : Nat) (o : PassOut) (k : Nat) : (plazaPass a o k).s.spine = o.s.spine := by
  unfold plazaPass
  dsimp only
  split
  · rfl
  · split
    · exact PassOut.answer_spine ..
    · split
      · split
        · exact PassOut.answer_spine ..
        · rfl
      · split
        · exact PassOut.grantAt_spine ..
        · split
          · exact (PassOut.answer_spine ..).trans (State.wakeFor_spine ..)
          · exact State.wakeFor_spine ..

theorem admissionPass_spine (s : State) (a : Nat) : (admissionPass s a).s.spine = s.spine := by
  unfold admissionPass
  extract_lets cs o rest o1 limit pass adm s1 s2
  have ho : o.s.spine = s.spine := spine_foldl_of PassOut.s _ _ (frontagePass_spine a)
  have ho1 : o1.s.spine = o.s.spine := spine_foldl_of PassOut.s _ _ (plazaPass_spine a)
  have h1 : s1.spine = o1.s.spine := rfl
  have h2 : s2.spine = s1.spine := State.pmcAdm_spine ..
  rw [h1, ho1, ho] at h2
  clear_value s2
  split
  · exact (State.raise_spine ..).trans h2
  · exact h2

/-- Precedence, re-placement and admission keep the spine. -/
theorem decide_spine (s : State) (plazaToo : Bool) : (decide_ s plazaToo).s.spine = s.spine := by
  unfold decide_
  split
  · rfl
  · extract_lets a errors s0
    have h0 : s0.spine = s.spine := answerAll_spine ..
    have hreleased := spine_foldl errors s0 (f := fun s k => s.release (s.slot k).req) fun s k => State.release_spine ..
    have h1 := precedence_spine (errors.foldl (fun s k => s.release (s.slot k).req) s0) a plazaToo
    generalize precedence _ a plazaToo = prec at h1 ⊢
    obtain ⟨s1, shed⟩ := prec
    have h2 := stopShed_spine s1 (errors ++ shed.map (·.1))
    have h3 := replacePass_spine (stopShed s1 (errors ++ shed.map (·.1))) a
    dsimp only
    generalize replacePass _ a = repl at h3 ⊢
    obtain ⟨s3, failed, placed⟩ := repl
    exact (admissionPass_spine s3 a).trans (h3.trans (h2.trans (h1.trans (hreleased.trans h0))))

/-! ### Operations that change the vault or the chain's epoch keep the pulse -/

theorem setRecord_pulse (s : State) (b : Bytes) : (setRecord s b).spine.pulse = s.spine.pulse := by
  simp [setRecord]
  rfl

theorem changeRecord_pulse (s : State) (count : Nat) (m : Nat → Member) : (changeRecord s count m).spine.pulse = s.spine.pulse := by
  simp [changeRecord, setRecord_pulse]

theorem acceptPairing_pulse (s : State) (record pairKey : Bytes) (serial epoch : Nat) (keys : Bytes) :
    (acceptPairing s record pairKey serial epoch keys).spine.pulse = s.spine.pulse := by
  unfold acceptPairing
  dsimp only
  rw [State.raise_spine]
  rfl

theorem confirmPairing_pulse (s : State) (pairKey : Bytes) (serial : Nat) (idHash keys : Bytes) :
    (confirmPairing s pairKey serial idHash keys).spine.pulse = s.spine.pulse := by
  have hkey : (if s.paired then (s.pair.chainKey, s) else s.random 32).2.spine = s.spine := by
    split
    · rfl
    · exact State.random_spine ..
  unfold confirmPairing
  generalize (if s.paired then (s.pair.chainKey, s) else s.random 32) = drawn at hkey ⊢
  obtain ⟨key, s1⟩ := drawn
  simp only [State.raise_spine, beginSnapshot_spine, sealPairing_spine, memberClientKeys_spine, State.putMember_spine,
    changeRecord_pulse, ← hkey]
  rfl

theorem applyEffect_pulse (k : Nat) (s : State) (e : Effect) : (applyEffect k s e).spine.pulse = s.spine.pulse := by
  cases e
  case mgmtWrite => exact congrArg Spine.pulse ((State.raise_spine ..).trans (regWrites_spine ..))
  case curveLoad => exact congrArg Spine.pulse (startValidation_spine ..)
  case pairAccept => exact acceptPairing_pulse ..
  case pairConfirm => exact confirmPairing_pulse ..
  all_goals simp [applyEffect]

theorem settle_pulse (s : State) (k : Nat) (x : Slot) (ok : Bool) : (settle s k x ok).spine.pulse = s.spine.pulse := by
  have heffects : (x.effects.foldl (applyEffect k) (settleArmed s k)).spine.pulse = s.spine.pulse :=
    List.foldlRecOn x.effects (applyEffect k) (motive := fun t => t.spine.pulse = s.spine.pulse)
      (congrArg Spine.pulse (settleArmed_spine s k)) fun t ht e _ => (applyEffect_pulse k t e).trans ht
  have hclaims : (settleClaims (if ok then x.effects.foldl (applyEffect k) (settleArmed s k) else withdrawEffects s k) x.req x.claims
      ok).spine.pulse = s.spine.pulse := by
    rw [settleClaims_spine]
    split
    · exact heffects
    · rw [withdrawEffects_spine]
  unfold settle
  extract_lets s1 s2
  split
  · rw [settleSession_spine]
    exact hclaims
  · exact hclaims

/-! ### Commit points -/

/-- `t` has the pulse of `s`, or the device passes through an internal RESET. -/
def State.Runs (s t : State) : Prop := t.dev.state = .reset ∨ t.spine.pulse = s.spine.pulse

theorem State.Runs.of_pulse {s t : State} (h : t.spine.pulse = s.spine.pulse) : s.Runs t := .inr h

theorem State.Runs.of_spine {s t : State} (h : t.spine = s.spine) : s.Runs t := .inr (congrArg Spine.pulse h)

theorem State.Runs.trans {s t u : State} (h : s.Runs t) (hu : t.Runs u) : s.Runs u := by
  rcases hu with hreset | hpulse
  · exact .inl hreset
  · rcases h with hreset | h
    · exact .inl ((congrArg Pulse.state hpulse).trans hreset)
    · exact .inr (hpulse.trans h)

theorem State.Runs.foldl {α : Type} {f : State → α → State} (h : ∀ (s : State) a, s.Runs (f s a)) (l : List α) (s : State) :
    s.Runs (l.foldl f s) :=
  List.foldlRecOn l f (motive := s.Runs) (.of_spine rfl) fun t ht a _ => ht.trans (h t a)

/-- A restart at a commit point leaves the device in an internal RESET. -/
theorem applyRestart_runs (s : State) (e : Effect) : s.Runs (applyRestart s e) := by
  unfold applyRestart
  split
  · exact .inl rfl
  · exact .inl rfl
  · exact .of_spine rfl

theorem commitNow_runs (s : State) (k st : Nat) (result : Bytes) : s.Runs (commitNow s k st result) := by
  unfold commitNow
  extract_lets x ok hold idx folio s1 s2 s3 s4 s5 lc s6
  have h2 : s2.spine = s.spine := rfl
  have h3 : s3.spine.pulse = s.spine.pulse := by
    rw [← h2]
    refine (settle_pulse ..).trans ?_
    split
    · rw [State.pairCnt_spine]
    · rfl
  have h4 : s4.spine = s3.spine := State.modSlot_spine ..
  have h5 : s5.spine = s4.spine := by
    simp only [s5, noteStatus_spine, setPred_spine, State.dropDelay_spine, State.dropReady_spine]
  have h6 : s.Runs s6 := by
    refine .of_pulse (Eq.trans (congrArg Spine.pulse ?_) h3)
    rw [← h4, ← h5]
    clear_value s5
    simp [s6]
  split
  · exact h6.trans (State.Runs.foldl applyRestart_runs _ _)
  · exact h6

theorem acceptOne_runs (s : State) (k st : Nat) (result : Bytes) : s.Runs (acceptOne s k st result) := by
  unfold acceptOne
  dsimp only
  split
  · exact .of_spine (State.pmcSquare_spine ..)
  · split
    · exact commitNow_runs ..
    · split
      · exact (State.Runs.of_spine (State.spend_spine ..)).trans (commitNow_runs ..)
      · exact .of_spine (State.keepPlace_spine ..)

theorem releaseHeld_runs (fuel : Nat) (s : State) : s.Runs (releaseHeld fuel s) := by
  induction fuel generalizing s with
  | zero => exact .of_spine rfl
  | succ fuel ih =>
    unfold releaseHeld
    split
    · exact .of_spine rfl
    · exact ((State.Runs.of_spine (State.modSlot_spine ..)).trans (acceptOne_runs ..)).trans (ih _)

theorem accept_runs (s : State) (k st : Nat) (result : Bytes) : s.Runs (accept s k st result) :=
  (acceptOne_runs s k st result).trans (releaseHeld_runs _ _)

theorem commitAnswers_runs (s : State) (l : List Nat) : s.Runs (commitAnswers s l) := by
  refine State.Runs.foldl (fun s k => ?_) l s
  dsimp only
  split
  · split
    · exact accept_runs ..
    · exact .of_spine rfl
  · exact .of_spine rfl

theorem deferredAnswers_runs (s : State) : s.Runs (deferredAnswers s) := by
  refine State.Runs.foldl (fun s k => ?_) s.adm.deferred s
  have hdrained := State.drainWaiting_spine (s.slot k).lport (s.port (s.slot k).lport).waiting.length s
  dsimp only
  generalize State.drainWaiting _ _ s = s1 at hdrained ⊢
  split
  · exact .of_spine hdrained
  · split
    · exact .of_spine hdrained
    · split
      · refine State.Runs.trans (.of_spine ?_) (accept_runs ..)
        rw [State.modPort_spine]
        exact hdrained
      · exact .of_spine hdrained

/-! ### The folio that begins -/

theorem newFolio_pulse (s : State) : (newFolio s).spine.pulse =
    { state := s.dev.state, now := folioAdd s.folio.now 1, delayTick := 0, ticks := s.folio.ticks + 1 } := by
  have hcounted : (countCycles s).slew.spine.pulse = s.spine.pulse :=
    congrArg Spine.pulse ((State.slew_spine _).trans (countCycles_spine s))
  have hstate : (countCycles s).slew.dev.state = s.dev.state := congrArg Pulse.state hcounted
  have hnow : (countCycles s).slew.folio.now = s.folio.now := congrArg Pulse.now hcounted
  have hticks : (countCycles s).slew.folio.ticks = s.folio.ticks := congrArg Pulse.ticks hcounted
  rw [← hstate, ← hnow, ← hticks]
  unfold newFolio
  generalize (countCycles s).slew = s1
  dsimp only
  split
  · rfl
  · rw [State.raise_spine]
    rfl

theorem performTakeover_pulse (s : State) (declared : Nat) :
    (performTakeover s declared).spine.pulse = { s.spine.pulse with state := .service } := by
  unfold performTakeover
  extract_lets k batches moved v vault old keys ks advanced pair s1 s2 s3 s4 s5 s6 ms
  have h2 : s2.spine.pulse = { s.spine.pulse with state := .service } := rfl
  have h3 : s3.spine.pulse = s2.spine.pulse := changeRecord_pulse ..
  have h4 : s4.spine = s3.spine := spine_foldl _ _ replayConfig_spine
  have h5 : s5.spine = s4.spine := by simp [s5]
  have h6 : s6.spine = s5.spine := spine_foldl _ _ fun s d => by simp
  rw [State.raise_spine, announceService_spine, h6, h5, h4, h3, h2]

/-- A takeover falls due in STANDBY alone, and makes the device the active; nothing else of the pair's part of a tick touches
the pulse. -/
theorem tickPair_pulse (s : State) : (tickPair s).spine.pulse = s.spine.pulse ∨
    s.dev.state = .standby ∧ (tickPair s).spine.pulse = { s.spine.pulse with state := .service } := by
  unfold tickPair
  split
  · exact .inl rfl
  · extract_lets s1 g used s2
    have h1 : s1.spine = s.spine := (countJournal_spine _).trans (countSilence_spine s)
    have h2 : s2.spine = s.spine := by
      simp [s2, h1]
    clear_value s2 s1
    split
    case h_1 => exact .inl (by simp [h2])
    case h_2 hstandby =>
      have hsent : (sendSnapshotPart (heartbeats s1) s1.heartbeatWire).spine = s.spine := by simp [h1]
      generalize sendSnapshotPart (heartbeats s1) s1.heartbeatWire = t at hsent ⊢
      unfold tickTakeover
      extract_lets pair t1
      have ht : t1.spine = s.spine := by
        rw [← hsent]
        simp only [t1]
        split
        · exact declareTakeover_spine ..
        · rfl
      clear_value t1
      split
      · split
        · exact .inr ⟨hstandby, by rw [performTakeover_pulse, ht]⟩
        · exact .inl (by rw [ht])
      · exact .inl (by rw [ht])
    case h_3 => exact .inl (by rw [h1])

/-- `t` is in the folio after that of `s`, at its start, or the device passes through an internal RESET. -/
def State.Advances (s t : State) : Prop := t.dev.state = .reset ∨
  t.folio.now = folioAdd s.folio.now 1 ∧ t.folio.delayTick = 0 ∧ t.folio.ticks = s.folio.ticks + 1

theorem State.Advances.of_spine {s t u : State} (h : s.Advances t) (hu : u.spine = t.spine) : s.Advances u := by
  have hstate : u.dev.state = t.dev.state := congrArg (fun x => x.pulse.state) hu
  have hnow : u.folio.now = t.folio.now := congrArg (fun x => x.pulse.now) hu
  have hdelay : u.folio.delayTick = t.folio.delayTick := congrArg (fun x => x.pulse.delayTick) hu
  have hticks : u.folio.ticks = t.folio.ticks := congrArg (fun x => x.pulse.ticks) hu
  rwa [State.Advances, hstate, hnow, hdelay, hticks]

theorem newFolio_advances (s : State) : s.Advances (newFolio s) :=
  .inr ⟨congrArg Pulse.now (newFolio_pulse s), congrArg Pulse.delayTick (newFolio_pulse s), congrArg Pulse.ticks (newFolio_pulse s)⟩

theorem State.Advances.runs {s t u : State} (h : s.Advances t) (hu : t.Runs u) : s.Advances u := by
  rcases hu with hreset | hpulse
  · exact .inl hreset
  · have hstate : u.dev.state = t.dev.state := congrArg Pulse.state hpulse
    have hnow : u.folio.now = t.folio.now := congrArg Pulse.now hpulse
    have hdelay : u.folio.delayTick = t.folio.delayTick := congrArg Pulse.delayTick hpulse
    have hticks : u.folio.ticks = t.folio.ticks := congrArg Pulse.ticks hpulse
    rwa [State.Advances, hstate, hnow, hdelay, hticks]

/-- The pair's part of a tick: a takeover falls due in STANDBY, not in RESET. -/
theorem State.Advances.tickPair {s t : State} (h : s.Advances t) : s.Advances (tickPair t) := by
  rcases tickPair_pulse t with hpulse | ⟨hstandby, hpulse⟩
  · exact h.runs (.of_pulse hpulse)
  · obtain ⟨hnow, hdelay, hticks⟩ := h.resolve_left (by simp [hstandby])
    exact .inr ⟨(congrArg Pulse.now hpulse).trans hnow, (congrArg Pulse.delayTick hpulse).trans hdelay,
      (congrArg Pulse.ticks hpulse).trans hticks⟩

/-- A tick begins the next folio, unless the device passes through an internal RESET. -/
theorem tickFolio_advances (s : State) : s.Advances (tickFolio s) := by
  unfold tickFolio
  extract_lets s1 plazaToo s2 s3 disabled drained elsewhere s4 d decided faults s5 s6 s7 s8 s9 s9' s10
  have h3 : s3.spine = s1.spine := by simp only [s3, s2, lateDistricts_spine, tickUnits_spine, tickApply_spine]
  have h4 : s4.spine = s3.spine := by simp only [s4, answerAll_spine, tickSnapshot_spine]
  have hd : d.s.spine = s4.spine := decide_spine s4 plazaToo
  clear_value d
  have h5 : s5.spine = s4.spine := (spine_foldl _ _ beginWait_spine).trans hd
  have h6 : s5.Runs s6 := (State.Runs.of_spine (refillPorts_spine s5)).trans (deferredAnswers_runs _)
  have h7 : s6.Runs s7 := commitAnswers_runs ..
  have h8 : s7.Runs s8 := (State.Runs.foldl (fun s k => acceptOne_runs ..) _ s7).trans (commitAnswers_runs ..)
  have h9 : s9'.spine = s8.spine := (State.releaseDue_spine ..).trans (drainPorts_spine s8)
  have hbefore : s.Advances s5 := (newFolio_advances s).of_spine (h5.trans (h4.trans h3))
  have hcommitted : s.Advances s9' := (hbefore.runs ((h6.trans h7).trans h8)).of_spine h9
  have h10 : s.Advances s10 := (hcommitted.of_spine (tickRng_spine s9')).tickPair
  clear_value s10
  split
  · exact .inl rfl
  · split
    · exact h10
    · refine h10.of_spine ?_
      simp only [State.trimLedger_spine, countOwed_spine, tickDistricts_spine]

/-- The order in which a tick's events are offered does not touch the folio. -/
theorem State.Advances.inOneCycle {f : State → State} (h : ∀ s : State, s.Advances (f s)) (s : State) :
    s.Advances (s.inOneCycle f) :=
  h { s with recorder := { s.recorder with offered := [], bucket := 2 ^ 32 } }

/-! ### The delay lists (R142) -/

/-- `t` has of `s` everything but the Square, its performance counters and the recorder, and the same delay lists. -/
def State.SquareOnly (s t : State) : Prop :=
  t = { s with sq := t.sq, pmc := t.pmc, recorder := t.recorder } ∧ t.sq.delays = s.sq.delays

theorem State.SquareOnly.refl (s : State) : s.SquareOnly s := ⟨rfl, rfl⟩

theorem State.SquareOnly.trans {s t u : State} (h : s.SquareOnly t) (hu : t.SquareOnly u) : s.SquareOnly u := by
  obtain ⟨hstate, hdelays⟩ := h
  obtain ⟨hstate', hdelays'⟩ := hu
  refine ⟨?_, hdelays'.trans hdelays⟩
  rw [hstate] at hstate'
  exact hstate'

theorem State.SquareOnly.foldl {α : Type} {f : State → α → State} (h : ∀ (s : State) a, s.SquareOnly (f s a)) (l : List α)
    (s : State) : s.SquareOnly (l.foldl f s) :=
  List.foldlRecOn l f (motive := s.SquareOnly) (.refl s) fun t ht a _ => ht.trans (h t a)

theorem State.modSlot_squareOnly (s : State) (k : Nat) (f : Slot → Slot) : s.SquareOnly (s.modSlot k f) := ⟨rfl, rfl⟩

theorem State.pmcSquare_squareOnly (s : State) (ev n : Nat) : s.SquareOnly (s.pmcSquare ev n) := by
  obtain ⟨p, r, h⟩ := s.pmcEvent_changes_pmc 940 16 ev n
  rw [State.pmcSquare, h]
  exact ⟨rfl, rfl⟩

theorem State.joinReady_squareOnly (s : State) (k n : Nat) : s.SquareOnly (s.joinReady k n) := by
  unfold State.joinReady
  extract_lets x l e sq s1
  have h1 : s.SquareOnly s1 := ⟨rfl, rfl⟩
  clear_value s1
  exact (h1.trans (State.modSlot_squareOnly s1 k _)).trans (State.pmcSquare_squareOnly _ _ _)

theorem State.checkReady_squareOnly (s : State) (k n : Nat) : s.SquareOnly (s.checkReady k n) := by
  unfold State.checkReady
  dsimp only
  split
  · exact State.joinReady_squareOnly s k n
  · exact .refl s

theorem State.setFlag_squareOnly (s : State) (k n i : Nat) : s.SquareOnly (s.setFlag k n i) :=
  (State.modSlot_squareOnly s k _).trans (State.checkReady_squareOnly _ k n)

theorem State.setFlagAll_squareOnly (s : State) (k i : Nat) : s.SquareOnly (s.setFlagAll k i) :=
  State.SquareOnly.foldl (fun s n => s.setFlag_squareOnly k n i) _ s

theorem State.releaseEntry_squareOnly (s : State) (e : DelayEntry) : s.SquareOnly (s.releaseEntry e) := by
  unfold State.releaseEntry
  split
  · refine State.SquareOnly.trans ?_ (State.setFlagAll_squareOnly _ _ _)
    split
    · exact ⟨rfl, rfl⟩
    · exact .refl s
  · exact State.setFlag_squareOnly ..

/-- What is due depends on the folio alone. -/
theorem State.due_congr {s t : State} (h : t.folio = s.folio) (e : DelayEntry) : t.due e = s.due e := by
  simp only [State.due, h]

/-- The delay lists without what is due. -/
def State.undue (s : State) : List (Nat × List DelayEntry) :=
  s.sq.delays.filterMap (fun p => dropEmpty p.1 (p.2.filter (fun e => !s.due e)))

theorem State.undue_not_due {s : State} {p : Nat × List DelayEntry} (hp : p ∈ s.undue) {e : DelayEntry} (he : e ∈ p.2) :
    s.due e = false := by
  obtain ⟨q, -, hq⟩ := List.mem_filterMap.1 hp
  unfold dropEmpty at hq
  split at hq
  · cases hq
  · cases hq
    simpa using (List.mem_filter.1 he).2

/-- Releasing touches the Square, its counters and the recorder, and leaves on the lists what is not due. -/
theorem State.releaseDue_squareOnly (s : State) (unlisted : List DelayEntry) :
    State.SquareOnly { s with sq := { s.sq with delays := s.undue } } (s.releaseDue unlisted) := by
  refine State.SquareOnly.trans ?_ (State.pmcSquare_squareOnly _ _ _)
  exact State.SquareOnly.trans ⟨rfl, rfl⟩ (State.SquareOnly.foldl State.releaseEntry_squareOnly _ _)

/-! ### The two commands -/

theorem execTick_idle {s : State} (h : s.folioRuns = false) : execTick s = .next s := by
  simp [execTick, h]

theorem execTick_runs {s : State} (h : s.folioRuns = true) : execTick s = .next (s.inOneCycle tickFolio) := by
  simp [execTick, h]

theorem execDelayListRelease_idle {k : Nat} {s : State} (h : ¬ (s.folioRuns = true ∧ s.folio.delayTick < k ∧ k < 64)) :
    execDelayListRelease k s = .next s := if_neg h

/-- Settles O47: TICK by `tickFolio_advances`, DELAY_LIST_RELEASE by what releasing touches and leaves. -/
theorem ticksAndTime : Obligations.TicksAndTime := by
  intro s
  refine ⟨?idle, ?tick, ?release, ?other⟩
  case idle =>
    intro h
    exact ⟨execTick_idle h, fun k => execDelayListRelease_idle (by simp [h])⟩
  case tick =>
    intro h
    refine ⟨s.inOneCycle tickFolio, execTick_runs h, fun hreset _ => ?_⟩
    exact (State.Advances.inOneCycle tickFolio_advances s).resolve_left hreset
  case release =>
    intro k h hlate hk
    obtain ⟨hstate, hdelays⟩ := State.releaseDue_squareOnly { s with folio := { s.folio with delayTick := k } } []
    refine ⟨_, if_pos ⟨h, hlate, hk⟩, ?_⟩
    generalize State.releaseDue _ [] = u at hstate hdelays ⊢
    have hfolio : u.folio = { s.folio with delayTick := k } := congrArg State.folio hstate
    refine ⟨hfolio, fun p hp e he => ?_, ?_⟩
    · rw [hdelays] at hp
      exact (State.due_congr hfolio e).trans (State.undue_not_due hp he)
    · rw [hfolio]
      exact hstate
  case other =>
    intro k hk
    exact execDelayListRelease_idle (by omega)

end Sys2Proof.Machine
end

section
/-! SUPPORT. The chain: numbers in byte strings, what the members' operations touch, the fence, and the statement about the
chain's commands. -/

namespace Sys2Proof.Machine

open Sys2Proof

/-! ### Numbers in byte strings -/

theorem beNat_foldl (b : Bytes) (a : Nat) : b.foldl (fun a x => a * 256 + x.toNat) a = a * 256 ^ b.length + beNat b := by
  induction b generalizing a with
  | nil => simp [beNat]
  | cons x b ih =>
    rw [beNat, List.foldl_cons, List.foldl_cons, ih, ih (0 * 256 + x.toNat), List.length_cons, pow_succ]
    ring

theorem beNat_cons (x : Byte) (b : Bytes) : beNat (x :: b) = x.toNat * 256 ^ b.length + beNat b := by
  rw [beNat, List.foldl_cons, beNat_foldl, Nat.zero_mul, Nat.zero_add]

@[simp] theorem beBytes_length (n v : Nat) : (beBytes n v).length = n := by
  induction n with
  | zero => rfl
  | succ n ih => rw [beBytes, List.length_cons, ih]

theorem beNat_beBytes (n v : Nat) : beNat (beBytes n v) = v % 256 ^ n := by
  induction n with
  | zero => simp [beBytes, beNat, Nat.mod_one]
  | succ n ih =>
    rw [beBytes, beNat_cons, ih, beBytes_length, BitVec.toNat_ofNat, show (2 : Nat) ^ 8 = 256 from rfl, Nat.mod_pow_succ]
    ring

theorem fld_beBytes_append (n v : Nat) (rest : Bytes) : fld (beBytes n v ++ rest) 0 n = v % 256 ^ n := by
  have hslice : slice (beBytes n v ++ rest) 0 n = beBytes n v := by
    rw [slice, List.drop_zero, List.take_left' (beBytes_length n v)]
  unfold fld
  rw [hslice]
  simp [beNat_beBytes]

/-! ### Members heard -/

theorem State.member_putMember (s : State) (j : Nat) {m : Member} (h : m.state ≠ 0) : (s.putMember j m).member j = m :=
  tabGet_put_new _ _ fun e => h (congrArg Member.state e)

/-- Hearing of a member of the chain changes no more of it than the counts of its silence. -/
theorem heardFrom_member (s : State) (j path : Nat) (h : (s.member j).state ≠ 0) :
    ∃ m : Member, heardFrom s j path = s.putMember j m ∧ m.position = (s.member j).position ∧ m.state = (s.member j).state := by
  unfold heardFrom
  rw [if_neg h]
  refine ⟨_, rfl, ?_⟩
  split <;> exact ⟨rfl, rfl⟩

/-! ### Acknowledgements (R444, R447) -/

theorem settleReservations_changes (s : State) (h : Nat) :
    ∃ ks sent, settleReservations s h = { s with ks := ks, pair := { s.pair with sent := sent } } := by
  unfold settleReservations
  extract_lets done pair s1
  refine List.foldlRecOn done _ (motive := fun t => ∃ ks sent, t = { s with ks := ks, pair := { s.pair with sent := sent } })
    ⟨s.ks, s.pair.sent.filter (fun q => !folioReached h q.1), rfl⟩ fun t ht q _ => ?_
  obtain ⟨ks, sent, rfl⟩ := ht
  exact ⟨_, sent, rfl⟩

/-- A batch acknowledged up to `h` by position 1 of a confirmed active with no handover under way: its HELD is the newer of the
two, and the silence ends. -/
theorem acknowledged_batch (s : State) (h : Nat) (hconfirmed : s.pair.confirmed = true) (hhandover : s.pair.handover = none) :
    let u := acknowledged s h true
    u.pair.held = (if folioReached h s.pair.held = true ∧ h ≠ s.pair.held then h else s.pair.held) ∧
      u.pair.ackSilence = 0 ∧ u.pair.confirmed = true ∧ u.dev = s.dev := by
  intro u
  have hu : u = acknowledged s h true := rfl
  clear_value u
  unfold acknowledged at hu
  extract_lets newer fresh was pair s1 s2 s3 at hu
  obtain ⟨ks, sent, hsettled⟩ := settleReservations_changes s1 h
  have h2 : s2.pair = { s1.pair with sent := sent } ∧ s2.dev = s.dev := by
    simp only [s2, hsettled]
    exact ⟨rfl, rfl⟩
  have h3 : s3 = s2 := by
    simp [s3, was, hconfirmed]
  obtain ⟨hpair, hdev⟩ := h2
  have hnone : s3.pair.handover = none := by
    rw [h3, hpair]
    exact hhandover
  rw [hnone] at hu
  rw [hu, h3, hpair]
  refine ⟨?_, ?_, ?_, hdev⟩
  · simp [s1, newer]
  · simp [s1, fresh]
  · simp [s1, was, hconfirmed]

theorem memberHolds_batch {s : State} {j path h : Nat} (hservice : s.dev.state = .service) (hactive : s.position = 0)
    (hposition : (s.member j).position = 1) (hstate : (s.member j).state ≠ 0) :
    ∃ ms, memberHolds s j path h true = acknowledged { s with pair := { s.pair with members := ms } } h true := by
  obtain ⟨m, hheard, hpos, hst⟩ := heardFrom_member s j path hstate
  have hm : (s.putMember j m).member j = m := State.member_putMember s j (hst ▸ hstate)
  unfold memberHolds
  rw [hheard]
  dsimp only
  rw [hm, if_pos ⟨hservice, hactive, hpos.trans hposition, hst ▸ hstate⟩]
  split
  · exact ⟨_, rfl⟩
  · exact ⟨_, rfl⟩

/-- An OK record of 8 bytes from position 1, taken by the active. -/
theorem actOnReply_batch {s : State} {j path : Nat} {r : ReplyRec} (hservice : s.dev.state = .service) (hactive : s.position = 0)
    (hposition : (s.member j).position = 1) (hstate : (s.member j).state ≠ 0) (hok : r.status = stOk) (hlen : r.result.length = 8) :
    ∃ ms, actOnReply j path s r = acknowledged { s with pair := { s.pair with members := ms } } (fld r.result 0 6) true := by
  unfold actOnReply
  rw [if_neg (by rw [hok]; decide), if_neg (not_not.2 hok), if_neg (by rw [hlen]; decide)]
  exact memberHolds_batch hservice hactive hposition hstate

/-! ### The fence (R448) -/

theorem enterRecovery_batches (s : State) (reason : Nat) : (enterRecovery s reason).vault.batches = s.vault.batches := by
  have h : (enterRecovery s reason).spine.batches = s.spine.batches := by
    unfold enterRecovery
    dsimp only
    rw [State.raise_spine]
    rfl
  exact h

theorem enterRecovery_enters (s : State) (reason : Nat) :
    (enterRecovery s reason).dev.state = .recovery ∧ (enterRecovery s reason).boot.cause.reason = reason := by
  unfold enterRecovery
  dsimp only
  rw [State.raise_dev, State.raise_boot]
  exact ⟨rfl, rfl⟩

/-- RECOVERY, for a reason, with the vault NVM as it was. -/
theorem toRecovery_enters (s : State) (reason : Nat) : (toRecovery s reason).dev.state = .recovery ∧
    (toRecovery s reason).boot.cause.reason = reason ∧ (toRecovery s reason).vault.batches = s.vault.batches := by
  unfold toRecovery
  extract_lets s1 s2 s3 boot
  have h0 : (holdBlocks s).spine.batches = s.spine.batches := rfl
  have h1 : s1.spine.batches = s.spine.batches := (congrArg Spine.batches (readyRecovery_spine (holdBlocks s))).trans h0
  have h2 : s2.spine.batches = s1.spine.batches := by
    simp only [s2]
    split
    · rw [passIdentity_spine]
    · rfl
  obtain ⟨hstate, hreason⟩ := enterRecovery_enters s2 reason
  exact ⟨hstate, hreason, (enterRecovery_batches s2 reason).trans (h2.trans h1)⟩

/-- Writing a batch appends one to the vault NVM. -/
theorem writeBatch_batches (s : State) (fenceFlush : Bool) :
    ∃ b : VaultBatch, (writeBatch s fenceFlush).vault.batches = s.vault.batches ++ [b] ∧ b.fenceFlush = fenceFlush := by
  unfold writeBatch
  extract_lets s1
  have h1 : s1.vault.batches = s.vault.batches := by
    simp only [s1]
    split <;> rfl
  rw [← h1]
  exact ⟨_, rfl, rfl⟩

theorem selfFence_fences (s : State) : ∃ b : VaultBatch, (selfFence s).dev.state = .recovery ∧ (selfFence s).boot.cause.reason = 3 ∧
    (selfFence s).vault.batches = s.vault.batches ++ [b] ∧ b.fenceFlush = true := by
  unfold selfFence
  extract_lets s1 s2
  have h1 : s1.vault.batches = s.vault.batches := congrArg Spine.batches (spine_foldl _ s stopSlot_spine)
  obtain ⟨b, hbatch, hflush⟩ := writeBatch_batches s1 true
  obtain ⟨hstate, hreason, hkept⟩ := toRecovery_enters (s2.raise evSelfFence (srcCc 0) 0 (items [(8, s.pair.held)])) 3
  refine ⟨b, hstate, hreason, ?_, hflush⟩
  rw [hkept, State.raise_vault, ← h1]
  exact hbatch

/-! ### Members dropped (R443) -/

theorem setRecord_epoch (s : State) (b : Bytes) : (setRecord s b).spine.epoch = fld b 0 4 := by
  unfold setRecord
  extract_lets n ms own pair p1 p2
  have h1 : p1.epoch = fld b 0 4 := rfl
  have h2 : p2.epoch = p1.epoch := by
    clear_value own p1
    simp only [p2]
    split
    · split <;> rfl
    · rfl
  rw [sealPairing_spine, memberClientKeys_spine, dropMemberChannels_spine]
  exact h2.trans h1

/-- A change of the chain record raises EPOCH by one. -/
theorem changeRecord_epoch (s : State) (count : Nat) (m : Nat → Member) (h : s.pair.epoch + 1 < 2 ^ 32) :
    (changeRecord s count m).spine.epoch = s.pair.epoch + 1 := by
  unfold changeRecord
  extract_lets b
  rw [openMemberChannels_spine, State.journal_spine, setRecord_epoch]
  simp only [b, chainRecordBytes, List.append_assoc]
  rw [fld_beBytes_append]
  exact Nat.mod_eq_of_lt h

theorem execMemberDrop_epoch (s : State) (k : Nat) (hpaired : s.paired = true) (hservice : s.dev.state = .service)
    (hepoch : s.pair.epoch + 1 < 2 ^ 32) (hstate : (s.member k).state ≠ 0) (hposition : (s.member k).position = s.position + 1)
    (hA : 1024 ≤ (s.member k).silentA) (hB : 1024 ≤ (s.member k).silentB) :
    ∃ u : State, execMemberDrop k s = .next u ∧ u.pair.epoch = s.pair.epoch + 1 := by
  unfold execMemberDrop
  extract_lets m pos s1 s2
  have h2 : s2.spine.epoch = s.pair.epoch + 1 := by
    simp only [s2, s1, State.raise_spine, State.pairEvent_spine]
    exact changeRecord_epoch s _ _ hepoch
  rw [if_pos ⟨hpaired, .inl hservice, hstate, hposition, hA, hB⟩]
  clear_value s2
  split
  · exact ⟨s2, rfl, h2⟩
  · extract_lets held
    split
    · exact ⟨_, rfl, (congrArg Spine.epoch (resend_spine ..)).trans h2⟩
    · exact ⟨_, rfl, (congrArg Spine.epoch (beginSnapshot_spine ..)).trans h2⟩

/-! ### Takeover, consolidation, drain -/

theorem declareTakeover_declares (s : State) (cause : Nat) (hnone : s.pair.takeover = none) (hstandby : s.dev.state = .standby)
    (hin : (s.member s.pair.slot).state = 1) :
    (declareTakeover s cause).pair = { s.pair with takeover := some (s.folio.now, cause) } ∧
      declareTakeover s cause = { s with pair := (declareTakeover s cause).pair, recorder := (declareTakeover s cause).recorder } := by
  unfold declareTakeover
  rw [if_neg (by simp [hnone, hstandby, hin])]
  obtain ⟨r, hr⟩ := State.raise_changes_recorder { s with pair := { s.pair with takeover := some (s.folio.now, cause) } }
    evTakeoverDeclared (srcCc 0) 0 (items [(1, cause), (4, s.pair.epoch)])
  rw [hr]
  exact ⟨rfl, rfl⟩

/-- A drain with no reply owed and no handover under way restarts the device. -/
theorem execDrainEnd_done {s : State} {f : Nat} {r : Restart} (hdrain : s.boot.drain = some (f, r))
    (howed : ∀ p ∈ s.sq.slots, p.2.owed = false) (hservice : s.dev.state = .service) (hhandover : s.pair.handover = none) :
    ∃ u : State, execDrainEnd s = .next u ∧ u.dev.state = .reset ∧ u.boot.restart = some r ∧ u.sq = {} ∧
      u.vault.batches = s.vault.batches := by
  have hany : ¬ (s.sq.slots.any (fun p => p.2.owed) = true ∨ ¬ (s.dev.state = .service ∨ s.dev.state = .standby)) := by
    simp [hservice]
    simpa using howed
  unfold execDrainEnd
  rw [hdrain]
  dsimp only
  rw [if_neg hany, hhandover]
  refine ⟨_, rfl, rfl, rfl, rfl, ?_⟩
  exact congrArg Spine.batches (State.raise_spine ..)

theorem execDrainEnd_owed {s : State} {p : Nat × Slot} (hp : p ∈ s.sq.slots) (howed : p.2.owed = true) :
    execDrainEnd s = .next s := by
  have hany : s.sq.slots.any (fun p => p.2.owed) = true := List.any_eq_true.2 ⟨p, hp, howed⟩
  unfold execDrainEnd
  split
  · rfl
  · rw [if_pos (.inl hany)]

/-- Settles O59: each command by its own lemma above. -/
theorem chainOfMembers : Obligations.ChainOfMembers := by
  intro s
  refine ⟨?taken, ?notTaken, ?batch, ?fence, ?noFence, ?takeover, ?drop, ?consolidate, ?nothing, ?drain, ?noDrain⟩
  case taken =>
    intro i c x b pt u j htake hmember
    have harrives : repArrives s i = (replyRecs (fld b 2 2 / 1024) pt).foldl (actOnReply j x.phys) u := by
      unfold repArrives
      rw [htake]
      dsimp only
      rw [hmember]
    exact ⟨congrArg Host.Outcome.next harrives, congrArg Host.Outcome.next harrives⟩
  case notTaken =>
    intro i u htake
    have harrives : repArrives s i = u := by
      unfold repArrives
      rw [htake]
    exact ⟨congrArg Host.Outcome.next harrives, congrArg Host.Outcome.next harrives⟩
  case batch =>
    intro j path r hservice hactive hposition hstate hhandover hconfirmed hok hlen h u
    obtain ⟨ms, hms⟩ := actOnReply_batch (path := path) hservice hactive hposition hstate hok hlen
    rw [show u = acknowledged _ h true from hms]
    exact acknowledged_batch _ h hconfirmed hhandover
  case fence =>
    intro harmed hsilent
    obtain ⟨b, hstate, hreason, hbatch, hflush⟩ := selfFence_fences s
    exact ⟨_, b, if_pos ⟨harmed, hsilent⟩, hstate, hreason, hbatch, hflush⟩
  case noFence =>
    intro h
    refine if_neg fun hboth => ?_
    rcases h with h | h
    · simp [h] at hboth
    · omega
  case takeover =>
    intro hpaired hstandby htimer hposition hin hnone
    constructor
    · intro hsilent
      exact ⟨_, if_pos ⟨hpaired, hstandby, htimer, hposition, hsilent⟩, declareTakeover_declares s 0 hnone hstandby hin⟩
    · intro hheard
      exact if_neg fun hboth => by omega
  case drop =>
    intro k hpaired hservice hepoch hstate hposition
    constructor
    · exact execMemberDrop_epoch s k hpaired hservice hepoch hstate hposition
    · intro hheard
      exact if_neg fun hboth => by omega
  case consolidate =>
    intro g rs rest hlog
    exact congrArg Host.Outcome.next (by unfold consolidateOldest; rw [hlog])
  case nothing =>
    intro hlog
    exact congrArg Host.Outcome.next (by unfold consolidateOldest; rw [hlog])
  case drain =>
    intro f r hdrain
    exact ⟨execDrainEnd_done hdrain, fun p hp howed => execDrainEnd_owed hp howed⟩
  case noDrain =>
    intro hdrain
    change execDrainEnd s = .next s
    unfold execDrainEnd
    rw [hdrain]

end Sys2Proof.Machine
end

section
/-! SUPPORT. Chapter 03 (family 03_ports_and_request_protocol), functions: the continuations of HS_RESPOND and REC_HEAD past
their checks, what HS_FINISH and REC_READ give, and the statement about the four functions. -/

namespace Sys2Proof.Machine

open Sys2Proof

/-- A request ends alike by two functions that compute the same outcome and state. -/
theorem State.endedBy_congr (s : State) (k : Nat) {f g : Fn FnRes} {t u : State} (h : runFnOn f t = runFnOn g u) :
    s.endedBy k f t = s.endedBy k g u := by
  rw [State.endedBy, State.endedBy, h]

/-- A check that passes leaves what follows it. -/
theorem runFnOn_need_pos {c : Bool} (hc : c = true) (st : Nat) (g : Unit → Fn FnRes) (s : State) :
    runFnOn (Fn.need c st >>= g) s = runFnOn (g ()) s := by
  rw [runFnOn_need, if_pos hc]

theorem hsFinishFn_gives {x : Slot} {s : State}
    (hdigest : sha384B (s.clientKey (s.chan x.chan).tenant (s.chan x.chan).clientKey).pub =
      (s.clientKey (s.chan x.chan).tenant (s.chan x.chan).clientKey).digest)
    (hpoint : let key := s.clientKey (s.chan x.chan).tenant (s.chan x.chan).clientKey
      key.alg = 1 → fld key.pub 0 1 = 4 ∧ fld key.pub 1 48 < p384.p ∧ fld key.pub 49 48 < p384.p ∧
        p384.has (fld key.pub 1 48) (fld key.pub 49 48) = true) :
    let p := x.payload
    let n := (p.length - 48) / 2
    let c := s.chan x.chan
    let key := s.clientKey c.tenant c.clientKey
    let hs3 := p.take 32 ++ p.drop (32 + n)
    (hsFinishFn x).gives s
      { effects := [if clientSigned key (clientMessage c.hs1 c.hs2) (slice p 32 n) then
          .channelOpen x.chan (trafficKey c.prk "SKZ2 c2d" c.hs1 c.hs2 hs3) (trafficKey c.prk "SKZ2 d2c" c.hs1 c.hs2 hs3)
        else .channelRefuse x.chan] } s := by
  intro p n c key hs3
  have hkey : (sha384B key.pub == key.digest && (key.alg != 1 || (fld key.pub 0 1 == 4 &&
      decide (fld key.pub 1 48 < p384.p ∧ fld key.pub 49 48 < p384.p) &&
      p384.has (fld key.pub 1 48) (fld key.pub 49 48)))) = true := by
    by_cases halg : key.alg = 1
    · obtain ⟨htag, hx, hy, hcurve⟩ := hpoint halg
      simp [key, c, hdigest, htag, hx, hy, hcurve]
    · simp [key, c, hdigest, halg]
  refine Fn.gives_bind (Fn.get_gives s) (Fn.gives_bind (Fn.need_gives hkey) ?_)
  by_cases hsigned : clientSigned key (clientMessage c.hs1 c.hs2) (slice p 32 n) = true
  · rw [if_pos hsigned, if_pos hsigned]
    exact Fn.done_gives _ _ s
  · rw [if_neg hsigned, if_neg hsigned]
    exact Fn.done_gives _ _ s

theorem recReadFn_gives {x : Slot} {s : State} (hlayout : layoutOk x.payload 12 [(5, 3)] = true) (harea : fld x.payload 4 1 ≤ 1) :
    let l := if fld x.payload 4 1 = 0 then s.recorder.tail else s.recorder.front
    let seen := l.filter (fun q => decide (fld x.payload 8 4 ≤ q.1 ∧ q.1 < fld x.payload 8 4 + 8) &&
      (x.tenant == 0 || q.2.tenant == x.tenant))
    (recReadFn x).gives s
      { result := beBytes 1 seen.length ++ zeros 7 ++ seen.flatMap (fun q => beBytes 4 q.1 ++ zeros 4 ++ recordBytes q.2) } s := by
  intro l seen
  have hseen : (l.filter (fun q => decide (fld x.payload 8 4 ≤ q.1 ∧ q.1 < fld x.payload 8 4 + 8))).filter
      (fun q => x.tenant == 0 || q.2.tenant == x.tenant) = seen := by
    rw [List.filter_filter]
    exact List.filter_congr fun q _ => Bool.and_comm _ _
  rw [← hseen]
  exact Fn.gives_bind (Fn.need_gives (by simp [hlayout, harea])) (Fn.gives_bind (Fn.get_gives s) (Fn.done_gives _ _ s))

/-- Settles O26: HS_RESPOND and REC_HEAD by what follows their checks, HS_FINISH and REC_READ by what they give. -/
theorem handshakeAndRecorderFunctions : Obligations.HandshakeAndRecorderFunctions := by
  intro s k x p t
  refine ⟨?respond, ?finish, ?head, ?read⟩
  case respond =>
    intro rnd s1 c ek eph kem clear h msg hmay hreduced hdraw
    refine congrArg Host.Outcome.next ((serveFn_ended _ hmay).trans (s.endedBy_congr k ?_))
    refine (runFnOn_get _ t).trans ((runFnOn_need_pos ?_ _ _ t).trans (runFnOn_bind _ hdraw))
    exact congrArg not hreduced
  case finish =>
    intro n c key hs3 hmay hdigest hpoint
    exact congrArg Host.Outcome.next (serveFn_gives _ hmay (hsFinishFn_gives hdigest hpoint))
  case head =>
    intro n hmay hn hlayout h16 h64 h
    subst hn
    have hok : (layoutOk p (8 + fld p 4 1) [(5, 3)] && decide (16 ≤ fld p 4 1 ∧ fld p 4 1 ≤ 64)) = true := by
      simp [hlayout, h16, h64]
    refine congrArg Host.Outcome.next ((serveFn_ended _ hmay).trans (s.endedBy_congr k ?_))
    exact (runFnOn_need_pos hok _ _ t).trans (runFnOn_get _ t)
  case read =>
    intro hmay hlayout harea l seen
    exact congrArg Host.Outcome.next (serveFn_gives _ hmay (recReadFn_gives hlayout harea))

end Sys2Proof.Machine
end

section
/-! SUPPORT. Chapter 03 (family 03_ports_and_request_protocol), ports: what a write of a port leaves, what a received frame can
touch, and the statement about frames that arrive. -/

namespace Sys2Proof.Machine

open Sys2Proof

/-! ### A port after a write

A port with link is not the unlisted value, so that a write that keeps the link is read back whatever the table. -/

@[simp] theorem State.port_modPort_linked (s : State) {i : Nat} {f : Port → Port} (h : (f (s.port i)).link = true) :
    (s.modPort i f).port i = f (s.port i) :=
  tabGet_put_new _ _ fun hnew => absurd (h.symm.trans (congrArg Port.link hnew)) (by decide)

/-- A port with `n` more in its counter `k`, and one with bit `b` of its PORT_EVENTS set. -/
def Port.counted (p : Port) (k n : Nat) : Port := { p with counters := bump p.counters k n }
def Port.marked (p : Port) (b : Nat) : Port := { p with events := p.events ||| BitVec.ofNat 6 (2 ^ b) }

@[simp] theorem Port.counted_link (p : Port) (k n : Nat) : (p.counted k n).link = p.link := rfl
@[simp] theorem Port.counted_cfg (p : Port) (k n : Nat) : (p.counted k n).cfg = p.cfg := rfl
@[simp] theorem Port.counted_addr4 (p : Port) (k n : Nat) : (p.counted k n).addr4 = p.addr4 := rfl
@[simp] theorem Port.counted_addr6 (p : Port) (k n : Nat) : (p.counted k n).addr6 = p.addr6 := rfl
@[simp] theorem Port.counted_events (p : Port) (k n : Nat) : (p.counted k n).events = p.events := rfl
@[simp] theorem Port.counted_ingress (p : Port) (k n : Nat) : (p.counted k n).ingress = p.ingress := rfl
@[simp] theorem Port.marked_link (p : Port) (b : Nat) : (p.marked b).link = p.link := rfl
@[simp] theorem Port.marked_ipReady (p : Port) (b : Nat) : (p.marked b).ipReady = p.ipReady := rfl
@[simp] theorem Port.marked_ingress (p : Port) (b : Nat) : (p.marked b).ingress = p.ingress := rfl

@[simp] theorem State.port_portCnt (s : State) {i : Nat} (k n : Nat) (h : (s.port i).link = true) :
    (s.portCnt i k n).port i = (s.port i).counted k n :=
  s.port_modPort_linked h

@[simp] theorem State.port_portEvent (s : State) {i : Nat} (b : Nat) (h : (s.port i).link = true) :
    (s.portEvent i b).port i = (s.port i).marked b :=
  s.port_modPort_linked h

theorem State.port_congr {s t : State} (h : t.ports = s.ports) (j : Nat) : t.port j = s.port j := by
  rw [State.port, State.port, h]

@[simp] theorem State.port_pmcPort (s : State) (i j ev n : Nat) : (s.pmcPort i ev n).port j = s.port j :=
  State.port_congr (s.pmcPort_ports i ev n) j

@[simp] theorem State.port_raise (s : State) (j code source tenant : Nat) (data : Bytes) :
    (s.raise code source tenant data).port j = s.port j :=
  State.port_congr (s.raise_ports code source tenant data) j

/-! ### What a frame can touch -/

/-- A state without its ports, performance counters and recorder: all that no received frame may change. -/
def State.bare (s : State) : State := { s with ports := [], pmc := {}, recorder := {} }

theorem State.eq_of_bare {s u : State} (h : u.bare = s.bare) :
    u = { s with ports := u.ports, pmc := u.pmc, recorder := u.recorder } := calc
  u = { u.bare with ports := u.ports, pmc := u.pmc, recorder := u.recorder } := rfl
  _ = { s.bare with ports := u.ports, pmc := u.pmc, recorder := u.recorder } := by rw [h]

@[simp] theorem State.pmcPort_bare (s : State) (i ev n : Nat) : (s.pmcPort i ev n).bare = s.bare := by
  obtain ⟨p, r, h⟩ := s.pmcEvent_changes_pmc (832 + 4 * i) 4 ev n
  rw [State.pmcPort, h]
  rfl

/-- `u` is `s` but for port `i`, the performance counters and the recorder. -/
def State.AtPort (s u : State) (i : Nat) : Prop := u.bare = s.bare ∧ ∀ j, j ≠ i → u.port j = s.port j

theorem State.AtPort.refl (s : State) (i : Nat) : s.AtPort s i := ⟨rfl, fun _ _ => rfl⟩

section Steps

variable {s t : State} {i : Nat} (h : s.AtPort t i)
include h

theorem State.AtPort.modPort (f : Port → Port) : s.AtPort (t.modPort i f) i :=
  ⟨h.1, fun j hj => (t.port_modPort_other f hj).trans (h.2 j hj)⟩

theorem State.AtPort.portCnt (k n : Nat) : s.AtPort (t.portCnt i k n) i := h.modPort _
theorem State.AtPort.portEvent (b : Nat) : s.AtPort (t.portEvent i b) i := h.modPort _

theorem State.AtPort.pmcPort (ev n : Nat) : s.AtPort (t.pmcPort i ev n) i :=
  ⟨(t.pmcPort_bare i ev n).trans h.1, fun j hj => (t.port_pmcPort i j ev n).trans (h.2 j hj)⟩

end Steps

/-- The datagram of a received frame, with its addresses. -/
def RxFrame.dgram (f : RxFrame) (i : Nat) : Dgram :=
  { lport := i, bytes := f.payload, src :=
    { mac := f.srcMac, ip := f.srcIp, v6 := f.v6, port := f.udpSrc, dstIp := f.dstIp, vlan := f.tags.head?.map (·.2) } }

/-- A datagram joins the end of a port's ingress buffer. -/
def State.deliver (s : State) (i : Nat) (d : Dgram) : State := s.modPort i (fun p => { p with ingress := p.ingress ++ [d] })

/-- The IP and UDP layers let a frame pass to another protocol, count it, or deliver its datagram. -/
theorem rxIp_cases (s : State) (i : Nat) (f : RxFrame) :
    rxIp s i f = s ∨ (∃ k, rxIp s i f = s.portCnt i k 1) ∨ rxIp s i f = s.deliver i (f.dgram i) := by
  unfold rxIp
  extract_lets own ptpGroup src
  generalize (if f.v6 then 58 else 1) = icmp
  split
  · exact .inr (.inl ⟨13, rfl⟩)
  · split
    · exact .inl rfl
    · split
      · exact .inr (.inl ⟨13, rfl⟩)
      · split
        · exact .inr (.inl ⟨13, rfl⟩)
        · split
          · exact .inr (.inr rfl)
          · split
            · exact .inr (.inl ⟨17, rfl⟩)
            · exact .inr (.inl ⟨16, rfl⟩)

theorem State.AtPort.rxIp {s t : State} {i : Nat} (h : s.AtPort t i) (f : RxFrame) : s.AtPort (rxIp t i f) i := by
  obtain hpass | ⟨k, hcount⟩ | hdeliver := rxIp_cases t i f
  · rw [hpass]
    exact h
  · rw [hcount]
    exact h.portCnt k 1
  · rw [hdeliver]
    exact h.modPort _

/-- A port's counters and performance counters after a frame of good length and FCS. -/
def State.countFrame (s : State) (i : Nat) (f : RxFrame) : State :=
  ((s.portCnt i 0 1).portCnt i 1 f.len |>.pmcPort i 0x10 1).pmcPort i 0x12 (f.len / 64)

theorem State.countFrame_atPort (s : State) (i : Nat) (f : RxFrame) : s.AtPort (s.countFrame i f) i :=
  ((((State.AtPort.refl s i).portCnt 0 1).portCnt 1 f.len).pmcPort 0x10 1).pmcPort 0x12 (f.len / 64)

theorem rxFrame_atPort (s : State) (i : Nat) (f : RxFrame) : s.AtPort (rxFrame s i f) i := by
  have hs := State.AtPort.refl s i
  unfold rxFrame
  extract_lets p t dropped u
  have ht : s.AtPort t i := s.countFrame_atPort i f
  have hu : s.AtPort u i := (ht.modPort _).portCnt 9 1
  split
  · exact hs.portCnt 5 1
  split
  · exact hs.portCnt 4 1
  split
  · exact ((ht.portCnt 10 1).portEvent 4).pmcPort 0x14 1
  split
  · exact (ht.portCnt 11 1).pmcPort 0x14 1
  split
  · exact ((ht.portCnt 12 1).portEvent 5).pmcPort 0x14 1
  split
  · split
    · exact (ht.portCnt 8 1).pmcPort 0x14 1
    split
    · exact (hu.portCnt 11 1).pmcPort 0x14 1
    split
    · exact hu.rxIp _
    split
    · exact hu.portCnt 17 1
    · exact hu
  split
  · exact (ht.portCnt 11 1).pmcPort 0x14 1
  split
  · exact ht.rxIp _
  split
  · exact ht.portCnt 17 1
  · exact ht

/-! ### The filters -/

@[simp] theorem State.port_countFrame (s : State) {i : Nat} (f : RxFrame) (h : (s.port i).link = true) :
    (s.countFrame i f).port i = ((s.port i).counted 0 1).counted 1 f.len := by
  simp [State.countFrame, h]

theorem State.dstAccepted_congr {s t : State} {i : Nat} (h : (t.port i).cfg = (s.port i).cfg) (dst : Nat) :
    t.dstAccepted i dst = s.dstAccepted i dst := by
  simp only [State.dstAccepted, h]

theorem State.own4_congr {s t : State} {i : Nat} (hcfg : (t.port i).cfg = (s.port i).cfg) (haddr : (t.port i).addr4 = (s.port i).addr4)
    (hdev : t.dev = s.dev) (hpair : t.pair = s.pair) (ip : Nat) : t.own4 i ip = s.own4 i ip := by
  simp only [State.own4, State.holdsService, State.paired, hcfg, haddr, hdev, hpair]

theorem rxFrame_filtered {s : State} {i : Nat} {f : RxFrame} (hlink : (s.port i).link = true) (hdst : s.dstAccepted i f.dst = false) :
    ((rxFrame s i f).port i).ingress = (s.port i).ingress := by
  unfold rxFrame
  extract_lets p t dropped u
  have ht : t.port i = ((s.port i).counted 0 1).counted 1 f.len := s.port_countFrame f hlink
  have hrefused : ¬ t.dstAccepted i f.dst = true := by
    rw [State.dstAccepted_congr (s := s) (by simp [ht]), hdst]
    decide
  clear_value t
  split
  · simp [hlink]
  split
  · simp [hlink]
  split
  · simp [dropped, ht, hlink]
  · simp [dropped, ht, hlink]

theorem rxIp_delivers {s : State} {i : Nat} {f : RxFrame} (hok : f.ipOk = true) (hv4 : f.v6 = false) (hudp : f.proto = 17)
    (hown : s.own4 i f.dstIp = true) (hsum : f.udpSumOk = true) (hnonzero : f.udpZeroSum = false) (hport : f.udpDst = s.srp.udpPort) :
    rxIp s i f = s.deliver i (f.dgram i) := by
  unfold rxIp
  extract_lets own ptpGroup src
  have howned : own = true := by simp [own, hv4, hown]
  rw [if_neg (not_not.2 hok), if_neg (by simp [hv4, hudp]), if_neg (by simp [hudp, howned]), if_neg (by simp [hsum, hnonzero]),
    if_pos hport]
  rfl

/-- An untagged IPv4 frame that the filters let pass, on a port without MACsec and VLANs, goes to the IP layer. -/
theorem rxFrame_ipv4 {s : State} {i : Nat} {f : RxFrame} (hlink : (s.port i).link = true) (hmin : 64 ≤ f.len) (hmax : f.len ≤ 9216)
    (hfcs : f.fcsOk = true) (htype : f.ethertype = 0x0800) (hdst : s.dstAccepted i f.dst = true) (hroom : f.bufferFull = false)
    (hplain : (s.port i).cfg.macsec = false) (hvlan : (s.port i).cfg.vlan = 0) (htags : f.tags = []) :
    rxFrame s i f = rxIp (s.countFrame i f) i { f with v6 := false } := by
  unfold rxFrame
  extract_lets p t dropped u
  have hcfg : (t.port i).cfg = (s.port i).cfg  :=
    (congrArg Port.cfg (s.port_countFrame f hlink) :)
  have haccepted : t.dstAccepted i f.dst = true := (State.dstAccepted_congr hcfg _).trans hdst
  have htagged : p.vlanAccepted f.tags = true := by simp [Port.vlanAccepted, p, hvlan, htags]
  rw [if_neg (by omega), if_neg (not_not.2 hfcs), if_neg (by simp [htype]), if_neg (not_not.2 haccepted), if_neg (by simp [hroom]),
    if_neg (by simp [p, hplain]), if_neg (not_not.2 htagged), if_pos (.inl htype), htype]
  rfl

/-- Settles O41: what a frame can touch by `rxFrame_atPort`, its filters and its delivery by their lemmas above. -/
theorem framesArrive : Obligations.FramesArrive := by
  intro s i f p
  constructor
  · intro hidle
    refine if_neg fun ⟨hport, hlink, hlife⟩ => ?_
    simp [p, hport, hlink, hlife] at hidle
  · intro hport hlink hlife
    obtain ⟨hbare, hothers⟩ := rxFrame_atPort s i f
    refine ⟨rxFrame s i f, if_pos ⟨hport, hlink, hlife⟩, State.eq_of_bare hbare, hothers, ?length, ?fcs, rxFrame_filtered hlink,
      ?deliver⟩
    case length =>
      intro hlen
      exact if_pos hlen
    case fcs =>
      intro hmin hmax hfcs
      exact (if_neg (by omega)).trans (if_pos (by simp [hfcs]))
    case deliver =>
      intro hmin hmax hfcs htype hdst hroom hplain hvlan htags hok hudp hown hsum hnonzero hsrp
      have hcount := s.port_countFrame f hlink
      have howned : (s.countFrame i f).own4 i f.dstIp = true :=
        (State.own4_congr (by simp [hcount]) (by simp [hcount]) (by simp [State.countFrame]) (by simp [State.countFrame]) _).trans hown
      rw [rxFrame_ipv4 hlink hmin hmax hfcs htype hdst hroom hplain hvlan htags,
        rxIp_delivers (f := { f with v6 := false }) hok rfl hudp howned hsum hnonzero (by simp [State.countFrame, hsrp])]
      simp [State.deliver, RxFrame.dgram, hcount, hlink, htags, p]

end Sys2Proof.Machine
end

section
/-! SUPPORT. Chapter 03 (family 03_ports_and_request_protocol), neighbours and MKA: each command on a port that takes part in IP
traffic, and the statement about them. -/

namespace Sys2Proof.Machine

open Sys2Proof

/-! ### Own addresses -/

theorem State.own6_congr {s t : State} {i : Nat} (hcfg : (t.port i).cfg = (s.port i).cfg) (haddr : (t.port i).addr6 = (s.port i).addr6)
    (hdev : t.dev = s.dev) (hpair : t.pair = s.pair) (ip : Nat) : t.own6 i ip = s.own6 i ip := by
  simp only [State.own6, State.holdsService, State.paired, hcfg, haddr, hdev, hpair]

@[simp] theorem State.own4_portCnt (s : State) {i : Nat} (k n ip : Nat) (h : (s.port i).link = true) :
    (s.portCnt i k n).own4 i ip = s.own4 i ip :=
  State.own4_congr (s := s) (t := s.portCnt i k n) (by simp [h]) (by simp [h]) rfl rfl ip

@[simp] theorem State.own6_portCnt (s : State) {i : Nat} (k n ip : Nat) (h : (s.port i).link = true) :
    (s.portCnt i k n).own6 i ip = s.own6 i ip :=
  State.own6_congr (s := s) (t := s.portCnt i k n) (by simp [h]) (by simp [h]) rfl rfl ip

/-- An own address is one that the port lists. -/
theorem State.own4_listed {s : State} {i ip : Nat} (h : s.own4 i ip = true) : (s.port i).cfg.ipv4.any (fun e => e.2 == ip) = true := by
  simp only [State.own4, Bool.and_eq_true, List.any_eq_true] at h ⊢
  obtain ⟨-, e, hmem, ⟨hip, -⟩, -⟩ := h
  exact ⟨e, hmem, hip⟩

theorem State.own6_listed {s : State} {i ip : Nat} (h : s.own6 i ip = true) : (s.port i).cfg.ipv6.any (fun e => e.2 == ip) = true := by
  simp only [State.own6, Bool.and_eq_true, List.any_eq_true] at h ⊢
  obtain ⟨-, e, hmem, ⟨hip, -⟩, -⟩ := h
  exact ⟨e, hmem, hip⟩

theorem any_addr_eq_false {l : List (Nat × Nat)} {ip : Nat} (h : ∀ e ∈ l, e.2 ≠ ip) : l.any (fun e => e.2 == ip) = false :=
  List.any_eq_false.2 fun e hmem he => h e hmem (eq_of_beq he)

/-! ### Neighbours and conflicts -/

/-- A neighbour heard of in a counted message is the newest entry of the cache, and nothing but the ports changes. -/
theorem addNeighbour_newest (s : State) {i : Nat} (ip mac : Nat) (hlink : (s.port i).link = true) :
    let u := addNeighbour (s.portCnt i 19 1) i ip mac
    (u.port i).neighbours.getLast? = some { addr := ip, mac := mac, since := s.second } ∧ u = { s with ports := u.ports } := by
  refine ⟨?_, rfl⟩
  rw [addNeighbour, State.port_modPort_linked]
  · exact List.getLast?_concat
  · simp [hlink]

theorem addrConflict_port (s : State) {i : Nat} (ip : Nat) (hlink : (s.port i).link = true) :
    ((addrConflict (s.portCnt i 19 1) i ip).port i).ipReady = false ∧
      ((addrConflict (s.portCnt i 19 1) i ip).port i).events = (s.port i).events ||| 8 := by
  have hcount := s.port_portCnt 19 1 hlink
  have hlinked : ((s.portCnt i 19 1).port i).link = true := by simp [hlink]
  unfold addrConflict
  extract_lets s1
  have h1 : s1.port i = _ := State.port_modPort_linked (s.portCnt i 19 1) hlinked
  rw [State.port_raise, State.port_portEvent s1 3 (by rw [h1]; exact hlinked), h1]
  exact ⟨rfl, congrArg (fun p => p.events ||| 8) hcount⟩

section Traffic

variable {s : State} {i : Nat} (hruns : s.ipRuns i = true) (hlink : (s.port i).link = true)
include hruns hlink

theorem execArpRequestReceive_answers (mac ip t : Nat) : execArpRequestReceive i mac ip t s = .next (if s.own4 i t then
    (s.portCnt i 19 1).sendAllowed i 64 { bytes := arpPacket 2 (s.port i).cfg.mac t mac ip, dst := { mac := mac, ip := ip } }
    else s.portCnt i 19 1) := by
  unfold execArpRequestReceive
  simp only [if_pos hruns, State.own4_portCnt s 19 1 t hlink]
  split <;> rfl

theorem execNeighbourSolicitationReceive_answers (mac ip t : Nat) :
    execNeighbourSolicitationReceive i mac ip t s = .next (if s.own6 i t then
    (s.portCnt i 19 1).sendAllowed i 90 { bytes := ndPacket 136 t (s.port i).cfg.mac, dst := { mac := mac, ip := ip, v6 := true } }
    else s.portCnt i 19 1) := by
  unfold execNeighbourSolicitationReceive
  simp only [if_pos hruns, State.own6_portCnt s 19 1 t hlink]
  split <;> rfl

end Traffic

section Replies

variable {s : State} {i mac ip : Nat} (hruns : s.ipRuns i = true)
include hruns

theorem execArpReplyReceive_resolves (hother : ∀ e ∈ (s.port i).cfg.ipv4, e.2 ≠ ip) :
    execArpReplyReceive i mac ip s = .next (addNeighbour (s.portCnt i 19 1) i ip mac) :=
  (if_pos hruns).trans (if_neg fun ⟨hlisted, _⟩ => Bool.false_ne_true ((any_addr_eq_false hother).symm.trans hlisted))

theorem execNeighbourAdvertisementReceive_resolves (hother : ∀ e ∈ (s.port i).cfg.ipv6, e.2 ≠ ip) :
    execNeighbourAdvertisementReceive i mac ip s = .next (addNeighbour (s.portCnt i 19 1) i ip mac) :=
  (if_pos hruns).trans (if_neg fun ⟨hlisted, _⟩ => Bool.false_ne_true ((any_addr_eq_false hother).symm.trans hlisted))

theorem execArpReplyReceive_conflicts (hmac : mac ≠ (s.port i).cfg.mac) (hown : s.own4 i ip = true) :
    execArpReplyReceive i mac ip s = .next (addrConflict (s.portCnt i 19 1) i ip) :=
  (if_pos hruns).trans ((if_pos ⟨State.own4_listed hown, hmac⟩).trans (if_pos hown))

theorem execNeighbourAdvertisementReceive_conflicts (hmac : mac ≠ (s.port i).cfg.mac) (hown : s.own6 i ip = true) :
    execNeighbourAdvertisementReceive i mac ip s = .next (addrConflict (s.portCnt i 19 1) i ip) :=
  (if_pos hruns).trans ((if_pos ⟨State.own6_listed hown, hmac⟩).trans (if_pos hown))

end Replies

theorem execDadComplete_passes {s : State} {i j : Nat} (hruns : s.ipRuns i = true) (hlink : (s.port i).link = true)
    (hprobing : tabGet .untested (s.port i).addr6 j = .probing) :
    ∃ u : State, execDadComplete i j s = .next u ∧ tabGet .untested (u.port i).addr6 j = .ok ∧ u = { s with ports := u.ports } := by
  refine ⟨_, if_pos ⟨hruns, hprobing⟩, ?_, rfl⟩
  rw [State.port_modPort_linked s hlink]
  exact tabGet_put_new (d := AddrState.untested) _ j (v := .ok) (by decide)

/-- In a second in which the port has already counted, the counts stand. -/
theorem State.port_atSecond {s : State} {i : Nat} (hlink : (s.port i).link = true) (hsecond : (s.port i).second = s.second) :
    (s.modPort i (fun p => p.atSecond s.second)).port i = s.port i := by
  have hsame : (s.port i).atSecond s.second = s.port i := if_pos hsecond
  rw [State.port_modPort_linked s (by rw [hsame, hlink]), hsame]

theorem execNeighbourEntryExpiry_expires {s : State} {i : Nat} (ip : Nat) (hlink : (s.port i).link = true) :
    ∃ u : State, execNeighbourEntryExpiry i ip s = .next u ∧ u = { s with ports := u.ports } ∧
      ∀ n, n ∈ (u.port i).neighbours ↔ n ∈ (s.port i).neighbours ∧ ¬ (n.addr = ip ∧ n.since + 300 ≤ s.second) := by
  refine ⟨_, rfl, rfl, fun n => ?_⟩
  rw [State.port_modPort_linked s hlink]
  rw [List.mem_filter]
  refine and_congr_right fun _ => ?_
  rw [Bool.not_eq_true', ← Bool.not_eq_true, Bool.and_eq_true, beq_iff_eq, decide_eq_true_eq]
  rfl

/-! ### MKA (R57) -/

/-- A port that has heard an MKA message of a peer that proves its CAK. -/
def Port.heard (p : Port) (peer : Nat) : Port :=
  Port.refreshLive { p with peers := if p.peers.contains peer then p.peers else p.peers ++ [peer] }

theorem Port.mem_heard (p : Port) (peer : Nat) : peer ∈ (p.heard peer).peers := by
  simp only [Port.heard, Port.refreshLive]
  split
  · next hknown => exact List.contains_iff_mem.1 hknown
  · exact List.mem_append_right _ (List.mem_singleton_self _)

theorem installSak_port (s : State) {i : Nat} (peer an kn : Nat) (sak : Bytes) (hlink : (s.port i).link = true) :
    ((installSak s i peer an kn sak).port i).peers = (s.port i).peers ∧
      ((installSak s i peer an kn sak).port i).macsecLive = !(s.port i).peers.isEmpty ∧
      ((installSak s i peer an kn sak).port i).txSa =
        some { sci := (s.port i).cfg.mac * 65536 + 1, an := an, keyNumber := kn, sak := sak, nextPn := 1 } := by
  unfold installSak
  extract_lets sa s1
  rw [State.port_raise, State.port_modPort_linked s hlink]
  exact ⟨rfl, rfl, rfl⟩

/-- An MKA message that proves the port's CAK: its sender is a live peer, and a SAK that unwraps is the transmit SA. -/
theorem execMkaFrameReceive_proves {s : State} {i : Nat} {m : MkaMsg} (hport : s.portRuns i = true) (hlink : (s.port i).link = true)
    (hmacsec : (s.port i).cfg.macsec = true) (hcak : (s.port i).cak ≠ []) (hicv : m.icvOk = true) :
    ∃ u : State, execMkaFrameReceive i m s = .next u ∧ m.peer ∈ (u.port i).peers ∧
      ∀ an kn w, m.sak = some (an, kn, w) →
        (∀ k, keyUnwrap (mkaKek (s.port i).cak (s.port i).ckn) w = some k → (u.port i).macsecLive = true ∧
          (u.port i).txSa.map (fun a => (a.an, a.keyNumber, a.sak, a.nextPn)) = some (an, kn, k, 1)) ∧
        (keyUnwrap (mkaKek (s.port i).cak (s.port i).ckn) w = none → (u.port i).txSa = (s.port i).txSa) := by
  unfold execMkaFrameReceive
  extract_lets p s1
  rw [if_neg (not_not.2 ⟨hport, hlink, hmacsec, hcak, hicv⟩)]
  have hs1 : s1.port i = (s.port i).heard m.peer := State.port_modPort_linked s hlink
  have hpeer : m.peer ∈ (s1.port i).peers := hs1 ▸ (s.port i).mem_heard m.peer
  have hlink1 : (s1.port i).link = true := hs1 ▸ hlink
  have htxSa : (s1.port i).txSa = (s.port i).txSa := hs1 ▸ rfl
  clear_value s1
  cases hsak : m.sak with
  | none =>
    dsimp only
    split
    · obtain ⟨hpeers, -, -⟩ := installSak_port (s1.random 32).2 m.peer 0 1 (s1.random 32).1 hlink1
      exact ⟨_, rfl, hpeers ▸ hpeer, by simp⟩
    · exact ⟨_, rfl, hpeer, by simp⟩
  | some q =>
    obtain ⟨an, kn, w⟩ := q
    dsimp only
    cases hkey : keyUnwrap (mkaKek p.cak p.ckn) w with
    | none =>
      refine ⟨_, rfl, hpeer, fun an' kn' w' hq => ?_⟩
      obtain ⟨rfl, rfl, rfl⟩ := hq
      exact ⟨fun k hk => absurd (hk.symm.trans hkey) (by simp), fun _ => htxSa⟩
    | some k =>
      obtain ⟨hpeers, hlive, hsa⟩ := installSak_port s1 m.peer an kn k hlink1
      refine ⟨_, rfl, hpeers ▸ hpeer, fun an' kn' w' hq => ?_⟩
      obtain ⟨rfl, rfl, rfl⟩ := hq
      refine ⟨fun k' hk => ?_, fun hnone => absurd (hnone.symm.trans hkey) (by simp)⟩
      obtain rfl : k = k' := Option.some.inj (hkey.symm.trans hk)
      rw [hlive, hsa]
      exact ⟨by simpa using List.ne_nil_of_mem hpeer, rfl⟩

/-- Settles O42: each command of ARP, neighbour discovery, ICMP and MKA by its own lemma above. -/
theorem neighboursAndMka : Obligations.NeighboursAndMka := by
  intro s i p count
  refine ⟨?idle, ?neighbours, fun hruns hlink j => execDadComplete_passes hruns hlink, ?echo, execNeighbourEntryExpiry_expires,
    fun m => execMkaFrameReceive_proves, ?unproved⟩
  case idle =>
    intro hidle mac ip t src data j
    have hstill : ¬ s.ipRuns i = true := by simp [hidle]
    exact ⟨if_neg hstill, if_neg hstill, if_neg hstill, if_neg hstill, if_neg fun h => hstill h.1, if_neg fun h => hstill h.1⟩
  case neighbours =>
    intro hruns hlink mac ip t
    refine ⟨execArpRequestReceive_answers hruns hlink mac ip t, execNeighbourSolicitationReceive_answers hruns hlink mac ip t,
      ?_, ?_, ?_, ?_⟩
    · exact fun hother => ⟨_, execArpReplyReceive_resolves hruns hother, addNeighbour_newest s ip mac hlink⟩
    · exact fun hother => ⟨_, execNeighbourAdvertisementReceive_resolves hruns hother, addNeighbour_newest s ip mac hlink⟩
    · exact fun hmac hown => ⟨_, execArpReplyReceive_conflicts hruns hmac hown, addrConflict_port s ip hlink⟩
    · exact fun hmac hown => ⟨_, execNeighbourAdvertisementReceive_conflicts hruns hmac hown, addrConflict_port s ip hlink⟩
  case echo =>
    intro hruns hlink src data hv4 hown hsecond
    have hechoes : ((s.modPort i (fun p => p.atSecond s.second)).port i).echoes = p.echoes :=
      congrArg Port.echoes (State.port_atSecond hlink hsecond)
    have howned : (if src.v6 then s.own6 i src.dstIp else s.own4 i src.dstIp) = true := by simp [hv4, hown]
    constructor
    · intro hfew
      refine (if_pos ⟨hruns, howned⟩).trans ((if_pos (hechoes ▸ hfew)).trans ?_)
      simp only [hv4]
      rfl
    · intro hmany
      exact (if_pos ⟨hruns, howned⟩).trans (if_neg (by omega))
  case unproved =>
    intro m hicv
    exact if_pos fun h => by simp [hicv] at h

end Sys2Proof.Machine
end

section
/-! SUPPORT. Chapter 03 (family 03_ports_and_request_protocol), handshakes: the head of an ingress buffer, what placing a task
does, each handshake datagram and timeout, and the statement about them. -/

namespace Sys2Proof.Machine

open Sys2Proof

/-! ### The head of an ingress buffer -/

/-- The header checks of R70 pass a datagram of version 2 of a type that a client sends, or that the device is owed. -/
theorem State.headerDrop_none {s : State} {i : Nat} {b : Bytes} (hlen : 32 ≤ b.length) (hversion : fld b 0 1 / 16 = 2)
    (htype : dgramType b ∈ [1, 3, 5, 6, 7] ∨ s.ownDgram i b = true) : s.headerDrop i b = none := by
  have hpass : ¬ (fld b 0 1 / 16 ≠ 2 ∨ (dgramType b ∉ [1, 3, 5, 6, 7] ∧ ¬ s.ownDgram i b = true)) := by
    rw [not_or, not_and_or, not_not, not_not, not_not]
    exact ⟨hversion, htype⟩
  exact (if_neg (by omega)).trans (if_neg hpass)

theorem State.headerDrop_client {s : State} {i : Nat} {b : Bytes} (hversion : fld b 0 1 / 16 = 2)
    (htype : dgramType b ∈ [1, 3, 5, 6, 7]) : s.headerDrop i b = none := by
  refine State.headerDrop_none ?_ hversion (.inl htype)
  by_contra hshort
  have huntyped : dgramType b = 0 := if_pos (by omega)
  rw [huntyped] at htype
  exact absurd htype (by decide)

theorem execHandshakes_noHead {s : State} {i : Nat} (h : s.head i = none) :
    execHs1Receive i s = .next s ∧ execHs2Receive i s = .next s ∧ execHs3Receive i s = .next s := by
  simp [execHs1Receive, execHs2Receive, execHs3Receive, h]

/-! ### Channels and placed tasks -/

theorem State.chan_putChan_used (s : State) (c : Nat) {x : Channel} (h : x.state ≠ .free) : (s.putChan c x).chan c = x :=
  tabGet_put_new _ _ fun e => h (congrArg Channel.state e)

theorem State.chan_congr {s t : State} (h : t.srp.channels = s.srp.channels) (c : Nat) : t.chan c = s.chan c := by
  rw [State.chan, State.chan, h]

/-- Placing a slot takes the lowest free one, QUEUED with the contents given, and leaves the channels. -/
theorem State.placeSlot_places (s : State) (x : Slot) :
    let u := (s.placeSlot x).2
    (u.slot s.freeSlot).func = x.func ∧ (u.slot s.freeSlot).chan = x.chan ∧ (u.slot s.freeSlot).state = .queued ∧
      u.sq.placed = s.sq.placed + 1 ∧ u.srp = s.srp := by
  unfold State.placeSlot
  extract_lets k sq s1 y pred fl s2 low u
  have hqueued : SlotState.queued ≠ .free := by decide
  have hplaced : s2.slot k = { y with nodes := [(0, { flags := fl })] } := State.slot_putSlot_live s1 k hqueued
  have hslot : u.slot k = s2.slot k := rfl
  rw [hslot, hplaced]
  exact ⟨rfl, rfl, rfl, rfl, rfl⟩

/-! ### HS1 (R76, R77) -/

/-- An HS1 that passes the checks of R76. -/
def State.hs1Ok (s : State) (i : Nat) (b : Bytes) : Prop :=
  let t := fld b 2 2 % 1024
  let idx := fld b 161 1
  let im := tabGet ({} : TenantImage) s.image.tenants t
  let quota := if s.dev.state = .recovery then 4096 else im.channelQuota
  b.length = 1348 ∧ t ≤ 512 ∧ idx ≤ 63 ∧ s.tenantChannels t < quota ∧ s.pendingChannels < 4096 ∧ s.hsBegun t < im.hsRate ∧
    (s.clientKey t (idx % 64)).alg ≠ 0 ∧ (s.clientKey t (idx % 64)).alg = fld b 162 1 ∧ s.acceptsHs t i = true ∧
    firstFreeChan s.srp.channels 0 < 32768 ∧ s.freeSlot < 65536 ∧
    s.cellsUsed + ceilDiv b.length 256 + ceilDiv (s.hsCost 0xC0).lmax 256 ≤ 196608

/-- What a counted HS1 leaves where the checks refuse it, and where they pass: the channel that it takes, and its task. -/
def State.refuseHs1 (s : State) : State := (if decide (4096 ≤ s.pendingChannels) then s.srpEvent 3 else s).srpCnt 10 1

def State.hs1Channel (s : State) (i : Nat) (d : Dgram) : Channel :=
  { state := .pending, gen := (s.chan (firstFreeChan s.srp.channels 0)).gen, phys := physOf i, authAlg := fld d.bytes 162 1,
    tenant := fld d.bytes 2 2 % 1024, clientKey := fld d.bytes 161 1, src := d.src, lport := i, hs1 := d.bytes,
    admitted := some s.folio.now }

def State.admitHs1 (s : State) (i : Nat) (d : Dgram) : State :=
  let t := fld d.bytes 2 2 % 1024
  let counts := tabPut 0 (if s.srp.hsSecond = s.second then s.srp.hsCount else []) t (s.hsBegun t + 1)
  let s1 := { s with srp := { s.srp with hsSecond := s.second, hsCount := counts } }
  let c := firstFreeChan s.srp.channels 0
  (s1.putChan c (s.hs1Channel i d)).placeHs c i d.src 0xC0 (fld d.bytes 8 8) 1316 d.bytes

section Hs1

variable {s : State} {i : Nat} {d : Dgram} (hhead : s.head i = some d) (hversion : fld d.bytes 0 1 / 16 = 2)
  (htype : dgramType d.bytes = 3)
include hhead hversion htype

theorem execHs1Receive_admits (hok : s.hs1Ok i d.bytes) :
    execHs1Receive i s = .next (((s.popIngress i).srpCnt 9 1).admitHs1 i d) := by
  have hdrop : s.headerDrop i d.bytes = none := State.headerDrop_client hversion (by simp [htype])
  unfold execHs1Receive
  rw [hhead]
  refine (if_neg (by simp [hdrop])).trans ((if_neg (not_not.2 htype)).trans (if_neg ?_))
  simp only [not_or, not_lt, not_le, not_not, ne_eq, decide_eq_true_eq]
  exact hok

theorem execHs1Receive_refuses (hok : ¬ s.hs1Ok i d.bytes) :
    execHs1Receive i s = .next ((s.popIngress i).srpCnt 9 1).refuseHs1 := by
  have hdrop : s.headerDrop i d.bytes = none := State.headerDrop_client hversion (by simp [htype])
  unfold execHs1Receive
  rw [hhead]
  refine (if_neg (by simp [hdrop])).trans ((if_neg (not_not.2 htype)).trans (if_pos ?_))
  by_contra hpass
  simp only [not_or, not_lt, not_le, not_not, ne_eq, decide_eq_true_eq] at hpass
  exact hok hpass

end Hs1

theorem State.refuseHs1_changes (s : State) : s.refuseHs1.srp.channels = s.srp.channels ∧ s.refuseHs1.sq = s.sq := by
  unfold State.refuseHs1
  split <;> exact ⟨rfl, rfl⟩

/-- An HS1 admitted has the lowest free channel, and a task of HS_RESPOND in the lowest free slot. -/
theorem State.admitHs1_places (s : State) (i : Nat) (d : Dgram) :
    let u := s.admitHs1 i d
    let c := firstFreeChan s.srp.channels 0
    u.chan c = s.hs1Channel i d ∧ (u.slot s.freeSlot).func = 0xC0 ∧ (u.slot s.freeSlot).chan = c ∧
      (u.slot s.freeSlot).state = .queued ∧ u.sq.placed = s.sq.placed + 1 := by
  unfold State.admitHs1
  extract_lets t counts srp s1 c u
  have hchan : (s1.putChan c (s.hs1Channel i d)).chan c = s.hs1Channel i d :=
    State.chan_putChan_used s1 c (show ChanState.pending ≠ .free by decide)
  obtain ⟨hfunc, hslotChan, hstate, hplaced, hsrp⟩ := State.placeSlot_places (s1.putChan c (s.hs1Channel i d)) _
  exact ⟨(State.chan_congr (congrArg Srp.channels hsrp) c).trans hchan, hfunc, hslotChan, hstate, hplaced⟩

/-! ### HS3 (R70, R78) -/

/-- An HS3 that the channel checks let pass, that opens under the client's handshake key as `sig` and names the channel's tenant. -/
def State.hs3Opens (s : State) (d : Dgram) (sig : Bytes) : Prop :=
  let x := s.chan (fld d.bytes 4 4 % 2 ^ 15)
  let body := d.bytes.drop 32
  let n := body.length - 16
  s.channelDrop d .pending = none ∧ x.hsC ≠ [] ∧ fld d.bytes 2 2 % 1024 = x.tenant ∧
    gcmOpen x.hsC (zeros 12) (d.bytes.take 32) (body.take n) (body.drop n) = some sig

/-- No task of HS_FINISH of the channel waits or runs, and there is a slot and cells for one whose payload came in `n` bytes. -/
def State.hs3Room (s : State) (c n : Nat) : Prop :=
  (∀ p ∈ s.sq.slots, ¬ (p.2.live = true ∧ p.2.func = 0xC1 ∧ p.2.chan = c ∧ p.2.chanGen = (s.chan c).gen)) ∧
    s.freeSlot < 65536 ∧ s.cellsUsed + ceilDiv n 256 + ceilDiv (s.hsCost 0xC1).lmax 256 ≤ 196608

theorem execHs3Receive_opened {s : State} {i : Nat} {d : Dgram} {sig : Bytes} (hhead : s.head i = some d)
    (hversion : fld d.bytes 0 1 / 16 = 2) (htype : dgramType d.bytes = 5) (hlen : 48 ≤ d.bytes.length)
    (hopens : (s.popIngress i).hs3Opens d sig) :
    let t := s.popIngress i
    let c := fld d.bytes 4 4 % 2 ^ 15
    let seq := fld d.bytes 8 8
    let n := (d.bytes.drop 32).length
    (fld d.bytes 2 2 / 1024 ≠ 0 → execHs3Receive i s = .next (t.nackHs c i d.src seq 4)) ∧
    (fld d.bytes 2 2 / 1024 = 0 → seq < 2 ^ 48 → t.hs3Room c n →
      execHs3Receive i s = .next ((t.acceptHs3 i c d.src).placeHs c i d.src 0xC1 seq n (d.bytes.take 32 ++ sig ++ d.bytes.drop 32))) := by
  intro t c seq n
  obtain ⟨hchannel, hkey, htenant, hsig⟩ := hopens
  have hdrop : s.headerDrop i d.bytes = none := State.headerDrop_client hversion (by simp [htype])
  unfold execHs3Receive
  rw [hhead]
  dsimp only
  rw [if_neg (by simp [hdrop]), if_neg (not_not.2 htype), hchannel]
  dsimp only
  rw [if_neg (not_lt.2 hlen), if_neg hkey, hsig]
  dsimp only
  rw [if_neg (not_not.2 htenant)]
  constructor
  · exact fun hcount => if_pos hcount
  · intro hcount hseq hroom
    obtain ⟨hnone, hslot, hcells⟩ := hroom
    refine (if_neg (not_not.2 hcount)).trans ((if_neg (not_le.2 hseq)).trans (if_neg ?_))
    simp only [not_or, not_le, not_lt, List.any_eq_true, Bool.and_eq_true, beq_iff_eq, not_exists, not_and]
    exact ⟨fun p hp ⟨⟨hlive, hfunc⟩, hchan⟩ hgen => hnone p hp ⟨hlive, hfunc, hchan, hgen⟩, hslot, hcells⟩

/-! ### HS2 (R79, R439) -/

theorem execHs2Receive_checks {s : State} {i j : Nat} {d : Dgram} (hhead : s.head i = some d) (hversion : fld d.bytes 0 1 / 16 = 2)
    (htype : dgramType d.bytes = 4) (hlen : d.bytes.length = 4718) (hhs : fld d.bytes 8 8 < 16) :
    let t := s.popIngress i
    let c := 32768 + fld d.bytes 8 8
    let x := s.chan c
    x.member = some j → x.state = .pending → x.hs2 = [] → x.phys = physOf i →
      execHs2Receive i s = .next (match checkHs2 (s.member j) x d.bytes with
        | none => (t.putChan c {}).srpCnt 12 1
        | some prk =>
          match (Fn.ecdsaSign p384 (beNat s.ks.idk) (sha384B (clientMessage x.hs1 d.bytes))).run.run t with
          | (.ok sig, u) => sendHs3 u c x i d.src d.bytes prk sig
          | (.error _, u) => (u.putChan c {}).srpCnt 12 1) := by
  intro t c x hmember hstate hfirst hphys
  have hmod : fld d.bytes 8 8 % 16 = fld d.bytes 8 8 := Nat.mod_eq_of_lt hhs
  have hmine : s.ownDgram i d.bytes = true := by
    have hchannel : (s.chan (32768 + fld d.bytes 8 8)).member.isSome = true := Option.isSome_of_eq_some hmember
    unfold State.ownDgram
    rw [htype]
    simp [hhs, hmod, hchannel]
  have hdrop : s.headerDrop i d.bytes = none := State.headerDrop_none (by omega) hversion (.inr hmine)
  have hchan : t.chan c = x := rfl
  unfold execHs2Receive
  rw [hhead]
  dsimp only
  rw [if_neg (by simp [hdrop]), if_neg (not_not.2 htype), hmod, hchan, hmember]
  dsimp only
  rw [if_neg (by simp [hhs, hstate, hfirst, hphys]), if_neg (not_not.2 hlen)]
  have hsame : (s.popIngress i).member j = s.member j := rfl
  rw [hsame]
  cases checkHs2 (s.member j) x d.bytes with
  | none => rfl
  | some prk =>
    dsimp only
    have hidk : (s.popIngress i).ks = s.ks := rfl
    rw [hidk]
    rcases (Fn.ecdsaSign p384 (beNat s.ks.idk) (sha384B (clientMessage x.hs1 d.bytes))).run.run t with ⟨signed | refused, u⟩
    · rfl
    · rfl

/-! ### A channel opened by its ready REP, and the timeouts -/

theorem execReadyRepReceive_opens {s u : State} {i c : Nat} {x : Channel} {b pt : Bytes} 
    (htake : takeRep s i .pending = (some (c, x, b, pt), u)) (hcount : fld b 2 2 / 1024 = 0) (hseq : fld b 8 8 = 1) :
    ∃ v : State, execReadyRepReceive i s = .next v ∧ (v.chan c).state = .open ∧ (v.chan c).hs1 = [] ∧ v.sq = u.sq := by
  have hopen : (u.modChan c (fun y => { y with state := .open, hs1 := [], hs2 := [] })).chan c =
      { u.chan c with state := .open, hs1 := [], hs2 := [] } :=
    State.chan_putChan_used u c (show ChanState.open ≠ .free by decide)
  unfold execReadyRepReceive
  rw [htake]
  refine ⟨_, if_pos ⟨hcount, hseq⟩, ?_, ?_, by simp⟩
  · rw [State.chan_congr (congrArg Srp.channels (State.raise_srp ..)) c]
    exact congrArg Channel.state hopen
  · rw [State.chan_congr (congrArg Srp.channels (State.raise_srp ..)) c]
    exact congrArg Channel.hs1 hopen

theorem execReadyRepReceive_waits {s u : State} {i : Nat} (htake : takeRep s i .pending = (none, u)) :
    execReadyRepReceive i s = .next u := by
  unfold execReadyRepReceive
  rw [htake]

theorem execHandshakeTimeout_frees {s : State} {c a : Nat} (hstate : (s.chan c).state = .pending)
    (hadmitted : (s.chan c).admitted = some a)
    (hlate : s.srp.hsMs * 1000 ≤ folioDiff s.folio.now a * s.folio.periodUs) (hwf : tabWf {} s.srp.channels = true) :
    ∃ u : State, execHandshakeTimeout c s = .next u ∧ u.chan c = { gen := ((s.chan c).gen + 1) % 2 ^ 17 } := by
  have hfree : (s.freeChan c).chan c = { gen := ((s.chan c).gen + 1) % 2 ^ 17 } := by
    unfold State.freeChan
    dsimp only
    rw [if_neg (by simp [hstate])]
    exact tabGet_put_same hwf c _
  unfold execHandshakeTimeout
  dsimp only
  rw [hstate, hadmitted]
  refine ⟨_, if_pos hlate, ?_⟩
  rw [State.chan_congr (congrArg Srp.channels (State.raise_srp ..)) c]
  exact hfree

theorem execHandshakeTimeout_waits {s : State} {c a : Nat} (hstate : (s.chan c).state = .pending)
    (hadmitted : (s.chan c).admitted = some a)
    (hearly : folioDiff s.folio.now a * s.folio.periodUs < s.srp.hsMs * 1000) : execHandshakeTimeout c s = .next s := by
  unfold execHandshakeTimeout
  dsimp only
  rw [hstate, hadmitted]
  exact if_neg (not_le.2 hearly)

theorem execChannelIdleTimeout_closes {s : State} {c : Nat} (hstate : (s.chan c).state = .open) (hon : s.srp.idleS ≠ 0)
    (hidle : s.srp.idleS * 1000000 ≤ (s.chan c).idle * s.folio.periodUs) :
    execChannelIdleTimeout c s = .next ((s.putChan c { s.chan c with state := .closing, cause := 3 }).closeFinal c) := by
  have hclosing : s.beginClosing c 3 = s.putChan c { s.chan c with state := .closing, cause := 3 } := if_pos hstate
  rw [← hclosing]
  exact if_pos ⟨hstate, hon, hidle⟩

/-- Settles O43: each handshake datagram, the ready REP and each timeout by its own lemmas above. -/
theorem handshakes : Obligations.Handshakes := by
  intro s i
  refine ⟨execHandshakes_noHead, ?datagrams, ⟨fun c x b pt u => execReadyRepReceive_opens, fun u => execReadyRepReceive_waits⟩,
    ?timeout, ?idle⟩
  case datagrams =>
    intro d hhead hversion
    refine ⟨?hs1, ?hs3, ?hs2⟩
    case hs1 =>
      intro b t idx im quota c ok
      constructor
      · intro htype hok
        obtain ⟨hchan, htask⟩ := State.admitHs1_places ((s.popIngress i).srpCnt 9 1) i d
        have htaken : (((s.popIngress i).srpCnt 9 1).admitHs1 i d).chan c = s.hs1Channel i d := hchan
        refine ⟨_, execHs1Receive_admits hhead hversion htype hok, ?_⟩
        rw [htaken]
        exact ⟨rfl, rfl, rfl, rfl, rfl, htask⟩
      · intro htype hno
        exact ⟨_, execHs1Receive_refuses hhead hversion htype hno, State.refuseHs1_changes _⟩
    case hs3 =>
      intro sig htype hlen c x body n hchannel hkey htenant hsig
      obtain ⟨hnack, haccept⟩ := execHs3Receive_opened hhead hversion htype hlen ⟨hchannel, hkey, htenant, hsig⟩
      exact ⟨hnack, fun hcount hseq hnone hslot hcells => haccept hcount hseq ⟨hnone, hslot, hcells⟩⟩
    case hs2 =>
      intro j htype hlen hhs c x hmember hstate hfirst hphys
      exact execHs2Receive_checks hhead hversion htype hlen hhs hmember hstate hfirst hphys
  case timeout =>
    intro c a hstate hadmitted
    exact ⟨execHandshakeTimeout_frees hstate hadmitted, execHandshakeTimeout_waits hstate hadmitted⟩
  case idle =>
    intro c hstate
    exact ⟨execChannelIdleTimeout_closes hstate, fun hoff => if_neg fun ⟨_, hon, _⟩ => hon hoff⟩

end Sys2Proof.Machine
end

section
/-! SUPPORT. Chapter 04 (family 04_admission_and_deadlines), faults: what each operation on a unit in error touches and marks,
what the test of a waking district leaves, each of the three commands by its cases, and the statement about them. -/

namespace Sys2Proof.Machine

open Sys2Proof

/-! ### What an operation on a unit can touch -/

/-- `u` is `s` but for the faults and the recorder: no request, core or engine differs. -/
def State.FaultsTouched (s u : State) : Prop := ∃ f r, u = { s with faults := f, recorder := r }

theorem State.FaultsTouched.eq {s u : State} (h : s.FaultsTouched u) : u = { s with faults := u.faults, recorder := u.recorder } := by
  obtain ⟨f, r, rfl⟩ := h
  rfl

theorem State.FaultsTouched.refl (s : State) : s.FaultsTouched s := ⟨s.faults, s.recorder, rfl⟩

theorem State.FaultsTouched.trans {s t u : State} (hst : s.FaultsTouched t) (htu : t.FaultsTouched u) : s.FaultsTouched u := by
  obtain ⟨f, r, rfl⟩ := hst
  obtain ⟨f', r', rfl⟩ := htu
  exact ⟨f', r', rfl⟩

theorem State.FaultsTouched.pwr_eq {s u : State} (h : s.FaultsTouched u) : u.pwr = s.pwr := by
  obtain ⟨f, r, rfl⟩ := h
  rfl

/-- Writing the faults and raising an event of it is what every operation below comes to. -/
theorem State.faultsTouched_raise (s : State) (f : Faults) (code source tenant : Nat) (data : Bytes) :
    s.FaultsTouched ({ s with faults := f }.raise code source tenant data) := by
  obtain ⟨r, h⟩ := State.raise_changes_recorder { s with faults := f } code source tenant data
  exact ⟨f, r, h⟩

theorem State.faultsTouched_foldl {α : Type} {f : State → α → State} (h : ∀ (s : State) x, s.FaultsTouched (f s x)) (l : List α)
    (s : State) : s.FaultsTouched (l.foldl f s) := by
  induction l generalizing s with
  | nil => exact .refl s
  | cons x l ih => exact (h s x).trans (ih (f s x))

/-! ### Tests that pass and fail (R471, R472) -/

/-- The unit is to be quarantined at the next tick. -/
def Faults.quarantineDue (f : Faults) (unit : Nat) : Prop := ∃ n, (unit, n) ∈ f.toQuarantine

theorem Faults.any_toQuarantine {f : Faults} {unit : Nat} (h : ¬ f.quarantineDue unit) :
    f.toQuarantine.any (fun p => p.1 == unit) = false := by
  refine List.any_eq_false.2 fun ⟨v, n⟩ hmem hv => h ⟨n, ?_⟩
  rwa [← eq_of_beq hv]

theorem failTest_faultsTouched (s : State) (unit step : Nat) : s.FaultsTouched (failTest s unit step) :=
  s.faultsTouched_raise ..

theorem passTest_faultsTouched (s : State) (unit : Nat) : s.FaultsTouched (passTest s unit) :=
  s.faultsTouched_raise ..

theorem failTest_quarantineDue (s : State) (unit step : Nat) : (failTest s unit step).faults.quarantineDue unit :=
  ⟨0, by simp [failTest]⟩

@[simp] theorem failTest_returning (s : State) (unit step : Nat) : (failTest s unit step).faults.returning = s.faults.returning := by
  simp [failTest]

theorem passTest_returning (s : State) (unit : Nat) : unit ∈ (passTest s unit).faults.returning := by
  simp [passTest]

@[simp] theorem passTest_toQuarantine (s : State) (unit : Nat) : (passTest s unit).faults.toQuarantine = s.faults.toQuarantine := by
  simp [passTest]

theorem passTests_toQuarantine (l : List Nat) (s : State) : (l.foldl passTest s).faults.toQuarantine = s.faults.toQuarantine := by
  induction l generalizing s with
  | nil => rfl
  | cons unit l ih => rw [List.foldl_cons, ih, passTest_toQuarantine]

/-! ### Errors of units (Table 18.6, R471, R473) -/

/-- What an error leaves of its unit: marked for withdrawal, withdrawn already, or due for quarantine. -/
def Faults.taken (f : Faults) (unit : Nat) : Prop := unit ∈ f.marked ∨ unit ∈ f.withdrawn ∨ f.quarantineDue unit

theorem State.unitError_faultsTouched (s : State) (unit kind : Nat) : s.FaultsTouched (s.unitError unit kind) :=
  s.faultsTouched_raise ..

theorem State.unitError_taken (s : State) (unit kind : Nat) : (s.unitError unit kind).faults.taken unit := by
  unfold State.unitError
  extract_lets old times f0 f f1
  rw [State.raise_faults]
  show f1.taken unit
  by_cases hthird : 3 ≤ times.length
  · rw [show f1 = { f with toQuarantine := f.toQuarantine ++ [(unit, 1)] } from if_pos hthird]
    exact .inr (.inr ⟨1, List.mem_concat_self⟩)
  · by_cases hold : unit ∈ f.marked ∨ unit ∈ f.withdrawn
    · rw [show f1 = f from (if_neg hthird).trans (if_pos hold)]
      exact hold.imp_right .inl
    · rw [show f1 = { f with marked := f.marked ++ [unit] } from (if_neg hthird).trans (if_neg hold)]
      exact .inl List.mem_concat_self

/-- An error that does not wait for its job to complete takes its unit, whatever the unit's work comes to. -/
theorem errorOn_taken (s : State) (unit : Nat) {kind : Nat} (req : Option Nat) (hkind : kind ≠ 5) :
    (errorOn s unit kind req).faults.taken unit := by
  unfold errorOn
  extract_lets s1 s2
  rw [if_neg hkind]
  split
  · exact .inr (.inr (failTest_quarantineDue s2 unit 0))
  · exact s1.unitError_taken unit kind

/-- The error of a unit whose work does not change touches the faults alone. -/
theorem errorOn_faultsTouched {s : State} {unit kind : Nat} {req : Option Nat} (hidle : stopWork s unit kind req = s) :
    s.FaultsTouched (errorOn s unit kind req) := by
  unfold errorOn
  rw [hidle]
  extract_lets s1 s2
  split
  · exact .refl s
  · have herror : s.FaultsTouched s2 := s.unitError_faultsTouched unit kind
    split
    · exact herror.trans (failTest_faultsTouched s2 unit 0)
    · exact herror

/-- A transaction core without a task has no work to stop. -/
theorem stopWork_core_noTask {s : State} {c : Nat} (kind : Nat) (req : Option Nat) (hcore : c < 128) (htask : s.taskOf c = none) :
    stopWork s (0x80 + c) kind req = s := by
  unfold stopWork
  rw [if_pos (by omega), Nat.add_sub_cancel_left, errorOnCore, htask]

/-- Table 18.6 gives no unit a corrected error. -/
theorem detects_corrected (unit : Nat) : detects unit 0 = false := by
  simp [detects]

/-- The units of Table 18.6 have source codes of one byte. -/
theorem lt_of_detects {unit kind : Nat} (h : detects unit kind = true) : unit < 0x100 := by
  by_contra hlarge
  have hnone : detects unit kind = false := by
    rw [detects, if_neg (by omega), if_neg (by omega), if_neg (by omega), if_neg (by omega), if_neg (by omega)]
  rw [hnone] at h
  exact Bool.false_ne_true h

theorem detects_core {c kind : Nat} (hcore : c < 128) (hkind : kind = 1 ∨ kind = 2) : detects (0x80 + c) kind = true := by
  rw [detects, if_pos (by omega)]
  simpa using hkind

/-! ### DETECTED_ERROR -/

theorem execDetectedError_noFolio {s : State} (h : s.folioRuns = false) (unit kind : Nat) : execDetectedError unit kind s = .next s :=
  if_pos (by simp [h])

theorem execDetectedError_memory {s : State} (hruns : s.folioRuns = true) (k cell : Nat) :
    execDetectedError (0x10000 + k) cell s = .next (requestMemoryError s k cell) := by
  unfold execDetectedError
  extract_lets low req
  rw [if_neg (not_not.2 hruns), if_pos (Nat.le_add_right ..), Nat.add_sub_cancel_left]

theorem requestMemoryError_live {s : State} {k : Nat} (cell : Nat) (hlive : (s.slot k).live = true) :
    k ∈ (requestMemoryError s k cell).faults.memErrors ∧ s.FaultsTouched (requestMemoryError s k cell) := by
  rw [requestMemoryError, if_neg (not_not.2 hlive)]
  exact ⟨by simp, s.faultsTouched_raise ..⟩

theorem execDetectedError_corrected {s : State} (hruns : s.folioRuns = true) {unit : Nat} (hunit : unit < 0x100) :
    execDetectedError unit 0 s = .next (correctedError s unit) := by
  unfold execDetectedError
  extract_lets low req
  rw [if_neg (not_not.2 hruns), if_neg (by omega), if_neg (by omega)]
  exact if_pos rfl

/-- Outside the cores a corrected error is counted with its unit alone, in the second it falls in (R164). -/
theorem correctedError_counts (s : State) {unit : Nat} (hunit : unit < 0x80) :
    let old := tabGet (0, 0) s.faults.corrected unit
    let u := correctedError s unit
    tabGet (0, 0) u.faults.corrected unit = (s.second, if old.1 = s.second then old.2 + 1 else 1) ∧ s.FaultsTouched u := by
  have hcount : (if 0x80 ≤ unit ∧ unit ≤ 0xFF then s.tcCnt (unit - 0x80) 6 1 else s) = s := if_neg (by omega)
  unfold correctedError
  rw [hcount]
  extract_lets old s1 old1 n f0 s2 u
  have hpos : n ≠ 0 := by
    show (if old.1 = s.second then old.2 + 1 else 1) ≠ 0
    split
    · exact Nat.succ_ne_zero _
    · exact one_ne_zero
  have hread : tabGet (0, 0) s2.faults.corrected unit = (s.second, n) :=
    tabGet_put_new _ _ fun e => hpos (congrArg Prod.snd e)
  have hcounted : s.FaultsTouched s2 := ⟨_, _, rfl⟩
  by_cases hrate : n = 1025
  · rw [show u = s2.raise evEccCorrectedRate unit 0 (items [(4, n)]) from if_pos hrate, State.raise_faults]
    exact ⟨hread, hcounted.trans (s2.faultsTouched_raise s2.faults ..)⟩
  · rw [show u = s2 from if_neg hrate]
    exact ⟨hread, hcounted⟩

/-- An uncorrectable error that Table 18.6 gives a unit not quarantined is that unit's alone. -/
theorem execDetectedError_uncorrectable {s : State} {unit kind : Nat} (hruns : s.folioRuns = true) (hkind : kind < 256)
    (hdetects : detects unit kind = true) (hheld : s.quarantined unit = false) :
    execDetectedError unit kind s = .next (errorOn s unit kind none) := by
  have hunit := lt_of_detects hdetects
  have hnot0 : kind ≠ 0 := by
    rintro rfl
    exact Bool.false_ne_true ((detects_corrected unit).symm.trans hdetects)
  unfold execDetectedError
  extract_lets low req
  have hlow : low = kind := Nat.mod_eq_of_lt hkind
  have hreq : req = none := if_neg (by omega)
  rw [hlow, hreq, if_neg (not_not.2 hruns), if_neg (by omega), if_neg (by omega), if_neg hnot0]
  exact if_pos ⟨hdetects, by simp [hheld]⟩

/-! ### TARGETED_TEST_COMPLETE -/

theorem execTargetedTestComplete_noTest {s : State} {unit : Nat} (h : s.testing unit = false) (pass : Bool) (step : Nat) :
    execTargetedTestComplete unit pass step s = .next s :=
  if_pos (.inl (by simp [h]))

theorem execTargetedTestComplete_tested {s : State} {unit : Nat} (htesting : s.testing unit = true)
    (hreturning : unit ∉ s.faults.returning) (hdue : ¬ s.faults.quarantineDue unit) (pass : Bool) (step : Nat) :
    execTargetedTestComplete unit pass step s = .next (if pass then passTest s unit else failTest s unit step) := by
  unfold execTargetedTestComplete
  rw [if_neg (by simp only [htesting, hreturning, Faults.any_toQuarantine hdue]; decide)]
  cases pass <;> rfl

/-! ### DISTRICT_WAKE_COMPLETE (R110, R475, R477) -/

/-- The state in which a waking district has become active, before any test of its units. -/
def State.districtWoken (s : State) (d cycles : Nat) : State :=
  (s.putDistrict d { s.district d with state := .active, waking := false, late := false, busy := true }).raise evDistrictWake srcPower 0
    (items [(1, d), (1, (s.district d).state.code), (4, cycles)])

theorem State.districtWoken_changes (s : State) (d cycles : Nat) :
    ∃ p r, s.districtWoken d cycles = { s with pwr := p, recorder := r } := by
  obtain ⟨r, h⟩ := State.raise_changes_recorder
    (s.putDistrict d { s.district d with state := .active, waking := false, late := false, busy := true }) evDistrictWake srcPower 0
    (items [(1, d), (1, (s.district d).state.code), (4, cycles)])
  exact ⟨_, r, h⟩

theorem State.district_congr {s u : State} (h : u.pwr.districts = s.pwr.districts) (d : Nat) : u.district d = s.district d := by
  rw [State.district, State.district, h]

theorem State.districtWoken_districts (s : State) (d cycles : Nat) : (s.districtWoken d cycles).pwr.districts =
    tabPut {} s.pwr.districts d { s.district d with state := .active, waking := false, late := false, busy := true } :=
  congrArg Power.districts (State.raise_pwr ..)

theorem State.districtWoken_same (s : State) (d cycles : Nat) : (s.districtWoken d cycles).district d =
    { s.district d with state := .active, waking := false, late := false, busy := true } := by
  rw [State.district, State.districtWoken_districts]
  exact tabGet_put_new _ _ fun e => Bool.true_eq_false_eq_False (congrArg District.busy e)

theorem State.districtWoken_other (s : State) (cycles : Nat) {d j : Nat} (h : j ≠ d) :
    (s.districtWoken d cycles).district j = s.district j := by
  rw [State.district, State.districtWoken_districts]
  exact tabGet_put_other _ _ _ h

theorem execDistrictWakeComplete_asleep {s : State} {d : Nat} (h : (s.district d).waking = false) (l : List Nat) (cycles : Nat) :
    execDistrictWakeComplete d l cycles s = .next s :=
  if_pos (by simp [h])

/-- A wake from RETAIN or GATED tests nothing. -/
theorem execDistrictWakeComplete_kept {s : State} {d : Nat} (hwaking : (s.district d).waking = true) (hkept : (s.district d).state ≠ .off)
    (l : List Nat) (cycles : Nat) : execDistrictWakeComplete d l cycles s = .next (s.districtWoken d cycles) :=
  (if_neg (not_not.2 hwaking)).trans (if_neg hkept)

theorem execDistrictWakeComplete_off {s : State} {d : Nat} (hwaking : (s.district d).waking = true) (hoff : (s.district d).state = .off)
    (l : List Nat) (cycles : Nat) : execDistrictWakeComplete d l cycles s =
      .next (wakeTest (s.districtWoken d cycles) d (l.map (fun f => (f % 256, f / 256)))) :=
  (if_neg (not_not.2 hwaking)).trans (if_pos hoff)

/-- The test of an OFF wake that finds one unit failing: the unit is due for quarantine, and beside the faults only the counters
of the power controller and the recorder change. -/
theorem wakeTest_single {s : State} {d unit : Nat} (step : Nat) (hmember : (districtUnits d).contains unit = true)
    (hheld : s.quarantined unit = false) : let u := wakeTest s d [(unit, step)]
    u.faults.quarantineDue unit ∧ u.pwr.districts = s.pwr.districts ∧
      ∃ p f r, u = { s with pwr := p, faults := f, recorder := r } := by
  have hbad : [(unit, step)].filter (fun (p : Nat × Nat) => (districtUnits d).contains p.1 && !s.quarantined p.1) = [(unit, step)] :=
    List.filter_cons_of_pos (by simp only [hmember, hheld]; rfl)
  unfold wakeTest
  rw [hbad]
  extract_lets bad s1 s2 p u
  have hfound : u = { s2 with pwr := { s2.pwr with counters := bump s2.pwr.counters 3 1 } }.raise evWakeTestFailed srcPower 0
      (items ((1, d) :: bad.map (fun (p : Nat × Nat) => ((1, p.1) : Nat × Nat)))) := if_neg (by simp [bad])
  rw [hfound]
  have hfail : s.FaultsTouched s1 := failTest_faultsTouched s unit step
  have htests : s.FaultsTouched s2 := hfail.trans (State.faultsTouched_foldl passTest_faultsTouched _ s1)
  have hkept : s2.faults.toQuarantine = s1.faults.toQuarantine := passTests_toQuarantine _ s1
  have hdue : s2.faults.quarantineDue unit := by
    rw [Faults.quarantineDue, hkept]
    exact failTest_quarantineDue s unit step
  refine ⟨?due, ?districts, ?frame⟩
  case due =>
    rw [State.raise_faults]
    exact hdue
  case districts =>
    have hpwr : s2.pwr.districts = s.pwr.districts := congrArg Power.districts htests.pwr_eq
    rw [State.raise_pwr]
    exact hpwr
  case frame =>
    obtain ⟨f, r, h⟩ := htests
    rw [h]
    obtain ⟨r', h'⟩ := State.raise_changes_recorder
      { s with pwr := { s.pwr with counters := bump s.pwr.counters 3 1 }, faults := f, recorder := r } evWakeTestFailed srcPower 0
      (items ((1, d) :: bad.map (fun (p : Nat × Nat) => ((1, p.1) : Nat × Nat))))
    exact ⟨_, f, r', h'⟩

/-- Settles O54: each command by its cases above. -/
theorem faultsAndTests : Obligations.FaultsAndTests := by
  intro s quarantineDue
  refine ⟨execDetectedError_noFolio, fun hruns => ⟨?memory, ?corrected, ?uncorrectable, ?idleCore⟩, ?tested,
    fun unit p step h => execTargetedTestComplete_noTest h p step, fun d cycles hwaking => ⟨?kept, ?off⟩,
    fun d l cycles h => execDistrictWakeComplete_asleep h l cycles⟩
  case memory =>
    intro k cell hlive
    obtain ⟨hmark, htouched⟩ := requestMemoryError_live cell hlive
    exact ⟨_, execDetectedError_memory hruns k cell, hmark, htouched.eq⟩
  case corrected =>
    intro unit hunit
    obtain ⟨hcount, htouched⟩ := correctedError_counts s hunit
    exact ⟨_, execDetectedError_corrected hruns (by omega), hcount, htouched.eq⟩
  case uncorrectable =>
    intro unit kind hkind hnot5 hdetects hheld
    exact ⟨_, execDetectedError_uncorrectable hruns hkind hdetects hheld, errorOn_taken s unit none hnot5⟩
  case idleCore =>
    intro c kind hcore hkind hheld htask
    exact ⟨_, execDetectedError_uncorrectable hruns (by omega) (detects_core hcore hkind) hheld,
      (errorOn_faultsTouched (stopWork_core_noTask kind none hcore htask)).eq⟩
  case tested =>
    intro unit step htesting hreturning hdue
    have htested := execTargetedTestComplete_tested htesting hreturning hdue
    exact ⟨⟨_, htested true step, passTest_returning s unit, passTest_toQuarantine s unit, (passTest_faultsTouched s unit).eq⟩,
      ⟨_, htested false step, failTest_quarantineDue s unit step, failTest_returning s unit step,
        (failTest_faultsTouched s unit step).eq⟩⟩
  case kept =>
    intro hkept l
    have hsame := s.districtWoken_same d cycles
    refine ⟨_, execDistrictWakeComplete_kept hwaking hkept l cycles, by rw [hsame], by rw [hsame],
      fun j hj => s.districtWoken_other cycles hj, ?_⟩
    obtain ⟨p, r, h⟩ := s.districtWoken_changes d cycles
    rw [h]
  case off =>
    intro hoff unit step hunit hmember hheld
    have hfailing : [unit + 256 * step].map (fun f => (f % 256, f / 256)) = [(unit, step)] := by
      simp only [List.map_cons, List.map_nil, List.cons.injEq, Prod.mk.injEq, and_true]
      omega
    have hexec := execDistrictWakeComplete_off hwaking hoff [unit + 256 * step] cycles
    rw [hfailing] at hexec
    obtain ⟨p, r, hwoken⟩ := s.districtWoken_changes d cycles
    have hstill : (s.districtWoken d cycles).quarantined unit = false := by
      rw [hwoken]
      exact hheld
    obtain ⟨hdue, hdistricts, p', f, r', htest⟩ := wakeTest_single step hmember hstill
    refine ⟨_, hexec, ?_, hdue, ?_⟩
    · rw [State.district_congr hdistricts, s.districtWoken_same]
    · rw [htest, hwoken]

end Sys2Proof.Machine
end

section
/-! SUPPORT. Chapter 05 (family 05_queues_and_the_square), the graph requests: what one turn of `runGraph` does, where it stops,
and when the Square gives out a node; then the statement about GRAPH_FUNCTION. -/

namespace Sys2Proof.Machine

open Sys2Proof

variable {s t : State} {k : Nat}

theorem State.graphRuns_uncommitted (h : s.graphRuns k = true) : (s.slot k).commit.isSome = false := by
  simp only [State.graphRuns, Bool.and_eq_true, Option.isNone_iff_eq_none] at h
  simp [h.2]

/-- A request that has its commit point goes no further, whatever the bound on its steps. -/
theorem runGraph_committed (h : (s.slot k).commit.isSome = true) (n : Nat) : runGraph n s k = s := by
  cases n with
  | zero => rfl
  | succ n => simp [runGraph, h]

theorem runGraph_stuck (h : graphAdvance s k = none) (n : Nat) : runGraph n s k = s := by
  cases n with
  | zero => rfl
  | succ n => simp [runGraph, h]

theorem runGraph_advances (hopen : (s.slot k).commit.isSome = false) (hlive : (s.slot k).live = true)
    (h : graphAdvance s k = some t) (n : Nat) : runGraph (n + 1) s k = runGraph n t k := by
  simp [runGraph, hopen, hlive, h]

/-- Where no core runs a node of the request, only the Square can act: the block's first ready entry, being one of the request's,
goes to the taking core (R137, R138). -/
theorem graphAdvance_givesNode {e : ReadyEntry} {core : Nat} (hcores : s.coresOf k = [])
    (hready : s.readyFor ((s.slot k).block.getD 0) = some e) (hslot : e.slot = k)
    (htaker : s.taker ((s.slot k).block.getD 0) = some core) : graphAdvance s k = some (giveTask s core e) := by
  simp [graphAdvance, hcores, hready, htaker, hslot]

theorem exec_graphFunction_idle (h : s.graphRuns k = false) : exec (.graphFunction k) s = .next s := by
  change execGraphFunction k s = _
  simp [execGraphFunction, h]

theorem exec_graphFunction_runs (h : s.graphRuns k = true) :
    exec (.graphFunction k) s = .next (runGraph (16 * ((s.slot k).cost.core + 4096)) s k) := by
  change execGraphFunction k s = _
  simp [execGraphFunction, h]

/-- The first thing that can go on is taken, since the bound is never zero. -/
theorem exec_graphFunction_advances (hruns : s.graphRuns k = true) (hlive : (s.slot k).live = true)
    (h : graphAdvance s k = some t) :
    exec (.graphFunction k) s = .next (runGraph (16 * ((s.slot k).cost.core + 4096) - 1) t k) := by
  have hfuel : 16 * ((s.slot k).cost.core + 4096) = 16 * ((s.slot k).cost.core + 4096) - 1 + 1 := by omega
  rw [exec_graphFunction_runs hruns, hfuel, runGraph_advances (State.graphRuns_uncommitted hruns) hlive h, ← hfuel]

/-- Settles O60: after the first thing taken, the run stops at a commit point and where nothing can go on. -/
theorem graphRequests : Obligations.GraphRequests := by
  intro s k
  refine ⟨exec_graphFunction_idle, fun hruns hlive => ⟨fun hstuck => ?nothing, fun t hstep => ?first,
    fun e core => graphAdvance_givesNode⟩⟩
  case nothing => rw [exec_graphFunction_runs hruns, runGraph_stuck hstuck]
  case first =>
    have hexec := exec_graphFunction_advances hruns hlive hstep
    refine ⟨hexec, fun hcommit => ?_, fun hstuck => ?_⟩
    · rw [hexec, runGraph_committed hcommit]
    · rw [hexec, runGraph_stuck hstuck]

end Sys2Proof.Machine
end

section
/-! SUPPORT. Chapter 06 (family 06_transaction_core_isa), reset: on what the value of a register depends, and the reset values that
the spec gives; then the statement about the reset state. -/

namespace Sys2Proof.Machine

open Sys2Proof

theorem regRead_plain {s : State} {chan addr : Nat} (h : splitValue s chan addr = none) :
    regRead s chan addr = (readPlain s chan addr, s) := by
  simp only [regRead, h]

section Channels

variable {s : State} {chan chan' : Nat} (h : s.selector chan = s.selector chan')
include h

/-- The channel takes part in a register's value through its selectors alone (R87). -/
theorem readPlain_congr (addr : Nat) : readPlain s chan addr = readPlain s chan' addr := by
  unfold readPlain readSrp readAdm readSq readTc readKs readBn readBk readDc readRec
  rw [h]

theorem splitValue_congr (addr : Nat) : splitValue s chan addr = splitValue s chan' addr := by
  unfold splitValue
  rw [h]

end Channels

theorem selector_reset (chan chan' : Nat) : State.reset.selector chan = State.reset.selector chan' := rfl

/-- The registers whose reset value the spec gives, by address. -/
def resetValues : List (Nat × Nat) :=
  [(0x4C, 0x04104080), (0x10000, 0x003E800A), (0x1000C, 0x300), (0x10014, 0x1000), (0x30000, 0x0200B8CE), (0x30004, 0x025803E8),
    (0x40000, 0x31F), (0x50000, 0x10000804), (0x600000, 0xC), (0x700000, 0x1000FF08), (0x700008, 0x0ABA9500), (0x800004, 0xFFFFFFFF),
    (0x800008, 0xFFFFFFFF), (0x80000C, 0xFFFFFFFF), (0x800010, 0xFFFFFFFF), (0xB00008, 0x040A8000), (0xC00000, 0x100000),
    (0xD00000, 0x04000002), (0xE00200, 0x10), (0xE00208, 0x8000)]

theorem readPlain_resetValues :
    ∀ p ∈ resetValues, splitValue State.reset 0 p.1 = none ∧ readPlain State.reset 0 p.1 = p.2 := by
  decide +kernel

theorem regRead_reset (chan : Nat) {p : Nat × Nat} (hp : p ∈ resetValues) : regRead State.reset chan p.1 = (p.2, State.reset) := by
  obtain ⟨hwhole, hvalue⟩ := readPlain_resetValues p hp
  have hsel := selector_reset chan 0
  rw [regRead_plain ((splitValue_congr hsel p.1).trans hwhole), readPlain_congr hsel, hvalue]

theorem stripesWhole_reset : State.reset.stripesWhole := by
  unfold State.stripesWhole
  decide

/-- Settles O2: the tables of the reset state are empty, so each core, slot, channel, session and district is as its type begins. -/
theorem resetState : Obligations.ResetState :=
  ⟨fun _ => ⟨rfl, rfl, rfl, rfl, rfl, rfl, rfl, rfl, rfl, rfl⟩, fun chan _ hp => regRead_reset chan hp, stripesWhole_reset,
    rfl, rfl, fun _ => ⟨rfl, rfl, rfl, rfl⟩⟩

end Sys2Proof.Machine
end

section
/-! SUPPORT. Chapter 06 (family 06_transaction_core_isa), bundles: what maturing results and guarded-off moves leave alone, that no
move of a transaction core reaches undescribed I/O, and how a bundle comes to issue; then the statements about guards and
BUNDLE_ISSUE. -/

namespace Sys2Proof.Machine

open Sys2Proof

/-! ### Guards -/

/-- A result that matures changes the output ports of the units alone. -/
theorem Core.deliver_changes (c : Core) (r : Result) : ∃ alu lsu iou bitu sym hash pin,
    c.deliver r = { c with alu := alu, lsu := lsu, iou := iou, bitu := bitu, sym := sym, hash := hash, pin := pin } := by
  unfold Core.deliver
  cases r.port <;> exact ⟨_, _, _, _, _, _, _, rfl⟩

theorem Core.deliverAll_changes (l : List Result) (c : Core) : ∃ alu lsu iou bitu sym hash pin,
    l.foldl Core.deliver c = { c with alu := alu, lsu := lsu, iou := iou, bitu := bitu, sym := sym, hash := hash, pin := pin } := by
  induction l generalizing c with
  | nil => exact ⟨_, _, _, _, _, _, _, rfl⟩
  | cons r l ih =>
    obtain ⟨_, _, _, _, _, _, _, hr⟩ := c.deliver_changes r
    obtain ⟨_, _, _, _, _, _, _, hl⟩ := ih (c.deliver r)
    rw [List.foldl_cons, hl, hr]
    exact ⟨_, _, _, _, _, _, _, rfl⟩

/-- Results that mature change the output ports of the units and the results on their way alone. -/
theorem Core.mature_eq (c : Core) (t : Nat) : c.mature t =
    { c with alu := (c.mature t).alu, lsu := (c.mature t).lsu, iou := (c.mature t).iou, bitu := (c.mature t).bitu,
             sym := (c.mature t).sym, hash := (c.mature t).hash, pin := (c.mature t).pin, results := (c.mature t).results } := by
  unfold Core.mature
  dsimp only
  obtain ⟨_, _, _, _, _, _, _, h⟩ := Core.deliverAll_changes
    (sortBy (fun r => r.ready) (c.results.filter (fun r => decide (r.ready ≤ t))))
    { c with results := c.results.filter (fun r => decide (t < r.ready)) }
  rw [h]

section Mature

variable (c : Core) (t : Nat)

@[simp] theorem Core.mature_ctl : (c.mature t).ctl = c.ctl := by rw [c.mature_eq]
@[simp] theorem Core.mature_g : (c.mature t).g = c.g := by rw [c.mature_eq]
@[simp] theorem Core.mature_w : (c.mature t).w = c.w := by rw [c.mature_eq]
@[simp] theorem Core.mature_dmem : (c.mature t).dmem = c.dmem := by rw [c.mature_eq]
@[simp] theorem Core.mature_accesses : (c.mature t).accesses = c.accesses := by rw [c.mature_eq]
@[simp] theorem Core.mature_time : (c.mature t).time = c.time := by rw [c.mature_eq]

end Mature

theorem Core.guard_zero (c : Core) {m : Move} (h : m.pred = 0) : c.guard m = !m.inv := by
  simp [Core.guard, Core.localBit, h]

/-- The predicates lie below the mirror of the task's flags, so each is the local bit of its number, p0 apart. -/
theorem Core.guard_eq (c : Core) {m : Move} (h : m.pred < 8) :
    c.guard m = xor (if m.pred = 0 then true else tabGet false c.bits m.pred) m.inv := by
  have hmirror : ¬ (32 ≤ m.pred ∧ m.pred < 64) := by omega
  simp only [Core.guard, Core.localBit, if_neg hmirror]

section GuardedOff

variable {env : IssueEnv} {c0 : Core} {ms : List Move} {next : Nat}

theorem applyMove_guardedOff {pc t : Nat} (acc : Acc) {m : Move} (h : c0.guard m = false) :
    applyMove env pc t next c0 acc m = acc := by
  simp [applyMove, h]

theorem applyMoves_guardedOff {pc t : Nat} (acc : Acc) (h : ∀ m ∈ ms, c0.guard m = false) :
    ms.foldl (applyMove env pc t next c0) acc = acc := by
  induction ms with
  | nil => rfl
  | cons m ms ih =>
    rw [List.foldl_cons, applyMove_guardedOff acc (h m List.mem_cons_self)]
    exact ih fun m' hm' => h m' (List.mem_cons_of_mem _ hm')

/-- A guarded bundle that waits for nothing and does nothing goes on to its next bundle in one cycle. -/
theorem issue_guardedOff (hguarded : c0.ctl.guarded = true) (hoff : ∀ m ∈ ms, (c0.mature c0.time).guard m = false)
    (hwait : waitMask (c0.mature c0.time) env.kind ms = none) (hloops : c0.ctl.loops = []) :
    issue env c0 ms next = .ok { c := { c0.mature c0.time with pc := next, ctl := { c0.ctl with loops := [] } }.pass 1, next := next } := by
  simp [issue, hguarded, hwait, applyMoves_guardedOff _ hoff, hloops, loopBack]

end GuardedOff

/-- Settles O27: with no move to run, the bundle's issue leaves the core as its maturing results make it. -/
theorem guardFalseDoesNothing : Obligations.GuardFalseDoesNothing := by
  refine ⟨fun _ _ _ _ _ acc _ h => applyMove_guardedOff acc h, fun c0 _ h => c0.guard_eq h, fun c0 _ h => c0.guard_zero h,
    fun env c0 ms next hguarded hoff hwait hloops => ⟨_, issue_guardedOff hguarded hoff hwait hloops, ?_⟩⟩
  simp [Core.pass]

/-! ### No move of a transaction core reaches a firmware's I/O space -/

section FirmwareIo

variable (env : IssueEnv) (pc t next : Nat) (c0 : Core) (m : Move) (v : Word128) (acc : Acc)

@[simp] theorem Acc.bad_firmwareIo : acc.bad.firmwareIo = acc.firmwareIo := rfl

@[simp] theorem Acc.jump_firmwareIo (a : Nat) : (acc.jump a).firmwareIo = acc.firmwareIo := by
  unfold Acc.jump
  split <;> rfl

theorem lsuLocal_firmwareIo (d a : Nat) : (lsuLocal env c0 t d a acc).firmwareIo = acc.firmwareIo := by
  unfold lsuLocal
  dsimp only
  split_ifs <;> rfl

theorem bitLocal_firmwareIo (d a : Nat) : (bitLocal env c0 t d a acc).firmwareIo = acc.firmwareIo := by
  unfold bitLocal
  dsimp only
  split <;> rfl

theorem moveAlu_firmwareIo : (moveAlu t c0 m v acc).firmwareIo = acc.firmwareIo := by
  unfold moveAlu
  dsimp only
  split_ifs <;> rfl

theorem moveLsu_firmwareIo : (moveLsu env pc t c0 m v acc).firmwareIo = acc.firmwareIo := by
  unfold moveLsu
  dsimp only
  split_ifs
  · rfl
  · exact lsuLocal_firmwareIo ..
  all_goals rfl

/-- The I/O space of a transaction core is described, that of the other kinds is not. -/
theorem moveIou_firmwareIo (h : env.kind = 0) : (moveIou env pc t c0 m v acc).firmwareIo = acc.firmwareIo := by
  unfold moveIou
  dsimp only
  rw [if_neg (not_not.2 h)]
  split_ifs <;> rfl

theorem moveBit_firmwareIo : (moveBit env pc t c0 m v acc).firmwareIo = acc.firmwareIo := by
  unfold moveBit
  dsimp only
  split_ifs
  · rfl
  · rfl
  · rfl
  · exact bitLocal_firmwareIo ..
  · rfl

theorem moveSym_firmwareIo : (moveSym env t c0 m v acc).firmwareIo = acc.firmwareIo := by
  unfold moveSym
  dsimp only
  split
  case h_4 => split <;> rfl
  case h_5 => split <;> rfl
  all_goals rfl

theorem moveHash_firmwareIo : (moveHash env t c0 m v acc).firmwareIo = acc.firmwareIo := by
  unfold moveHash
  dsimp only
  split
  case h_5 =>
    split
    · rfl
    · split <;> rfl
  case h_6 => split <;> rfl
  case h_8 => split <;> rfl
  all_goals rfl

theorem movePin_firmwareIo : (movePin t c0 m v acc).firmwareIo = acc.firmwareIo := by
  unfold movePin
  dsimp only
  split <;> rfl

theorem startLoop_firmwareIo (b : Nat) : (startLoop env next b acc).firmwareIo = acc.firmwareIo := by
  unfold startLoop
  dsimp only
  split_ifs
  · rfl
  · split
    · rfl
    · exact Acc.jump_firmwareIo ..
  · rfl

theorem moveCtl_firmwareIo : (moveCtl env pc next c0 m v acc).firmwareIo = acc.firmwareIo := by
  unfold moveCtl
  dsimp only
  split
  case h_4 => exact startLoop_firmwareIo ..
  all_goals repeat' split
  all_goals simp

theorem applyMove_firmwareIo (h : env.kind = 0) : (applyMove env pc t next c0 acc m).firmwareIo = acc.firmwareIo := by
  unfold applyMove
  dsimp only
  split_ifs
  · rfl
  · rfl
  · rfl
  · split
    · exact moveAlu_firmwareIo ..
    · exact moveLsu_firmwareIo ..
    · exact moveIou_firmwareIo _ _ _ _ _ _ _ h
    · exact moveBit_firmwareIo ..
    · exact moveSym_firmwareIo ..
    · exact moveHash_firmwareIo ..
    · exact movePin_firmwareIo ..
    · exact moveCtl_firmwareIo ..

theorem applyMoves_firmwareIo (h : env.kind = 0) (ms : List Move) :
    (ms.foldl (applyMove env pc t next c0) acc).firmwareIo = acc.firmwareIo := by
  induction ms generalizing acc with
  | nil => rfl
  | cons m ms ih => rw [List.foldl_cons, ih, applyMove_firmwareIo _ _ _ _ _ _ _ h]

end FirmwareIo

theorem issue_firmwareIo {env : IssueEnv} {c0 : Core} {ms : List Move} {next : Nat} {a : Acc} (hkind : env.kind = 0)
    (h : issue env c0 ms next = .ok a) : a.firmwareIo = false := by
  unfold issue at h
  dsimp only at h
  split_ifs at h <;> cases h <;> exact applyMoves_firmwareIo _ _ _ _ _ _ hkind ms

/-! ### What is counted -/

/-- Beside the performance counters, the recorder and the random source, `u` is as `s`. -/
def State.Counted (s u : State) : Prop := ∃ p r g, u = { s with pmc := p, recorder := r, rng := g }

theorem State.Counted.eq {s u : State} (h : s.Counted u) : u = { s with pmc := u.pmc, recorder := u.recorder, rng := u.rng } := by
  obtain ⟨_, _, _, rfl⟩ := h
  rfl

theorem State.Counted.pmcTc {s u : State} (h : s.Counted u) (core ev n : Nat) : s.Counted (u.pmcTc core ev n) := by
  obtain ⟨_, _, g, rfl⟩ := h
  obtain ⟨p, r, hcount⟩ := State.pmcEvent_changes_pmc _ (4 * core) 4 ev n
  exact ⟨p, r, g, hcount⟩

theorem State.counted_refl (s : State) : s.Counted s := ⟨_, _, _, rfl⟩

theorem State.counted_random (s : State) (n : Nat) : s.Counted (s.random n).2 := ⟨_, _, _, rfl⟩

/-- The state with what the issue of a bundle counts on a transaction core: the cycles `stalled`, the bundle, the moves of `ms` that
ran, and a free value drawn. -/
def State.countIssue (s : State) (core : Nat) (ms : List Move) (stalled : Nat) (a : Acc) : State :=
  let s0 := if a.drew then (s.random 64).2 else s
  ((s0.pmcTc core 0x12 stalled).pmcTc core 0x14 1).pmcTc core 0x15 (ms.filter (fun m => (s.core core).guard m)).length

/-- The state with what `cycles` at a WAITF count. -/
def State.countWait (s : State) (core cycles : Nat) : State := (s.pmcTc core 0x13 cycles).pmcTc core 0x12 cycles

theorem State.countWait_eq (s : State) (core cycles : Nat) :
    s.countWait core cycles = { s with pmc := (s.countWait core cycles).pmc, recorder := (s.countWait core cycles).recorder } := by
  have hrng : (s.countWait core cycles).rng = s.rng := by simp [State.countWait]
  have hcount := ((s.counted_refl.pmcTc core 0x13 cycles).pmcTc core 0x12 cycles).eq
  rwa [← State.countWait, hrng] at hcount

theorem State.countIssue_counted (s : State) (core : Nat) (ms : List Move) (stalled : Nat) (a : Acc) :
    s.Counted (s.countIssue core ms stalled a) := by
  have hdraw : s.Counted (if a.drew then (s.random 64).2 else s) := by
    split_ifs
    · exact s.counted_random 64
    · exact s.counted_refl
  exact ((hdraw.pmcTc ..).pmcTc ..).pmcTc ..

/-! ### A bundle comes to issue -/

section Issue

variable {s : State} {core : Nat}

theorem State.issueEnv_kind (s : State) (hcore : core < 128) : (s.issueEnv core).kind = 0 := if_pos hcore

section Effects

variable {ms : List Move} {stalled pc : Nat} {a : Acc} (hcore : core < 128) (hio : a.firmwareIo = false)
include hcore hio

theorem finishIssue_fault {f : FaultAt} (h : a.fault = some f) : finishIssue s core ms stalled pc a =
    .next (stopCore ((s.countIssue core ms stalled a).putCore core a.c) core (.protection f.kind) pc f) := by
  simp [finishIssue, State.countIssue, hio, hcore, h]

theorem finishIssue_enters {v : Word64} (hfault : a.fault = none) (henter : a.enter = some v) :
    finishIssue s core ms stalled pc a = .next (enterTask (s.countIssue core ms stalled a) core a.c) := by
  simp [finishIssue, State.countIssue, hio, hcore, hfault, henter]

theorem finishIssue_goesOn (hfault : a.fault = none) (henter : a.enter = none) :
    finishIssue s core ms stalled pc a = .next ((s.countIssue core ms stalled a).putCore core a.c) := by
  simp [finishIssue, State.countIssue, hio, hcore, hfault, henter]

theorem finishIssue_answers : ∃ u, finishIssue s core ms stalled pc a = .next u := by
  cases hfault : a.fault with
  | some f => exact ⟨_, finishIssue_fault hcore hio hfault⟩
  | none =>
    cases henter : a.enter with
    | some v => exact ⟨_, finishIssue_enters hcore hio hfault henter⟩
    | none => exact ⟨_, finishIssue_goesOn hcore hio hfault henter⟩

end Effects

/-- On a transaction core every bundle has a meaning, whatever it does. -/
theorem issueBundle_answers (s : State) (hcore : core < 128) : ∃ u, issueBundle s core = .next u := by
  unfold issueBundle
  dsimp only
  split
  · exact ⟨_, rfl⟩
  · split_ifs
    · exact ⟨_, rfl⟩
    · split
      · next a hissue => exact finishIssue_answers hcore (issue_firmwareIo (s.issueEnv_kind hcore) hissue)
      all_goals exact ⟨_, rfl⟩

/-- The outcome of a bundle `ms` that came to issue in cycle `t`, by what its issue answers. -/
def State.issued (s : State) (core : Nat) (ms : List Move) (t : Nat) : IssueResult → Host.Outcome State Fault Refusal
  | .ok a => finishIssue s core ms (t - (s.core core).time) (s.core core).pc a
  | .illegalBundle => .next (stopCore s core .bundle (s.core core).pc noAddress)
  | .illegalMove => .next (stopCore s core .move (s.core core).pc noAddress)
  | .waiting mask =>
    .next (s.putCore core { (s.core core).pass (t - (s.core core).time) with stall := .waitf mask (t + (s.core core).ctl.wb) })

/-- A bundle that decodes issues, where neither an access nor the end of the budget comes first. -/
theorem issueBundle_issues {ms : List Move} {next t : Nat} (ht : stallTo (s.core core) ms (s.core core).time = t)
    (hdecode : decodeBundle (s.issueEnv core).word (s.core core).pc = some (ms, next))
    (hdue : ∀ x ∈ (s.core core).accesses, t ≤ x.due)
    (hbudget : (s.core core).entered = true → t - (s.core core).time < (s.core core).budget) :
    issueBundle s core =
      s.issued core ms t (issue (s.issueEnv core) ((s.core core).pass (t - (s.core core).time)) ms next) := by
  have hfirst : ¬ ((s.core core).accesses.any (fun x => decide (x.due < t)) = true ∨
      (s.core core).entered = true ∧ (s.core core).budget ≤ t - (s.core core).time) := by
    simpa using ⟨hdue, hbudget⟩
  unfold issueBundle
  simp only [hdecode, ht, if_neg hfirst]
  cases issue (s.issueEnv core) ((s.core core).pass (t - (s.core core).time)) ms next <;> rfl

theorem exec_bundleIssue_runs (hruns : s.coreRuns core = true) (hstall : (s.core core).stall = .none) :
    exec (.bundleIssue core) s = issueBundle s core := by
  change execBundleIssue core s = _
  rw [execBundleIssue, if_pos ⟨hruns, hstall⟩]

theorem exec_bundleIssue_idle (h : s.coreRuns core = false ∨ (s.core core).stall ≠ .none) :
    exec (.bundleIssue core) s = .next s := by
  change execBundleIssue core s = _
  rw [execBundleIssue, if_neg]
  rintro ⟨hruns, hstall⟩
  rcases h with h | h
  · simp [hruns] at h
  · exact h hstall

theorem exec_bundleIssue_answers (s : State) (hcore : core < 128) : ∃ u, exec (.bundleIssue core) s = .next u := by
  by_cases hidle : s.coreRuns core = false ∨ (s.core core).stall ≠ .none
  · exact ⟨s, exec_bundleIssue_idle hidle⟩
  · obtain ⟨hruns, hstall⟩ : s.coreRuns core = true ∧ (s.core core).stall = .none := by simpa using hidle
    rw [exec_bundleIssue_runs hruns hstall]
    exact issueBundle_answers s hcore

theorem exec_waitfSatisfied_answers (s : State) (hcore : core < 128) (cycles : Nat) :
    ∃ u, exec (.waitfSatisfied core cycles) s = .next u := by
  change ∃ u, execWaitfSatisfied core cycles s = .next u
  unfold execWaitfSatisfied
  dsimp only
  split
  · split_ifs
    · exact issueBundle_answers _ hcore
    · exact ⟨_, rfl⟩
  · exact ⟨_, rfl⟩

/-- A core at a WAITF whose mask comes to be satisfied in time issues its bundle once more, the cycles waited having passed. -/
theorem exec_waitfSatisfied_issues {mask : BitVec 32} {last cycles : Nat} (hcore : core < 128)
    (hstall : (s.core core).stall = .waitf mask last) (hruns : s.coreRuns core = true) (hmask : s.satisfies core mask = true)
    (hbound : (s.core core).time + cycles ≤ last) (hbudget : (s.core core).entered = true → cycles < (s.core core).budget)
    (hdue : ∀ x ∈ (s.core core).accesses, (s.core core).time + cycles ≤ x.due) :
    exec (.waitfSatisfied core cycles) s =
      issueBundle ((s.countWait core cycles).putCore core { (s.core core).pass cycles with stall := .none }) core := by
  have hends : ¬ ((s.core core).entered = true ∧ (s.core core).budget ≤ cycles) := by simpa using hbudget
  have hfirst : ¬ (s.core core).accesses.any (fun x => decide (x.due < (s.core core).time + cycles)) = true := by simpa using hdue
  change execWaitfSatisfied core cycles s = _
  unfold execWaitfSatisfied
  simp only [hstall]
  rw [if_pos ⟨hruns, hmask, hbound, hends, hfirst⟩, if_pos hcore]
  rfl

end Issue

/-- Settles O28: no move of a transaction core reaches undescribed I/O, so that each of its bundles is answered, and how follows from
what its issue answers. -/
theorem bundleIssueCompletes : Obligations.BundleIssueCompletes := by
  intro s core hcore c word
  refine ⟨exec_waitfSatisfied_answers s hcore, exec_bundleIssue_answers s hcore, exec_bundleIssue_idle,
    fun ms next hruns hstall hdecode hdue hbudget => ?issues,
    fun mask last cycles hstall hruns hmask hbound hbudget hdue => ⟨_, s.countWait_eq core cycles, ?waited⟩⟩
  case waited => exact exec_waitfSatisfied_issues hcore hstall hruns hmask hbound hbudget hdue
  case issues =>
    have hexec := (exec_bundleIssue_runs hruns hstall).trans (issueBundle_issues rfl hdecode hdue hbudget)
    cases hissue : issue (s.issueEnv core) (c.pass (stallTo c ms c.time - c.time)) ms next with
    | ok a =>
      have hio := issue_firmwareIo (s.issueEnv_kind hcore) hissue
      rw [hissue] at hexec
      refine ⟨_, (s.countIssue_counted core ms (stallTo c ms c.time - c.time) a).eq, hexec.trans ?_⟩
      cases hfault : a.fault with
      | some f => exact finishIssue_fault hcore hio hfault
      | none =>
        cases henter : a.enter with
        | some v => exact finishIssue_enters hcore hio hfault henter
        | none => exact finishIssue_goesOn hcore hio hfault henter
    | waiting mask => exact hexec.trans (congrArg _ hissue)
    | illegalBundle => exact hexec.trans (congrArg _ hissue)
    | illegalMove => exact hexec.trans (congrArg _ hissue)

end Sys2Proof.Machine
end

section
/-! SUPPORT. Chapter 08 (family 08_payment_functions), the shared steps: what stands at the head of a longer step, comparisons,
PIN blocks opened, counter records advanced, and the answers that the statements give. -/

namespace Sys2Proof.Machine

open Sys2Proof

/-! ### Steps within steps -/

/-- A step that heads a longer step leaves the rest of that step, in the state it leaves. -/
theorem runFnOn_nested {α β : Type} {f : Fn α} {h : α → Fn β} {g : β → Fn FnRes} {s t : State} {a : α} (hf : f.gives s a t) :
    runFnOn ((f >>= h) >>= g) s = runFnOn (h a >>= g) t := by
  rw [bind_assoc]
  exact runFnOn_bind _ hf

/-- A comparison ends a function with OK or VERIFY_FAILED. -/
theorem runFnOn_compare {α : Type} [BEq α] [LawfulBEq α] [DecidableEq α] (a b : α) (s : State) :
    runFnOn (Fn.need (a == b) stVerifyFailed >>= fun _ => Fn.done []) s =
      (if a = b then {} else { status := stVerifyFailed }, s) := by
  rw [runFnOn_need]
  by_cases hab : a = b
  · rw [if_pos hab, if_pos (beq_iff_eq.2 hab)]
    rfl
  · rw [if_neg hab, if_neg (mt beq_iff_eq.1 hab)]

/-- A function command whose function's run is known. -/
theorem serveFn_runs {codes : Nat → Bool} {k : Nat} {s t : State} {r : FnRes} (f : Nat → Slot → Fn FnRes) (h : s.mayCompute k codes)
    (hf : runFnOn (f k (s.asked k)) (s.computing k) = (r, t)) : serveFn codes f k s = s.ended k r t := by
  rw [serveFn_ended f h, State.endedBy, hf]

/-- A function command whose function runs on as `g` does in `t`. -/
theorem serveFn_runsOn {codes : Nat → Bool} {k : Nat} {s t : State} {g : Fn FnRes} (f : Nat → Slot → Fn FnRes)
    (h : s.mayCompute k codes) (hf : runFnOn (f k (s.asked k)) (s.computing k) = runFnOn g t) :
    serveFn codes f k s = s.endedBy k g t :=
  (serveFn_ended f h).trans (s.endedBy_congr k hf)

/-- A function command whose function's run a condition decides. -/
theorem serveFn_judged {codes : Nat → Bool} {k : Nat} {s : State} {c : Prop} [Decidable c] {q q' : FnRes × State}
    (f : Nat → Slot → Fn FnRes) (h : s.mayCompute k codes)
    (hf : runFnOn (f k (s.asked k)) (s.computing k) = if c then q else q') :
    (Host.Outcome.next (serveFn codes f k s) : Host.Outcome State Fault Refusal) =
      if c then .next (s.ended k q.1 q.2) else .next (s.ended k q'.1 q'.2) := by
  rw [serveFn_ended f h, State.endedBy, hf]
  exact apply_ite (fun q : FnRes × State => Host.Outcome.next (s.ended k q.1 q.2)) c q q'

/-! ### PIN blocks (R231) -/

/-- The outcomes of opening a PIN block: `stop` with a status, or `go` on with the PIN of an accepted length. -/
def pinCases {α : Type} (lmin lmax : Nat) (stop : Nat → α) (go : List Nat → α) : Option (List Nat) → α
  | none => stop stPinBlockInvalid
  | some pin => if lmin ≤ pin.length ∧ pin.length ≤ lmax then go pin else stop stPinLength

theorem runFnOn_openPin (key : Bytes) (fmt lmin lmax : Nat) (pan : List Nat) (block : Bytes) (g : List Nat → Fn FnRes) (s : State) :
    runFnOn (Fn.openPin key fmt lmin lmax pan block >>= g) s =
      pinCases lmin lmax (fun st => ({ status := st }, s)) (fun pin => runFnOn (g pin) s) (openPin key fmt pan block) := by
  rw [Fn.openPin, bind_assoc, runFnOn_get!]
  cases openPin key fmt pan block with
  | none => rfl
  | some pin =>
    simp only [pinCases, bind_assoc, pure_bind, runFnOn_need, decide_eq_true_eq]

/-- What is done with the outcome is done in each case. -/
theorem apply_pinCases {α β : Type} (f : α → β) (lmin lmax : Nat) (stop : Nat → α) (go : List Nat → α) (o : Option (List Nat)) :
    f (pinCases lmin lmax stop go o) = pinCases lmin lmax (fun st => f (stop st)) (fun pin => f (go pin)) o := by
  cases o with
  | none => rfl
  | some pin => exact apply_ite f _ _ _

/-- Where each case leaves the same state, so do all. -/
theorem pinCases_same_state (lmin lmax : Nat) (r : List Nat → FnRes) (t : State) (o : Option (List Nat)) :
    pinCases lmin lmax (fun st => (({ status := st } : FnRes), t)) (fun pin => (r pin, t)) o =
      (pinCases lmin lmax (fun st => { status := st }) r o, t) :=
  (apply_pinCases (fun r : FnRes => (r, t)) lmin lmax _ r o).symm

/-- A function command whose function's run ends with what opening a PIN block gives. -/
theorem serveFn_pinCases {codes : Nat → Bool} {k lmin lmax : Nat} {s t : State} {go : List Nat → FnRes × State}
    {o : Option (List Nat)} (f : Nat → Slot → Fn FnRes) (h : s.mayCompute k codes)
    (hf : runFnOn (f k (s.asked k)) (s.computing k) = pinCases lmin lmax (fun st => ({ status := st }, t)) go o) :
    serveFn codes f k s = pinCases lmin lmax (fun st => s.ended k { status := st } t) (fun pin => s.ended k (go pin).1 (go pin).2) o := by
  rw [serveFn_ended f h, State.endedBy, hf]
  exact apply_pinCases (fun q : FnRes × State => s.ended k q.1 q.2) lmin lmax _ go o

/-! ### Counter records (R238, R264) -/

/-- What a request that advances a counter record ends with: `r` and its claim noted in its slot, or the record's status. -/
def claimed (k unit v : Nat) (r : FnRes) (a : Nat × State) : FnRes × State :=
  if a.1 = stOk then (r, a.2.modSlot k (fun y => { y with claims := y.claims ++ [(unit, v)] })) else ({ status := a.1 }, a.2)

theorem runFnOn_advance (k : Nat) (x : Slot) (unit v psn digits : Nat) (id result : Bytes) (s : State) :
    runFnOn (Fn.advance k x unit v psn digits id >>= fun _ => Fn.done result) s =
      claimed k unit v { result := result } (advance s x.tenant x.admitTick x.req unit v psn digits id) := by
  rw [Fn.advance, bind_assoc, runFnOn_act, bind_assoc, runFnOn_ok]
  rfl

theorem State.ended_claimed (s : State) (k unit v : Nat) (r : FnRes) (a : Nat × State) :
    s.ended k (claimed k unit v r a).1 (claimed k unit v r a).2 =
      if a.1 = stOk then s.ended k r (a.2.modSlot k (fun y => { y with claims := y.claims ++ [(unit, v)] }))
      else s.ended k { status := a.1 } a.2 :=
  apply_ite (fun q : FnRes × State => s.ended k q.1 q.2) _ _ _

end Sys2Proof.Machine
end

section
/-! SUPPORT. Chapter 08 (family 08_payment_functions), PIN functions: the offset method, the PVV method and PIN translation up to
the PIN they open, and the statements about them. -/

namespace Sys2Proof.Machine

open Sys2Proof

/-! ### The offset method (R233) -/

/-- The natural PIN of an offset request: the decimalised encryption of VALDATA, cut to CHKLEN digits. -/
def naturalPin (p : Bytes) (key : Bytes) : List Nat :=
  ((nibbles (tdesEnc key (slice p 60 8))).map (fun h => (nibbles (slice p 52 8)).getD h 0)).take (fld p 23 1)

theorem decimalTable {t : List Nat} (hdec : decimal t = true) (hall : ∀ d, d < 10 → t.contains d = true) :
    (decimal t && (List.range 10).all (fun d => t.contains d)) = true :=
  (Bool.and_eq_true_iff).2 ⟨hdec, List.all_eq_true.2 fun d hd => hall d (List.mem_range.1 hd)⟩

section Offset

variable {x : Slot} {stop : Nat} {rest : Bool} {modes : List Nat} {pan : List Nat} {kv kp : Handle} {s s1 s2 : State}
  (hfields : (payloadOk x.payload stop [(25, 1)] [4, 12] && fmtOk (fld x.payload 20 1) &&
    lensOk (fld x.payload 21 1) (fld x.payload 22 1) && decide (4 ≤ fld x.payload 23 1 ∧ fld x.payload 23 1 ≤ 12) &&
    pinblkOk x.payload 36 (fld x.payload 20 1) && rest) = true)
  (hpan : (Fn.pan x.payload 24).gives s pan s)
  (hkv : (Fn.resolveRole x 4 { usages := [uV1], modes := modes, algs := [1, 2] }).gives s kv s1)
  (hkp : (Fn.resolveRole x 12 (pinIn (fld x.payload 20 1))).gives s1 kp s2)
  (htab : (decimal (nibbles (slice x.payload 52 8)) && (List.range 10).all (fun d => (nibbles (slice x.payload 52 8)).contains d)) = true)
include hfields hpan hkv hkp htab

theorem runFnOn_offsetMethod (g : List Nat × List Nat → Fn FnRes) :
    runFnOn (Fn.offsetMethod x stop rest modes >>= g) s =
      pinCases (fld x.payload 21 1) (fld x.payload 22 1) (fun st => ({ status := st }, s2))
        (fun pin => if fld x.payload 23 1 ≤ pin.length then
            runFnOn (g (pin.take (fld x.payload 23 1), naturalPin x.payload kv.key)) s2
          else ({ status := stPinLength }, s2))
        (openPin kp.key (fld x.payload 20 1) pan (slice x.payload 36 16)) := by
  refine (runFnOn_nested (Fn.need_gives hfields)).trans <| (runFnOn_nested hpan).trans <| (runFnOn_nested hkv).trans <|
    (runFnOn_nested hkp).trans <| (runFnOn_nested (Fn.need_gives htab)).trans ?_
  rw [bind_assoc, runFnOn_openPin]
  simp only [bind_assoc, pure_bind, runFnOn_need, decide_eq_true_eq]
  rfl

/-- The offset method with a rest that ends without touching the state. -/
theorem runFnOn_offsetMethod_ends {g : List Nat × List Nat → Fn FnRes} {r : List Nat → FnRes}
    (hg : ∀ pin, runFnOn (g (pin, naturalPin x.payload kv.key)) s2 = (r pin, s2)) :
    runFnOn (Fn.offsetMethod x stop rest modes >>= g) s =
      (pinCases (fld x.payload 21 1) (fld x.payload 22 1) (fun st => { status := st })
        (fun pin => if fld x.payload 23 1 ≤ pin.length then r (pin.take (fld x.payload 23 1)) else { status := stPinLength })
        (openPin kp.key (fld x.payload 20 1) pan (slice x.payload 36 16)), s2) := by
  rw [runFnOn_offsetMethod hfields hpan hkv hkp htab, ← pinCases_same_state]
  simp only [hg, apply_ite (fun r : FnRes => (r, s2))]

end Offset

/-- Settles O5: both functions run the offset method; one compares the PIN that it opens, the other subtracts. -/
theorem pinOffsetFunctions : Obligations.PinOffsetFunctions := by
  intro s k pan kv kp s1 s2 x p fmt n t off natural opened hfmt hlens h4 h12 hblock hpan hdec hall
  have htab := decimalTable hdec hall
  have hopened : ∀ f : List Nat → FnRes, pinCases (fld p 21 1) (fld p 22 1) (fun st => { status := st })
      (fun pin => if n ≤ pin.length then f (pin.take n) else { status := stPinLength }) (openPin kp.key fmt pan (slice p 36 16)) =
      opened f := by
    intro f
    simp only [opened]
    cases openPin kp.key fmt pan (slice p 36 16) with
    | none => rfl
    | some pin => simp only [pinCases, ← and_assoc, ite_and]
  clear_value opened
  constructor
  · intro hmay hlayout hoffset hkv hkp
    have hfields : (payloadOk p 74 [(25, 1)] [4, 12] && fmtOk fmt && lensOk (fld p 21 1) (fld p 22 1) && decide (4 ≤ n ∧ n ≤ 12) &&
        pinblkOk p 36 fmt && offsetOk n off) = true := by
      simp only [hlayout, hfmt, hlens, h4, h12, hblock, hoffset, and_self, decide_true, Bool.and_self]
    refine congrArg Host.Outcome.next (serveFn_runs _ hmay (Eq.trans ?_ (congrArg (·, s2) (hopened _))))
    exact runFnOn_offsetMethod_ends hfields hpan hkv hkp htab
      (r := fun pin => if pin = List.zipWith (fun a b => (a + b) % 10) natural off then {} else { status := stVerifyFailed })
      fun pin => runFnOn_compare pin _ s2
  · intro hmay hlayout hkv hkp
    have hfields : (payloadOk p 68 [(25, 1)] [4, 12] && fmtOk fmt && lensOk (fld p 21 1) (fld p 22 1) && decide (4 ≤ n ∧ n ≤ 12) &&
        pinblkOk p 36 fmt && true) = true := by
      simp only [hlayout, hfmt, hlens, h4, h12, hblock, and_self, decide_true, Bool.and_self]
    refine congrArg Host.Outcome.next (serveFn_runs _ hmay (Eq.trans ?_ (congrArg (·, s2) (hopened _))))
    exact runFnOn_offsetMethod_ends hfields hpan hkv hkp htab
      (r := fun pin =>
        let ds := List.zipWith (fun a b => (a + 10 - b) % 10) pin natural
        { result := packNibbles (ds ++ List.replicate (12 - ds.length) 15) ++ zeros 2 })
      fun pin => runFnOn_done _ _ s2

/-! ### The PVV method (R234) -/

section Pvv

variable {x : Slot} {stop : Nat} {rest : Bool} {modes : List Nat} {pan : List Nat} {kv kp : Handle} {s s1 s2 : State}

/-- The digits of a PIN's PVV under a key. -/
def pvvOf (p key : Bytes) (pan pin : List Nat) : List Nat :=
  let account := pan.dropLast
  (extractDigits (nibbles (tdesEnc key (packNibbles (account.drop (account.length - 11) ++ [fld p 23 1] ++ pin.take 4))))).take 4

theorem runFnOn_pvvMethod
    (hfields : (payloadOk x.payload stop [(25, 1)] [4, 12] && fmtOk (fld x.payload 20 1) &&
      lensOk (fld x.payload 21 1) (fld x.payload 22 1) && decide (fld x.payload 23 1 ≤ 6) &&
      pinblkOk x.payload 36 (fld x.payload 20 1) && rest) = true)
    (hpan : (Fn.pan x.payload 24).gives s pan s)
    (hkv : (Fn.resolveRole x 4 { usages := [uV2], modes := modes, algs := [1] }).gives s kv s1)
    (hkp : (Fn.resolveRole x 12 (pinIn (fld x.payload 20 1))).gives s1 kp s2) {g : List Nat → Fn FnRes} {r : List Nat → FnRes}
    (hg : ∀ pvv, runFnOn (g pvv) s2 = (r pvv, s2)) :
    runFnOn (Fn.pvvMethod x stop rest modes >>= g) s =
      (pinCases (fld x.payload 21 1) (fld x.payload 22 1) (fun st => { status := st }) (fun pin => r (pvvOf x.payload kv.key pan pin))
        (openPin kp.key (fld x.payload 20 1) pan (slice x.payload 36 16)), s2) := by
  refine (runFnOn_nested (Fn.need_gives hfields)).trans <| (runFnOn_nested hpan).trans <| (runFnOn_nested hkv).trans <|
    (runFnOn_nested hkp).trans ?_
  rw [bind_assoc, runFnOn_openPin, ← pinCases_same_state]
  simp only [pure_bind, hg]
  rfl

end Pvv

/-! ### Translation (R231, R232) -/

theorem runFnOn_pinTranslate {x : Slot} {pan : List Nat} {kin kout : Handle} {fill : Bytes} {s s1 s2 s3 : State}
    (hfields : (payloadOk x.payload 52 [(25, 1)] [4, 12] && fmtOk (fld x.payload 20 1) && fmtOk (fld x.payload 21 1) &&
      lensOk (fld x.payload 22 1) (fld x.payload 23 1) && pinblkOk x.payload 36 (fld x.payload 20 1)) = true)
    (hpan : (Fn.pan x.payload 24).gives s pan s) (hin : (Fn.resolveRole x 4 (pinIn (fld x.payload 20 1))).gives s kin s1)
    (hout : (Fn.resolveRole x 12 (pinOut (fld x.payload 21 1))).gives s1 kout s2)
    (hpair : s2.translates x.tenant (fld x.payload 20 1) (fld x.payload 21 1) = true)
    (hfill : (Fn.fill (fld x.payload 21 1)).gives s2 fill s3) :
    runFnOn (pinTranslateFn x) s =
      (pinCases (fld x.payload 22 1) (fld x.payload 23 1) (fun st => { status := st })
        (fun pin => { result := sealPin kout.key (fld x.payload 21 1) pan pin fill })
        (openPin kin.key (fld x.payload 20 1) pan (slice x.payload 36 16)), s3) := by
  refine (runFnOn_need_pos hfields _ _ s).trans <| (runFnOn_bind _ hpan).trans <| (runFnOn_bind _ hin).trans <|
    (runFnOn_bind _ hout).trans <| (runFnOn_st _ _ s2).trans <| (runFnOn_need_pos hpair _ _ s2).trans <|
    (runFnOn_bind _ hfill).trans ?_
  rw [runFnOn_openPin, ← pinCases_same_state]
  rfl

/-- Settles O6: the two PVV functions run the PVV method; PIN_TRANSLATE seals the PIN that it opens. -/
theorem pvvAndTranslateFunctions : Obligations.PvvAndTranslateFunctions := by
  intro s k pan kv kp s1 s2 x p fmt hpan
  refine ⟨?pvv, ?translate⟩
  case pvv =>
    intro pvki account opened pvv hfmt hlens h6 hblock
    have hopened : ∀ f : List Nat → FnRes, pinCases (fld p 21 1) (fld p 22 1) (fun st => { status := st }) f
        (openPin kp.key fmt pan (slice p 36 16)) = opened f := by
      intro f
      simp only [opened]
      cases openPin kp.key fmt pan (slice p 36 16) <;> rfl
    clear_value opened
    have hfields : ∀ {stop rest}, payloadOk p stop [(25, 1)] [4, 12] = true → rest = true →
        (payloadOk p stop [(25, 1)] [4, 12] && fmtOk fmt && lensOk (fld p 21 1) (fld p 22 1) && decide (pvki ≤ 6) &&
          pinblkOk p 36 fmt && rest) = true := by
      intro stop rest hlayout hrest
      simp only [hlayout, hfmt, hlens, h6, hblock, hrest, decide_true, Bool.and_self]
    constructor
    · intro hmay hlayout hgiven hkv hkp
      refine congrArg Host.Outcome.next (serveFn_runs _ hmay (Eq.trans ?_ (congrArg (·, s2) (hopened _))))
      exact runFnOn_pvvMethod (hfields hlayout hgiven) hpan hkv hkp
        (r := fun pvv => if pvv = nibbles (slice p 52 2) then {} else { status := stVerifyFailed })
        fun pvv => runFnOn_compare pvv _ s2
    · intro hmay hlayout hkv hkp
      refine congrArg Host.Outcome.next (serveFn_runs _ hmay (Eq.trans ?_ (congrArg (·, s2) (hopened _))))
      exact runFnOn_pvvMethod (hfields hlayout rfl) hpan hkv hkp (r := fun pvv => { result := packNibbles pvv ++ zeros 6 })
        fun pvv => runFnOn_done _ _ s2
  case translate =>
    intro fill s3 fout hmay hlayout hfmt hfout hlens hblock hin hout hpair hfill
    have hfields : (payloadOk p 52 [(25, 1)] [4, 12] && fmtOk fmt && fmtOk fout && lensOk (fld p 22 1) (fld p 23 1) &&
        pinblkOk p 36 fmt) = true := by
      simp only [hlayout, hfmt, hfout, hlens, hblock, Bool.and_self]
    refine congrArg Host.Outcome.next (serveFn_runs _ hmay ((runFnOn_pinTranslate hfields hpan hin hout hpair hfill).trans ?_))
    refine congrArg (·, s3) ?_
    cases openPin kv.key fmt pan (slice p 36 16) <;> rfl

end Sys2Proof.Machine
end

section
/-! SUPPORT. Chapter 08 (family 08_payment_functions), MAC and card-verification functions: the MAC of a request, the digits of
its card-verification value, and the statement about them. -/

namespace Sys2Proof.Machine

open Sys2Proof

/-- The MAC of a request whose checks all pass. -/
theorem Fn.macFor_gives {x : Slot} {off most : Nat} {modes : List Nat} {h : Handle} {s s1 : State}
    (hlayout : payloadOk x.payload (off + 2 + fld x.payload off 2) [(15, 1)] [4] = true)
    (hmac : macFieldsOk (fld x.payload 12 1) (fld x.payload 13 1) (fld x.payload 14 1) = true) (hmost : fld x.payload off 2 ≤ most)
    (hkey : (Fn.resolve x 4 (macKeyOk (fld x.payload 12 1) modes)).gives s h s1) :
    (Fn.macFor x off most modes).gives s
      ((macOf (fld x.payload 12 1) (fld x.payload 13 1) h.key (slice x.payload (off + 2) (fld x.payload off 2))).take
        (fld x.payload 14 1)) s1 := by
  have hfields : (payloadOk x.payload (off + 2 + fld x.payload off 2) [(15, 1)] [4] &&
      macFieldsOk (fld x.payload 12 1) (fld x.payload 13 1) (fld x.payload 14 1) && decide (fld x.payload off 2 ≤ most)) = true := by
    simp only [hlayout, hmac, hmost, decide_true, Bool.and_self]
  exact Fn.gives_bind (Fn.need_gives hfields) (Fn.gives_bind hkey (Fn.pure_gives _ s1))

/-- The digits that a card-verification request is computed over: PAN, date and service code (R235). -/
def cvvDigits (p : Bytes) (pan : List Nat) : List Nat :=
  pan ++ (if fld p 12 1 = 2 then decDigits 4 (fld p 30 2) else nibbles (slice p 26 2)) ++
    (if fld p 12 1 = 1 then [9, 9, 9] else (nibbles (slice p 28 2)).drop 1)

/-- The three digits of a request's card-verification value under a key. -/
def cvvUnder (key : Bytes) (ds : List Nat) : List Nat :=
  let b := packNibbles (ds ++ List.replicate (32 - ds.length) 0)
  let a := key.take 8
  let y := desEnc a (xorBytes (desEnc a (b.take 8)) (b.drop 8))
  (extractDigits (nibbles (desEnc a (desDec (slice key 8 8) y)))).take 3

theorem Fn.cvvOf_gives {x : Slot} {stop : Nat} {rest : Bool} {modes pan : List Nat} {h : Handle} {s s1 : State}
    (hlayout : payloadOk x.payload stop [(13, 1), (15, 1)] [4] = true) (hvariant : fld x.payload 12 1 ≤ 2)
    (hexpiry : decimal (nibbles (slice x.payload 26 2)) = true) (hservice : decimal (nibbles (slice x.payload 28 2)) = true)
    (hlead : (nibbles (slice x.payload 28 2)).take 1 = [0]) (hrest : rest = true) (hpan : (Fn.pan x.payload 14).gives s pan s)
    (hkey : (Fn.resolveRole x 4 { usages := [uC0], modes := modes, algs := [1] }).gives s h s1) :
    (Fn.cvvOf x stop rest modes).gives s (cvvUnder h.key (cvvDigits x.payload pan)) s1 := by
  have hfields : (payloadOk x.payload stop [(13, 1), (15, 1)] [4] && decide (fld x.payload 12 1 ≤ 2) &&
      decimal (nibbles (slice x.payload 26 2)) && decimal (nibbles (slice x.payload 28 2)) &&
      (nibbles (slice x.payload 28 2)).take 1 == [0] && rest) = true := by
    simp only [hlayout, hvariant, hexpiry, hservice, hlead, hrest, decide_true, beq_self_eq_true, Bool.and_self]
  exact Fn.gives_bind (Fn.need_gives hfields) (Fn.gives_bind hpan (Fn.gives_bind hkey (Fn.pure_gives _ s1)))

/-- Settles O7: each function makes its value, and hands it over or compares it. -/
theorem macAndCvvFunctions : Obligations.MacAndCvvFunctions := by
  intro s k h s1 x p
  refine ⟨?mac, ?cvv⟩
  case mac =>
    intro alg pad len hmac
    refine ⟨?make, ?check⟩
    case make =>
      intro n hn hlayout hkey made
      subst hn
      have hruns : ∀ most, fld p 16 2 ≤ most → runFnOn (macMake x most) (s.computing k) =
          ({ result := (macOf alg pad h.key (slice p 18 (fld p 16 2))).take len }, s1) := fun most hmost =>
        runFnOn_bind _ (Fn.macFor_gives hlayout hmac hmost hkey)
      exact ⟨fun hmay hmost => congrArg Host.Outcome.next (serveFn_runs _ hmay (hruns 384 hmost)),
        fun hmay hmost => congrArg Host.Outcome.next (serveFn_runs _ hmay (hruns 8064 hmost))⟩
    case check =>
      intro n hn hlayout hkey m checked
      subst hn
      have hruns : ∀ most, fld p 48 2 ≤ most → runFnOn (macCheck x most) (s.computing k) =
          (if m = slice p 16 m.length then {} else { status := stVerifyFailed }, s1) := fun most hmost =>
        (runFnOn_bind _ (Fn.macFor_gives hlayout hmac hmost hkey)).trans (runFnOn_compare m _ s1)
      exact ⟨fun hmay hmost => congrArg Host.Outcome.next (serveFn_runs _ hmay (hruns 384 hmost)),
        fun hmay hmost => congrArg Host.Outcome.next (serveFn_runs _ hmay (hruns 8064 hmost))⟩
  case cvv =>
    intro pan v expiry service given ds b a y cvv hvariant hexpiry hservice hlead hpan
    constructor
    · intro hmay hlayout hkey
      have hcvv := Fn.cvvOf_gives hlayout hvariant hexpiry hservice hlead rfl hpan hkey
      exact congrArg Host.Outcome.next (serveFn_runs _ hmay (runFnOn_bind _ hcvv))
    · intro hmay hlayout hgiven hfirst hkey
      have hrest : (decimal given && given.take 1 == [0]) = true := by
        simp only [hgiven, hfirst, beq_self_eq_true, Bool.and_self]
      have hcvv := Fn.cvvOf_gives hlayout hvariant hexpiry hservice hlead hrest hpan hkey
      exact congrArg Host.Outcome.next (serveFn_runs _ hmay ((runFnOn_bind _ hcvv).trans (runFnOn_compare cvv given s1)))

end Sys2Proof.Machine
end

section
/-! SUPPORT. Chapter 08 (family 08_payment_functions), EMV functions: the cryptogram that three of them judge, secure messaging,
and the statement about them. -/

namespace Sys2Proof.Machine

open Sys2Proof

/-! ### Cryptograms (R236) -/

/-- The session key of a cryptogram request. -/
def arqcKey (p key : Bytes) (pan : List Nat) : Bytes :=
  emvSession (fld p 12 1) (emvMaster (fld p 12 1) key pan (fld p 13 1)) (slice p 14 2)

section Cryptograms

variable {k : Nat} {x : Slot} {off : Nat} {reserved : List (Nat × Nat)} {rest : Bool} {pan : List Nat} {h : Handle} {s s1 : State}
  (hscheme : fld x.payload 12 1 ≤ 1) (hpan : (Fn.pan x.payload 16).gives s pan s)
  (hkey : (Fn.resolveRole x 4 (emvRole uE0 (fld x.payload 12 1))).gives s h s1)
include hscheme hpan hkey

theorem runFnOn_arqc (hlayout : payloadOk x.payload (off + fld x.payload (off - 2) 2) reserved [4] = true)
    (hlen : fld x.payload (off - 2) 2 ≤ 256) (hrest : rest = true) (g : List Nat × Bytes → Fn FnRes) :
    runFnOn (Fn.arqc x off reserved rest >>= g) s =
      if emvMac (fld x.payload 12 1) (arqcKey x.payload h.key pan) (slice x.payload off (fld x.payload (off - 2) 2)) =
          slice x.payload 28 8 then
        runFnOn (g (pan, arqcKey x.payload h.key pan)) s1
      else ({ status := stVerifyFailed }, s1) := by
  have hfields : (payloadOk x.payload (off + fld x.payload (off - 2) 2) reserved [4] &&
      decide (fld x.payload 12 1 ≤ 1 ∧ fld x.payload (off - 2) 2 ≤ 256) && rest) = true := by
    simp only [hlayout, hscheme, hlen, hrest, and_self, decide_true, Bool.and_self]
  refine (runFnOn_nested (Fn.need_gives hfields)).trans <| (runFnOn_nested hpan).trans <| (runFnOn_nested hkey).trans ?_
  rw [bind_assoc, runFnOn_need]
  simp only [beq_iff_eq, pure_bind]
  rfl

theorem runFnOn_arqcVerify (hlayout : payloadOk x.payload (38 + fld x.payload 36 2) [] [4] = true) (hlen : fld x.payload 36 2 ≤ 256) :
    runFnOn (arqcVerifyFn x) s =
      if emvMac (fld x.payload 12 1) (arqcKey x.payload h.key pan) (slice x.payload 38 (fld x.payload 36 2)) =
          slice x.payload 28 8 then ({}, s1)
      else ({ status := stVerifyFailed }, s1) :=
  runFnOn_arqc (off := 38) hscheme hpan hkey hlayout hlen rfl fun _ => Fn.done []

theorem runFnOn_arqcVerifyArpc (hlayout : payloadOk x.payload (58 + fld x.payload 56 2) arpcReserved [4] = true)
    (hlen : fld x.payload 56 2 ≤ 256) (harpc : arpcFieldsOk x.payload = true) :
    runFnOn (arqcVerifyArpcFn x) s =
      if emvMac (fld x.payload 12 1) (arqcKey x.payload h.key pan) (slice x.payload 58 (fld x.payload 56 2)) =
          slice x.payload 28 8 then ({ result := arpcOf x.payload (arqcKey x.payload h.key pan) }, s1)
      else ({ status := stVerifyFailed }, s1) :=
  runFnOn_arqc (off := 58) hscheme hpan hkey hlayout hlen harpc fun r => Fn.done (arpcOf x.payload r.2)

theorem runFnOn_arqcVerifyTracked (hlayout : payloadOk x.payload (62 + fld x.payload 60 2) arpcReserved [4] = true)
    (hlen : fld x.payload 60 2 ≤ 256) (harpc : arpcFieldsOk x.payload = true) :
    runFnOn (arqcVerifyTrackedFn k x) s =
      if emvMac (fld x.payload 12 1) (arqcKey x.payload h.key pan) (slice x.payload 62 (fld x.payload 60 2)) =
          slice x.payload 28 8 then
        claimed k (fld x.payload 56 4) (fld x.payload 14 2) { result := arpcOf x.payload (arqcKey x.payload h.key pan) }
          (advance s1 x.tenant x.admitTick x.req (fld x.payload 56 4) (fld x.payload 14 2) (fld x.payload 13 1) pan.length
            (slice x.payload 18 10))
      else ({ status := stVerifyFailed }, s1) := by
  refine (runFnOn_arqc (off := 62) hscheme hpan hkey hlayout hlen harpc fun r => do
    Fn.advance k x (fld x.payload 56 4) (fld x.payload 14 2) (fld x.payload 13 1) r.1.length (slice x.payload 18 10)
    Fn.done (arpcOf x.payload r.2)).trans ?_
  rw [runFnOn_advance]

end Cryptograms

/-! ### Secure messaging (R236) -/

/-- The session key of a secure-messaging request. -/
def smKey (p key : Bytes) (pan : List Nat) : Bytes :=
  emvSession (fld p 12 1) (emvMaster (fld p 12 1) key pan (fld p 13 1)) (slice p 28 8)

section SecureMessaging

variable {x : Slot} {pan : List Nat} {h : Handle} {s s1 : State} (hscheme : fld x.payload 12 1 ≤ 1)
  (hlen : fld x.payload 36 2 ≤ 1024) (hpan : (Fn.pan x.payload 16).gives s pan s)
include hscheme hlen hpan

theorem smMacFn_gives (hlayout : payloadOk x.payload (38 + fld x.payload 36 2) [(15, 1)] [4] = true) (h4 : 4 ≤ fld x.payload 14 1)
    (h8 : fld x.payload 14 1 ≤ 8) (hkey : (Fn.resolveRole x 4 (emvRole uE2 (fld x.payload 12 1))).gives s h s1) :
    (smMacFn x).gives s
      { result := padTo 16 ((emvMac (fld x.payload 12 1) (smKey x.payload h.key pan)
          (slice x.payload 38 (fld x.payload 36 2))).take (fld x.payload 14 1)) } s1 := by
  have hfields : (payloadOk x.payload (38 + fld x.payload 36 2) [(15, 1)] [4] &&
      decide (fld x.payload 12 1 ≤ 1 ∧ 4 ≤ fld x.payload 14 1 ∧ fld x.payload 14 1 ≤ 8 ∧ fld x.payload 36 2 ≤ 1024)) = true := by
    simp only [hlayout, hscheme, h4, h8, hlen, and_self, decide_true, Bool.and_self]
  exact Fn.gives_bind (Fn.need_gives hfields) (Fn.gives_bind hpan (Fn.gives_bind hkey (Fn.done_gives _ _ s1)))

theorem smEncryptFn_gives (hlayout : payloadOk x.payload (38 + fld x.payload 36 2) [(14, 2)] [4] = true)
    (hkey : (Fn.resolveRole x 4 (emvRole uE1 (fld x.payload 12 1))).gives s h s1) :
    let c := emvCipher (fld x.payload 12 1) (smKey x.payload h.key pan)
    let e := cbcEnc c (zeros c.size) (isoPad 2 c.size (slice x.payload 38 (fld x.payload 36 2)))
    (smEncryptFn x).gives s { result := beBytes 2 e.length ++ zeros 6 ++ e } s1 := by
  have hfields : (payloadOk x.payload (38 + fld x.payload 36 2) [(14, 2)] [4] &&
      decide (fld x.payload 12 1 ≤ 1 ∧ fld x.payload 36 2 ≤ 1024)) = true := by
    simp only [hlayout, hscheme, hlen, and_self, decide_true, Bool.and_self]
  exact Fn.gives_bind (Fn.need_gives hfields) (Fn.gives_bind hpan (Fn.gives_bind hkey (Fn.done_gives _ _ s1)))

end SecureMessaging

/-- The new PIN of SM_PIN_CHANGE, sealed for the card under its session key. -/
def cardPin (scheme : Nat) (sk : Bytes) (pin : List Nat) : FnRes :=
  let b := beBytes 8 (clearBlock 2 pin (fun _ => 15))
  { result := if scheme = 0 then padTo 16 (tdesEnc sk b) else aesEnc sk (b ++ bytes64 Config.format2Tail) }

theorem runFnOn_smPinChange {x : Slot} {pan : List Nat} {h kp : Handle} {s s1 s2 : State}
    (hfields : (payloadOk x.payload 64 [(25, 3)] [4, 12] && decide (fld x.payload 20 1 ≤ 1) && fmtOk (fld x.payload 22 1) &&
      lensOk (fld x.payload 23 1) (fld x.payload 24 1) && pinblkOk x.payload 48 (fld x.payload 22 1)) = true)
    (hpan : (Fn.pan x.payload 28).gives s pan s)
    (hkey : (Fn.resolveRole x 4 (emvRole uE1 (fld x.payload 20 1))).gives s h s1)
    (hkp : (Fn.resolveRole x 12 (pinIn (fld x.payload 22 1))).gives s1 kp s2) :
    runFnOn (smPinChangeFn x) s =
      (pinCases (fld x.payload 23 1) (fld x.payload 24 1) (fun st => { status := st })
        (cardPin (fld x.payload 20 1) (emvSession (fld x.payload 20 1)
          (emvMaster (fld x.payload 20 1) h.key pan (fld x.payload 21 1)) (slice x.payload 40 8)))
        (openPin kp.key (fld x.payload 22 1) pan (slice x.payload 48 16)), s2) := by
  refine (runFnOn_need_pos hfields _ _ s).trans <| (runFnOn_bind _ hpan).trans <| (runFnOn_bind _ hkey).trans <|
    (runFnOn_bind _ hkp).trans ?_
  rw [runFnOn_openPin, ← pinCases_same_state]
  rfl

/-- Settles O8: three functions judge the cryptogram first, two give their value, and SM_PIN_CHANGE seals the PIN that it opens. -/
theorem emvFunctions : Obligations.EmvFunctions := by
  intro s k pan h s1 x p
  refine ⟨?_, ?pinChange⟩
  · intro scheme master hscheme hpan
    refine ⟨?cryptograms, ?messages⟩
    case cryptograms =>
      intro sk judge hkey
      refine ⟨?verify, ?arpc, ?tracked⟩
      case verify =>
        intro n hmay hn hlen hlayout
        subst hn
        have hruns := runFnOn_arqcVerify hscheme hpan hkey hlayout hlen
        exact (serveFn_judged (fun _ x => arqcVerifyFn x) hmay hruns :)
      case arpc =>
        intro n hmay hn hlen hlayout harpc
        subst hn
        have hruns := runFnOn_arqcVerifyArpc hscheme hpan hkey hlayout hlen harpc
        exact (serveFn_judged (fun _ x => arqcVerifyArpcFn x) hmay hruns :)
      case tracked =>
        intro n hmay hn hlen hlayout harpc unit a
        subst hn
        have hruns := runFnOn_arqcVerifyTracked (k := k) hscheme hpan hkey hlayout hlen harpc
        have hserved := serveFn_judged arqcVerifyTrackedFn hmay hruns
        rw [State.ended_claimed] at hserved
        exact hserved
    case messages =>
      intro sk n hn hlen
      subst hn
      constructor
      · intro hmay hlayout h4 h8 hkey
        exact congrArg Host.Outcome.next (serveFn_gives _ hmay (smMacFn_gives hscheme hlen hpan hlayout h4 h8 hkey))
      · intro hmay hlayout hkey
        exact congrArg Host.Outcome.next (serveFn_gives _ hmay (smEncryptFn_gives hscheme hlen hpan hlayout hkey))
  case pinChange =>
    intro kp s2 scheme fmt sk hmay hlayout hscheme hfmt hlens hblock hpan hkey hkp
    have hfields : (payloadOk p 64 [(25, 3)] [4, 12] && decide (scheme ≤ 1) && fmtOk fmt && lensOk (fld p 23 1) (fld p 24 1) &&
        pinblkOk p 48 fmt) = true := by
      simp only [hlayout, hscheme, hfmt, hlens, hblock, decide_true, Bool.and_self]
    refine congrArg Host.Outcome.next (serveFn_runs _ hmay ((runFnOn_smPinChange hfields hpan hkey hkp).trans ?_))
    refine congrArg (·, s2) ?_
    cases openPin kp.key fmt pan (slice p 48 16) <;> rfl

end Sys2Proof.Machine
end

section
/-! SUPPORT. Chapter 08 (family 08_payment_functions), DUKPT functions: what each does under the working key that it derives, and the
statement about them. -/

namespace Sys2Proof.Machine

open Sys2Proof

/-! ### MACs and data (R237) -/

/-- The MAC that a DUKPT request takes of `data` under its working key, cut to `len` bytes. -/
def dukptMacOf (d : Dukpt) (len : Nat) (data : Bytes) : Bytes :=
  (if d.aes then cmac (aesCipher d.key) data else mac3 d.key (isoPad 1 8 data)).take len

section Derived

variable {x : Slot} {use : DukptUse} {h : Handle} {d : Dukpt} {s s1 : State}
  (hkey : (Fn.resolveRole x 4 bdkRole).gives s h s1) (hwk : fld x.payload 24 1 ≤ 2)
  (hkind : wklenOk h (fld x.payload 24 1) (slice x.payload 12 12) = true)
  (hderive : (Fn.dukpt h (fld x.payload 24 1) (slice x.payload 12 12) use).gives s1 d s1)
include hkey hwk hkind hderive

theorem Fn.dukptMac_gives {off : Nat} (h4 : 4 ≤ fld x.payload 26 1) (h16 : fld x.payload 26 1 ≤ 16)
    (hshort : 3 ≤ h.attr.alg ∨ fld x.payload 26 1 ≤ 8) (hlen : fld x.payload off 2 ≤ 384)
    (hlayout : payloadOk x.payload (off + 2 + fld x.payload off 2) [(25, 1), (27, 1)] [4] = true) :
    (Fn.dukptMac x off use).gives s (dukptMacOf d (fld x.payload 26 1) (slice x.payload (off + 2) (fld x.payload off 2))) s1 := by
  have hfields : (payloadOk x.payload (off + 2 + fld x.payload off 2) [(25, 1), (27, 1)] [4] &&
      decide (fld x.payload 24 1 ≤ 2 ∧ 4 ≤ fld x.payload 26 1 ∧ fld x.payload 26 1 ≤ 16 ∧ fld x.payload off 2 ≤ 384)) = true := by
    simp only [hlayout, hwk, h4, h16, hlen, and_self, decide_true, Bool.and_self]
  have hfits : (wklenOk h (fld x.payload 24 1) (slice x.payload 12 12) &&
      decide (3 ≤ h.attr.alg ∨ fld x.payload 26 1 ≤ 8)) = true := by
    simp only [hkind, hshort, decide_true, Bool.and_self]
  exact Fn.gives_bind (Fn.need_gives hfields) <| Fn.gives_bind hkey <| Fn.gives_bind (Fn.need_gives hfits) <|
    Fn.gives_bind hderive (Fn.pure_gives _ s1)

theorem dukptData_gives {enc : Bool} (hlayout : payloadOk x.payload (46 + fld x.payload 44 2) [(25, 3)] [4] = true)
    (h16 : 16 ≤ fld x.payload 44 2) (hlen : fld x.payload 44 2 ≤ 1024) (h8 : fld x.payload 44 2 % 8 = 0)
    (hblocks : h.attr.alg < 3 ∨ fld x.payload 44 2 % 16 = 0) {out : Bytes}
    (hout : let c := if d.aes then aesCipher d.key else tdesCipher d.key
      let iv := slice x.payload 28 c.size
      let data := slice x.payload 46 (fld x.payload 44 2)
      (if enc then cbcEnc c iv data else cbcDec c iv data) = out) :
    (dukptData enc use x).gives s { result := beBytes 2 out.length ++ zeros 6 ++ out } s1 := by
  have hfields : (payloadOk x.payload (46 + fld x.payload 44 2) [(25, 3)] [4] &&
      decide (fld x.payload 24 1 ≤ 2 ∧ 16 ≤ fld x.payload 44 2 ∧ fld x.payload 44 2 ≤ 1024 ∧ fld x.payload 44 2 % 8 = 0)) = true := by
    simp only [hlayout, hwk, h16, hlen, h8, and_self, decide_true, Bool.and_self]
  subst hout
  have hfits : (wklenOk h (fld x.payload 24 1) (slice x.payload 12 12) &&
      decide (h.attr.alg < 3 ∨ fld x.payload 44 2 % 16 = 0)) = true := by
    simp only [hkind, hblocks, decide_true, Bool.and_self]
  exact Fn.gives_bind (Fn.need_gives hfields) <| Fn.gives_bind hkey <| Fn.gives_bind (Fn.need_gives hfits) <|
    Fn.gives_bind hderive (Fn.done_gives _ _ s1)

end Derived

/-! ### PIN translation (R231, R232, R237) -/

theorem runFnOn_dukptPin {x : Slot} {stop : Nat} {pan : List Nat} {h ko : Handle} {d : Dukpt} {fill : Bytes} {s s1 s2 s3 : State}
    (hfields : (payloadOk x.payload stop [(37, 3)] [4, 12] && decide (fld x.payload 32 1 ≤ 2) && fmtOk (fld x.payload 33 1) &&
      fmtOk (fld x.payload 34 1) && lensOk (fld x.payload 35 1) (fld x.payload 36 1) &&
      pinblkOk x.payload 52 (fld x.payload 33 1)) = true)
    (hpan : (Fn.pan x.payload 40).gives s pan s) (hkey : (Fn.resolveRole x 4 bdkRole).gives s h s1)
    (hout : (Fn.resolveRole x 12 (pinOut (fld x.payload 34 1))).gives s1 ko s2)
    (hfits : (wklenOk h (fld x.payload 32 1) (slice x.payload 20 12) && decide (fld x.payload 33 1 = 4 ↔ 3 ≤ h.attr.alg)) = true)
    (hpair : s2.translates x.tenant (fld x.payload 33 1) (fld x.payload 34 1) = true)
    (hderive : (Fn.dukpt h (fld x.payload 32 1) (slice x.payload 20 12) .pin).gives s2 d s2)
    (hfill : (Fn.fill (fld x.payload 34 1)).gives s2 fill s3) (g : Bytes × Dukpt → Fn FnRes) :
    runFnOn (Fn.dukptPin x stop >>= g) s =
      pinCases (fld x.payload 35 1) (fld x.payload 36 1) (fun st => ({ status := st }, s3))
        (fun pin => runFnOn (g (sealPin ko.key (fld x.payload 34 1) pan pin fill, d)) s3)
        (openPin d.key (fld x.payload 33 1) pan (slice x.payload 52 16)) := by
  refine (runFnOn_nested (Fn.need_gives hfields)).trans <| (runFnOn_nested hpan).trans <| (runFnOn_nested hkey).trans <|
    (runFnOn_nested hout).trans <| (runFnOn_nested (Fn.need_gives hfits)).trans <| (runFnOn_nested (Fn.st_gives _ s2)).trans <|
    (runFnOn_nested (Fn.need_gives hpair)).trans <| (runFnOn_nested hderive).trans <| (runFnOn_nested hfill).trans ?_
  rw [bind_assoc, runFnOn_openPin]
  rfl

/-- Settles O9: two functions MAC and two run CBC under the derived key; the translations seal the PIN that it opens, and one of them
advances its counter record before it answers. -/
theorem dukptFunctions : Obligations.DukptFunctions := by
  intro s k h s1 d x p
  refine ⟨?derived, ?translations⟩
  case derived =>
    intro wk hkey hwk hkind
    refine ⟨?mac, ?data⟩
    case mac =>
      intro len mac h4 h16 hshort
      constructor
      · intro n hmay hn hlen hlayout hderive m
        subst hn
        have hmac := Fn.dukptMac_gives hkey hwk hkind hderive h4 h16 hshort hlen hlayout
        exact congrArg Host.Outcome.next (serveFn_runs _ hmay ((runFnOn_bind _ hmac).trans (runFnOn_compare m _ s1)))
      · intro n hmay hn hlen hlayout hderive
        subst hn
        have hmac := Fn.dukptMac_gives hkey hwk hkind hderive h4 h16 hshort hlen hlayout
        exact congrArg Host.Outcome.next (serveFn_runs _ hmay (runFnOn_bind _ hmac))
    case data =>
      intro n hn hlayout h16 hlen h8 hblocks c answer
      subst hn
      constructor
      · intro hmay hderive
        have hdata := dukptData_gives (enc := false) hkey hwk hkind hderive hlayout h16 hlen h8 hblocks (if_neg Bool.false_ne_true)
        exact congrArg Host.Outcome.next (serveFn_gives _ hmay hdata)
      · intro hmay hderive
        have hdata := dukptData_gives (enc := true) hkey hwk hkind hderive hlayout h16 hlen h8 hblocks (if_pos rfl)
        exact congrArg Host.Outcome.next (serveFn_gives _ hmay hdata)
  case translations =>
    intro pan ko s2 fill s3 wk fin fout opened hwk hfin hfout hlens hblock hpan hkey hout hkind hfour hpair hderive hfill
    have hfields : ∀ {stop}, payloadOk p stop [(37, 3)] [4, 12] = true → (payloadOk p stop [(37, 3)] [4, 12] && decide (wk ≤ 2) &&
        fmtOk fin && fmtOk fout && lensOk (fld p 35 1) (fld p 36 1) && pinblkOk p 52 fin) = true := by
      intro stop hlayout
      simp only [hlayout, hwk, hfin, hfout, hlens, hblock, decide_true, Bool.and_self]
    have hfits : (wklenOk h wk (slice p 20 12) && decide (fin = 4 ↔ 3 ≤ h.attr.alg)) = true := by
      simp only [hkind, hfour, decide_true, Bool.and_self]
    have hruns : ∀ {stop} (g : Bytes × Dukpt → Fn FnRes), payloadOk p stop [(37, 3)] [4, 12] = true → _ := fun g hlayout =>
      runFnOn_dukptPin (hfields hlayout) hpan hkey hout hfits hpair hderive hfill g
    have hopened : ∀ f : Bytes → State, pinCases (fld p 35 1) (fld p 36 1) (fun st => s.ended k { status := st } s3)
        (fun pin => f (sealPin ko.key fout pan pin fill)) (openPin d.key fin pan (slice p 52 16)) = opened f := by
      intro f
      simp only [opened]
      cases openPin d.key fin pan (slice p 52 16) <;> rfl
    clear_value opened
    constructor
    · intro hmay hlayout
      have hserved := serveFn_pinCases (fun _ x => dukptPinTranslateFn x) hmay (hruns (fun r => Fn.done r.1) hlayout)
      simp only [runFnOn_done] at hserved
      refine congrArg Host.Outcome.next (hserved.trans (Eq.trans ?_ (hopened _)))
      rfl
    · intro hmay hlayout unit a
      have hserved := serveFn_pinCases dukptPinTranslateTrackedFn hmay (hruns (fun r => do
        Fn.advance k x unit r.2.counter 0 0 r.2.id
        Fn.done r.1) hlayout)
      simp only [runFnOn_advance, State.ended_claimed] at hserved
      refine congrArg Host.Outcome.next (hserved.trans (Eq.trans ?_ (hopened _)))
      rfl

end Sys2Proof.Machine
end

section
/-! SUPPORT. Chapter 08 (family 08_payment_functions), key blocks: KEY_GENERATE and KEY_CHECK_VALUE past their checks, and the statement
about the functions of key blocks. -/

namespace Sys2Proof.Machine

open Sys2Proof

/-- A key may be wrapped in a format under a key-encryption key: the format fits, and version B carries TDES keys alone. -/
theorem formatTakes {format keyAlg kekAlg : Nat} (hfits : formatFits format kekAlg = true) (htdes : format = 0 → keyAlg ≤ 2) :
    (formatFits format kekAlg && (format != 0 || decide (keyAlg ≤ 2))) = true := by
  by_cases h0 : format = 0
  · simp only [hfits, htdes h0, decide_true, Bool.or_true, Bool.and_self]
  · simp only [hfits, bne_iff_ne.2 h0, Bool.true_or, Bool.and_self]

/-! ### Generation and check values (R239, R272) -/

section Generation

variable {x : Slot} {h : Handle} {g : SmkGen} {s s1 : State}
  (hattr : outAttrOk x.payload 4 [1, 2, 3, 4, 5, 6] = true) (hformat : fld x.payload 20 1 ≤ 2)
  (hnotB : (outAttrAt x.payload 4).format ≠ 0)
include hattr hformat hnotB

theorem runFnOn_keyGenerate_alone (hnamed : fld x.payload 12 1 = 0) (hlayout : payloadOk x.payload 24 [(21, 3)] [] = true)
    (hgen : (Fn.producing x (outAttrAt x.payload 4).smk).gives s g s) :
    runFnOn (keyGenerateFn x) s = runFnOn (do
      let b ← Fn.draw (keyLength (outAttrAt x.payload 4).attr.alg)
      Fn.done (← Fn.wrapSmk g (outAttrAt x.payload 4).format (outAttrAt x.payload 4).attr
        (withParity (outAttrAt x.payload 4).attr.alg b) 248)) s := by
  have hfields : (payloadOk x.payload 24 [(21, 3)] [] && outAttrOk x.payload 4 [1, 2, 3, 4, 5, 6] &&
      decide (fld x.payload 20 1 ≤ 2)) = true := by
    simp only [hlayout, hattr, hformat, decide_true, Bool.and_self]
  have hversion : ((outAttrAt x.payload 4).format != 0 && true) = true := by
    simp only [bne_iff_ne.2 hnotB, Bool.and_self]
  simp only [keyGenerateFn, hnamed, bne_self_eq_false, Bool.false_eq_true, if_false, pure_bind]
  exact (runFnOn_need_pos hfields _ _ s).trans <| (runFnOn_bind _ hgen).trans <| (runFnOn_need_pos rfl _ _ s).trans <|
    (runFnOn_need_pos hversion _ _ s)

theorem runFnOn_keyGenerate_exported (hnamed : fld x.payload 12 1 ≠ 0) (hlayout : payloadOk x.payload 24 [(21, 3)] [12] = true)
    (hkek : (Fn.resolveRole x 12 (kekRole [mE, mB])).gives s h s1)
    (hgen : (Fn.producing x (outAttrAt x.payload 4).smk).gives s1 g s1)
    (hstrong : strengthOf (outAttrAt x.payload 4).attr (zeros (keyLength (outAttrAt x.payload 4).attr.alg)) ≤ strengthOf h.attr h.key)
    (htakes : (formatFits (fld x.payload 20 1) h.attr.alg &&
      (fld x.payload 20 1 != 0 || decide ((outAttrAt x.payload 4).attr.alg ≤ 2))) = true) :
    runFnOn (keyGenerateFn x) s = runFnOn (do
      let b ← Fn.draw (keyLength (outAttrAt x.payload 4).attr.alg)
      let w ← Fn.wrapSmk g (outAttrAt x.payload 4).format (outAttrAt x.payload 4).attr
        (withParity (outAttrAt x.payload 4).attr.alg b) 248
      Fn.done (w ++ (← Fn.wrap h.key (fld x.payload 20 1) (outAttrAt x.payload 4).attr
        (withParity (outAttrAt x.payload 4).attr.alg b) none 248))) s1 := by
  have hfields : (payloadOk x.payload 24 [(21, 3)] [12] && outAttrOk x.payload 4 [1, 2, 3, 4, 5, 6] &&
      decide (fld x.payload 20 1 ≤ 2)) = true := by
    simp only [hlayout, hattr, hformat, decide_true, Bool.and_self]
  have hversion : ((outAttrAt x.payload 4).format != 0 && (formatFits (fld x.payload 20 1) h.attr.alg &&
      (fld x.payload 20 1 != 0 || decide ((outAttrAt x.payload 4).attr.alg ≤ 2)))) = true := by
    simp only [bne_iff_ne.2 hnotB, htakes, Bool.and_self]
  simp only [keyGenerateFn, bne_iff_ne.2 hnamed, if_true, pure_bind, Option.all_some]
  exact (runFnOn_need_pos hfields _ _ s).trans <| (runFnOn_bind _ hkek).trans <| (runFnOn_bind _ hgen).trans <|
    (runFnOn_need_pos (decide_eq_true hstrong) _ _ s1).trans <| (runFnOn_need_pos hversion _ _ s1)

end Generation

theorem keyCheckValueFn_gives {x : Slot} {h : Handle} {s s1 : State} (hlayout : payloadOk x.payload 12 [] [4] = true)
    (hkey : (Fn.resolve x 4 (fun _ => true)).gives s h s1) :
    (keyCheckValueFn x).gives s { result := kcvOf h.attr h.key ++ zeros 2 } s1 :=
  Fn.gives_bind (Fn.need_gives hlayout) (Fn.gives_bind hkey (Fn.done_gives _ _ s1))

/-- Settles O10: each function passes its checks and runs on with its blocks. -/
theorem keyBlockFunctions : Obligations.KeyBlockFunctions := by
  intro s k h s1 x p
  refine ⟨?incoming, ?outgoing, ?translate, ?generate, ?checkValue⟩
  case incoming =>
    intro g format n hlayout hslot hformat hnotB hkek hgen hblock
    have hfields : ∀ {most}, n ≤ most →
        (payloadOk p (18 + n) [(14, 2)] [4] && decide (fld p 12 1 ≤ 7 ∧ format ≤ 2 ∧ n ≤ most)) = true := by
      intro most hmost
      simp only [hlayout, hslot, hformat, hmost, and_self, decide_true, Bool.and_self]
    have hversion : (incomingOk h (slice p 18 n) && format != 0) = true := by
      simp only [hblock, bne_iff_ne.2 hnotB, Bool.and_self]
    have hruns : ∀ most out, n ≤ most → runFnOn (keyImportFn most out x) (s.computing k) = _ := fun most out hmost =>
      (runFnOn_need_pos (hfields hmost) _ _ _).trans <| (runFnOn_bind _ hkek).trans <| (runFnOn_bind _ hgen).trans <|
        runFnOn_need_pos hversion _ _ s1
    exact ⟨fun hmay hmost => congrArg Host.Outcome.next (serveFn_runsOn _ hmay (hruns 248 248 hmost)),
      fun hmay hmost => congrArg Host.Outcome.next (serveFn_runsOn _ hmay (hruns 4000 4088 hmost))⟩
  case outgoing =>
    intro key s2 format hmay hlayout hformat hkek hkey hexport hstrong hfits htdes
    have hfields : (payloadOk p 24 [(21, 3)] [4, 12] && decide (format ≤ 2)) = true := by
      simp only [hlayout, hformat, decide_true, Bool.and_self]
    refine congrArg Host.Outcome.next (serveFn_runsOn _ hmay ?_)
    exact (runFnOn_need_pos hfields _ _ _).trans <| (runFnOn_bind _ hkek).trans <| (runFnOn_bind _ hkey).trans <|
      (runFnOn_need_pos hexport _ _ s2).trans <| (runFnOn_need_pos (decide_eq_true hstrong) _ _ s2).trans <|
      runFnOn_need_pos (formatTakes hfits htdes) _ _ s2
  case translate =>
    intro ho s2 format n hmay hlayout hformat hlen hin hout hblock hfits
    have hfields : (payloadOk p (26 + n) [(21, 3)] [4, 12] && decide (format ≤ 2 ∧ n ≤ 248)) = true := by
      simp only [hlayout, hformat, hlen, and_self, decide_true, Bool.and_self]
    have hversion : (incomingOk h (slice p 26 n) && formatFits format ho.attr.alg) = true := by
      simp only [hblock, hfits, Bool.and_self]
    refine congrArg Host.Outcome.next (serveFn_runsOn _ hmay ?_)
    exact (runFnOn_need_pos hfields _ _ _).trans <| (runFnOn_bind _ hin).trans <| (runFnOn_bind _ hout).trans <|
      runFnOn_need_pos hversion _ _ s2
  case generate =>
    intro g o format n hmay hattr hformat hnotB
    constructor
    · intro hnamed hlayout hgen
      exact congrArg Host.Outcome.next (serveFn_runsOn _ hmay
        (runFnOn_keyGenerate_alone hattr hformat hnotB hnamed hlayout hgen))
    · intro hnamed hlayout hkek hgen hstrong hfits htdes
      exact congrArg Host.Outcome.next (serveFn_runsOn _ hmay
        (runFnOn_keyGenerate_exported hattr hformat hnotB hnamed hlayout hkek hgen hstrong (formatTakes hfits htdes)))
  case checkValue =>
    intro hmay hlayout hkey
    exact congrArg Host.Outcome.next (serveFn_gives _ hmay (keyCheckValueFn_gives hlayout hkey))

end Sys2Proof.Machine
end

section
/-! SUPPORT. Chapter 08 (family 08_payment_functions), resident keys, TR-34 tokens and key pairs: each function past its checks, and the
statement about them. -/

namespace Sys2Proof.Machine

open Sys2Proof

/-- What a control core marks in a request leaves the folio alone. -/
theorem State.folio_computing (s : State) (k : Nat) : (s.computing k).folio = s.folio := by
  unfold State.computing
  by_cases hentered : s.taskEntered k = true
  · simp only [hentered, if_true]
  · simp only [hentered]
    rfl

/-! ### Resident keys (R240, R257, R505) -/

theorem keyLoadResidentFn_gives {x : Slot} {h : Handle} {u : Nat} {s s1 : State}
    (hlayout : payloadOk x.payload 20 [(17, 3)] [4] = true) (hkind : (krefAt x.payload 4).kind = 2) (hflags : fld x.payload 16 1 ≤ 1)
    (hkey : (Fn.resolve x 4 (fun _ => true)).gives s h s1)
    (hrun : (Fn.residentRun x.tenant (unitsOf (bindingBytes h.attr h.key))).gives s1 u s1) :
    let sh := s1.shares h.attr.isPublic h.key
    (keyLoadResidentFn x).gives s
      { result := beBytes 4 u ++ kcvOf h.attr h.key ++ zeros 6
        effects := [.loadResident u { kind := .key, tenant := x.tenant, units := unitsOf (bindingBytes h.attr h.key), attr := h.attr,
                                      shareA := sh.1, shareB := sh.2.1, useLimited := fld x.payload 12 4 != 0,
                                      limit := fld x.payload 12 4, resetExpiry := fld x.payload 16 1 == 1, rootSlot := h.rootSlot,
                                      rootGen := h.rootGen }] } sh.2.2 := by
  have hfields : (payloadOk x.payload 20 [(17, 3)] [4] && (krefAt x.payload 4).kind == 2 && decide (fld x.payload 16 1 ≤ 1)) = true := by
    simp only [hlayout, hkind, hflags, beq_self_eq_true, decide_true, Bool.and_self]
  exact Fn.gives_bind (Fn.need_gives hfields) <| Fn.gives_bind hkey <| Fn.gives_bind hrun <|
    Fn.gives_bind (Fn.act_gives _ s1) (Fn.done_gives _ _ _)

/-- The state in which the request of slot `k` has armed an effect. -/
def State.armed (s : State) (k : Nat) (e : TickEffect) : State :=
  { s with folio := { s.folio with effects := s.folio.effects ++ [{ folio := none, slot := some k, effect := e }] } }

theorem keyDeleteResidentFn_gives {x : Slot} {s : State} (k : Nat) (hlayout : layoutOk x.payload 12 [(8, 4)] = true)
    (hlow : 8256 ≤ fld x.payload 4 4) (hhigh : fld x.payload 4 4 < 65536) (hused : (s.resident (fld x.payload 4 4)).kind ≠ .free)
    (hown : (s.resident (fld x.payload 4 4)).tenant = x.tenant)
    (hfrom : folioReached x.admitTick (s.resident (fld x.payload 4 4)).from_ = true)
    (hstays : (s.resident (fld x.payload 4 4)).kind ≠ .retiring)
    (hunarmed : ∀ e ∈ s.folio.effects, e.effect ≠ .residentDelete (fld x.payload 4 4)) :
    (keyDeleteResidentFn k x).gives s {} (s.armed k (.residentDelete (fld x.payload 4 4))) := by
  have howned : (decide (8256 ≤ fld x.payload 4 4 ∧ fld x.payload 4 4 < 65536 ∧ (s.resident (fld x.payload 4 4)).kind ≠ .free ∧
      (s.resident (fld x.payload 4 4)).tenant = x.tenant) &&
      folioReached x.admitTick (s.resident (fld x.payload 4 4)).from_) = true :=
    (Bool.and_eq_true_iff).2 ⟨decide_eq_true ⟨hlow, hhigh, hused, hown⟩, hfrom⟩
  have hlive : (decide ((s.resident (fld x.payload 4 4)).kind ≠ .retiring) &&
      !s.folio.effects.any (fun e => e.effect == .residentDelete (fld x.payload 4 4))) = true := by
    simpa [hstays] using hunarmed
  exact Fn.gives_bind (Fn.need_gives hlayout) <| Fn.gives_bind (Fn.get_gives s) <| Fn.gives_bind (Fn.need_gives howned) <|
    Fn.gives_bind (Fn.need_gives hlive) <| Fn.gives_bind (Fn.change_gives _ s) (Fn.done_gives _ _ _)

/-- Settles O11: the two functions on resident keys give what the lemmas above say; the others pass their checks and run on with their
token or job. -/
theorem residentAndTokenFunctions : Obligations.ResidentAndTokenFunctions := by
  intro s k h s1 x p
  refine ⟨?load, ?delete, ?tokens, ?pairs⟩
  case load =>
    intro u limit n sh hmay hlayout hkind hflags hkey hrun
    exact congrArg Host.Outcome.next (serveFn_gives _ hmay (keyLoadResidentFn_gives hlayout hkind hflags hkey hrun))
  case delete =>
    intro u r hmay hlayout hlow hhigh hused hown hfrom hstays hunarmed
    rw [← s.folio_computing k] at hunarmed ⊢
    have hdelete := keyDeleteResidentFn_gives k hlayout hlow hhigh hused hown hfrom hstays hunarmed
    exact ⟨_, Fn.change_gives _ _, congrArg Host.Outcome.next (serveFn_gives _ hmay hdelete), rfl⟩
  case tokens =>
    intro kd s2
    refine ⟨?received, ?made⟩
    case received =>
      intro g format n hmay hlayout hslot hformat hnotB hlen hkey hhost hgen
      have hfields : (payloadOk p (26 + n) [(22, 2)] [4, 12] && decide (fld p 20 1 ≤ 7 ∧ format ≤ 2 ∧ n ≤ 4000)) = true := by
        simp only [hlayout, hslot, hformat, hlen, and_self, decide_true, Bool.and_self]
      refine congrArg Host.Outcome.next (serveFn_runsOn _ hmay ?_)
      exact (runFnOn_need_pos hfields _ _ _).trans <| (runFnOn_bind _ hkey).trans <| (runFnOn_bind _ hhost).trans <|
        (runFnOn_bind _ hgen).trans <| runFnOn_need_pos (bne_iff_ne.2 hnotB) _ _ s2
    case made =>
      intro rnd s3 n hmay hlayout he hn hhost hkey hdraw content pad ct
      have hfields : (payloadOk p (26 + n) [] [4, 12] && decide ((fld p 20 4 = 3 ∨ fld p 20 4 = 65537) ∧ n = 256)) = true :=
        (Bool.and_eq_true_iff).2 ⟨hlayout, decide_eq_true ⟨he, hn⟩⟩
      refine congrArg Host.Outcome.next (serveFn_runsOn _ hmay ?_)
      exact (runFnOn_need_pos hfields _ _ _).trans <| (runFnOn_bind _ hhost).trans <| (runFnOn_bind _ hkey).trans <|
        runFnOn_bind _ hdraw
  case pairs =>
    intro g o hnotB hgen
    have hversion : (o.format != 0) = true := bne_iff_ne.2 hnotB
    refine ⟨?curve, ?lattice⟩
    case curve =>
      intro c row code hmay hlayout hattr h1 h4 hhandle hcurve
      have hfields : (payloadOk p 20 [(13, 3)] [] && outAttrOk p 4 [16] && decide (1 ≤ code ∧ code ≤ 4) &&
          handleOk code (fld p 16 4)) = true := by
        simp only [hlayout, hattr, h1, h4, hhandle, and_self, decide_true, Bool.and_self]
      refine congrArg Host.Outcome.next (serveFn_runsOn _ hmay ?_)
      refine (runFnOn_need_pos hfields _ _ _).trans <| (runFnOn_bind _ hgen).trans <| (runFnOn_need_pos hversion _ _ _).trans <|
        (runFnOn_bind _ hcurve).trans ?_
      rfl
    case lattice =>
      intro hlayout
      have hruns : ∀ (alg op pub seed : Nat), outAttrOk p 4 [alg] = true →
          runFnOn (latticeKeypairFn alg op pub seed x) (s.computing k) = _ := fun alg op pub seed hattr =>
        (runFnOn_need_pos ((Bool.and_eq_true_iff).2 ⟨hlayout, hattr⟩) _ _ _).trans <| (runFnOn_bind _ hgen).trans <|
          runFnOn_need_pos hversion _ _ _
      exact ⟨fun hmay hattr => congrArg Host.Outcome.next (serveFn_runsOn _ hmay (hruns 17 0x20 1184 64 hattr)),
        fun hmay hattr => congrArg Host.Outcome.next (serveFn_runsOn _ hmay (hruns 18 0x28 1952 32 hattr))⟩

end Sys2Proof.Machine
end

section
/-! SUPPORT. Chapter 08 (family 08_payment_functions), random data, digests and format-preserving encryption: what each function gives,
and the statement about them. -/

namespace Sys2Proof.Machine

open Sys2Proof

theorem randomFn_gives {most : Nat} {x : Slot} {s : State} (hlayout : layoutOk x.payload 8 [(6, 2)] = true)
    (h1 : 1 ≤ fld x.payload 4 2) (hmost : fld x.payload 4 2 ≤ most) (hpool : s.drawStatus true = stOk) :
    let d := drawBlocks s true (ceilDiv (fld x.payload 4 2) 16)
    (randomFn most x).gives s { result := d.1.take (fld x.payload 4 2) } d.2 := by
  have hfields : (layoutOk x.payload 8 [(6, 2)] && decide (1 ≤ fld x.payload 4 2 ∧ fld x.payload 4 2 ≤ most)) = true := by
    simp only [hlayout, h1, hmost, and_self, decide_true, Bool.and_self]
  refine Fn.gives_bind (Fn.need_gives hfields) (Fn.gives_bind (Fn.st_gives _ s) (Fn.gives_else (not_not.2 hpool) ?_))
  exact Fn.gives_bind (Fn.act_gives _ s) (Fn.done_gives _ _ _)

/-- The digest of HASH by its ALG. -/
def digestOf (alg : Nat) (d : Bytes) : Bytes :=
  match alg with
  | 0 => sha256B d
  | 1 => sha384B d
  | 2 => sha512B d
  | _ => sha3_256B d

theorem hashFn_gives {x : Slot} {s : State} {alg : Nat} (halg : fld x.payload 4 1 = alg) (h3 : alg ≤ 3)
    (hlayout : layoutOk x.payload (8 + fld x.payload 6 2) [(5, 1)] = true) (hlen : fld x.payload 6 2 ≤ 8180) :
    (hashFn x).gives s { result := digestOf alg (x.payload.drop 8) } s := by
  subst halg
  have hfields : (layoutOk x.payload (8 + fld x.payload 6 2) [(5, 1)] &&
      decide (fld x.payload 4 1 ≤ 3 ∧ fld x.payload 6 2 ≤ 8180)) = true := by
    simp only [hlayout, h3, hlen, and_self, decide_true, Bool.and_self]
  exact Fn.gives_bind (Fn.need_gives hfields) (Fn.done_gives _ _ s)

theorem ff1Fn_gives {enc : Bool} {x : Slot} {h : Handle} {s s1 : State}
    (hlayout : payloadOk x.payload (16 + fld x.payload 14 1 + fld x.payload 13 1) [(15, 1)] [4] = true) (htweak : fld x.payload 14 1 ≤ 32)
    (hdomain : (fld x.payload 12 1 = 10 ∧ 6 ≤ fld x.payload 13 1 ∧ fld x.payload 13 1 ≤ 56) ∨
      (fld x.payload 12 1 = 36 ∧ 4 ≤ fld x.payload 13 1 ∧ fld x.payload 13 1 ≤ 36))
    (hnumerals : ∀ d ∈ (slice x.payload (16 + fld x.payload 14 1) (fld x.payload 13 1)).map numeralOf, d < fld x.payload 12 1)
    (hkey : (Fn.resolveRole x 4 { usages := [uD0], modes := [if enc then mE else mD, mB], algs := [3, 4, 5] }).gives s h s1) :
    (ff1Fn enc x).gives s
      { result := (ff1 enc h.key (slice x.payload 16 (fld x.payload 14 1)) (fld x.payload 12 1)
          ((slice x.payload (16 + fld x.payload 14 1) (fld x.payload 13 1)).map numeralOf)).map charOf } s1 := by
  have hfields : (payloadOk x.payload (16 + fld x.payload 14 1 + fld x.payload 13 1) [(15, 1)] [4] &&
      decide (fld x.payload 14 1 ≤ 32)) = true := by
    simp only [hlayout, htweak, decide_true, Bool.and_self]
  have hstring : (decide ((fld x.payload 12 1 = 10 ∧ 6 ≤ fld x.payload 13 1 ∧ fld x.payload 13 1 ≤ 56) ∨
      (fld x.payload 12 1 = 36 ∧ 4 ≤ fld x.payload 13 1 ∧ fld x.payload 13 1 ≤ 36)) &&
      ((slice x.payload (16 + fld x.payload 14 1) (fld x.payload 13 1)).map numeralOf).all
        (fun d => decide (d < fld x.payload 12 1))) = true :=
    (Bool.and_eq_true_iff).2 ⟨decide_eq_true hdomain, List.all_eq_true.2 fun d hd => decide_eq_true (hnumerals d hd)⟩
  exact Fn.gives_bind (Fn.need_gives hfields) <| Fn.gives_bind hkey <| Fn.gives_bind (Fn.need_gives hstring) (Fn.done_gives _ _ s1)

/-- Settles O12: each function gives what its lemma above says, HASH for each of the four values of ALG. -/
theorem randomHashAndFf1Functions : Obligations.RandomHashAndFf1Functions := by
  intro s k x p
  refine ⟨?random, ?hash, ?ff1⟩
  case random =>
    intro n hn hlayout h1 hpool d
    subst hn
    exact ⟨fun hmay hmost => congrArg Host.Outcome.next (serveFn_gives _ hmay (randomFn_gives hlayout h1 hmost hpool)),
      fun hmay hmost => congrArg Host.Outcome.next (serveFn_gives _ hmay (randomFn_gives hlayout h1 hmost hpool))⟩
  case hash =>
    intro n hn hmay hlayout hlen
    subst hn
    have hserved : ∀ alg, fld p 4 1 = alg → alg ≤ 3 →
        exec (.hash k) s = .next (s.ended k { result := digestOf alg (p.drop 8) } (s.computing k)) := fun alg halg h3 =>
      congrArg Host.Outcome.next (serveFn_gives _ hmay (hashFn_gives halg h3 hlayout hlen))
    exact ⟨fun halg => hserved 0 halg (by decide), fun halg => hserved 1 halg (by decide), fun halg => hserved 2 halg (by decide),
      fun halg => hserved 3 halg (by decide)⟩
  case ff1 =>
    intro h s1 radix n t l hlayout htweak hdomain hnumerals
    constructor
    · intro hmay hkey
      exact congrArg Host.Outcome.next
        (serveFn_gives _ hmay (ff1Fn_gives (enc := true) hlayout htweak hdomain hnumerals hkey))
    · intro hmay hkey
      exact congrArg Host.Outcome.next
        (serveFn_gives _ hmay (ff1Fn_gives (enc := false) hlayout htweak hdomain hnumerals hkey))

end Sys2Proof.Machine
end

section
/-! SUPPORT. Chapter 08 (family 08_payment_functions), RSA functions: RSA_PRIVATE and RSA_PUBLIC past their checks, by SCHEME, and the
statement about them. -/

namespace Sys2Proof.Machine

open Sys2Proof

section RsaPrivate

variable {n : Nat} {x : Slot} {h : Handle} {s s1 : State}
  (hlayout : payloadOk x.payload (18 + fld x.payload 16 2) [(14, 2)] [4] = true) (h1 : 1 ≤ fld x.payload 13 1)
  (h3 : fld x.payload 13 1 ≤ 3)
include hlayout h1 h3

theorem runFnOn_rsaPrivate_signs (hscheme : fld x.payload 12 1 = 1 ∨ fld x.payload 12 1 = 2)
    (hlen : fld x.payload 16 2 = hashLen (fld x.payload 13 1))
    (hkey : (Fn.resolveRole x 4 { usages := [uS0], modes := [mS], algs := [7, 8, 9] }).gives s h s1) :
    runFnOn (rsaPrivateFn n x) s = runFnOn (do
      let out ← Fn.rsaSign h n (fld x.payload 12 1) (fld x.payload 13 1) (slice x.payload 18 (fld x.payload 16 2))
      Fn.done (beBytes 2 out.length ++ zeros 6 ++ out)) s1 := by
  have hnotOaep : fld x.payload 12 1 ≠ 3 := by omega
  obtain ⟨hlow, hhigh⟩ : 1 ≤ fld x.payload 12 1 ∧ fld x.payload 12 1 ≤ 3 := by omega
  have hfields : (payloadOk x.payload (18 + fld x.payload 16 2) [(14, 2)] [4] &&
      decide (1 ≤ fld x.payload 12 1 ∧ fld x.payload 12 1 ≤ 3 ∧ 1 ≤ fld x.payload 13 1 ∧ fld x.payload 13 1 ≤ 3) &&
      decide (fld x.payload 16 2 = hashLen (fld x.payload 13 1))) = true := by
    simp only [Bool.and_eq_true, decide_eq_true_eq]
    exact ⟨⟨hlayout, hlow, hhigh, h1, h3⟩, hlen⟩
  simp only [rsaPrivateFn, if_neg hnotOaep]
  exact (runFnOn_need_pos hfields _ _ s).trans (runFnOn_bind _ hkey)

theorem runFnOn_rsaPrivate_decodes (hscheme : fld x.payload 12 1 = 3) (hlen : fld x.payload 16 2 = n)
    (hkey : (Fn.resolveRole x 4 { usages := [uD1], modes := [mD], algs := [7, 8, 9] }).gives s h s1) :
    runFnOn (rsaPrivateFn n x) s = runFnOn (do
      let em ← Fn.rsaPrivate h n (slice x.payload 18 (fld x.payload 16 2))
      let out ← Fn.get! (oaepDecode (fld x.payload 13 1) n em) stVerifyFailed
      Fn.done (beBytes 2 out.length ++ zeros 6 ++ out)) s1 := by
  have hfields : (payloadOk x.payload (18 + fld x.payload 16 2) [(14, 2)] [4] &&
      decide (1 ≤ 3 ∧ 3 ≤ 3 ∧ 1 ≤ fld x.payload 13 1 ∧ fld x.payload 13 1 ≤ 3) && decide (fld x.payload 16 2 = n)) = true := by
    simp only [Bool.and_eq_true, decide_eq_true_eq]
    exact ⟨⟨hlayout, by decide, by decide, h1, h3⟩, hlen⟩
  simp only [rsaPrivateFn, hscheme, if_true]
  exact (runFnOn_need_pos hfields _ _ s).trans (runFnOn_bind _ hkey)

end RsaPrivate

section RsaPublic

variable {sizes : List Nat} {x : Slot} {s : State} {e n len slen : Nat} (hn : n = fld x.payload 12 2)
  (hl : len = fld x.payload (14 + n) 2) (hsl : slen = fld x.payload (16 + n + len) 2) (hsize : sizes.contains n = true)
  (hlayout : payloadOk x.payload (18 + n + len + slen) [(6, 2)] [] = true) (h1 : 1 ≤ fld x.payload 5 1) (h3 : fld x.payload 5 1 ≤ 3)
  (he : fld x.payload 8 4 = 3 ∨ fld x.payload 8 4 = 65537)
include hn hl hsl hsize hlayout h1 h3 he

theorem runFnOn_rsaPublic_verifies (hscheme : fld x.payload 4 1 = 1 ∨ fld x.payload 4 1 = 2) (hlen : len = hashLen (fld x.payload 5 1))
    (hslen : slen = n) :
    runFnOn (rsaPublicFn sizes x) s = runFnOn (do
      Fn.need (← Fn.rsaVerify (fld x.payload 8 4) (slice x.payload 14 n) (fld x.payload 4 1) (fld x.payload 5 1)
        (slice x.payload (16 + n) len) (slice x.payload (18 + n + len) slen)) stVerifyFailed
      Fn.done []) s := by
  have hnotOaep : fld x.payload 4 1 ≠ 3 := by omega
  obtain ⟨hlow, hhigh⟩ : 1 ≤ fld x.payload 4 1 ∧ fld x.payload 4 1 ≤ 3 := by omega
  have hfields : (payloadOk x.payload (18 + n + len + slen) [(6, 2)] [] &&
      decide (1 ≤ fld x.payload 4 1 ∧ fld x.payload 4 1 ≤ 3 ∧ 1 ≤ fld x.payload 5 1 ∧ fld x.payload 5 1 ≤ 3) &&
      decide (fld x.payload 8 4 = 3 ∨ fld x.payload 8 4 = 65537) && sizes.contains n &&
      decide (len = hashLen (fld x.payload 5 1) ∧ slen = n)) = true := by
    simp only [Bool.and_eq_true, decide_eq_true_eq]
    exact ⟨⟨⟨⟨hlayout, hlow, hhigh, h1, h3⟩, he⟩, hsize⟩, hlen, hslen⟩
  simp only [rsaPublicFn, if_neg hnotOaep, ← hn, ← hl, ← hsl]
  exact runFnOn_need_pos hfields _ _ s

theorem runFnOn_rsaPublic_encrypts (hscheme : fld x.payload 4 1 = 3) (hlen : len + 2 * hashLen (fld x.payload 5 1) + 2 ≤ n)
    (hslen : slen = 0) :
    runFnOn (rsaPublicFn sizes x) s = runFnOn (do
      let seed ← Fn.draw (hashLen (fld x.payload 5 1))
      let out ← Fn.rsaPublic (fld x.payload 8 4) (slice x.payload 14 n)
        (oaepEncode (fld x.payload 5 1) n (slice x.payload (16 + n) len) seed)
      Fn.done (beBytes 2 n ++ zeros 6 ++ out)) s := by
  have hfields : (payloadOk x.payload (18 + n + len + slen) [(6, 2)] [] &&
      decide (1 ≤ 3 ∧ 3 ≤ 3 ∧ 1 ≤ fld x.payload 5 1 ∧ fld x.payload 5 1 ≤ 3) &&
      decide (fld x.payload 8 4 = 3 ∨ fld x.payload 8 4 = 65537) && sizes.contains n &&
      decide (len + 2 * hashLen (fld x.payload 5 1) + 2 ≤ n ∧ slen = 0)) = true := by
    simp only [Bool.and_eq_true, decide_eq_true_eq]
    exact ⟨⟨⟨⟨hlayout, by decide, by decide, h1, h3⟩, he⟩, hsize⟩, hlen, hslen⟩
  simp only [rsaPublicFn, hscheme, if_true, ← hn, ← hl, ← hsl]
  exact runFnOn_need_pos hfields _ _ s

end RsaPublic

/-- Settles O13: each function passes its checks and runs on with the job of its scheme. -/
theorem rsaFunctions : Obligations.RsaFunctions := by
  intro s k x p
  refine ⟨?privateOp, ?publicOp⟩
  case privateOp =>
    intro h s1 n scheme hash len hmay hn hlayout h1 h3
    subst hn
    constructor
    · intro hscheme hlen hkey
      exact congrArg Host.Outcome.next (serveFn_runsOn _ hmay (runFnOn_rsaPrivate_signs hlayout h1 h3 hscheme hlen hkey))
    · intro hscheme hlen hkey
      exact congrArg Host.Outcome.next (serveFn_runsOn _ hmay (runFnOn_rsaPrivate_decodes hlayout h1 h3 hscheme hlen hkey))
  case publicOp =>
    intro scheme hash e n len slen hmay hsize hlayout h1 h3 he
    constructor
    · intro hscheme hlen hslen
      exact congrArg Host.Outcome.next (serveFn_runsOn _ hmay
        (runFnOn_rsaPublic_verifies rfl rfl rfl hsize hlayout h1 h3 he hscheme hlen hslen))
    · intro hscheme hlen hslen
      exact congrArg Host.Outcome.next (serveFn_runsOn _ hmay
        (runFnOn_rsaPublic_encrypts rfl rfl rfl hsize hlayout h1 h3 he hscheme hlen hslen))

end Sys2Proof.Machine
end

section
/-! SUPPORT. Chapter 08 (family 08_payment_functions), curve and lattice functions: each past its checks, where it runs its job, and the
statement about them. -/

namespace Sys2Proof.Machine

open Sys2Proof

/-- The coordinates of an uncompressed point of a curve. -/
theorem Fn.point_gives {c : Curve} {pub : Bytes} (s : State) (hlen : pub.length = 1 + 2 * c.pLen) (htag : fld pub 0 1 = 4) :
    (Fn.point c pub).gives s (fld pub 1 c.pLen, fld pub (1 + c.pLen) c.pLen) s := by
  have hencoding : (decide (pub.length = 1 + 2 * c.pLen) && fld pub 0 1 == 4) = true := by
    simp only [hlen, htag, decide_true, beq_self_eq_true, Bool.and_self]
  exact Fn.gives_bind (Fn.need_gives hencoding) (Fn.pure_gives _ s)

/-- Settles O14: each function passes its checks, resolves its keys and curve, and runs on with its job or its signature. -/
theorem curveAndLatticeFunctions : Obligations.CurveAndLatticeFunctions := by
  intro s k x p
  refine ⟨?curve, ?lattice, ?mlDsaVerify⟩
  case curve =>
    intro h s1 c row
    refine ⟨?sign, ?verify, ?agree⟩
    case sign =>
      intro hlen hmay hlayout hhandle h20 h64 hkey hcurve
      have hfields : (payloadOk p (20 + hlen) [(17, 3)] [4] && handleOk (x.func - 0x070F) (fld p 12 4) &&
          decide (20 ≤ hlen ∧ hlen ≤ 64)) = true := by
        simp only [hlayout, hhandle, h20, h64, and_self, decide_true, Bool.and_self]
      refine congrArg Host.Outcome.next (serveFn_runsOn _ hmay ?_)
      refine (runFnOn_need_pos hfields _ _ _).trans <| (runFnOn_bind _ hkey).trans <| (runFnOn_bind _ hcurve).trans ?_
      rfl
    case verify =>
      intro hlen plen stop n hmay hstop hn hlayout hhandle h20 h64 hplen hmost htag hpoint hcurve
      have hfields : (decide (stop ≤ p.length) && payloadOk p p.length [(9, 1)] [] && handleOk (x.func - 0x0717) (fld p 4 4) &&
          decide (20 ≤ hlen ∧ hlen ≤ 64 ∧ plen ≤ 145 ∧ p.length ≤ stop + 144)) = true := by
        have hends : stop ≤ p.length ∧ p.length ≤ stop + 144 := by omega
        simp only [hlayout, hhandle, h20, h64, hmost, hends, and_self, decide_true, Bool.and_self]
      have hcoordinates := Fn.point_gives (s.computing k) (hpoint.trans hplen) htag
      refine congrArg Host.Outcome.next (serveFn_runsOn _ hmay ?_)
      refine (runFnOn_need_pos hfields _ _ _).trans <| (runFnOn_bind _ hcurve).trans <| (runFnOn_bind _ hcoordinates).trans <|
        (runFnOn_need_pos (decide_eq_true hstop.symm) _ _ _).trans ?_
      rfl
    case agree =>
      intro g o ilen plen hmay hlayout hhandle hattr hkdf hilen hmost hnotB hkey hgen hcurve hplen htag hpoint
      have hfields : (payloadOk p (30 + plen + ilen) [(26, 2)] [4] && handleOk (x.func - 0x071F) (fld p 12 4) &&
          outAttrOk p 16 [1, 2, 3, 4, 5, 6] && decide ((fld p 24 1 = 1 ∨ fld p 24 1 = 2) ∧ ilen ≤ 64 ∧ plen ≤ 145)) = true := by
        simp only [hlayout, hhandle, hattr, hkdf, hilen, hmost, and_self, decide_true, Bool.and_self]
      have hcoordinates := Fn.point_gives s1 (hpoint.trans hplen) htag
      refine congrArg Host.Outcome.next (serveFn_runsOn _ hmay ?_)
      refine (runFnOn_need_pos hfields _ _ _).trans <| (runFnOn_bind _ hkey).trans <| (runFnOn_bind _ hgen).trans <|
        (runFnOn_need_pos (bne_iff_ne.2 hnotB) _ _ s1).trans <| (runFnOn_bind _ hcurve).trans <|
        (runFnOn_bind _ hcoordinates).trans ?_
      rfl
  case lattice =>
    intro g h s1
    refine ⟨?encaps, ?decaps, ?mlDsaSign⟩
    case encaps =>
      intro o hmay hlayout hattr hnotB hgen
      have hfields : (payloadOk p 1196 [] [] && outAttrOk p 4 [5, 6]) = true := by
        simp only [hlayout, hattr, Bool.and_self]
      refine congrArg Host.Outcome.next (serveFn_runsOn _ hmay ?_)
      exact (runFnOn_need_pos hfields _ _ _).trans <| (runFnOn_bind _ hgen).trans <|
        runFnOn_need_pos (bne_iff_ne.2 hnotB) _ _ _
    case decaps =>
      intro o hmay hlayout hattr hnotB hkey hgen
      have hfields : (payloadOk p 1108 [] [4] && outAttrOk p 12 [5, 6]) = true := by
        simp only [hlayout, hattr, Bool.and_self]
      refine congrArg Host.Outcome.next (serveFn_runsOn _ hmay ?_)
      exact (runFnOn_need_pos hfields _ _ _).trans <| (runFnOn_bind _ hkey).trans <| (runFnOn_bind _ hgen).trans <|
        runFnOn_need_pos (bne_iff_ne.2 hnotB) _ _ s1
    case mlDsaSign =>
      intro e clen mlen hmay hlayout hmost hseed hkey hengine
      have hfields : (payloadOk p (16 + clen + mlen) [(13, 1)] [4] && decide (mlen ≤ 4096)) = true := by
        simp only [hlayout, hmost, decide_true, Bool.and_self]
      refine congrArg Host.Outcome.next (serveFn_runsOn _ hmay ?_)
      exact (runFnOn_need_pos hfields _ _ _).trans <| (runFnOn_bind _ hkey).trans <| (runFnOn_bind _ hengine).trans <|
        runFnOn_need_pos (beq_iff_eq.2 hseed) _ _ s1
  case mlDsaVerify =>
    intro clen mlen hmay hlayout hmost
    have hfields : (payloadOk p (5269 + clen + mlen) [(5, 1)] [] && decide (mlen ≤ 2048)) = true := by
      simp only [hlayout, hmost, decide_true, Bool.and_self]
    exact congrArg Host.Outcome.next (serveFn_runsOn _ hmay (runFnOn_need_pos hfields _ _ _))

end Sys2Proof.Machine
end

section
/-! SUPPORT. Chapter 08 (family 08_payment_functions), records and identity: what COUNTER_CREATE, CLIENT_KEY_SET and CERTIFICATES give,
and the statement about them and the colophons. -/

namespace Sys2Proof.Machine

open Sys2Proof

theorem counterCreateFn_gives {x : Slot} {u : Nat} {s : State} (hlayout : layoutOk x.payload 24 [(7, 1), (18, 2)] = true)
    (h1 : 1 ≤ fld x.payload 4 1) (h3 : fld x.payload 4 1 ≤ 3)
    (hcard : fld x.payload 4 1 = 1 → 12 ≤ fld x.payload 6 1 ∧ fld x.payload 6 1 ≤ 19)
    (hother : fld x.payload 4 1 ≠ 1 → fld x.payload 5 1 = 0 ∧ fld x.payload 6 1 = 0) (hrun : (Fn.residentRun x.tenant 1).gives s u s) :
    (counterCreateFn x).gives s
      { result := beBytes 4 u ++ zeros 4
        effects := [.loadResident u
          { kind := .counter, tenant := x.tenant, units := 1,
            record := { type := fld x.payload 4 1, psn := fld x.payload 5 1, digits := fld x.payload 6 1, id := slice x.payload 8 10,
                        s := fld x.payload 20 4 } }] } s := by
  have htyped : (if fld x.payload 4 1 = 1 then decide (12 ≤ fld x.payload 6 1 ∧ fld x.payload 6 1 ≤ 19)
      else decide (fld x.payload 5 1 = 0 ∧ fld x.payload 6 1 = 0)) = true := by
    by_cases htype : fld x.payload 4 1 = 1
    · rw [if_pos htype]
      exact decide_eq_true (hcard htype)
    · rw [if_neg htype]
      exact decide_eq_true (hother htype)
  have hfields : (layoutOk x.payload 24 [(7, 1), (18, 2)] && decide (1 ≤ fld x.payload 4 1 ∧ fld x.payload 4 1 ≤ 3) &&
      (if fld x.payload 4 1 = 1 then decide (12 ≤ fld x.payload 6 1 ∧ fld x.payload 6 1 ≤ 19)
        else decide (fld x.payload 5 1 = 0 ∧ fld x.payload 6 1 = 0))) = true :=
    (Bool.and_eq_true_iff).2 ⟨(Bool.and_eq_true_iff).2 ⟨hlayout, decide_eq_true ⟨h1, h3⟩⟩, htyped⟩
  exact Fn.gives_bind (Fn.need_gives hfields) <| Fn.gives_bind hrun (Fn.done_gives _ _ s)

theorem clientKeySetFn_gives {k i : Nat} {x : Slot} {s s1 : State}
    (hlayout : layoutOk x.payload (12 + fld x.payload 6 2) [] = true) (hindex : fld x.payload 4 1 ≤ 63) (halg : fld x.payload 5 1 ≤ 2)
    (hlen : fld x.payload 6 2 = if fld x.payload 5 1 = 0 then 0 else if fld x.payload 5 1 = 1 then 97 else 1952)
    (hpoint : let pub := x.payload.drop 12
      fld x.payload 5 1 = 1 → fld pub 0 1 = 4 ∧ fld pub 1 48 < p384.p ∧ fld pub 49 48 < p384.p ∧
        p384.has (fld pub 1 48) (fld pub 49 48) = true)
    (hauth : (Fn.auth k x 0x47 0 0 8).gives s i s1) :
    (clientKeySetFn k x).gives s
      { effects := [.arm (.clientKeySet x.tenant (fld x.payload 4 1) (if fld x.payload 5 1 = 0 then {}
          else { alg := fld x.payload 5 1, pub := x.payload.drop 12, digest := sha384B (x.payload.drop 12) }))] } s1 := by
  have hfields : (layoutOk x.payload (12 + fld x.payload 6 2) [] && decide (fld x.payload 4 1 ≤ 63 ∧ fld x.payload 5 1 ≤ 2 ∧
      fld x.payload 6 2 = if fld x.payload 5 1 = 0 then 0 else if fld x.payload 5 1 = 1 then 97 else 1952)) = true :=
    (Bool.and_eq_true_iff).2 ⟨hlayout, decide_eq_true ⟨hindex, halg, hlen⟩⟩
  have hkey : (fld x.payload 5 1 != 1 || (fld (x.payload.drop 12) 0 1 == 4 &&
      decide (fld (x.payload.drop 12) 1 48 < p384.p ∧ fld (x.payload.drop 12) 49 48 < p384.p) &&
      p384.has (fld (x.payload.drop 12) 1 48) (fld (x.payload.drop 12) 49 48))) = true := by
    by_cases hcurve : fld x.payload 5 1 = 1
    · obtain ⟨htag, hx, hy, hhas⟩ := hpoint hcurve
      simp only [htag, hx, hy, hhas, and_self, beq_self_eq_true, decide_true, Bool.and_self, Bool.or_true]
    · simp only [bne_iff_ne.2 hcurve, Bool.true_or]
  exact Fn.gives_bind (Fn.need_gives hfields) <| Fn.gives_bind hauth <| Fn.gives_bind (Fn.need_gives hkey) (Fn.done_gives _ _ s1)

theorem certificatesFn_gives {x : Slot} {s : State} (hlayout : layoutOk x.payload 4 [] = true) :
    let c := [tabGet [] s.ks.certs 0, tabGet [] s.ks.certs 1, tabGet [] s.ks.certs 2]
    (certificatesFn x).gives s { result := c.flatMap (fun b => beBytes 2 b.length) ++ zeros 2 ++ c.flatten } s :=
  Fn.gives_bind (Fn.need_gives hlayout) (Fn.gives_bind (Fn.get_gives s) (Fn.done_gives _ _ s))

/-- Settles O18: three functions give what their lemmas above say; the colophons pass their checks and sign the map of their tick. -/
theorem identityAndRecordFunctions : Obligations.IdentityAndRecordFunctions := by
  intro s k x p t
  refine ⟨?counter, ?clientKey, ?colophons, ?certificates⟩
  case counter =>
    intro u type hmay hlayout h1 h3 hcard hother hrun
    exact congrArg Host.Outcome.next (serveFn_gives _ hmay (counterCreateFn_gives hlayout h1 h3 hcard hother hrun))
  case clientKey =>
    intro i s1 alg pub hmay hindex halg hlen hlayout hpoint hauth
    exact congrArg Host.Outcome.next (serveFn_gives _ hmay (clientKeySetFn_gives hlayout hindex halg hlen hpoint hauth))
  case colophons =>
    intro signed
    constructor
    · intro n hmay hn hlayout h16 h64
      subst hn
      have hfields : (layoutOk p (8 + fld p 4 1) [(5, 3)] && decide (16 ≤ fld p 4 1 ∧ fld p 4 1 ≤ 64)) = true :=
        (Bool.and_eq_true_iff).2 ⟨hlayout, decide_eq_true ⟨h16, h64⟩⟩
      refine congrArg Host.Outcome.next (serveFn_runsOn _ hmay ?_)
      exact (runFnOn_need_pos hfields _ _ t).trans (runFnOn_nested (Fn.get_gives t))
    · intro n hmay hn hlayout h16 h64 htenant hown
      subst hn
      have hfields : (layoutOk p (8 + fld p 6 1) [(7, 1)] && decide (16 ≤ fld p 6 1 ∧ fld p 6 1 ≤ 64 ∧ fld p 4 2 ≤ 512) &&
          (x.tenant == 0 || fld p 4 2 == x.tenant)) = true := by
        simp only [Bool.and_eq_true, Bool.or_eq_true, decide_eq_true_eq, beq_iff_eq]
        exact ⟨⟨hlayout, h16, h64, htenant⟩, hown⟩
      refine congrArg Host.Outcome.next (serveFn_runsOn _ hmay ?_)
      exact (runFnOn_need_pos hfields _ _ t).trans (runFnOn_nested (Fn.get_gives t))
  case certificates =>
    intro hmay hlayout c
    exact congrArg Host.Outcome.next (serveFn_gives _ hmay (certificatesFn_gives hlayout))

end Sys2Proof.Machine
end

section
/-! SUPPORT. Chapter 09 (family 09_key_hierarchy_and_identity), SMK functions: what the shared courses of a new generation and of a
change of a slot's generations give, and the statement about the SMK commands. -/

namespace Sys2Proof.Machine

open Sys2Proof

/-- A value that one of two steps gives heads the same rest. -/
theorem Fn.gives_ite_bind {α β : Type} {c : Prop} [Decidable c] {f g : Fn α} {h : α → Fn β} {s t u : State} {a : α} {b : β}
    (hstep : if c then f.gives s a t else g.gives s a t) (hrest : (h a).gives t b u) :
    Fn.gives (if c then f >>= h else g >>= h) s b u := by
  by_cases hc : c
  · rw [if_pos hc] at hstep ⊢
    exact Fn.gives_bind hstep hrest
  · rw [if_neg hc] at hstep ⊢
    exact Fn.gives_bind hstep hrest

section Slots

variable {k code i : Nat} {x : Slot} {ready : SmkSlot → Bool} {s s1 s2 s3 s4 : State} {y : SmkSlot}
  (hslot : fld x.payload 4 1 ≤ 7) (hy : y = s1.smkArmed x.tenant (fld x.payload 4 1)) (hready : ready y = true)
include hslot hy hready

/-- SMK_CREATE and SMK_ROTATE_BEGIN: the key, drawn or assembled, and then its mask (R253, R367, R505). -/
theorem smkNewFn_gives {mk : Nat → Nat → SmkGen → TickEffect} {key m : Bytes} (hlayout : layoutOk x.payload 12 [(6, 2)] = true)
    (hsource : fld x.payload 5 1 ≤ 1) (hauth : (Fn.auth k x code (fld x.payload 5 1) (32 * fld x.payload 5 1) 8).gives s i s1)
    (hgen : y.lastGen < 0xFFFF)
    (hkey : if fld x.payload 5 1 = 0 then (Fn.draw 32).gives s1 key s2 else (Fn.assembledKey i false).gives s1 key s2)
    (hmask : (Fn.draw 32).gives s2 m s3)
    (harm : (Fn.armNow k (mk x.tenant (fld x.payload 4 1)
      { gen := y.lastGen + 1, shareA := m, shareB := xorBytes key m })).gives s3 () s4) :
    (smkNewFn k x code ready mk).gives s { result := beBytes 2 (y.lastGen + 1) ++ kcvOf { alg := 5 } key } s4 := by
  subst hy
  have hfields : (layoutOk x.payload 12 [(6, 2)] && decide (fld x.payload 4 1 ≤ 7 ∧ fld x.payload 5 1 ≤ 1)) = true :=
    (Bool.and_eq_true_iff).2 ⟨hlayout, decide_eq_true ⟨hslot, hsource⟩⟩
  refine Fn.gives_bind (Fn.need_gives hfields) <| Fn.gives_bind hauth <| Fn.gives_bind (Fn.st_gives _ s1) <|
    Fn.gives_bind (Fn.need_gives hready) <| Fn.gives_bind (Fn.need_gives (decide_eq_true hgen)) ?_
  exact Fn.gives_ite_bind hkey <| Fn.gives_bind hmask <| Fn.gives_bind harm (Fn.done_gives _ _ s4)

/-- The commands that change the generations a slot has (R253, R255), with what they answer. -/
theorem smkChangeFn_answers {mk : Nat → Nat → TickEffect} (answer : SmkSlot → Bytes) (hlayout : layoutOk x.payload 12 [(5, 3)] = true)
    (hauth : (Fn.auth k x code 0 0 8).gives s i s1) (harm : (Fn.armNow k (mk x.tenant (fld x.payload 4 1))).gives s1 () s2) :
    (smkChangeFn k x code ready mk >>= fun y => Fn.done (answer y)).gives s { result := answer y } s2 := by
  subst hy
  have hfields : (layoutOk x.payload 12 [(5, 3)] && decide (fld x.payload 4 1 ≤ 7)) = true :=
    (Bool.and_eq_true_iff).2 ⟨hlayout, decide_eq_true hslot⟩
  have hchange : (smkChangeFn k x code ready mk).gives s (s1.smkArmed x.tenant (fld x.payload 4 1)) s2 :=
    Fn.gives_bind (Fn.need_gives hfields) <| Fn.gives_bind hauth <| Fn.gives_bind (Fn.st_gives _ s1) <|
      Fn.gives_bind (Fn.need_gives hready) <| Fn.gives_bind harm (Fn.pure_gives _ s2)
  exact Fn.gives_bind hchange (Fn.done_gives _ _ s2)

end Slots

/-! ### A block under the generation of new blocks (R254) -/

theorem runFnOn_smkRewrap {x : Slot} {h : Handle} {g : SmkGen} {f : Nat} {s s1 : State} (hlayout : payloadOk x.payload 12 [] [4] = true)
    (hinline : (krefAt x.payload 4).kind = 2) (hblock : (Fn.resolve x 4 (fun _ => true)).gives s h s1)
    (hgen : (Fn.producing x (krefAt x.payload 4).smk).gives s1 g s1)
    (hformat : f = (versionFormat (fld x.payload (krefAt x.payload 4).at_ 1)).getD 0) :
    runFnOn (smkRewrapFn x) s = runFnOn (do Fn.done (← Fn.wrapSmk g f h.attr h.key 248)) s1 := by
  subst hformat
  have hfields : (payloadOk x.payload 12 [] [4] && (krefAt x.payload 4).kind == 2) = true :=
    (Bool.and_eq_true_iff).2 ⟨hlayout, beq_iff_eq.2 hinline⟩
  exact (runFnOn_need_pos hfields _ _ s).trans <| (runFnOn_bind _ hblock).trans (runFnOn_bind _ hgen)

/-- Settles O17: two commands make a generation, three change the slot, and SMK_REWRAP passes its checks and wraps its block. -/
theorem smkFunctions : Obligations.SmkFunctions := by
  intro s k x p j fresh made changed
  refine ⟨?create, ?rotate, ?complete, ?abort, ?invalidate, ?rewrap⟩
  case create =>
    intro i s1 s2 s3 s4 y key m hmay hlayout hslot hsource hauth hy ⟨hcurrent, hpending⟩ hgen hkey hmask harm
    have hready : (y.current.isNone && y.pending.isNone) = true := by rw [hcurrent, hpending]; rfl
    exact congrArg Host.Outcome.next (serveFn_gives _ hmay
      (smkNewFn_gives (ready := fun y => y.current.isNone && y.pending.isNone) hslot hy hready hlayout hsource hauth hgen hkey hmask harm))
  case rotate =>
    intro i s1 s2 s3 s4 y key m hmay hlayout hslot hsource hauth hy ⟨hcurrent, hpending⟩ hgen hkey hmask harm
    have hready : (y.current.isSome && y.pending.isNone) = true := by
      rw [Option.isSome_iff_ne_none.2 hcurrent, hpending]; rfl
    exact congrArg Host.Outcome.next (serveFn_gives _ hmay
      (smkNewFn_gives (ready := fun y => y.current.isSome && y.pending.isNone) hslot hy hready hlayout hsource hauth hgen hkey hmask harm))
  case complete =>
    intro i s1 s2 y hmay hlayout hslot hauth hy hpending harm
    exact congrArg Host.Outcome.next (serveFn_gives _ hmay (smkChangeFn_answers (ready := fun y => y.pending.isSome)
      (mk := TickEffect.smkComplete) hslot hy (Option.isSome_iff_ne_none.2 hpending) _ hlayout hauth harm))
  case abort =>
    intro i s1 s2 y hmay hlayout hslot hauth hy hpending harm
    exact congrArg Host.Outcome.next (serveFn_gives _ hmay (smkChangeFn_answers (ready := fun y => y.pending.isSome)
      (mk := TickEffect.smkAbort) hslot hy (Option.isSome_iff_ne_none.2 hpending) _ hlayout hauth harm))
  case invalidate =>
    intro i s1 s2 y hmay hlayout hslot hauth hy hcurrent harm
    exact congrArg Host.Outcome.next (serveFn_gives _ hmay (smkChangeFn_answers (ready := fun y => y.current.isSome)
      (mk := TickEffect.smkInvalidate) hslot hy (Option.isSome_iff_ne_none.2 hcurrent) _ hlayout hauth harm))
  case rewrap =>
    intro h g s1 f hmay hlayout hinline hblock hgen hformat
    exact congrArg Host.Outcome.next (serveFn_runsOn _ hmay (runFnOn_smkRewrap hlayout hinline hblock hgen hformat))

end Sys2Proof.Machine
end

section
/-! SUPPORT. Chapter 09 (family 09_key_hierarchy_and_identity), key-store ports: what each port does for a core that runs a task, and
the statement about them. -/

namespace Sys2Proof.Machine

open Sys2Proof

/-! ### The ports of a core that runs a task (R265, R266) -/

section Ports

variable {s : State} {core k n : Nat} {x : Slot} (htask : s.taskOf core = some (k, x, n))
include htask

theorem klookOp_task (v : Word64) :
    let r := lookupRef s x.tenant x.admitTick x.payload (krefAt x.payload (v.toNat % 65536))
    klookOp s core v = (r.2.putHandle core (bitsOf v.toNat 17 16) r.1).keySubmitted core := by
  rw [klookOp, htask]

theorem kunwrapOp_open (v : Word64) (hopen : tabGet 0 s.cores.unwrap core ≠ 0) : kunwrapOp s core v = none := by
  rw [kunwrapOp, htask]
  exact if_pos hopen

theorem kunwrapOp_marks (v : Word64) (hnone : tabGet 0 s.cores.unwrap core = 0) :
    kunwrapOp s core v = some
      ({ s with cores := { s.cores with unwrap := tabPut 0 s.cores.unwrap core (bitsOf v.toNat 17 16 + 1) } }.taskFlag core
        flagUnwrapDone false) := by
  rw [kunwrapOp, htask]
  exact if_neg (not_not.2 hnone)

/-- The block that waits in the handle is opened, and what comes of it is bound to the handle (R260). -/
theorem unwrapOp_binds {h : Nat} (hopen : tabGet 0 s.cores.unwrap core = h + 1) (hmissed : (s.handle core h).missed ≠ []) :
    let r := unwrapBlock s x.tenant x.admitTick (s.handle core h).missedSlot (s.handle core h).missed
    unwrapOp s core = ({ r.2 with cores := { r.2.cores with unwrap := tabPut 0 r.2.cores.unwrap core 0 } }.putHandle core h
      r.1).taskFlag core flagUnwrapDone true := by
  rw [unwrapOp, htask, hopen]
  simp only [Nat.succ_ne_zero, Nat.add_sub_cancel, if_false, if_neg hmissed]

theorem kdlookOp_task (v : Word64) :
    let r := lookupChild s (s.handle core (bitsOf v.toNat 17 16)) (s.kdigOf core)
    kdlookOp s core v = (r.2.putHandle core (bitsOf v.toNat 19 18) r.1).keySubmitted core := by
  rw [kdlookOp, htask]

theorem kdstoreOp_task (v : Word64) :
    kdstoreOp s core v = storeChild s (s.handle core (bitsOf v.toNat 17 16)) (s.handle core (bitsOf v.toNat 19 18)) (s.kdigOf core)
      (bitsOf v.toNat 22 20) := by
  rw [kdstoreOp, htask]

/-- An advance that the record takes is noted as a claim in the request's slot; its status is left either way (R264). -/
theorem cadvOp_task (iod : Word128) :
    let w := iod.toNat
    let r := advance s x.tenant x.admitTick x.req (w % 65536) (bitsOf w 63 32) (bitsOf w 127 120) (bitsOf w 119 112)
      (beBytes 10 (bitsOf w 111 32))
    let t := if r.1 = stOk then r.2.modSlot k (fun y => { y with claims := y.claims ++ [(w % 65536, bitsOf w 63 32)] }) else r.2
    cadvOp s core iod = { t with cores := { t.cores with cstat := tabPut 0 t.cores.cstat core r.1 } }.keySubmitted core := by
  rw [cadvOp, htask]

end Ports

/-- KEY_REQUEST_COMPLETE of a submitted request (R266). -/
theorem execKeyRequestComplete_submitted {s : State} {core : Nat} (hbusy : tabGet false s.cores.keyBusy core = true) :
    execKeyRequestComplete core s =
      .next ({ s with cores := { s.cores with keyBusy := tabPut false s.cores.keyBusy core false } }.taskFlag core flagKeyResident true) :=
  if_pos hbusy

/-- Settles O34: each port by its lemma above. -/
theorem keyPorts : Obligations.KeyPorts := by
  intro s core k n x v htask
  refine ⟨?klook, ?kunwrap, ?second, ?complete, ?kdlook, ?kdstore, ?cadv, ?krel, ?submitted⟩
  case klook => exact congrArg Host.Outcome.next (klookOp_task htask v)
  case kunwrap =>
    intro hnone
    exact congrArg (orFault · s core 8 0x108) (kunwrapOp_marks htask v hnone)
  case second =>
    intro hopen
    exact congrArg (orFault · s core 8 0x108) (kunwrapOp_open htask v hopen)
  case complete =>
    intro h hopen hmissed
    exact congrArg Host.Outcome.next (unwrapOp_binds htask hopen hmissed)
  case kdlook => exact congrArg Host.Outcome.next (kdlookOp_task htask v)
  case kdstore => exact congrArg Host.Outcome.next (kdstoreOp_task htask v)
  case cadv => exact congrArg Host.Outcome.next (cadvOp_task htask _)
  case krel => rfl
  case submitted => exact execKeyRequestComplete_submitted

end Sys2Proof.Machine
end

section
/-! SUPPORT. Chapter 09 (family 09_key_hierarchy_and_identity), the key store's own work: shares under a new mask, what remasking a unit
keeps, resident slots read after a write, what a vault batch appends, and the statement about them. -/

namespace Sys2Proof.Machine

open Sys2Proof

/-! ### Shares under a new mask (R248, R251) -/

theorem length_padTo (n : Nat) (b : Bytes) : (padTo n b).length = n := by
  simp only [padTo, zeros, List.length_take, List.length_append, List.length_replicate]
  omega

/-- A difference put on both shares leaves their exclusive or. -/
theorem xorBytes_remask {a b m : Bytes} (hab : a.length = b.length) (hm : m.length = a.length) :
    xorBytes (remask a b m).1 (remask a b m).2 = xorBytes a b := by
  have hbyte : ∀ p q r : Byte, (p ^^^ r) ^^^ (q ^^^ r) = p ^^^ q := fun p q r => by
    rw [BitVec.xor_comm q r, BitVec.xor_assoc, ← BitVec.xor_assoc r r q, BitVec.xor_self, BitVec.zero_xor]
  refine List.ext_getElem ?_ fun i _ _ => ?_
  · simp only [remask, xorBytes, List.length_zipWith]
    omega
  · simp only [remask, xorBytes, List.getElem_zipWith, hbyte]

theorem Resident.keyBytes_remask {r : Resident} (h : r.shareA.length = r.shareB.length) (rnd : Bytes) :
    (r.remask rnd).keyBytes = r.keyBytes := by
  unfold Resident.remask
  split
  · rfl
  · exact xorBytes_remask h (length_padTo _ _)

theorem CacheBinding.key_remask {c : CacheBinding} (h : c.shareA.length = c.shareB.length) (rnd : Bytes) :
    xorBytes (c.remask rnd).shareA (c.remask rnd).shareB = xorBytes c.shareA c.shareB := by
  unfold CacheBinding.remask
  split
  · rfl
  · exact xorBytes_remask h (length_padTo _ _)

/-! ### Resident slots read after a write -/

theorem State.resident_putResident_same {s : State} (hwf : tabWf {} s.ks.resident = true) (k : Nat) (r : Resident) :
    (s.putResident k r).resident k = r :=
  tabGet_put_same hwf k r

theorem State.resident_putResident_other (s : State) {k j : Nat} (r : Resident) (h : j ≠ k) :
    (s.putResident k r).resident j = s.resident j :=
  tabGet_put_other _ _ _ h

/-! ### Mask refresh (R251) -/

/-- From `s` to `u` the key store alone may change, and each key whose two shares are of one length has the value that it had. -/
structure State.Remasked (s u : State) : Prop where
  keyStoreAlone : u = { s with ks := u.ks }
  residents : ∀ k, (s.resident k).shareA.length = (s.resident k).shareB.length → (u.resident k).keyBytes = (s.resident k).keyBytes
  cached : (∀ c ∈ s.ks.cache, c.shareA.length = c.shareB.length) →
    u.ks.cache.map (fun c => xorBytes c.shareA c.shareB) = s.ks.cache.map (fun c => xorBytes c.shareA c.shareB)

theorem State.Remasked.refl (s : State) : s.Remasked s := ⟨rfl, fun _ _ => rfl, fun _ => rfl⟩

theorem State.remasked_putSmk (s : State) (t j : Nat) (x : SmkSlot) : s.Remasked (s.putSmk t j x) :=
  ⟨rfl, fun _ _ => rfl, fun _ => rfl⟩

theorem State.remasked_putResident {s : State} (hwf : tabWf {} s.ks.resident = true) (k : Nat) (rnd : Bytes) :
    s.Remasked (s.putResident k ((s.resident k).remask rnd)) := by
  refine ⟨rfl, fun j hj => ?_, fun _ => rfl⟩
  by_cases hjk : j = k
  · subst hjk
    rw [State.resident_putResident_same hwf]
    exact Resident.keyBytes_remask hj rnd
  · rw [State.resident_putResident_other _ _ hjk]

theorem State.remasked_cache (s : State) (b : CacheBinding) (rnd : Bytes) :
    s.Remasked { s with ks := { s.ks with cache := s.ks.cache.map (fun c => if c = b then b.remask rnd else c) } } := by
  refine ⟨rfl, fun _ _ => rfl, fun hcache => ?_⟩
  rw [List.map_map]
  refine List.map_congr_left fun c hc => ?_
  by_cases hcb : c = b
  · subst hcb
    simpa using CacheBinding.key_remask (hcache c hc) rnd
  · simp only [Function.comp_apply, if_neg hcb]

/-- A unit holds nothing, a cached key, a generation of an SMK, or a resident binding. -/
theorem remaskUnit_remasked {s : State} (hwf : tabWf {} s.ks.resident = true) (unit : Nat) (rnd : Bytes) :
    s.Remasked (remaskUnit s unit rnd) := by
  unfold remaskUnit
  split
  · cases cacheAt unit s.ks.cache with
    | none => exact .refl s
    | some c => exact s.remasked_cache c rnd
  · extract_lets r
    split
    · exact s.remasked_putSmk ..
    · split
      · exact .refl s
      · exact State.remasked_putResident hwf r rnd

theorem execMaskRefreshStep_idle {s : State} (h : s.ks.refresh = false ∨ s.rng.state = .failed) : execMaskRefreshStep s = .next s :=
  if_pos (h.imp_left Bool.eq_false_iff.1)

/-- The state after a unit of key SRAM has been remasked and the next is to come. -/
def State.refreshed (s : State) : State :=
  let t := remaskUnit (s.random 16).2 s.ks.refreshUnit (s.random 16).1
  let unit := (s.ks.refreshUnit + 1) % 196608
  { t with ks := { t.ks with refreshUnit := unit, passes := if unit = 0 then min (2 ^ 32 - 1) (t.ks.passes + 1) else t.ks.passes } }

theorem execMaskRefreshStep_refreshes {s : State} (hon : s.ks.refresh = true) (hrng : s.rng.state ≠ .failed) :
    execMaskRefreshStep s = .next s.refreshed :=
  if_neg (by simp [hon, hrng])

theorem State.refreshed_remasked {s : State} (hwf : tabWf {} s.ks.resident = true) : (s.random 16).2.Remasked s.refreshed := by
  have h := remaskUnit_remasked (s := (s.random 16).2) hwf s.ks.refreshUnit (s.random 16).1
  refine ⟨?_, h.residents, h.cached⟩
  unfold State.refreshed
  rw [h.keyStoreAlone]

/-! ### Errors of key SRAM (R252) -/

/-- An error of key SRAM that the key store answers with `t` sets the key store's event and is recorded. -/
theorem keySramError_recorded (s t : State) (ht : t = { s with ks := t.ks }) (resident : Bool) (unit : Nat) :
    let u := (t.ksEvent 2).raise evKeySramError srcKeyStore 0 (items [(1, bit resident), (4, unit)])
    u.ks.cache = t.ks.cache ∧ u.ks.resident = t.ks.resident ∧ u = { s with ks := u.ks, recorder := u.recorder } := by
  obtain ⟨r, hr⟩ := State.raise_changes_recorder (t.ksEvent 2) evKeySramError srcKeyStore 0 (items [(1, bit resident), (4, unit)])
  rw [hr, ht]
  exact ⟨rfl, rfl, rfl⟩

theorem execKeySramError_cache {s : State} {unit : Nat} {b : CacheBinding} (hat : cacheAt unit s.ks.cache = some b) :
    ∃ u : State, execKeySramError false unit s = .next u ∧ u.ks.cache = s.ks.cache.erase b ∧ u.ks.resident = s.ks.resident ∧
      u = { s with ks := u.ks, recorder := u.recorder } := by
  refine ⟨_, ?_, keySramError_recorded s { s with ks := { s.ks with cache := s.ks.cache.erase b } } rfl false unit⟩
  simp only [execKeySramError, hat]
  rfl

theorem execKeySramError_resident {s : State} {unit k : Nat} (hwf : tabWf {} s.ks.resident = true) (hat : s.residentAt unit = some k) :
    ∃ u : State, execKeySramError true unit s = .next u ∧ u.resident k = { s.resident k with reloading := true } ∧
      (∀ j, j ≠ k → u.resident j = s.resident j) ∧ u.ks.cache = s.ks.cache ∧ u = { s with ks := u.ks, recorder := u.recorder } := by
  obtain ⟨hcache, hresident, halone⟩ := keySramError_recorded s (s.putResident k { s.resident k with reloading := true })
    rfl true unit
  refine ⟨_, ?_, ?_, fun j hj => ?_, hcache, halone⟩
  · simp only [execKeySramError, hat]
    rfl
  · rw [State.resident, hresident]
    exact State.resident_putResident_same hwf k _
  · rw [State.resident, hresident]
    exact State.resident_putResident_other s _ hj

theorem execResidentReloadComplete_reloads {s : State} {k : Nat} (hwf : tabWf {} s.ks.resident = true)
    (hreloading : (s.resident k).reloading = true) (hheld : (tabGet ({} : Resident) s.vault.store.resident k).kind ≠ .free) :
    ∃ u : State, execResidentReloadComplete k s = .next u ∧ (u.resident k).reloading = false ∧
      (u.resident k).shareA = (tabGet ({} : Resident) s.vault.store.resident k).shareA ∧
      (u.resident k).shareB = (tabGet ({} : Resident) s.vault.store.resident k).shareB ∧
      (∀ j, j ≠ k → u.resident j = s.resident j) ∧ u = { s with ks := u.ks } := by
  refine ⟨_, if_pos ⟨hreloading, hheld⟩, ?_, ?_, ?_, fun j hj => State.resident_putResident_other s _ hj, rfl⟩ <;>
    rw [State.resident_putResident_same hwf]

theorem execResidentReloadComplete_idle {s : State} {k : Nat} (h : (s.resident k).reloading = false) :
    execResidentReloadComplete k s = .next s :=
  if_neg fun ⟨hreloading, _⟩ => Bool.false_ne_true (h.symm.trans hreloading)

/-! ### Vault batches (R262, R267) -/

/-- What a batch makes durable on an unpaired device changes the resident slots' reservations at most (R262). -/
theorem reserveBlocks_if_soleActive (s : State) :
    ∃ residents, (if s.soleActive then reserveBlocks s else s) = { s with ks := { s.ks with resident := residents } } := by
  split <;> exact ⟨_, rfl⟩

/-- A batch goes after those in the vault NVM; the security die holds its number and the chain's value with it. -/
theorem writeBatch_appends (s : State) (fenceFlush : Bool) : ∃ b : VaultBatch,
    let u := writeBatch s fenceFlush
    u.vault.batches = s.vault.batches ++ [b] ∧ b.seq = s.vault.heldSeq + 1 ∧ u.vault.heldSeq = s.vault.heldSeq + 1 ∧
      u.vault.heldChain = vaultChainNext s.vault.heldChain b.body ∧ u.ks.changes = 0 ∧ u.ks.smk = s.ks.smk ∧
      u = { s with ks := u.ks, vault := u.vault } := by
  obtain ⟨residents, hresidents⟩ := reserveBlocks_if_soleActive s
  rw [writeBatch, hresidents]
  exact ⟨_, rfl, rfl, rfl, rfl, rfl, rfl, rfl⟩

/-- Settles O55: each command by its lemmas above. -/
theorem keyStoreWork : Obligations.KeyStoreWork := by
  intro s hwf
  refine ⟨execMaskRefreshStep_idle, ?refresh, fun _ _ => execKeySramError_cache, fun _ _ => execKeySramError_resident hwf,
    fun _ => execResidentReloadComplete_reloads hwf, fun _ => execResidentReloadComplete_idle, ?batch, ?noBatch, rfl⟩
  case refresh =>
    intro hon hrng
    obtain ⟨halone, hresidents, hcached⟩ := s.refreshed_remasked hwf
    refine ⟨_, execMaskRefreshStep_refreshes hon hrng, rfl, ?_, hresidents, hcached⟩
    rw [halone]
    rfl
  case batch =>
    intro hunsealed hchanges hkey
    obtain ⟨b, hb⟩ := writeBatch_appends s false
    exact ⟨_, b, if_pos ⟨hunsealed, hchanges, hkey⟩, hb⟩
  case noBatch =>
    intro hnone
    refine if_neg fun ⟨hunsealed, hchanges, _⟩ => ?_
    rcases hnone with hzero | hsealed
    · exact absurd hzero hchanges.ne'
    · exact Bool.false_ne_true (hsealed.symm.trans hunsealed)

end Sys2Proof.Machine
end

section
/-! SUPPORT. Chapter 10 (family 10_big_number_engines), curve records: the record that a handle names for its sender, what each of the
three functions gives, and the statement about them. -/

namespace Sys2Proof.Machine

open Sys2Proof

theorem Fn.get!_gives_of_eq {α : Type} {o : Option α} {a : α} (e : Nat) (s : State) (h : o = some a) : (Fn.get! o e).gives s a s := by
  subst h
  exact Fn.get!_gives a e s

/-- A record that its handle names and that is not deleted at the request's admission tick (R303). -/
theorem Fn.curveRecord_gives {x : Slot} {h i : Nat} {s : State} (hnamed : s.curveNamed x.tenant h = some i)
    (hkept : ∀ d, (s.curve i).deletedAt = some d → folioReached x.admitTick d = false) :
    (Fn.curveRecord x h).gives s (i, s.curve i) s := by
  refine Fn.gives_bind (Fn.get_gives s) <| Fn.gives_bind (Fn.get!_gives_of_eq _ s hnamed) <|
    Fn.gives_bind (Fn.need_gives ?_) (Fn.pure_gives _ s)
  cases hdeleted : (s.curve i).deletedAt with
  | none => rfl
  | some d => exact congrArg not (hkept d hdeleted)

theorem curveLoadFn_gives {x : Slot} {i : Nat} {s : State} (hlayout : layoutOk x.payload 440 [(7, 1)] = true)
    (hbits : 192 ≤ fld x.payload 4 2 ∧ fld x.payload 4 2 ≤ 576) (hcofactor : 1 ≤ fld x.payload 6 1 ∧ fld x.payload 6 1 ≤ 4)
    (hquota : (s.bn.curves.filter (fun q => decide (q.2.state ≠ .free ∧ q.2.tenant = x.tenant))).length +
        (s.pendingCurves.filter (fun q => q.2 == x.tenant)).length
      < (tabGet ({} : TenantImage) s.image.tenants x.tenant).curveQuota)
    (hfree : (List.range 256).find? (fun i => decide ((s.curve i).state = .free) && s.pendingCurves.all (fun q => q.1 != i)) = some i) :
    let v := fun (j : Nat) => fld x.payload (8 + 72 * j) 72
    let c : CurveRec := { state := .validating, tenant := x.tenant, gen := if 65535 ≤ (s.curve i).gen then 1 else (s.curve i).gen + 1,
                          h := fld x.payload 6 1, pbits := fld x.payload 4 2, p := v 0, a := v 1, b := v 2, gx := v 3, gy := v 4,
                          n := v 5 }
    (curveLoadFn x).gives s { result := beBytes 4 (curveHandle i c) ++ zeros 4, effects := [.curveLoad i c] } s := by
  obtain ⟨h192, h576⟩ := hbits
  have hfields : (layoutOk x.payload 440 [(7, 1)] && decide (192 ≤ fld x.payload 4 2 ∧ fld x.payload 4 2 ≤ 576 ∧
      1 ≤ fld x.payload 6 1 ∧ fld x.payload 6 1 ≤ 4)) = true :=
    (Bool.and_eq_true_iff).2 ⟨hlayout, decide_eq_true ⟨h192, h576, hcofactor⟩⟩
  exact Fn.gives_bind (Fn.need_gives hfields) <| Fn.gives_bind (Fn.get_gives s) <|
    Fn.gives_bind (Fn.need_gives (decide_eq_true hquota)) <| Fn.gives_bind (Fn.get!_gives_of_eq _ s hfree) (Fn.done_gives _ _ s)

section Named

variable {x : Slot} {s : State} (hlayout : layoutOk x.payload 12 [(8, 4)] = true)
include hlayout

theorem curveQueryFn_builtIn {b : Nat} (hbuiltIn : builtinBits (fld x.payload 4 4) = some b) :
    (curveQueryFn x).gives s { result := [2, 0, 100, 1] ++ beBytes 2 b ++ zeros 2 } s := by
  simp only [curveQueryFn, hbuiltIn]
  exact Fn.gives_bind (Fn.need_gives hlayout) (Fn.done_gives _ _ s)

variable {i : Nat} (hnamed : s.curveNamed x.tenant (fld x.payload 4 4) = some i)
  (hkept : ∀ d, (s.curve i).deletedAt = some d → folioReached x.admitTick d = false)
include hnamed hkept

theorem curveQueryFn_record (hown : builtinBits (fld x.payload 4 4) = none) :
    let c := s.curve i
    (curveQueryFn x).gives s
      { result := beBytes 1 (curveStateCode c.state) ++ beBytes 1 c.check ++ beBytes 1 c.progress ++ beBytes 1 c.h ++ beBytes 2 c.pbits ++
          zeros 2 } s := by
  simp only [curveQueryFn, hown]
  exact Fn.gives_bind (Fn.need_gives hlayout) <| Fn.gives_bind (Fn.curveRecord_gives hnamed hkept) (Fn.done_gives _ _ s)

theorem curveDeleteFn_gives : (curveDeleteFn x).gives s { effects := [.arm (.curveDelete i)] } s :=
  Fn.gives_bind (Fn.need_gives hlayout) <| Fn.gives_bind (Fn.curveRecord_gives hnamed hkept) (Fn.done_gives _ _ s)

end Named

/-- Settles O16: each function gives what its lemma above says. -/
theorem curveRecordFunctions : Obligations.CurveRecordFunctions := by
  intro s k x p t
  refine ⟨?load, fun hlayout => ⟨?builtIn, fun i hnamed hkept => ⟨?record, ?delete⟩⟩⟩
  case load =>
    intro i pbits h v c hmay hlayout h192 h576 h1 h4 hquota hfree
    exact congrArg Host.Outcome.next (serveFn_gives _ hmay (curveLoadFn_gives hlayout ⟨h192, h576⟩ ⟨h1, h4⟩ hquota hfree))
  case builtIn =>
    intro b hmay hbuiltIn
    exact congrArg Host.Outcome.next (serveFn_gives _ hmay (curveQueryFn_builtIn hlayout hbuiltIn))
  case record =>
    intro hmay hown
    exact congrArg Host.Outcome.next (serveFn_gives _ hmay (curveQueryFn_record hlayout hnamed hkept hown))
  case delete =>
    intro hmay
    exact congrArg Host.Outcome.next (serveFn_gives _ hmay (curveDeleteFn_gives hlayout hnamed hkept))

end Sys2Proof.Machine
end

section
/-! SUPPORT. Chapter 10 (family 10_big_number_engines), engines: what a read of a handle, an engine, a bank or a curve record returns
after a write, what leaves an engine's work alone, and on what these reads depend. -/

namespace Sys2Proof.Machine

open Sys2Proof

/-! ### Handles -/

/-- A handle reads from the cores' state alone. -/
theorem State.bnHandle_congr {s u : State} (h : u.cores = s.cores) (core g : Nat) : u.bnHandle core g = s.bnHandle core g := by
  simp only [State.bnHandle, h]

theorem State.bnHandle_putBnHandle_live (s : State) (core h : Nat) {x : BnHandle} (hx : x.state ≠ .free) :
    (s.putBnHandle core h x).bnHandle core h = x := by
  have hnew : x ≠ {} := fun he => hx (congrArg BnHandle.state he)
  have hread : ∀ t : List (Nat × BnHandle), tabGet {} (tabPut {} t h x) h = x := fun t => tabGet_put_new t h hnew
  have htable : tabPut {} (tabGet [] s.cores.bn core) h x ≠ [] := fun he => by
    have hnone := hread (tabGet [] s.cores.bn core)
    rw [he] at hnone
    exact hnew hnone.symm
  show tabGet {} (tabGet [] (tabMod [] s.cores.bn core fun t => tabPut {} t h x) core) h = x
  rw [tabMod, tabGet_put_new _ _ htable]
  exact hread _

/-! ### Engines and banks -/

/-- An engine reads from the engines' state alone. -/
theorem State.engine_congr {s u : State} (h : u.bn.engines = s.bn.engines) (e : Nat) : u.engine e = s.engine e := by
  simp only [State.engine, h]

/-- An engine has an open handle or a background context. -/
def BnEngine.inUse (x : BnEngine) : Prop := x.owner ≠ none ∨ x.background ≠ none

theorem BnEngine.inUse_of_owner {x : BnEngine} {p : Nat × Nat} (h : x.owner = some p) : x.inUse :=
  .inl (h ▸ Option.some_ne_none p)

theorem BnEngine.inUse_of_background {x : BnEngine} {p : Nat × Nat} (h : x.background = some p) : x.inUse :=
  .inr (h ▸ Option.some_ne_none p)

theorem BnEngine.inUse.ne_default {x : BnEngine} (h : x.inUse) : x ≠ {} := by
  rintro rfl
  exact h.elim (fun h => h rfl) (fun h => h rfl)

theorem State.engine_modEngine_inUse (s : State) (e : Nat) {f : BnEngine → BnEngine} (h : (f (s.engine e)).inUse) :
    (s.modEngine e f).engine e = f (s.engine e) :=
  tabGet_put_new _ _ h.ne_default

theorem State.engine_modBank_inUse {s : State} {e : Nat} (h : (s.engine e).inUse) (b : Nat) (f : Bank → Bank) :
    (s.modBank e b f).engine e = { s.engine e with banks := tabMod {} (s.engine e).banks b f } :=
  s.engine_modEngine_inUse e h

/-- A bank of an engine in use reads what was written into it, where that is not a clean bank. -/
theorem State.bank_modBank_inUse {s : State} {e : Nat} (h : (s.engine e).inUse) {b : Nat} {f : Bank → Bank}
    (hf : (f ((s.engine e).bank b)).state ≠ .clean) : ((s.modBank e b f).engine e).bank b = f ((s.engine e).bank b) := by
  rw [State.engine_modBank_inUse h]
  exact tabGet_put_new _ _ fun he => hf (congrArg Bank.state he)

/-- From `x` to `y` an engine keeps its handle, its background context and its banks. -/
structure BnEngine.SameWork (x y : BnEngine) : Prop where
  owner : y.owner = x.owner
  background : y.background = x.background
  slice : y.sliceRunning = x.sliceRunning
  banks : y.banks = x.banks

theorem BnEngine.SameWork.trans {x y z : BnEngine} (h : x.SameWork y) (h2 : y.SameWork z) : x.SameWork z :=
  ⟨h2.owner.trans h.owner, h2.background.trans h.background, h2.slice.trans h.slice, h2.banks.trans h.banks⟩

theorem BnEngine.SameWork.inUse {x y : BnEngine} (h : x.SameWork y) (hx : x.inUse) : y.inUse := by
  rwa [BnEngine.inUse, h.owner, h.background]

theorem BnEngine.SameWork.bank {x y : BnEngine} (h : x.SameWork y) (b : Nat) : y.bank b = x.bank b := by
  rw [BnEngine.bank, BnEngine.bank, h.banks]

theorem State.sameWork_of_engines {s u : State} (h : u.bn.engines = s.bn.engines) (e : Nat) : (s.engine e).SameWork (u.engine e) := by
  rw [State.engine_congr h]
  exact ⟨rfl, rfl, rfl, rfl⟩

theorem State.modEngine_sameWork {s : State} {e : Nat} {f : BnEngine → BnEngine} (hf : (s.engine e).SameWork (f (s.engine e)))
    (h : (s.engine e).inUse) : (s.engine e).SameWork ((s.modEngine e f).engine e) := by
  rwa [State.engine_modEngine_inUse s e (hf.inUse h)]

theorem State.bnCnt_sameWork {s : State} {e : Nat} (h : (s.engine e).inUse) (k n : Nat) :
    (s.engine e).SameWork ((s.bnCnt e k n).engine e) :=
  State.modEngine_sameWork ⟨rfl, rfl, rfl, rfl⟩ h

/-! ### Curve records -/

theorem State.curve_congr {s u : State} (h : u.bn.curves = s.bn.curves) (i : Nat) : u.curve i = s.curve i := by
  simp only [State.curve, h]

theorem State.curve_putCurve_live (s : State) (i : Nat) {c : CurveRec} (hc : c.state ≠ .free) : (s.putCurve i c).curve i = c :=
  tabGet_put_new _ _ fun he => hc (congrArg CurveRec.state he)

/-! ### What counters, events and flags leave alone -/

@[simp] theorem State.pmcBn_bn (s : State) (e ev n : Nat) : (s.pmcBn e ev n).bn = s.bn := State.pmcEvent_bn ..
@[simp] theorem State.pmcBn_cores (s : State) (e ev n : Nat) : (s.pmcBn e ev n).cores = s.cores := State.pmcEvent_cores ..

theorem State.unitError_bn (s : State) (unit kind : Nat) : (s.unitError unit kind).bn = s.bn := by
  rw [(s.unitError_faultsTouched unit kind).eq]

theorem State.taskFlag_squareOnly (s : State) (core i : Nat) (v : Bool) : s.SquareOnly (s.taskFlag core i v) := by
  unfold State.taskFlag
  split
  · exact .refl s
  · split
    · exact s.setFlag_squareOnly ..
    · exact s.modSlot_squareOnly ..

@[simp] theorem State.taskFlag_bn (s : State) (core i : Nat) (v : Bool) : (s.taskFlag core i v).bn = s.bn := by
  rw [(s.taskFlag_squareOnly core i v).1]

@[simp] theorem State.taskFlag_cores (s : State) (core i : Nat) (v : Bool) : (s.taskFlag core i v).cores = s.cores := by
  rw [(s.taskFlag_squareOnly core i v).1]

end Sys2Proof.Machine
end

section
/-! SUPPORT. Chapter 10 (family 10_big_number_engines), operations: the job that an engine runs, what running it comes to in each case,
the results of RSA, and the statement about them. -/

namespace Sys2Proof.Machine

open Sys2Proof

/-- The job on an engine is that of its open handle, which is running. -/
theorem State.jobOn_some {s : State} {e core h : Nat} {j : BnJob} (hjob : s.jobOn e = some (core, h, j)) :
    (s.engine e).owner = some (core, h) ∧ j.x.state = .running := by
  unfold State.jobOn at hjob
  split at hjob
  · cases hjob
  next c g howner =>
    dsimp only at hjob
    split at hjob
    next hruns =>
      cases hjob
      exact ⟨howner, hruns.1⟩
    · cases hjob

/-! ### The result of a validated job (R294, R299) -/

/-- What a validated job computes, with the random bytes that it draws. -/
def State.jobResult (s : State) (j : BnJob) : BnResult := bnCompute j (s.random (randomNeed j)).1

/-- The state in which a validated job's outcome stands in its handle and its result in its bank. -/
def State.leaveResult (s : State) (e core h : Nat) (j : BnJob) : State :=
  let t := (s.random (randomNeed j)).2
  let r := s.jobResult j
  let u := State.putBnHandle { t with rng := { t.rng with counters := bump t.rng.counters 4 (ceilDiv (randomNeed j) 16) } } core h
    { j.x with outcome := some r.status, need := r.need, invariant := r.invariant, iterations := min 16 r.need }
  u.modBank e j.x.bank (fun k => { k with mem := r.out.foldl (fun m p => memWrite m p.1 p.2) k.mem })

theorem State.leaveResult_handle (s : State) (e core h : Nat) {j : BnJob} (hrunning : j.x.state = .running) :
    let r := s.jobResult j
    (s.leaveResult e core h j).bnHandle core h =
      { j.x with outcome := some r.status, need := r.need, invariant := r.invariant, iterations := min 16 r.need } :=
  State.bnHandle_putBnHandle_live _ core h (by simp [hrunning])

theorem State.leaveResult_bank {s : State} {e : Nat} (core h : Nat) {j : BnJob} (huse : (s.engine e).inUse)
    (hbank : ((s.engine e).bank j.x.bank).state = .fgOpen) :
    ((s.leaveResult e core h j).engine e).bank j.x.bank = { (s.engine e).bank j.x.bank with
      mem := (s.jobResult j).out.foldl (fun m p => memWrite m p.1 p.2) ((s.engine e).bank j.x.bank).mem } := by
  refine State.bank_modBank_inUse huse ?_
  show ((s.engine e).bank j.x.bank).state ≠ .clean
  rw [hbank]
  decide

theorem State.leaveResult_frame (s : State) (e core h : Nat) (j : BnJob) :
    let u := s.leaveResult e core h j
    u = { s with bn := u.bn, cores := u.cores, rng := u.rng } := rfl

/-! ### Running an operation -/

theorem runOp_idle {s : State} {e : Nat} (ops : List Nat) (hjob : s.jobOn e = none) : runOp ops e s = s := by
  rw [runOp, hjob]

/-- A job of one of the operations: no random numbers for it, a check that fails, or its result (R293, R295, R296). -/
theorem runOp_job {s : State} {ops : List Nat} {e core h : Nat} {j : BnJob} (hjob : s.jobOn e = some (core, h, j))
    (hop : j.x.op ∈ ops) :
    runOp ops e s =
      if s.rng.state = .failed ∧ opUsesRandom j.x.op = true then
        s.putBnHandle core h { j.x with outcome := some stRandomUnavailable, refusedInput := true }
      else if bnValidate j ≠ stOk then s.putBnHandle core h { j.x with outcome := some (bnValidate j), refusedInput := true }
      else s.leaveResult e core h j := by
  have hlisted : ¬ ¬ ops.contains j.x.op = true := not_not.2 (List.contains_iff_mem.2 hop)
  rw [runOp, hjob]
  exact if_neg hlisted

theorem bnCompute_rsaPub {j : BnJob} (hop : j.x.op = 1) (rnd : Bytes) :
    bnCompute j rnd = { out := [(0x400, beBytes 256 (powMod (j.num 0x200 256) j.x.e (j.num 0 256)))] } := by
  simp only [bnCompute, hop, rsaLen]
  rfl

/-- The CRT result stands where raising it to a public exponent gives the input back (R295). -/
theorem bnCompute_rsaPriv {j : BnJob} (hop : j.x.op = 5) (rnd : Bytes)
    (hback : powMod ((rsaKeyOf j.key).crt (j.num 0x200 256)) 65537 (rsaKeyOf j.key).n = j.num 0x200 256) :
    bnCompute j rnd = { out := [(0x400, beBytes 256 ((rsaKeyOf j.key).crt (j.num 0x200 256)))] } := by
  have hlen : rsaLen 5 = 256 := rfl
  simp only [bnCompute, hop, hlen]
  exact if_pos (.inl hback)

/-- The operation commands, with the OPs that each runs. -/
def bnOperationsOf (e : Nat) : List (Instr × List Nat) :=
  [(.rsaPub e, [1, 2, 3]), (.rsaPriv e, [5, 6, 7]), (.mlKemKeygen e, [0x20]), (.bnMlKemEncaps e, [0x21]), (.bnMlKemDecaps e, [0x22]),
    (.mlDsaKeygen e, [0x28]), (.bnMlDsaSign e, [0x29]), (.bnMlDsaVerify e, [0x2A]), (.ecdsaSign e, [0x10]), (.ecdsaVerify e, [0x11]),
    (.ecdh e, [0x12]), (.ecKeygen e, [0x13]), (.ecPointCheck e, [0x14])]

theorem exec_bnOperation (s : State) {e : Nat} {p : Instr × List Nat} (hp : p ∈ bnOperationsOf e) :
    exec p.1 s = .next (runOp p.2 e s) := by
  revert p
  simp only [bnOperationsOf, List.forall_mem_cons]
  exact ⟨rfl, rfl, rfl, rfl, rfl, rfl, rfl, rfl, rfl, rfl, rfl, rfl, rfl, List.forall_mem_nil _⟩

/-- Settles O37: the operation of each command runs the job, by the three cases above. -/
theorem bnOperations : Obligations.BnOperations := by
  intro s e p hp
  rw [exec_bnOperation s hp]
  refine ⟨fun hjob => congrArg Host.Outcome.next (runOp_idle p.2 hjob), fun core h j hjob hop hbank => ?_⟩
  obtain ⟨howner, hrunning⟩ := State.jobOn_some hjob
  refine ⟨?unavailable, ?refused, ?computed⟩
  case unavailable =>
    intro hfailed huses
    rw [runOp_job hjob hop, if_pos ⟨hfailed, huses⟩]
  case refused =>
    intro hserves hinvalid
    rw [runOp_job hjob hop, if_neg hserves, if_pos hinvalid]
  case computed =>
    intro hserves hvalid r
    rw [runOp_job hjob hop, if_neg hserves, if_neg (not_not.2 hvalid)]
    have hhandle := s.leaveResult_handle e core h hrunning
    exact ⟨s.leaveResult e core h j, rfl, congrArg BnHandle.outcome hhandle, by rw [hhandle],
      congrArg Bank.mem (State.leaveResult_bank core h (BnEngine.inUse_of_owner howner) hbank), s.leaveResult_frame e core h j,
      fun hpub => bnCompute_rsaPub hpub _, fun hpriv => bnCompute_rsaPriv hpriv _⟩

end Sys2Proof.Machine
end

section
/-! SUPPORT. Chapter 10 (family 10_big_number_engines), events: iterations, completions, bank clears, slices and curve validation, each by
its cases, and the statement about them. -/

namespace Sys2Proof.Machine

open Sys2Proof

/-! ### ML-DSA iterations (R299) -/

theorem drawReserve_bn (s : State) (d left : Nat) : (drawReserve s d left).bn = { s.bn with drawn := s.bn.drawn + d } := by
  unfold drawReserve
  extract_lets s1
  split
  · rw [State.raise_bn]
  · rfl

theorem drawReserve_cores (s : State) (d left : Nat) : (drawReserve s d left).cores = s.cores := by
  unfold drawReserve
  extract_lets s1
  split
  · rw [State.raise_cores]
  · rfl

section Iteration

variable {s : State} {e core h k n : Nat} {sl : Slot} (howner : (s.engine e).owner = some (core, h))
  (htask : s.taskOf core = some (k, sl, n)) (hrunning : (s.bnHandle core h).state = .running) (hop : (s.bnHandle core h).op = 0x29)
  (hcomputed : (s.bnHandle core h).outcome.isSome = true) (haccepted : (s.bnHandle core h).refusedInput = false)
  (hmore : (s.bnHandle core h).iterations < (s.bnHandle core h).need)
include howner htask hrunning hop hcomputed haccepted hmore

/-- An iteration that is still to come, with its reserve and its time or without one of them. -/
theorem mlDsaIterationOp_due :
    let x := s.bnHandle core h
    let left := s.reserveLeft s.folio.now - s.bn.drawn
    mlDsaIterationOp s e =
      if left < 3200 ∨ s.toMissPoint sl < 23600 + 12800 then abortJob (countRetry s) core h stRetry
      else drawReserve (((s.putBnHandle core h { x with iterations := x.iterations + 1 }).bnCnt e 7 1).pmcBn e 0x14 1)
        (min left 23600) left := by
  have hdue : ¬ ((s.bnHandle core h).state ≠ .running ∨ (s.bnHandle core h).op ≠ 0x29 ∨ (s.bnHandle core h).outcome = none ∨
      (s.bnHandle core h).refusedInput = true ∨ (s.bnHandle core h).need ≤ (s.bnHandle core h).iterations) := by
    simp [hrunning, hop, Option.isSome_iff_ne_none.1 hcomputed, haccepted, hmore]
  rw [mlDsaIterationOp, howner]
  dsimp only
  rw [htask]
  exact if_neg hdue

theorem mlDsaIterationOp_draws (hreserve : 3200 ≤ s.reserveLeft s.folio.now - s.bn.drawn) (htime : 23600 + 12800 ≤ s.toMissPoint sl) :
    let x := s.bnHandle core h
    let u := mlDsaIterationOp s e
    u.bn.drawn = s.bn.drawn + min (s.reserveLeft s.folio.now - s.bn.drawn) 23600 ∧
      u.bnHandle core h = { x with iterations := x.iterations + 1 } := by
  have hgoes : ¬ (s.reserveLeft s.folio.now - s.bn.drawn < 3200 ∨ s.toMissPoint sl < 23600 + 12800) :=
    not_or.2 ⟨Nat.not_lt.2 hreserve, not_lt.2 htime⟩
  extract_lets x u
  have hu : u = _ := (mlDsaIterationOp_due howner htask hrunning hop hcomputed haccepted hmore).trans (if_neg hgoes)
  rw [hu]
  constructor
  · rw [drawReserve_bn, State.pmcBn_bn]
    rfl
  · rw [State.bnHandle_congr (drawReserve_cores ..), State.bnHandle_congr (State.pmcBn_cores ..)]
    exact State.bnHandle_putBnHandle_live s core h (by simp [hrunning])

end Iteration

/-! ### Completion (R290, R296) -/

theorem finishHandle_bn (s : State) (core h st : Nat) : (finishHandle s core h st).bn = s.bn :=
  State.taskFlag_bn ..

theorem finishHandle_handle (s : State) (core h st : Nat) :
    (finishHandle s core h st).bnHandle core h =
      { s.bnHandle core h with state := .done, status := st, outcome := none, abortStatus := none } := by
  unfold finishHandle
  extract_lets x s1
  rw [State.bnHandle_congr (State.taskFlag_cores ..)]
  exact State.bnHandle_putBnHandle_live s core h BnHandleState.noConfusion

section Completion

variable {s : State} {core h : Nat} (st cyc inv iter : Nat) (refused : Bool)

theorem completeHalf_handle :
    let y := (completeHalf s core h st cyc inv iter refused).bnHandle core h
    y.state = .done ∧ y.status = st ∧ y.outcome = none := by
  unfold completeHalf
  extract_lets x e note s1 s2 s3 s4 s5 y
  rw [show y = _ from finishHandle_handle ..]
  exact ⟨rfl, rfl, rfl⟩

/-- A completed bank holds its result with OK alone, and no key. -/
theorem completeHalf_bank {e : Nat} (hengine : (s.bnHandle core h).engine = e) (huse : (s.engine e).inUse) :
    ((completeHalf s core h st cyc inv iter refused).engine e).bank (s.bnHandle core h).bank =
      { state := .fgDone, key := [], mem := if st = stOk then ((s.engine e).bank (s.bnHandle core h).bank).mem else [] } := by
  subst hengine
  unfold completeHalf
  extract_lets x e note s1 s2 s3 s4 s5
  have hnoted : (s.engine e).SameWork (s1.engine e) := by
    refine State.modEngine_sameWork ?_ huse
    dsimp only [note]
    split <;> exact ⟨rfl, rfl, rfl, rfl⟩
  have huse1 : (s1.engine e).inUse := hnoted.inUse huse
  have hbank : (s2.engine e).bank x.bank =
      { state := .fgDone, key := [], mem := if st = stOk then ((s.engine e).bank x.bank).mem else [] } := by
    rw [State.bank_modBank_inUse huse1 BankState.noConfusion, hnoted.bank]
  have huse2 : (s2.engine e).inUse := by
    rw [State.engine_modBank_inUse huse1]
    exact huse1
  have hcycles : (s2.engine e).SameWork (s3.engine e) :=
    (State.bnCnt_sameWork huse2 1 cyc).trans (State.sameWork_of_engines (by rw [State.pmcBn_bn]) e)
  have hrefused : (s3.engine e).SameWork (s4.engine e) := by
    dsimp only [s4]
    split
    · exact State.bnCnt_sameWork (hcycles.inUse huse2) 3 1
    · exact State.sameWork_of_engines rfl e
  have huse4 : (s4.engine e).inUse := hrefused.inUse (hcycles.inUse huse2)
  have hmarked : (s4.engine e).SameWork (s5.engine e) := by
    dsimp only [s5]
    split
    · have hcounted := State.bnCnt_sameWork huse4 5 1
      refine hcounted.trans <| (State.modEngine_sameWork ?_ (hcounted.inUse huse4)).trans
        (State.sameWork_of_engines (by rw [State.unitError_bn]) e)
      exact ⟨rfl, rfl, rfl, rfl⟩
    · exact State.sameWork_of_engines rfl e
  have hwork := (hcycles.trans hrefused).trans hmarked
  rw [← hbank]
  refine BnEngine.SameWork.bank (hwork.trans (State.sameWork_of_engines ?_ e)) x.bank
  rw [finishHandle_bn]
  rfl

end Completion

/-- The event of a failed invariant leaves handles and engines alone. -/
theorem State.ite_bnEvent_keeps (s : State) (c : Prop) [Decidable c] (b : Nat) :
    (if c then s.bnEvent b else s).cores = s.cores ∧ (if c then s.bnEvent b else s).bn.engines = s.bn.engines := by
  split <;> exact ⟨rfl, rfl⟩

section Single

variable {s : State} {e core h st : Nat} (howner : (s.engine e).owner = some (core, h))
  (houtcome : (s.bnHandle core h).outcome = some st) (hrunning : (s.bnHandle core h).state = .running)
  (hkept : (s.bnHandle core h).abortStatus = none) (hop : (s.bnHandle core h).op ≠ 0x29)
  (hsingle : (s.bnHandle core h).paired = false)
include howner houtcome hrunning hkept hop hsingle

/-- A computed outcome of a handle that is no half of a pair and has no iterations to come is released (R290). -/
theorem bnCompleteOp_single :
    let x := s.bnHandle core h
    bnCompleteOp s e = completeHalf (if st = stInvariantFailed then s.bnEvent 0 else s) core h st (s.jobCycles core x) x.invariant
      x.iterations x.refusedInput := by
  have hends : ¬ ((s.bnHandle core h).state ≠ .running ∨ (s.bnHandle core h).abortStatus.isSome = true ∨
      ((s.bnHandle core h).op = 0x29 ∧ ¬ (s.bnHandle core h).refusedInput = true ∧
        (s.bnHandle core h).iterations < (s.bnHandle core h).need)) := by
    simp [hrunning, hkept, hop]
  have hhalves : halves (s.bnHandle core h) h = [h] := by
    rw [halves, hsingle]
    rfl
  rw [bnCompleteOp, howner]
  dsimp only
  rw [houtcome]
  refine (if_neg hends).trans ?_
  rw [hhalves]
  rfl

theorem bnCompleteOp_done (hengine : (s.bnHandle core h).engine = e) :
    let x := s.bnHandle core h
    let u := bnCompleteOp s e
    ((u.bnHandle core h).state = .done ∧ (u.bnHandle core h).status = st ∧ (u.bnHandle core h).outcome = none) ∧
      (u.engine e).bank x.bank =
        { state := .fgDone, key := [], mem := if st = stOk then ((s.engine e).bank x.bank).mem else [] } := by
  obtain ⟨hcores, hengines⟩ := s.ite_bnEvent_keeps (st = stInvariantFailed) 0
  rw [bnCompleteOp_single howner houtcome hrunning hkept hop hsingle]
  generalize (if st = stInvariantFailed then s.bnEvent 0 else s) = t at hcores hengines
  have hhandle := State.bnHandle_congr hcores core h
  have hsame := State.engine_congr hengines e
  have huse : (t.engine e).inUse := hsame ▸ BnEngine.inUse_of_owner howner
  refine ⟨completeHalf_handle .., ?_⟩
  rw [← hhandle, ← hsame]
  exact completeHalf_bank _ _ _ _ _ (hhandle ▸ hengine) huse

end Single

/-! ### Bank clears (R297) -/

theorem bankClearOp_idle {s : State} {e b : Nat} (h : ((s.engine e).bank b).state ≠ .clearing) : bankClearOp s e b = s :=
  if_pos h

theorem bankClearOp_unowned {s : State} {e b : Nat} (h : ((s.engine e).bank b).state = .clearing) (howner : (s.engine e).owner = none) :
    bankClearOp s e b = s.modBank e b (fun _ => {}) := by
  refine (if_neg (not_not.2 h)).trans ?_
  dsimp only
  rw [howner]

/-! ### Slices (R292) -/

theorem sliceEndOp_idle {s : State} {e : Nat} (progress : Nat) (h : (s.engine e).background = none) : sliceEndOp s e progress = s := by
  unfold sliceEndOp
  dsimp only
  rw [h]

/-- The state in which a slice's progress and its cycles are counted. -/
def State.sliceCounted (s : State) (e r progress : Nat) : State :=
  ((s.putCurve r { s.curve r with progress := min 100 progress }).bnCnt e 2 3200).pmcBn e 0x12 3200

theorem State.sliceCounted_bn (s : State) (e r progress : Nat) :
    (s.sliceCounted e r progress).bn = ((s.putCurve r { s.curve r with progress := min 100 progress }).bnCnt e 2 3200).bn :=
  State.pmcBn_bn ..

theorem State.sliceCounted_curve {s : State} {r : Nat} (e progress : Nat) (h : (s.curve r).state = .validating) :
    (s.sliceCounted e r progress).curve r = { s.curve r with progress := min 100 progress } := by
  rw [State.curve_congr (congrArg BnState.curves (s.sliceCounted_bn e r progress))]
  exact s.curve_putCurve_live r (by simp [h])

theorem State.sliceCounted_sameWork {s : State} {e : Nat} (r progress : Nat) (huse : (s.engine e).inUse) :
    (s.engine e).SameWork ((s.sliceCounted e r progress).engine e) := by
  rw [State.engine_congr (congrArg BnState.engines (s.sliceCounted_bn e r progress))]
  exact State.bnCnt_sameWork (s := s.putCurve r _) huse 2 3200

/-- The state in which the context of engine `e` is suspended for an open handle, and the suspension counted. -/
def State.sliceSuspended (s : State) (e : Nat) : State :=
  (s.modEngine e (fun y => { y with sliceRunning := false })).bnCnt e 6 1

theorem State.sliceSuspended_stops {s : State} {e : Nat} (huse : (s.engine e).inUse) :
    ((s.sliceSuspended e).engine e).sliceRunning = false := by
  have hstopped : (s.modEngine e fun y => { y with sliceRunning := false }).engine e = { s.engine e with sliceRunning := false } :=
    State.engine_modEngine_inUse s e huse
  rw [State.sliceSuspended, (State.bnCnt_sameWork (by rw [hstopped]; exact huse) 6 1).slice, hstopped]

section Slice

variable {s : State} {e r b : Nat} (progress : Nat) (hbackground : (s.engine e).background = some (r, b))
  (hslice : (s.engine e).sliceRunning = true)
include hbackground hslice

theorem sliceEndOp_unowned (howner : (s.engine e).owner = none) : sliceEndOp s e progress = s.sliceCounted e r progress := by
  unfold sliceEndOp
  extract_lets x
  rw [hbackground]
  refine (if_neg (not_not.2 hslice)).trans ?_
  extract_lets s1 s2
  rw [howner]
  rfl

/-- With a handle open the context is suspended, whether or not the handle's job starts now. -/
theorem sliceEndOp_owned {core h : Nat} (howner : (s.engine e).owner = some (core, h)) :
    (sliceEndOp s e progress).bn = ((s.sliceCounted e r progress).sliceSuspended e).bn := by
  unfold sliceEndOp
  extract_lets x
  rw [hbackground]
  refine (congrArg State.bn (if_neg (not_not.2 hslice))).trans ?_
  extract_lets s1 s2
  rw [howner]
  dsimp -zeta only
  extract_lets s3 main y other
  split <;> rfl

end Slice

/-! ### Curve validation (R302) -/

theorem State.bases_bn (s : State) (n : Nat) : (s.bases n).2.bn = s.bn := by
  induction n generalizing s with
  | zero => rfl
  | succ n ih => exact (ih (s.random 72).2).trans (s.random_bn 72)

/-- The next validation takes a ready engine, and nothing else of the engines' state or the curve table changes. -/
theorem startValidation_engines (s : State) :
    ∃ engines pwr, startValidation s = { s with bn := { s.bn with engines := engines }, pwr := pwr } := by
  unfold startValidation
  split
  · exact ⟨_, _, rfl⟩
  · split
    · exact ⟨_, _, rfl⟩
    · split
      · exact ⟨_, _, rfl⟩
      · exact ⟨_, _, rfl⟩

theorem endBackground_tables (s : State) (e b : Nat) :
    (endBackground s e b).bn.curves = s.bn.curves ∧ (endBackground s e b).bn.queue = s.bn.queue := by
  unfold endBackground
  obtain ⟨engines, pwr, h⟩ := startValidation_engines
    ((clearBank s e b).modEngine e fun x => { x with background := none, sliceRunning := false })
  rw [h]
  exact ⟨rfl, rfl⟩

/-- A curve record with the outcome `k` of its validation: the first check that fails, 0 when all pass. -/
def CurveRec.judged (c : CurveRec) (k : Nat) : CurveRec :=
  if k = 0 then { c with passed := true, progress := 100 } else { c with state := .rejected, check := k }

theorem CurveRec.judged_live {c : CurveRec} (h : c.state = .validating) (k : Nat) : (c.judged k).state ≠ .free := by
  unfold CurveRec.judged
  split
  · simp [h]
  · exact CurveState.noConfusion

theorem validationOp_idle {s : State} {e : Nat} (h : (s.engine e).background = none) : validationOp s e = s := by
  rw [validationOp, h]

/-- The state in which record `r` has the outcome `k` of its validation and waits for it no more. -/
def State.curveJudged (s : State) (r k : Nat) : State :=
  let t := s.putCurve r ((s.curve r).judged k)
  let u := { t with bn := { t.bn with queue := t.bn.queue.filter (· != r) } }
  if k = 0 then u else u.bnEvent 4

theorem State.curveJudged_tables (s : State) (r k : Nat) :
    (s.curveJudged r k).bn.curves = (s.putCurve r ((s.curve r).judged k)).bn.curves ∧
      (s.curveJudged r k).bn.queue = s.bn.queue.filter (· != r) := by
  unfold State.curveJudged
  dsimp only
  split <;> exact ⟨rfl, rfl⟩

theorem validationOp_judges {s : State} {e r b : Nat} (hbackground : (s.engine e).background = some (r, b))
    (hslice : (s.engine e).sliceRunning = true) :
    validationOp s e = endBackground ((s.bases 80).2.curveJudged r (curveCheck (s.curve r) (s.bases 80).1)) e b := by
  rw [← State.curve_congr (congrArg BnState.curves (s.bases_bn 80)) r, validationOp, hbackground]
  exact if_neg (not_not.2 hslice)

theorem validationOp_tables {s : State} {e r b : Nat} (hbackground : (s.engine e).background = some (r, b))
    (hslice : (s.engine e).sliceRunning = true) (hvalidating : (s.curve r).state = .validating) :
    let u := validationOp s e
    u.curve r = (s.curve r).judged (curveCheck (s.curve r) (s.bases 80).1) ∧ r ∉ u.bn.queue := by
  have hcurve : (s.bases 80).2.curve r = s.curve r := State.curve_congr (congrArg BnState.curves (s.bases_bn 80)) r
  rw [validationOp_judges hbackground hslice]
  generalize curveCheck (s.curve r) (s.bases 80).1 = k
  obtain ⟨hcurves, hqueue⟩ := endBackground_tables ((s.bases 80).2.curveJudged r k) e b
  obtain ⟨hjudged, hfiltered⟩ := (s.bases 80).2.curveJudged_tables r k
  rw [← hcurve] at hvalidating ⊢
  constructor
  · rw [State.curve_congr (hcurves.trans hjudged)]
    exact State.curve_putCurve_live _ r (CurveRec.judged_live hvalidating k)
  · rw [hqueue, hfiltered]
    simp

/-- Settles O38: each event by its lemmas above. -/
theorem bnEvents : Obligations.BnEvents := by
  intro s e
  refine ⟨?iteration, ?complete, ?clear, ?slice, ?idle, ?validated⟩
  case iteration =>
    intro core h k n sl howner htask x left hrunning hop hcomputed haccepted hmore
    refine ⟨fun hreserve htime => ?_, fun hwants => ?_⟩
    · obtain ⟨hdrawn, hhandle⟩ := mlDsaIterationOp_draws howner htask hrunning hop hcomputed haccepted hmore hreserve htime
      exact ⟨_, rfl, hdrawn, hhandle⟩
    · exact congrArg Host.Outcome.next
        ((mlDsaIterationOp_due howner htask hrunning hop hcomputed haccepted hmore).trans (if_pos hwants))
  case complete =>
    intro core h st howner x houtcome hrunning hkept hop hsingle hengine
    obtain ⟨⟨hdone, hstatus, hreleased⟩, hbank⟩ := bnCompleteOp_done howner houtcome hrunning hkept hop hsingle hengine
    exact ⟨_, rfl, hdone, hstatus, hreleased, congrArg Bank.state hbank, congrArg Bank.key hbank, congrArg Bank.mem hbank⟩
  case clear =>
    exact fun b => ⟨fun hclearing howner => congrArg Host.Outcome.next (bankClearOp_unowned hclearing howner),
      fun hother => congrArg Host.Outcome.next (bankClearOp_idle hother)⟩
  case slice =>
    intro progress r b hbackground hslice hvalidating
    have huse : (s.engine e).inUse := BnEngine.inUse_of_background hbackground
    have hcounted := State.sliceCounted_sameWork r progress huse
    refine ⟨_, rfl, fun howner => ?_, fun core h howner => ?_⟩
    · rw [sliceEndOp_unowned progress hbackground hslice howner]
      exact ⟨State.sliceCounted_curve e progress hvalidating, hcounted.slice.trans hslice⟩
    · rw [State.engine_congr (congrArg BnState.engines (sliceEndOp_owned progress hbackground hslice howner))]
      exact State.sliceSuspended_stops (hcounted.inUse huse)
  case idle =>
    exact fun progress hnone => ⟨congrArg Host.Outcome.next (sliceEndOp_idle progress hnone),
      congrArg Host.Outcome.next (validationOp_idle hnone)⟩
  case validated =>
    intro r b hbackground hslice hvalidating q j
    obtain ⟨hjudged, hqueue⟩ := validationOp_tables hbackground hslice hvalidating
    refine ⟨_, rfl, fun hpassed => ?_, fun hfailed => ?_, hqueue⟩
    · rw [hjudged, CurveRec.judged, if_pos hpassed]
      exact ⟨rfl, rfl⟩
    · rw [hjudged, CurveRec.judged, if_neg hfailed]
      exact ⟨rfl, rfl⟩

end Sys2Proof.Machine
end

section
/-! SUPPORT. Chapter 11 (family 11_bulk_cipher_engines), stream functions: what submitting an operation to the engines comes to, the
submission that each function ends in, and the statement about them. -/

namespace Sys2Proof.Machine

open Sys2Proof

/-! ### A submission and its answer (R320, R321) -/

/-- The state in which every core of the request of slot `k` shows the engines' answer `st` in BKSTAT. -/
def State.submissionShown (t : State) (k st : Nat) : State :=
  (t.coresOf k).foldl (fun t c => t.putBulkStat c { status := st, accepted := st = stOk, submitted := true }) t

theorem runFnOn_submit (k : Nat) (op : BulkOp) (kin kout : Handle) (t : State) :
    let a := bulkAnswer t k op kin kout
    runFnOn (Fn.submit k op kin kout) t = (if a.1 = stOk then {} else { status := a.1 }, a.2.submissionShown k a.1) := by
  intro a
  have hanswer : runFnOn (Fn.submit k op kin kout) t =
      runFnOn (Fn.ok a.1 >>= fun _ => Fn.done []) (a.2.submissionShown k a.1) :=
    (runFnOn_act _ _ t).trans (runFnOn_change _ _ a.2)
  rw [hanswer, runFnOn_ok, runFnOn_done]
  split_ifs <;> rfl

/-- A command that answers `r` ends the request of slot `k` as the engines' answer `a` says: with OK where they accept the operation,
and with the status of the refusal where they do not. -/
def State.EndsWithAnswer (s : State) (k : Nat) (a : Nat × State) (r : Host.Outcome State Fault Refusal) : Prop :=
  (a.1 = stOk → r = .next (s.ended k {} (a.2.submissionShown k stOk))) ∧
  (a.1 ≠ stOk → r = .next (s.ended k { status := a.1 } (a.2.submissionShown k a.1)))

/-- A function that comes down to a submission ends with the engines' answer to it. -/
theorem serveFn_submits {codes : Nat → Bool} {k : Nat} {s t : State} {op : BulkOp} {kin kout : Handle} (f : Nat → Slot → Fn FnRes)
    (hmay : s.mayCompute k codes)
    (hf : runFnOn (f k (s.asked k)) (s.computing k) = runFnOn (Fn.submit k op kin kout) t) :
    s.EndsWithAnswer k (bulkAnswer t k op kin kout) (.next (serveFn codes f k s)) := by
  rw [serveFn_runsOn f hmay hf, State.endedBy, runFnOn_submit]
  constructor
  · intro haccepted
    rw [if_pos haccepted, haccepted]
  · intro hrefused
    rw [if_neg hrefused]

/-! ### The four functions -/

/-- A value that is a given one, or that a step gives, heads the same rest. -/
theorem runFnOn_ite_pure_bind {α : Type} {c : Prop} [Decidable c] {f : Fn α} {a b : α} {s t : State} (g : α → Fn FnRes)
    (h : if c then a = b ∧ t = s else f.gives s a t) :
    runFnOn (if c then pure b >>= g else f >>= g) s = runFnOn (g a) t := by
  by_cases hc : c
  · rw [if_pos hc] at h ⊢
    obtain ⟨rfl, rfl⟩ := h
    exact runFnOn_bind g (Fn.pure_gives a t)
  · rw [if_neg hc] at h ⊢
    exact runFnOn_bind g h

/-- A side without a mode has no key, and the key of a side in use resolves to its role (R310, R314). -/
theorem runFnOn_streamOpen (k : Nat) {x : Slot} {kin kout : Handle} {s s1 s2 : State} (hlayout : openLayoutOk x.payload = true)
    (hin : if (openFields x.payload).modeIn = 0 then kin = {} ∧ s1 = s
      else (Fn.resolveRole x 4 (sideRole (openFields x.payload).modeIn false)).gives s kin s1)
    (hout : if (openFields x.payload).modeOut = 0 then kout = {} ∧ s2 = s1
      else (Fn.resolveRole x 12 (sideRole (openFields x.payload).modeOut true)).gives s1 kout s2) :
    runFnOn (streamOpenFn k x) s = runFnOn (Fn.submit k .openOp kin kout) s2 :=
  (runFnOn_need_pos hlayout _ _ s).trans <| (runFnOn_ite_pure_bind _ hin).trans (runFnOn_ite_pure_bind _ hout)

theorem runFnOn_streamSegment (k : Nat) {x : Slot} (s : State) (hprologue : prologueOk x.payload 0 = true) :
    runFnOn (streamSegmentFn k x) s = runFnOn (Fn.submit k .segment {} {}) s :=
  runFnOn_need_pos hprologue _ _ s

theorem runFnOn_streamFinal (k : Nat) {x : Slot} (s : State) (hprologue : prologueOk x.payload 0 = true)
    (hlen : 20 ≤ x.payload.length) : runFnOn (streamFinalFn k x) s = runFnOn (Fn.submit k .final {} {}) s :=
  runFnOn_need_pos (Bool.and_eq_true_iff.2 ⟨hprologue, decide_eq_true hlen⟩) _ _ s

theorem runFnOn_streamAbort (k : Nat) {x : Slot} (s : State) (hlayout : layoutOk x.payload 4 [] = true) :
    runFnOn (streamAbortFn k x) s = runFnOn (Fn.submit k .abort {} {}) s :=
  runFnOn_need_pos hlayout _ _ s

/-- Settles O15: each function passes its checks and ends with the engines' answer to its submission; the codes for streams with a TDES
side compute the same functions. -/
theorem streamFunctions : Obligations.StreamFunctions := by
  intro s k x p shown answers
  refine ⟨?opened, fun hprologue => ⟨?segment, ?segmentTdes, fun hlen => ⟨?final, ?finalTdes⟩⟩, ?abort⟩
  case opened =>
    intro kin kout s1 s2 f hmay hlayout hin hout
    exact serveFn_submits streamOpenFn hmay (runFnOn_streamOpen k hlayout hin hout)
  case segment => exact fun hmay => serveFn_submits streamSegmentFn hmay (runFnOn_streamSegment k _ hprologue)
  case segmentTdes => exact fun hmay => serveFn_submits streamSegmentFn hmay (runFnOn_streamSegment k _ hprologue)
  case final => exact fun hmay => serveFn_submits streamFinalFn hmay (runFnOn_streamFinal k _ hprologue hlen)
  case finalTdes => exact fun hmay => serveFn_submits streamFinalFn hmay (runFnOn_streamFinal k _ hprologue hlen)
  case abort => exact fun hmay hlayout => serveFn_submits streamAbortFn hmay (runFnOn_streamAbort k _ hlayout)

end Sys2Proof.Machine
end

section
/-! SUPPORT. Chapter 12 (family 12_random_numbers), random ports: what RREQ and RTEN of a core that runs a task come to, and the
statement about them. -/

namespace Sys2Proof.Machine

open Sys2Proof

/-- The draw `d` of a core is pending, and its task's RANDOM_READY is clear (R339). -/
def State.drawTaken (s : State) (core : Nat) (d : Bool × Nat × Nat) : State :=
  (s.putRandPort core { s.randPort core with draw := some d }).taskFlag core flagRandomReady false

section Ports

variable {s : State} {core k n : Nat} {x : Slot} (htask : s.taskOf core = some (k, x, n))
include htask

theorem rreqOp_task (value : Nat) :
    let m := bitsOf value 3 0
    rreqOp s core value =
      if m < 1 ∨ 8 < m ∨ (s.randPort core).draw.isSome = true then none else some (s.drawTaken core (false, m, 0)) := by
  have hbits : bitsOf value 3 0 = value % 16 := by simp [bitsOf]
  rw [rreqOp, htask]
  simp only [hbits, Nat.lt_one_iff]
  rfl

theorem rtenOp_task (value : Nat) :
    let m := bitsOf value 8 0
    let off := bitsOf value 31 16
    rtenOp s core value =
      if m < 1 ∨ 256 < m ∨ off % 16 ≠ 0 ∨ x.windowSize < off + 16 * m ∨ x.func / 256 ≠ 0x09 ∨ (s.randPort core).draw.isSome = true then
        none
      else some (s.drawTaken core (true, m, off)) := by
  have hbits : bitsOf value 8 0 = value % 512 := by simp [bitsOf]
  have hgroup : drawsTenant x.func = true ↔ x.func / 256 = 9 := beq_iff_eq
  rw [rtenOp, htask]
  simp only [hbits, hgroup, Nat.lt_one_iff]
  rfl

end Ports

/-- Settles O35: the faults are the cases that RREQ and RTEN refuse, and the submissions taken are all others. -/
theorem randomSubmissions : Obligations.RandomSubmissions := by
  intro s core k n x v htask busy fault taken
  refine ⟨⟨fun hfault => ?rreqFault, fun h1 h8 hidle => ?rreqTaken⟩,
    ⟨fun hfault => ?rtenFault, fun h1 h256 halign hfits hgroup hidle => ?rtenTaken⟩⟩
  case rreqFault => exact congrArg (orFault · s core 8 0x200) ((rreqOp_task htask _).trans (if_pos hfault))
  case rtenFault => exact congrArg (orFault · s core 8 0x208) ((rtenOp_task htask _).trans (if_pos hfault))
  case rreqTaken =>
    refine congrArg (orFault · s core 8 0x200) ((rreqOp_task htask _).trans (if_neg ?_))
    rintro (hlow | hhigh | hbusy)
    · exact hlow.not_ge h1
    · exact hhigh.not_ge h8
    · exact Bool.false_ne_true (hidle.symm.trans hbusy)
  case rtenTaken =>
    refine congrArg (orFault · s core 8 0x208) ((rtenOp_task htask _).trans (if_neg ?_))
    rintro (hlow | hhigh | hodd | hpast | hother | hbusy)
    · exact hlow.not_ge h1
    · exact hhigh.not_ge h256
    · exact hodd halign
    · exact hpast.not_ge hfits
    · exact hother hgroup
    · exact Bool.false_ne_true (hidle.symm.trans hbusy)

end Sys2Proof.Machine
end

section
/-! SUPPORT. Chapter 12 (family 12_random_numbers), sources: what a source and a DRBG read as after each operation of the
generator, what the loss of a source leaves alone, and each command of a source by its cases. -/

namespace Sys2Proof.Machine

open Sys2Proof

/-! ### Reads of a source and of a DRBG -/

/-- A source reads from the sources' table alone. -/
theorem State.source_congr {s u : State} (h : u.rng.sources = s.rng.sources) (k : Nat) : u.source k = s.source k := by
  simp only [State.source, h]

/-- A DRBG reads from the DRBGs' table alone. -/
theorem State.drbg_congr {s u : State} (h : u.rng.drbgs = s.rng.drbgs) (i : Nat) : u.drbg i = s.drbg i := by
  simp only [State.drbg, h]

theorem State.source_putSource_same {s : State} (hwf : tabWf {} s.rng.sources = true) (k : Nat) (x : Source) :
    (s.putSource k x).source k = x :=
  tabGet_put_same hwf k x

theorem State.sources_wf_putSource {s : State} (hwf : tabWf {} s.rng.sources = true) (k : Nat) (x : Source) :
    tabWf {} (s.putSource k x).rng.sources = true :=
  tabWf_put hwf k x

/-- A DRBG with a state reads as written, whatever the table. -/
theorem State.drbg_putDrbg_live (s : State) (i : Nat) {d : Drbg} (hd : d.state ≠ .none) : (s.putDrbg i d).drbg i = d :=
  tabGet_put_new _ _ fun he => hd (congrArg Drbg.state he)

theorem State.drbg_putDrbg_other (s : State) {i j : Nat} (d : Drbg) (h : j ≠ i) : (s.putDrbg i d).drbg j = s.drbg j :=
  tabGet_put_other _ _ d h

@[simp] theorem State.source_raise (s : State) (code source tenant : Nat) (data : Bytes) (k : Nat) :
    (s.raise code source tenant data).source k = s.source k :=
  State.source_congr (congrArg Rng.sources (State.raise_rng ..)) k

@[simp] theorem State.drbg_raise (s : State) (code source tenant : Nat) (data : Bytes) (i : Nat) :
    (s.raise code source tenant data).drbg i = s.drbg i :=
  State.drbg_congr (congrArg Rng.drbgs (State.raise_rng ..)) i

theorem State.source_rngEvent (s : State) (b k : Nat) : (s.rngEvent b).source k = s.source k := rfl

/-! ### What changes the generator alone -/

/-- From `s` to `u` the generator alone changes. -/
def State.RngOnly (s u : State) : Prop := ∃ r, u = { s with rng := r }

section RngOnly

variable {s t : State} (h : s.RngOnly t)
include h

theorem State.RngOnly.eq : t = { s with rng := t.rng } := by
  obtain ⟨_, rfl⟩ := h
  rfl

theorem State.RngOnly.eq_recorder : t = { s with rng := t.rng, recorder := t.recorder } := by
  obtain ⟨_, rfl⟩ := h
  rfl

theorem State.RngOnly.putSource (k : Nat) (x : Source) : s.RngOnly (t.putSource k x) := by
  obtain ⟨_, rfl⟩ := h
  exact ⟨_, rfl⟩

theorem State.RngOnly.putDrbg (i : Nat) (d : Drbg) : s.RngOnly (t.putDrbg i d) := by
  obtain ⟨_, rfl⟩ := h
  exact ⟨_, rfl⟩

theorem State.RngOnly.rngEvent (b : Nat) : s.RngOnly (t.rngEvent b) := by
  obtain ⟨_, rfl⟩ := h
  exact ⟨_, rfl⟩

/-- An event is recorded after what changes the generator alone. -/
theorem State.RngOnly.raise_eq (code source tenant : Nat) (data : Bytes) :
    let u := t.raise code source tenant data
    u = { s with rng := u.rng, recorder := u.recorder } := by
  obtain ⟨r, hr⟩ := t.raise_changes_recorder code source tenant data
  dsimp only
  rw [hr, h.eq]

end RngOnly

theorem State.rngOnly_refl (s : State) : s.RngOnly s := ⟨_, rfl⟩

/-! ### A fold over units -/

/-- A fold establishes `P`, which every step keeps, where it comes to an `a` whose step establishes it under what holds until then. -/
theorem foldl_establishes {σ α : Type} {f : σ → α → σ} {P Q : σ → Prop} {a : α} (keepsQ : ∀ s x, Q s → Q (f s x))
    (keepsP : ∀ s x, P s → P (f s x)) (establishes : ∀ s, Q s → P (f s a)) {l : List α} (ha : a ∈ l) {s : σ} (hs : Q s) :
    P (l.foldl f s) := by
  obtain ⟨before, after, rfl⟩ := List.append_of_mem ha
  rw [List.foldl_append, List.foldl_cons]
  have hbefore : Q (before.foldl f s) := List.foldlRecOn before f hs fun t ht x _ => keepsQ t x ht
  exact List.foldlRecOn after f (establishes _ hbefore) fun t ht x _ => keepsP t x ht

/-! ### A forced reseed begins (R335) -/

/-- A running DRBG stops for a forced reseed. -/
def State.stopInstance (s : State) (i : Nat) : State :=
  if (s.drbg i).state = .running then s.putDrbg i { s.drbg i with state := .reseeding } else s

theorem beginForced_eq_foldl (s : State) (k : Nat) :
    beginForced s k = (List.range 8).foldl State.stopInstance { s with rng := { s.rng with forced := some k } } := rfl

theorem beginForced_rng (s : State) (k : Nat) : ∃ d, (beginForced s k).rng = { s.rng with drbgs := d, forced := some k } := by
  rw [beginForced_eq_foldl]
  refine List.foldlRecOn _ _ (motive := fun u : State => ∃ d, u.rng = { s.rng with drbgs := d, forced := some k }) ⟨_, rfl⟩
    fun u hu i _ => ?_
  obtain ⟨d, hd⟩ := hu
  unfold State.stopInstance
  split
  · exact ⟨tabPut {} u.rng.drbgs i { u.drbg i with state := .reseeding }, by simp only [State.putDrbg, hd]⟩
  · exact ⟨d, hd⟩

theorem State.stopInstance_keeps_reseeding (s : State) {i : Nat} (j : Nat) (h : (s.drbg i).state = .reseeding) :
    ((s.stopInstance j).drbg i).state = .reseeding := by
  unfold State.stopInstance
  split
  case isTrue hrunning =>
    have hother : i ≠ j := fun he => by simp [← he, h] at hrunning
    rwa [State.drbg_putDrbg_other s _ hother]
  case isFalse => exact h

theorem State.stopInstance_stops {s : State} {i : Nat} (h : (s.drbg i).state = .running) :
    ((s.stopInstance i).drbg i).state = .reseeding := by
  have hstop : s.stopInstance i = s.putDrbg i { s.drbg i with state := .reseeding } := if_pos h
  rw [hstop, State.drbg_putDrbg_live s i (by simp)]

theorem State.stopInstance_other (s : State) {i j : Nat} (h : i ≠ j) : (s.stopInstance j).drbg i = s.drbg i := by
  unfold State.stopInstance
  split
  · exact State.drbg_putDrbg_other s _ h
  · rfl

/-- Every running DRBG is reseeding once a forced reseed has begun. -/
theorem beginForced_stops {s : State} (k : Nat) {i : Nat} (hi : i < 8) (hrunning : (s.drbg i).state = .running) :
    ((beginForced s k).drbg i).state = .reseeding := by
  rw [beginForced_eq_foldl]
  refine foldl_establishes (P := fun u : State => (u.drbg i).state = .reseeding)
    (Q := fun u : State => (u.drbg i).state = .running ∨ (u.drbg i).state = .reseeding) (a := i) (fun u j hu => ?_)
    (fun u j hu => u.stopInstance_keeps_reseeding j hu) (fun u hu => ?_) (List.mem_range.2 hi) (.inl hrunning)
  · rcases eq_or_ne i j with rfl | hj
    · exact .inr (hu.elim State.stopInstance_stops (u.stopInstance_keeps_reseeding i))
    · rwa [u.stopInstance_other hj]
  · exact hu.elim State.stopInstance_stops (u.stopInstance_keeps_reseeding i)

/-! ### What the loss of a source leaves alone (R343 to R346) -/

@[simp] theorem randLost_rng (s : State) (amount : Nat) : (randLost s amount).rng = s.rng := State.raise_rng ..

@[simp] theorem State.putBnHandle_rng (s : State) (core h : Nat) (x : BnHandle) : (s.putBnHandle core h x).rng = s.rng := rfl
@[simp] theorem clearBank_rng (s : State) (e b : Nat) : (clearBank s e b).rng = s.rng := rfl
@[simp] theorem State.bnCnt_rng (s : State) (e k n : Nat) : (s.bnCnt e k n).rng = s.rng := rfl
@[simp] theorem State.pmcBn_rng (s : State) (e ev n : Nat) : (s.pmcBn e ev n).rng = s.rng := State.pmcEvent_rng ..

@[simp] theorem abortJob_rng (s : State) (core h st : Nat) : (abortJob s core h st).rng = s.rng := by
  unfold abortJob
  refine List.foldlRecOn _ _ (motive := fun u : State => u.rng = s.rng) rfl fun u hu g _ => ?_
  dsimp only
  split
  · exact hu
  · rw [State.pmcBn_rng, State.bnCnt_rng, clearBank_rng, State.putBnHandle_rng, hu]

@[simp] theorem stopRandomJobs_rng (s : State) : (stopRandomJobs s).rng = s.rng := by
  unfold stopRandomJobs
  extract_lets jobs
  rw [apply_ite State.rng, State.bnEvent_rng, ite_self]
  refine List.foldlRecOn jobs _ (motive := fun acc : State × Bool => acc.1.rng = s.rng) rfl fun acc hacc p _ => ?_
  dsimp only
  split
  · exact (abortJob_rng ..).trans hacc
  · exact hacc

@[simp] theorem State.setRng_sources (s : State) (r : RngState) : (s.setRng r).rng.sources = s.rng.sources := rfl

@[simp] theorem beginForced_sources (s : State) (k : Nat) : (beginForced s k).rng.sources = s.rng.sources := by
  obtain ⟨d, hd⟩ := beginForced_rng s k
  rw [hd]

@[simp] theorem changeActive_sources (s : State) (k discarded : Nat) : (changeActive s k discarded).rng.sources = s.rng.sources := by
  simp [changeActive]

@[simp] theorem rngFail_sources (s : State) (last : Nat) : (rngFail s last).rng.sources = s.rng.sources := by
  simp [rngFail, apply_ite State.rng]

@[simp] theorem rngCOnly_sources (s : State) (discarded : Nat) : (rngCOnly s discarded).rng.sources = s.rng.sources := by
  simp [rngCOnly, apply_ite State.rng]

@[simp] theorem sourceLost_sources (s : State) (k discarded : Nat) : (sourceLost s k discarded).rng.sources = s.rng.sources := by
  simp [sourceLost, apply_ite State.rng, apply_ite Rng.sources]

/-! ### A health test fails (R330) -/

/-- Failures of a source that count towards quarantine now, within the last 3,600 s. -/
def State.recentFailures (s : State) (k : Nat) : Nat :=
  ((s.source k).failTimes.filter (fun t => decide (s.second < t + 3600))).length

/-- A source that has just failed, after `recent` failures in the last hour: it requalifies, or is quarantined at its third failure,
and its blocks and seeds are gone. -/
structure Source.Failed (x : Source) (recent : Nat) : Prop where
  health : x.health = if 2 ≤ recent then .quarantined else .requalifying
  seeds : x.seeds = []
  blocks : x.blocks = []

theorem sourceFails_failed {s : State} (hwf : tabWf {} s.rng.sources = true) (k test value : Nat) :
    ((sourceFails s k test value).source k).Failed (s.recentFailures k) := by
  unfold sourceFails
  extract_lets x startTest times quar was y s1 s2 s3
  have hsources : (if was then sourceLost s3 k x.seeds.length else s3).rng.sources = (s.putSource k y).rng.sources := by
    simp only [s3, s2, s1, apply_ite State.rng, apply_ite Rng.sources, sourceLost_sources, ite_self, State.raise_rng]
    rfl
  rw [State.source_congr hsources, State.source_putSource_same hwf]
  refine ⟨?_, rfl, rfl⟩
  have hquar : quar = true ↔ 2 ≤ s.recentFailures k := by
    simp [quar, times, x, State.recentFailures]
  simp [y, hquar]

theorem execSourceTestFailure_fails {s : State} {k test : Nat} (value : Nat) (hk : k ≤ 2) (htest : test = 1 ∨ test = 2)
    (hhealthy : (s.source k).health = .healthy) : execSourceTestFailure k test value s = .next (sourceFails s k test value) :=
  if_pos ⟨hk, htest, by simp [hhealthy], by simp [hhealthy]⟩

/-! ### Windows (R329, R332) -/

theorem Source.condition_of_ne (x : Source) {k : Nat} (hk : k ≠ 2) (n : Nat) (samples : Bytes) :
    x.condition k n samples = x.release k (releasedBlock k n samples) :=
  if_pos hk

/-- A source after a window that passes in service. -/
def Source.passWindow (x : Source) (bits : List Bool) : Source :=
  let r := bits.foldl rctStep (x.run, x.runBit)
  { x with health := .healthy, windows := x.windows + 1, passed := min 0xFFFFFFFF (x.passed + 1), run := r.1, runBit := r.2 }

/-- A block that a source releases changes its blocks and seeds alone. -/
theorem Source.release_changes (x : Source) {k : Nat} (hk : k ≠ 2) (b : Bytes) :
    ∃ bs ss, x.release k b = { x with blocks := bs, seeds := ss } := by
  unfold Source.release
  split
  · exact ⟨_, x.seeds, rfl⟩
  · exact ⟨_, _, if_neg hk⟩

theorem Source.release_first {x : Source} (k : Nat) (b : Bytes) (h : x.blocks = []) : x.release k b = { x with blocks := [b] } := by
  rw [Source.release, h]

theorem Source.release_second {x : Source} {k : Nat} {a : Bytes} (hk : k ≠ 2) (b : Bytes) (h : x.blocks = [a])
    (hroom : x.seeds.length < 8) : x.release k b = { x with blocks := [], seeds := x.seeds ++ [a ++ b] } := by
  rw [Source.release, h]
  simp only [if_neg hk, seedRoom, if_pos hroom]

section Window

variable {s : State} {k : Nat} {samples : Bytes} (hk : k < 2) (hlen : samples.length = 128) (hhealthy : (s.source k).health = .healthy)
include hk hlen hhealthy

/-- A window of a source in service fails by the RCT, fails by the APT, or passes and is conditioned. -/
theorem windowEnd_healthy :
    let x := s.source k
    let bits := sampleBits samples
    let s0 := s.putSource k { x with windows := x.windows + 1 }
    windowEnd s k samples =
      if rctFails (rctCutoff k) (x.run, x.runBit) bits then sourceFails s0 k 1 (rctCutoff k)
      else if aptCutoff k ≤ aptCount bits then sourceFails s0 k 2 (aptCount bits)
      else s.putSource k ((x.passWindow bits).release k (releasedBlock k x.windows samples)) := by
  intro x bits s0
  have hserving : x.health = .healthy := hhealthy
  have hruns : ¬ (2 < k ∨ samples.length ≠ 128 ∨ x.health = .notStarted ∨ x.health = .quarantined) := by
    simp [hserving, hlen, hk.le]
  unfold windowEnd
  extract_lets
  rw [if_neg hruns]
  refine if_congr Iff.rfl rfl (if_congr Iff.rfl rfl ?_)
  rw [hserving]
  exact congrArg (s.putSource k) ((x.passWindow bits).condition_of_ne (by omega) x.windows samples)

variable (hwf : tabWf {} s.rng.sources = true)
include hwf

theorem windowEnd_failed (hrct : rctFails (rctCutoff k) ((s.source k).run, (s.source k).runBit) (sampleBits samples) = true) :
    ((windowEnd s k samples).source k).Failed (s.recentFailures k) := by
  rw [windowEnd_healthy hk hlen hhealthy]
  simp only [if_pos hrct]
  have hsame := State.source_putSource_same hwf k { s.source k with windows := (s.source k).windows + 1 }
  have hfailed := sourceFails_failed (State.sources_wf_putSource hwf k { s.source k with windows := (s.source k).windows + 1 }) k 1
    (rctCutoff k)
  rwa [State.recentFailures, hsame] at hfailed

/-- A window that passes is counted and conditioned; beside the generator nothing changes. -/
theorem windowEnd_passed (hrct : rctFails (rctCutoff k) ((s.source k).run, (s.source k).runBit) (sampleBits samples) = false)
    (hapt : aptCount (sampleBits samples) < aptCutoff k) :
    let x := s.source k
    let u := windowEnd s k samples
    (u.source k) = (x.passWindow (sampleBits samples)).release k (releasedBlock k x.windows samples) ∧ u = { s with rng := u.rng } := by
  intro x u
  have hu : u = s.putSource k ((x.passWindow (sampleBits samples)).release k (releasedBlock k x.windows samples)) := by
    simp only [u, windowEnd_healthy hk hlen hhealthy, x, hrct, if_neg hapt.not_ge, Bool.false_eq_true, if_false]
  rw [hu]
  exact ⟨State.source_putSource_same hwf k _, (s.rngOnly_refl.putSource k _).eq⟩

end Window

/-! ### Estimates (R331) -/

/-- The correlations that eight lagged sums give. -/
def correlations (sums : List Int) : List (Nat × BitVec 16) :=
  (List.range 8).map (fun k => (k + 1, q15 (sums.getD k 0) (2 ^ 20 - (k + 1))))

/-- A source with the estimates over its last 2^20 samples. -/
def Source.estimated (x : Source) (ones : Nat) (sums : List Int) : Source :=
  { x with bias := BitVec.ofInt 16 (((ones : Int) - 2 ^ 19).tdiv 16),
           corr := (correlations sums).foldl (fun t p => tabPut 0 t p.1 p.2) x.corr }

/-- The estimates of a source in service are set, with an alert or without. -/
theorem execSourceEstimate_healthy {s : State} {k : Nat} (hk : k ≤ 2) (hhealthy : (s.source k).health = .healthy) (ones : Nat)
    (sums : List Int) :
    let s1 := s.putSource k ((s.source k).estimated ones sums)
    execSourceEstimate k ones sums s = .next s1 ∨
      ∃ data, execSourceEstimate k ones sums s = .next (((s1.putSource k { s1.source k with alertSecond := some s.second }).rngEvent
        3).raise evEstimateAlert srcRng 0 data) := by
  intro s1
  have hruns : ¬ (2 < k ∨ (s.source k).health = .notStarted ∨ (s.source k).health = .quarantined) := by
    simp [hhealthy, hk]
  unfold execSourceEstimate
  extract_lets x bias corr t top
  rw [if_neg hruns]
  split
  · exact .inl rfl
  · split
    · exact .inl rfl
    · exact .inr ⟨_, rfl⟩

theorem execSourceEstimate_sets {s : State} {k : Nat} (hwf : tabWf {} s.rng.sources = true) (hk : k ≤ 2)
    (hhealthy : (s.source k).health = .healthy) (ones : Nat) (sums : List Int) :
    ∃ u : State, execSourceEstimate k ones sums s = .next u ∧ (u.source k).bias = BitVec.ofInt 16 (((ones : Int) - 2 ^ 19).tdiv 16) ∧
      (u.source k).seeds = (s.source k).seeds ∧ u = { s with rng := u.rng, recorder := u.recorder } := by
  have hset := State.source_putSource_same hwf k ((s.source k).estimated ones sums)
  rcases execSourceEstimate_healthy hk hhealthy ones sums with hquiet | ⟨data, halert⟩
  · refine ⟨_, hquiet, ?_, ?_, ?_⟩
    · rw [hset, Source.estimated]
    · rw [hset, Source.estimated]
    · exact (s.rngOnly_refl.putSource k _).eq_recorder
  · refine ⟨_, halert, ?_, ?_, (((s.rngOnly_refl.putSource k _).putSource k _).rngEvent 3).raise_eq _ _ _ _⟩ <;>
      rw [State.source_raise, State.source_rngEvent, hset, State.source_putSource_same (State.sources_wf_putSource hwf k _),
        Source.estimated]

end Sys2Proof.Machine
end

section
/-! SUPPORT. Chapter 12 (family 12_random_numbers), DRBGs and draws: seeds taken, reseeds, errors and returns of DRBGs, what a
draw delivers, and the statement about the generator. -/

namespace Sys2Proof.Machine

open Sys2Proof

/-! ### Seeds (R334) -/

theorem State.takeSeed_some {s : State} {k : Nat} {seed : Bytes} {rest : List Bytes} (h : (s.source k).seeds = seed :: rest) :
    s.takeSeed k = some (seed, s.putSource k { s.source k with seeds := rest }) := by
  rw [State.takeSeed, h]

theorem State.seeds_takeSeed {s : State} (hwf : tabWf {} s.rng.sources = true) (k : Nat) (rest : List Bytes) :
    ((s.putSource k { s.source k with seeds := rest }).source k).seeds = rest := by
  rw [State.source_putSource_same hwf]

/-! ### Reseeds (R334, R335) -/

/-- A DRBG that has taken a seed of source `k`. -/
def Drbg.reseeded (d : Drbg) (k : Nat) (seed : Bytes) (now : Nat) : Drbg :=
  { d with state := .running, source := k, reseeds := (d.reseeds + 1) % 2 ^ 16, seed := seed, lastReseed := now }

theorem reseed_rng (s : State) (i k : Nat) (seed : Bytes) :
    (reseed s i k seed).rng = ((s.putDrbg i ((s.drbg i).reseeded k seed s.micros)).rngCnt 0 1).rng :=
  State.pmcRng_rng ..

theorem State.forced_rngCnt (s : State) (k n : Nat) : (s.rngCnt k n).rng.forced = s.rng.forced := rfl
theorem State.forced_rngEvent (s : State) (b : Nat) : (s.rngEvent b).rng.forced = s.rng.forced := rfl
theorem State.drbg_rngCnt (s : State) (k n i : Nat) : (s.rngCnt k n).drbg i = s.drbg i := rfl

theorem reseed_drbg (s : State) (i k : Nat) (seed : Bytes) : (reseed s i k seed).drbg i = (s.drbg i).reseeded k seed s.micros := by
  rw [State.drbg_congr (congrArg Rng.drbgs (reseed_rng s i k seed)), State.drbg_rngCnt]
  exact State.drbg_putDrbg_live s i (by simp [Drbg.reseeded])

theorem reseed_drbg_other (s : State) {i j : Nat} (k : Nat) (seed : Bytes) (h : j ≠ i) : (reseed s i k seed).drbg j = s.drbg j := by
  rw [State.drbg_congr (congrArg Rng.drbgs (reseed_rng s i k seed)), State.drbg_rngCnt]
  exact State.drbg_putDrbg_other s _ h

theorem reseed_source (s : State) (i k : Nat) (seed : Bytes) (j : Nat) : (reseed s i k seed).source j = s.source j := by
  rw [State.source, reseed_rng]
  rfl

theorem reseed_forced (s : State) (i k : Nat) (seed : Bytes) : (reseed s i k seed).rng.forced = s.rng.forced := by
  rw [reseed_rng]
  rfl

theorem execDrbgScheduledReseed_due {s : State} {i : Nat} {seed : Bytes} {rest : List Bytes} (hi : i < 8)
    (hready : s.rng.state = .ready) (hforced : s.rng.forced = none) (hrunning : (s.drbg i).state = .running)
    (hdue : (s.drbg i).lastReseed + 128 ≤ s.micros) (hseed : (s.source s.rng.active).seeds = seed :: rest) :
    execDrbgScheduledReseed i s = .next (reseed (s.putSource s.rng.active { s.source s.rng.active with seeds := rest }) i
      s.rng.active seed) := by
  have hup : s.rngUp = true := by simp [State.rngUp, hready]
  unfold execDrbgScheduledReseed
  extract_lets d due
  have hpass : ¬ (8 ≤ i ∨ ¬ s.rngUp = true ∨ s.rng.forced.isSome = true ∨ d.state ≠ .running ∨ ¬ due = true) := by
    simp [hi, hup, hforced, d, hrunning, due, hdue]
  rw [if_neg hpass, State.takeSeed_some hseed]

/-- A DRBG that runs on a seed of source `k`. -/
structure Drbg.RunsOn (d : Drbg) (k : Nat) : Prop where
  state : d.state = .running
  source : d.source = k

theorem reseed_runsOn (s : State) (i k : Nat) (seed : Bytes) : ((reseed s i k seed).drbg i).RunsOn k := by
  rw [reseed_drbg]
  exact ⟨rfl, rfl⟩

theorem reseed_keeps_runsOn {s : State} {j k : Nat} (h : (s.drbg j).RunsOn k) (i : Nat) (seed : Bytes) :
    ((reseed s i k seed).drbg j).RunsOn k := by
  rcases eq_or_ne j i with rfl | hj
  · exact reseed_runsOn s j k seed
  · rwa [reseed_drbg_other s k seed hj]

/-- The DRBGs stopped for a forced reseed. -/
def State.reseeding (s : State) : List Nat := (List.range 8).filter (fun i => decide ((s.drbg i).state = .reseeding))

theorem State.mem_reseeding {s : State} {i : Nat} : i ∈ s.reseeding ↔ i < 8 ∧ (s.drbg i).state = .reseeding := by
  simp [State.reseeding]

theorem State.reseeding_length (s : State) : s.reseeding.length ≤ 8 :=
  List.length_filter_le _ (List.range 8)

/-- Each DRBG of a list reseeds from a seed of source `k` for it. -/
def reseedEach (s : State) (k : Nat) (seedFor : Nat → Bytes) (is : List Nat) : State :=
  is.foldl (fun u i => reseed u i k (seedFor i)) s

theorem reseedEach_forced (s : State) (k : Nat) (seedFor : Nat → Bytes) (is : List Nat) :
    (reseedEach s k seedFor is).rng.forced = s.rng.forced :=
  List.foldlRecOn is _ (motive := fun u : State => u.rng.forced = s.rng.forced) rfl fun u hu i _ => (reseed_forced u i k _).trans hu

theorem reseedEach_runsOn (s : State) (k : Nat) (seedFor : Nat → Bytes) {is : List Nat} {i : Nat} (hi : i ∈ is) :
    ((reseedEach s k seedFor is).drbg i).RunsOn k :=
  foldl_establishes (P := fun u : State => (u.drbg i).RunsOn k) (Q := fun _ => True) (fun _ _ _ => trivial)
    (fun _ j hu => reseed_keeps_runsOn hu j _) (fun u _ => reseed_runsOn u i k _) hi trivial

theorem execForcedReseedComplete_none {s : State} (cycles : Nat) (h : s.rng.forced = none) :
    execForcedReseedComplete cycles s = .next s := by
  rw [execForcedReseedComplete, h]

/-- A forced reseed from A or B ends once each DRBG that waits has a seed of its own (R335). -/
theorem execForcedReseedComplete_ends {s : State} {k : Nat} (cycles : Nat) (hforced : s.rng.forced = some k) (hk : k < 2)
    (hseeds : 8 ≤ (s.source k).seeds.length) :
    ∃ (t : State) (seedFor : Nat → Bytes) (data : Bytes), t.rng.forced = none ∧ execForcedReseedComplete cycles s =
      .next ((((reseedEach t k seedFor s.reseeding).rngEvent 1).rngCnt 1 1).raise evForcedReseed srcRng 0 data) := by
  have hne : k ≠ 2 := by omega
  have henough : ¬ (s.source k).seeds.length < (if k = 2 then 1 else s.reseeding.length) := by
    rw [if_neg hne]
    exact (s.reseeding_length.trans hseeds).not_gt
  rw [execForcedReseedComplete, hforced]
  exact ⟨_, _, _, rfl, if_neg henough⟩

theorem execForcedReseedComplete_reseeds {s : State} {k : Nat} (cycles : Nat) (hforced : s.rng.forced = some k) (hk : k < 2)
    (hseeds : 8 ≤ (s.source k).seeds.length) :
    ∃ u : State, execForcedReseedComplete cycles s = .next u ∧ u.rng.forced = none ∧
      ∀ i, i < 8 → (s.drbg i).state = .reseeding → (u.drbg i).state = .running ∧ (u.drbg i).source = k := by
  obtain ⟨t, seedFor, data, hnone, hends⟩ := execForcedReseedComplete_ends cycles hforced hk hseeds
  refine ⟨_, hends, ?_, fun i hi hwaits => ?_⟩
  · rw [State.raise_rng, State.forced_rngCnt, State.forced_rngEvent, reseedEach_forced, hnone]
  · rw [State.drbg_raise, State.drbg_rngCnt]
    have hruns := reseedEach_runsOn t k seedFor (State.mem_reseeding.2 ⟨hi, hwaits⟩)
    exact ⟨hruns.state, hruns.source⟩

/-- RNG_CTRL.RESEED of a generator that serves (R335). -/
theorem execRngCtrlReseed_begins {s : State} (ch : Nat) (hmanaged : s.managed = true) (hready : s.rng.state = .ready) :
    ∃ u : State, execRngCtrlReseed ch s = .next u ∧ u.rng.forced = some s.rng.active ∧
      ∀ i, i < 8 → (s.drbg i).state = .running → (u.drbg i).state = .reseeding := by
  have hcommand : execRngCtrlReseed ch s =
      .next ((beginForced s s.rng.active).raise evReseedCommanded srcRng 0 (items [(4, ch)])) := by
    simp only [execRngCtrlReseed, commandReseed, hmanaged, hready, true_or, if_true]
  refine ⟨_, hcommand, ?_, fun i hi hrunning => ?_⟩
  · obtain ⟨d, hd⟩ := beginForced_rng s s.rng.active
    rw [State.raise_rng, hd]
  · rw [State.drbg_raise]
    exact beginForced_stops _ hi hrunning

theorem execTenantPoolFull_fills {s : State} (hrefilling : s.rng.refilling = true) (hforced : s.rng.forced = none)
    (hdegraded : s.rng.state = .degraded) :
    execTenantPoolFull s = .next { s with rng := { s.rng with poolTen := s.rng.poolSize, refillDone := true } } :=
  if_pos ⟨hrefilling, hforced, .inr hdegraded⟩

/-! ### Errors and returns of DRBGs (R348) -/

theorem execDrbgInstanceError_withdraws {s : State} {i : Nat} (hi : i < 8) (hrunning : (s.drbg i).state = .running) :
    ∃ u : State, execDrbgInstanceError i s = .next u ∧ (u.drbg i).state = .withdrawn ∧ (u.drbg i).seed = [] ∧
      ∀ j, j ≠ i → u.drbg j = s.drbg j := by
  unfold execDrbgInstanceError
  extract_lets d times quar cap s1 s2
  have hserves : ¬ (8 ≤ i ∨ (d.state ≠ .running ∧ d.state ≠ .reseeding)) := by simp [hi, d, hrunning]
  have hdrbgs : (if s2.capRand < cap then randLost s2 (cap - s2.capRand) else s2).rng.drbgs = (s.putDrbg i
      { d with state := .withdrawn, seed := [], faultTimes := times, quarantined := quar }).rng.drbgs := by
    rw [apply_ite State.rng, randLost_rng, ite_self, State.raise_rng]
    rfl
  refine ⟨_, if_neg hserves, ?_, ?_, fun j hj => ?_⟩
  · rw [State.drbg_congr hdrbgs, State.drbg_putDrbg_live s i (by simp)]
  · rw [State.drbg_congr hdrbgs, State.drbg_putDrbg_live s i (by simp)]
  · rw [State.drbg_congr hdrbgs, State.drbg_putDrbg_other s _ hj]

theorem execDrbgInstanceReturn_runs {s : State} (hwf : tabWf {} s.rng.sources = true) {i : Nat} {seed : Bytes} {rest : List Bytes}
    (hi : i < 8) (hwithdrawn : (s.drbg i).state = .withdrawn) (hkept : (s.drbg i).quarantined = false)
    (hready : s.rng.state = .ready) (hforced : s.rng.forced = none) (hseed : (s.source s.rng.active).seeds = seed :: rest) :
    ∃ u : State, execDrbgInstanceReturn i true s = .next u ∧ (u.drbg i).state = .running ∧ (u.drbg i).returned = true ∧
      (u.source s.rng.active).seeds = rest ∧ u = { s with rng := u.rng } := by
  have hup : s.rngUp = true := by simp [State.rngUp, hready]
  unfold execDrbgInstanceReturn
  extract_lets d
  have hpass : ¬ (8 ≤ i ∨ d.state ≠ .withdrawn ∨ d.quarantined = true ∨ ¬ s.rngUp = true) := by
    simp [hi, d, hwithdrawn, hkept, hup]
  rw [if_neg hpass, if_neg (by simp), State.takeSeed_some hseed]
  refine ⟨_, rfl, ?_, ?_, ?_, ((s.rngOnly_refl.putSource _ _).putDrbg i _).eq⟩
  · rw [State.drbg_putDrbg_live _ i (by simp [hforced])]
    simp [hforced]
  · rw [State.drbg_putDrbg_live _ i (by simp [hforced])]
  · exact State.seeds_takeSeed hwf _ rest

/-! ### Draws (R337, R339, R342) -/

theorem State.Counted.pmcRng {s u : State} (h : s.Counted u) (ev n : Nat) : s.Counted (u.pmcRng ev n) := by
  obtain ⟨_, _, g, rfl⟩ := h
  obtain ⟨p, r, hcount⟩ := State.pmcEvent_changes_pmc _ 988 8 ev n
  exact ⟨p, r, g, hcount⟩

/-- The state whose internal pool has given out `n` blocks, before the performance counters count them. -/
def State.poolDrawn (s : State) (n : Nat) : State :=
  let t := (s.random (16 * n)).2
  { t with rng := { t.rng with poolInt := t.rng.poolInt - n } }.rngCnt 2 n

theorem drawBlocks_internal (s : State) (n : Nat) :
    (drawBlocks s false n).2 = ((s.poolDrawn n).pmcRng 0x11 n).pmcRng 0x10 n := by
  simp only [drawBlocks, Bool.false_eq_true, if_false, State.poolDrawn]

theorem drawBlocks_poolInt (s : State) (n : Nat) : (drawBlocks s false n).2.rng.poolInt = s.rng.poolInt - n := by
  rw [drawBlocks_internal, State.pmcRng_rng, State.pmcRng_rng]
  rfl

theorem drawBlocks_counted (s : State) (n : Nat) : s.Counted (drawBlocks s false n).2 := by
  have hdrawn : s.Counted (s.poolDrawn n) := ⟨_, _, _, rfl⟩
  rw [drawBlocks_internal]
  exact (hdrawn.pmcRng 0x11 n).pmcRng 0x10 n

theorem State.randPort_congr {s u : State} (h : u.cores.rand = s.cores.rand) (core : Nat) : u.randPort core = s.randPort core := by
  simp only [State.randPort, h]

theorem State.putRandPort_rng (s : State) (core : Nat) (p : RandPort) : (s.putRandPort core p).rng = s.rng := rfl

/-- A port that has delivered blocks reads as written. -/
theorem State.randPort_putRandPort_delivered (s : State) (core : Nat) {p : RandPort} (hp : p.delivered ≠ 0) :
    (s.putRandPort core p).randPort core = p :=
  tabGet_put_new _ _ fun he => hp (congrArg RandPort.delivered he)

theorem completeDraw_idle {s : State} {core : Nat} (h : (s.randPort core).draw = none) : completeDraw s core = s := by
  simp only [completeDraw, h]

@[simp] theorem State.taskFlag_rng (s : State) (core i : Nat) (v : Bool) : (s.taskFlag core i v).rng = s.rng := by
  rw [(s.taskFlag_squareOnly core i v).1]

theorem State.drawStatus_ready {s : State} (hready : s.rng.ready = true) (hstate : s.rng.state = .ready) (tenant : Bool) :
    s.drawStatus tenant = stOk := by
  simp [State.drawStatus, hready, hstate]

section Delivery

variable {s : State} {core n off : Nat} {t : Nat × Slot × Nat} (hdraw : (s.randPort core).draw = some (false, n, off))
  (htask : s.taskOf core = some t) (hready : s.rng.ready = true) (hstate : s.rng.state = .ready)
include hdraw htask hready hstate

/-- A draw of the internal pool leaves its blocks in the core's port and sets RANDOM_READY. -/
theorem completeDraw_internal : ∃ rbuf, completeDraw s core =
    ((drawBlocks s false n).2.putRandPort core { status := stOk, delivered := n, rbuf := rbuf }).taskFlag core flagRandomReady true := by
  obtain ⟨k, x, m⟩ := t
  have hok : ¬ s.drawStatus false ≠ stOk := not_not.2 (State.drawStatus_ready hready hstate false)
  simp only [completeDraw, hdraw, htask, if_neg hok]
  exact ⟨_, rfl⟩

theorem completeDraw_delivers (hn : 0 < n) :
    let u := completeDraw s core
    (u.randPort core).status = 0 ∧ (u.randPort core).delivered = n ∧ (u.randPort core).draw = none ∧
      u.rng.poolInt = s.rng.poolInt - n := by
  obtain ⟨rbuf, hdelivered⟩ := completeDraw_internal hdraw htask hready hstate
  dsimp only
  rw [hdelivered, State.randPort_congr (congrArg Cores.rand (State.taskFlag_cores ..)),
    State.randPort_putRandPort_delivered _ core hn.ne', State.taskFlag_rng, State.putRandPort_rng, drawBlocks_poolInt]
  exact ⟨rfl, rfl, rfl, rfl⟩

end Delivery

theorem readRandom_ready {s : State} (hready : s.rng.ready = true) (hstate : s.rng.state = .ready) :
    readRandom s = .ok (BitVec.ofNat 32 (fld (s.random 16).1 0 4), (drawBlocks s false 1).2) := by
  simp only [readRandom, hready, hstate, not_true_eq_false, true_or, if_false, if_true, ne_eq]
  rfl

theorem execRngRandomRead_served {s t : State} {ch w : Nat} {v : Word32} (hmanaged : s.managed = true) (hw : w < 16)
    (hfree : (s.chan (ch % 2 ^ 15)).state = .free) (hread : readRandom s = .ok (v, t)) :
    execRngRandomRead ch w s = .next { t with readBack := v } := by
  have hserved : ¬ (¬ s.managed = true ∨ 16 ≤ w ∨
      (s.chan (ch % 2 ^ 15)).state = .open ∧ (s.chan (ch % 2 ^ 15)).tenant ≠ 0) := by
    rintro (hnot | hpast | ⟨hopen, _⟩)
    · exact hnot hmanaged
    · exact hpast.not_gt hw
    · exact absurd (hfree.symm.trans hopen) (by decide)
  rw [execRngRandomRead, if_neg hserved, hread]

theorem execRngRandomRead_reads {s : State} {ch w : Nat} (hmanaged : s.managed = true) (hw : w < 16)
    (hfree : (s.chan (ch % 2 ^ 15)).state = .free) (hready : s.rng.ready = true) (hstate : s.rng.state = .ready) :
    ∃ u : State, execRngRandomRead ch w s = .next u ∧ u.readBack = BitVec.ofNat 32 (fld (s.random 16).1 0 4) ∧
      u.rng.poolInt = s.rng.poolInt - 1 ∧ u = { s with rng := u.rng, pmc := u.pmc, recorder := u.recorder, readBack := u.readBack } := by
  have hpool := drawBlocks_poolInt s 1
  have hread := readRandom_ready hready hstate
  obtain ⟨p, r, g, hcounted⟩ := drawBlocks_counted s 1
  rw [hcounted] at hpool hread
  exact ⟨_, execRngRandomRead_served hmanaged hw hfree hread, rfl, hpool, rfl⟩

/-- Settles O56: each command by its lemmas above. -/
theorem randomGenerator : Obligations.RandomGenerator := by
  intro s hsources hdrbgs recent failed
  have hfailed : ∀ {u : State} {k : Nat}, (u.source k).Failed (s.recentFailures k) → failed u k :=
    fun h => ⟨h.health, h.seeds, h.blocks⟩
  refine ⟨fun k samples hk hlen hhealthy => ⟨fun hrct hapt => ?passes, fun hrct => ?fails⟩, ?testFails, ?estimate, ?scheduled,
    fun ch => execRngCtrlReseed_begins ch, ?forced, fun cycles => execForcedReseedComplete_none cycles, execTenantPoolFull_fills,
    fun i => execDrbgInstanceError_withdraws, fun i seed rest => execDrbgInstanceReturn_runs hsources, ?draw, ?noDraw,
    fun ch w => execRngRandomRead_reads⟩
  case passes =>
    have hne : k ≠ 2 := by omega
    obtain ⟨hread, halone⟩ := windowEnd_passed hk hlen hhealthy hsources hrct hapt
    obtain ⟨bs, ss, hreleased⟩ := ((s.source k).passWindow (sampleBits samples)).release_changes hne
      (releasedBlock k (s.source k).windows samples)
    have hkept := hread.trans hreleased
    refine ⟨_, rfl, congrArg Source.health hkept, congrArg Source.windows hkept, congrArg Source.passed hkept, halone,
      fun hfirst => ?_, fun a hsecond hroom => ?_⟩
    · rw [hread, Source.release_first (x := (s.source k).passWindow _) k _ hfirst]
      exact ⟨rfl, rfl⟩
    · rw [hread, Source.release_second (x := (s.source k).passWindow _) hne _ hsecond hroom]
      exact ⟨rfl, rfl⟩
  case fails => exact ⟨_, rfl, hfailed (windowEnd_failed hk hlen hhealthy hsources hrct)⟩
  case testFails =>
    intro k test v hk htest hhealthy
    exact ⟨_, execSourceTestFailure_fails v hk htest hhealthy, hfailed (sourceFails_failed hsources k test v)⟩
  case estimate => exact fun k ones sums hk hhealthy => execSourceEstimate_sets hsources hk hhealthy ones sums
  case scheduled =>
    intro i seed rest hi hready hforced hrunning hdue hseed
    refine ⟨_, execDrbgScheduledReseed_due hi hready hforced hrunning hdue hseed, ?_, ?_, ?_, fun j hj => ?_⟩
    · rw [reseed_drbg]
      rfl
    · rw [reseed_drbg]
      rfl
    · rw [reseed_source]
      exact State.seeds_takeSeed hsources _ rest
    · exact reseed_drbg_other _ _ _ hj
  case forced => exact fun k cycles => execForcedReseedComplete_reseeds cycles
  case draw =>
    intro core n off t hdraw hn htask hready hstate
    exact ⟨_, rfl, completeDraw_delivers hdraw htask hready hstate hn⟩
  case noDraw =>
    intro core hnone
    exact congrArg Host.Outcome.next (completeDraw_idle hnone)

end Sys2Proof.Machine
end

section
/-! SUPPORT. The step of the block as a whole. -/

namespace Sys2Proof.Machine

theorem step_front (s : State) (c : Instr) (rest : List Instr) :
    step { s with pending := c :: rest } = exec c { s with pending := rest } := rfl

theorem step_idle {s : State} (h : s.pending = []) : step s = .next s := by
  simp only [step, h]

/-- Settles O1: the front command with the queue's rest, and the idle step. -/
theorem stepRunsTheFrontCommand : Obligations.StepRunsTheFrontCommand :=
  ⟨step_front, fun _ => step_idle⟩

end Sys2Proof.Machine
end

section
/-! SUPPORT. Chapter 14 (family 14_life_cycle_and_debug), the life-cycle words: each operation leaves both copies as they are, in the
order in which the model defines it, each by the operations that it calls. The one command that programs them turns bits from 1 to 0
only where the pattern has 0. A proof `(rfl)` stands in parentheses so that `simp` takes the lemma for a rewriting step. -/

namespace Sys2Proof.Machine

open Sys2Proof

/-- Both copies of the life-cycle word. -/
def State.fuses (s : State) : Word64 × Word64 := (s.lc.word0, s.lc.word1)

@[simp] theorem fuses_mk (dev folio ports srp adm sq cores ks vault bn bulk rng dual lc tmp boot image pair recorder pmc pwr faults recovery
    readBack pending) :
    State.fuses ⟨dev, folio, ports, srp, adm, sq, cores, ks, vault, bn, bulk, rng, dual, lc, tmp, boot, image, pair, recorder, pmc, pwr,
        faults, recovery, readBack, pending⟩ = (lc.word0, lc.word1) := (rfl)

@[simp] theorem fuses_fold (s : State) : (s.lc.word0, s.lc.word1) = s.fuses := (rfl)

@[simp] theorem fuses_ite (c : Prop) [Decidable c] (s t : State) : (if c then s else t).fuses = if c then s.fuses else t.fuses :=
  apply_ite ..

theorem fuses_foldl_of {σ α : Type} (g : σ → State) {f : σ → α → σ} (l : List α) (a : σ)
    (h : ∀ a x, (g (f a x)).fuses = (g a).fuses) : (g (l.foldl f a)).fuses = (g a).fuses := by
  induction l generalizing a with
  | nil => rfl
  | cons x l ih => rw [List.foldl_cons, ih, h]

@[simp] theorem fuses_foldl {α : Type} {f : State → α → State} (l : List α) (s : State) (h : ∀ s x, (f s x).fuses = s.fuses) :
    (l.foldl f s).fuses = s.fuses :=
  fuses_foldl_of id l s h

@[simp] theorem State.raise_fuses (s : State) (code source tenant : Nat) (data : Bytes) :
    (s.raise code source tenant data).fuses = s.fuses := by
  obtain ⟨r, h⟩ := s.raise_changes_recorder code source tenant data
  rw [h]
  rfl

@[simp] theorem State.pmcAddTo_fuses (s : State) (c n : Nat) : (s.pmcAddTo c n).fuses = s.fuses := by
  obtain ⟨p, r, h⟩ := s.pmcAddTo_changes_pmc c n
  rw [h]
  rfl

@[simp] theorem State.pmcEvent_fuses (s : State) (first count ev n : Nat) : (s.pmcEvent first count ev n).fuses = s.fuses := by
  obtain ⟨p, r, h⟩ := s.pmcEvent_changes_pmc first count ev n
  rw [h]
  rfl

/-- The command's outcome leaves both copies of the life-cycle word as they are in `s`. -/
def KeepsFuses (s : State) (o : Host.Outcome State Fault Refusal) : Prop := ∀ t, o = .next t → t.fuses = s.fuses

@[simp] theorem keepsFuses_next (s t : State) : KeepsFuses s (.next t) ↔ t.fuses = s.fuses :=
  ⟨fun h => h t rfl, fun h u hu => by cases hu; exact h⟩
@[simp] theorem keepsFuses_refused (s : State) (r : Refusal) : KeepsFuses s (.refused r) := fun _ h => nomatch h
@[simp] theorem keepsFuses_ite (s : State) (c : Prop) [Decidable c] (o p : Host.Outcome State Fault Refusal) :
    KeepsFuses s (if c then o else p) ↔ if c then KeepsFuses s o else KeepsFuses s p := by split <;> rfl

/-- The step `f` of a function leaves both copies of the life-cycle word as they are. -/
def Fn.Keeps {α : Type} (f : Fn α) : Prop := ∀ s : State, ((f.run.run s : Except Nat α × State)).2.fuses = s.fuses

@[simp] theorem Fn.keeps_bind {α β : Type} {f : Fn α} {g : α → Fn β} (hf : Fn.Keeps f) (hg : ∀ a, Fn.Keeps (g a)) :
    Fn.Keeps (f >>= g) := by
  intro s
  have h := hf s
  rcases hrun : (f.run.run s : Except Nat α × State) with ⟨_ | a, u⟩
  · simp only [ExceptT.run_bind, StateT.run_bind, hrun] at h ⊢
    exact h
  · simp only [ExceptT.run_bind, StateT.run_bind, hrun] at h ⊢
    exact (hg a u).trans h

@[simp] theorem Fn.keeps_map {α β : Type} (g : α → β) {f : Fn α} (hf : Fn.Keeps f) : Fn.Keeps (g <$> f) := by
  rw [← bind_pure_comp]
  exact Fn.keeps_bind hf fun _ _ => rfl

@[simp] theorem Fn.keeps_pure {α : Type} (a : α) : Fn.Keeps (pure a : Fn α) := fun _ => rfl
@[simp] theorem Fn.keeps_throw {α : Type} (e : Nat) : Fn.Keeps (throw e : Fn α) := fun _ => rfl
@[simp] theorem Fn.keeps_get : Fn.Keeps (get : Fn State) := fun _ => rfl
@[simp] theorem Fn.keeps_ite {α : Type} (c : Prop) [Decidable c] {f g : Fn α} (hf : Fn.Keeps f) (hg : Fn.Keeps g) :
    Fn.Keeps (if c then f else g) := by split <;> assumption
@[simp] theorem Fn.need_keeps (c : Bool) (st : Nat) : Fn.Keeps (Fn.need c st) := by simp [Fn.need]
@[simp] theorem Fn.ok_keeps (st : Nat) : Fn.Keeps (Fn.ok st) := by simp [Fn.ok]
@[simp] theorem Fn.st_keeps {α : Type} (f : State → α) : Fn.Keeps (Fn.st f) := fun _ => rfl
@[simp] theorem Fn.change_keeps (f : State → State) : Fn.Keeps (Fn.change f) ↔ ∀ s, (f s).fuses = s.fuses := (Iff.rfl)
@[simp] theorem Fn.act_keeps {α : Type} (f : State → α × State) : Fn.Keeps (Fn.act f) ↔ ∀ s, (f s).2.fuses = s.fuses := (Iff.rfl)
@[simp] theorem Fn.get!_keeps {α : Type} (o : Option α) (e : Nat) : Fn.Keeps (Fn.get! o e) := by cases o <;> exact fun _ => rfl
@[simp] theorem Fn.done_keeps (r : Bytes) (e : List Effect) : Fn.Keeps (Fn.done r e) := fun _ => rfl

theorem Fn.run_keeps {α : Type} {f : Fn α} (hf : Fn.Keeps f) {s t : State} {r : Except Nat α} (hrun : f.run.run s = (r, t)) :
    t.fuses = s.fuses := by
  have h := hf s
  rw [hrun] at h
  exact h

theorem runFnOn_fuses {f : Fn FnRes} (hf : Fn.Keeps f) (s : State) : (runFnOn f s).2.fuses = s.fuses := by
  unfold runFnOn
  split
  all_goals
    next hrun => exact Fn.run_keeps hf hrun

theorem Fn.orRefuse_run (f : Fn FnRes) (g : Nat → State → State) (s : State) :
    ((Fn.orRefuse f g).run.run s : Except Nat FnRes × State) = match (f.run.run s : Except Nat FnRes × State) with
      | (.ok r, t) => (.ok r, t)
      | (.error e, t) => (.error e, g e t) := by
  show (ExceptT.tryCatch f _).run.run s = _
  unfold ExceptT.tryCatch
  simp only [ExceptT.run_mk, StateT.run_bind]
  rcases hrun : (f.run.run s : Except Nat FnRes × State) with ⟨_ | r, t⟩
  all_goals
    have hrun' : (StateT.run f s : Except Nat FnRes × State) = _ := hrun
    rw [hrun']
    rfl

@[simp] theorem Fn.orRefuse_keeps {f : Fn FnRes} {g : Nat → State → State} (hf : Fn.Keeps f) (hg : ∀ e s, (g e s).fuses = s.fuses) :
    Fn.Keeps (Fn.orRefuse f g) := by
  intro s
  have h := hf s
  rw [Fn.orRefuse_run]
  rcases hrun : (f.run.run s : Except Nat FnRes × State) with ⟨e | r, t⟩
  · rw [hrun] at h
    exact (hg e t).trans h
  · rw [hrun] at h
    exact h

@[simp] theorem StepEnd.after_done (t : State) : (StepEnd.done t).after = t := (rfl)
@[simp] theorem StepEnd.after_stop (t : State) : (StepEnd.stop t).after = t := (rfl)
@[simp] theorem StepEnd.after_fail (t : State) (c d : Nat) : (StepEnd.fail t c d).after = t := (rfl)

/-- A step that goes on with the state it finds, and may put another in its place, keeps the words where that run does. -/
theorem Fn.keeps_get_bind {α : Type} {g : State → Fn α}
    (h : ∀ s : State, ((g s).run.run s : Except Nat α × State).2.fuses = s.fuses) : Fn.Keeps (get >>= g) := h

/-! ### Machine/Ops -/

@[simp] theorem State.random_fuses (s : State) (n : Nat) : (State.random s n).2.fuses = s.fuses := (rfl)
@[simp] theorem State.busyDistrict_fuses (s : State) (d : Nat) : (State.busyDistrict s d).fuses = s.fuses := (rfl)

@[simp] theorem State.inOneCycle_fuses {f : State → State} (hf : ∀ s, (f s).fuses = s.fuses) (s : State) :
    (State.inOneCycle f s).fuses = s.fuses := by
  simp [State.inOneCycle, hf]

@[simp] theorem State.counterWrap_fuses (fuel c : Nat) (s : State) : (State.counterWrap fuel c s).fuses = s.fuses := by
  obtain ⟨p, r, h⟩ := State.counterWrap_changes_pmc fuel c s
  rw [h]
  rfl

@[simp] theorem State.pmcTc_fuses (s : State) (i ev n : Nat) : (State.pmcTc s i ev n).fuses = s.fuses := by simp [State.pmcTc]
@[simp] theorem State.pmcBn_fuses (s : State) (e ev n : Nat) : (State.pmcBn s e ev n).fuses = s.fuses := by simp [State.pmcBn]
@[simp] theorem State.pmcBk_fuses (s : State) (e ev n : Nat) : (State.pmcBk s e ev n).fuses = s.fuses := by simp [State.pmcBk]
@[simp] theorem State.pmcPort_fuses (s : State) (i ev n : Nat) : (State.pmcPort s i ev n).fuses = s.fuses := by simp [State.pmcPort]
@[simp] theorem State.pmcSrp_fuses (s : State) (k ev n : Nat) : (State.pmcSrp s k ev n).fuses = s.fuses := by simp [State.pmcSrp]

@[simp] theorem State.pmcSquare_fuses (s : State) (ev n : Nat) : (State.pmcSquare s ev n).fuses = s.fuses := by
  simp [State.pmcSquare]

@[simp] theorem State.pmcAdm_fuses (s : State) (ev n : Nat) : (State.pmcAdm s ev n).fuses = s.fuses := by simp [State.pmcAdm]
@[simp] theorem State.pmcKs_fuses (s : State) (ev n : Nat) : (State.pmcKs s ev n).fuses = s.fuses := by simp [State.pmcKs]
@[simp] theorem State.pmcRng_fuses (s : State) (ev n : Nat) : (State.pmcRng s ev n).fuses = s.fuses := by simp [State.pmcRng]

@[simp] theorem State.pmcMovers_fuses (s : State) (ev n : Nat) : (State.pmcMovers s ev n).fuses = s.fuses := by
  simp [State.pmcMovers]

@[simp] theorem State.askRestart_fuses (s : State) (r : Restart) : (State.askRestart s r).fuses = s.fuses := (rfl)
@[simp] theorem State.enter_fuses (s : State) (d : DevState) : (State.enter s d).fuses = s.fuses := (rfl)

/-! ### Machine/Recorder -/

@[simp] theorem writeRecord_fuses (s : State) (r : Record) : (writeRecord s r).fuses = s.fuses := by simp [writeRecord]
@[simp] theorem sectorFailed_fuses (s : State) : (sectorFailed s).fuses = s.fuses := by simp [sectorFailed]

@[simp] theorem execRecordWrite_fuses (sectorFails : Bool) (s : State) : KeepsFuses s (execRecordWrite sectorFails s) := by
  unfold execRecordWrite
  split <;> simp

@[simp] theorem execRecTokenGain_fuses (s : State) : KeepsFuses s (execRecTokenGain s) := by simp [execRecTokenGain]
@[simp] theorem execOperatingSecond_fuses (s : State) : KeepsFuses s (execOperatingSecond s) := by simp [execOperatingSecond]
@[simp] theorem thermalUpdate_fuses (s : State) (r : List Int) : (thermalUpdate s r).fuses = s.fuses := by simp [thermalUpdate]

@[simp] theorem execCounterWrapped_fuses (counter : Nat) (s : State) : KeepsFuses s (execCounterWrapped counter s) := by
  simp [execCounterWrapped]

@[simp] theorem execPmcCtrlSnap_fuses (s : State) : KeepsFuses s (execPmcCtrlSnap s) := by simp [execPmcCtrlSnap]
@[simp] theorem pmcSelect_fuses (s : State) (counter event : Nat) : (pmcSelect s counter event).fuses = s.fuses := (rfl)

@[simp] theorem execPmcSelWrite_fuses (counter event : Nat) (s : State) : KeepsFuses s (execPmcSelWrite counter event s) := by
  simp [execPmcSelWrite]

@[simp] theorem pmcSnapshot_fuses (s : State) (cause : Nat) : (pmcSnapshot s cause).fuses = s.fuses := (rfl)
@[simp] theorem tickSnapshot_fuses (s : State) : (tickSnapshot s).fuses = s.fuses := by simp [tickSnapshot]

/-! ### Machine/Square -/

@[simp] theorem State.putSlot_fuses (s : State) (k : Nat) (x : Slot) : (State.putSlot s k x).fuses = s.fuses := (rfl)
@[simp] theorem State.modSlot_fuses (s : State) (k : Nat) (f : Slot → Slot) : (State.modSlot s k f).fuses = s.fuses := (rfl)
@[simp] theorem State.joinReady_fuses (s : State) (k n : Nat) : (State.joinReady s k n).fuses = s.fuses := by simp [State.joinReady]

@[simp] theorem State.checkReady_fuses (s : State) (k n : Nat) : (State.checkReady s k n).fuses = s.fuses := by
  simp [State.checkReady]

@[simp] theorem State.setFlag_fuses (s : State) (k n i : Nat) : (State.setFlag s k n i).fuses = s.fuses := by simp [State.setFlag]
@[simp] theorem State.clearFlag_fuses (s : State) (k n i : Nat) : (State.clearFlag s k n i).fuses = s.fuses := (rfl)

@[simp] theorem State.setFlagAll_fuses (s : State) (k i : Nat) : (State.setFlagAll s k i).fuses = s.fuses := by
  simp [State.setFlagAll]

@[simp] theorem State.insertDelay_fuses (s : State) (e : DelayEntry) : (State.insertDelay s e).fuses = s.fuses := (rfl)

@[simp] theorem State.dropDelay_fuses (s : State) (k : Nat) (node : Option Nat) :
    (State.dropDelay s k node).fuses = s.fuses := (rfl)

@[simp] theorem State.releaseEntry_fuses (s : State) (e : DelayEntry) : (State.releaseEntry s e).fuses = s.fuses := by
  unfold State.releaseEntry
  split <;> simp

@[simp] theorem State.addDelay_fuses (s : State) (e : DelayEntry) : (State.addDelay s e).fuses = s.fuses := by simp [State.addDelay]

@[simp] theorem State.releaseDue_fuses (s : State) (unlisted : List DelayEntry) :
    (State.releaseDue s unlisted).fuses = s.fuses := by
  simp [State.releaseDue]

@[simp] theorem execDelayListRelease_fuses (k : Nat) (s : State) : KeepsFuses s (execDelayListRelease k s) := by
  simp [execDelayListRelease]

@[simp] theorem State.dropReady_fuses (s : State) (k : Nat) : (State.dropReady s k).fuses = s.fuses := (rfl)

/-! ### Machine/Admission -/

@[simp] theorem State.grantAt_fuses (s : State) (k : Nat) (c : Charge) (a d : Nat) : (State.grantAt s k c a d).fuses = s.fuses := by
  simp [State.grantAt]

@[simp] theorem State.answer_fuses (s : State) (k st : Nat) : (State.answer s k st).fuses = s.fuses := (rfl)
@[simp] theorem State.release_fuses (s : State) (req : Nat) : (State.release s req).fuses = s.fuses := (rfl)
@[simp] theorem State.trimLedger_fuses (s : State) : (State.trimLedger s).fuses = s.fuses := (rfl)

@[simp] theorem State.startWake_fuses (s : State) (d cause : Nat) : (State.startWake s d cause).fuses = s.fuses := by
  simp [State.startWake]

@[simp] theorem State.wakeFor_fuses (s : State) (x : Slot) (a left lo : Nat) : (State.wakeFor s x a left lo).fuses = s.fuses := by
  fun_cases State.wakeFor <;> simp

@[simp] theorem PassOut.grantAt_fuses (o : PassOut) (k : Nat) (c : Charge) (a : Nat) :
    (PassOut.grantAt o k c a).s.fuses = o.s.fuses := by
  unfold PassOut.grantAt
  dsimp only
  split <;> simp

@[simp] theorem PassOut.answer_fuses (o : PassOut) (k st : Nat) : (PassOut.answer o k st).s.fuses = o.s.fuses := by
  simp [PassOut.answer]

@[simp] theorem frontagePass_fuses (a : Nat) (o : PassOut) (k : Nat) : (frontagePass a o k).s.fuses = o.s.fuses := by
  unfold frontagePass
  dsimp only
  repeat' split
  all_goals simp

@[simp] theorem plazaPass_fuses (a : Nat) (o : PassOut) (k : Nat) : (plazaPass a o k).s.fuses = o.s.fuses := by
  unfold plazaPass
  dsimp only
  repeat' split
  all_goals simp

theorem admissionPass_fuses (s : State) (a : Nat) : (admissionPass s a).s.fuses = s.fuses := by
  unfold admissionPass
  extract_lets cs o rest o1 limit pass adm s1 s2
  have ho : o.s.fuses = s.fuses := fuses_foldl_of PassOut.s _ _ (frontagePass_fuses a)
  have ho1 : o1.s.fuses = o.s.fuses := fuses_foldl_of PassOut.s _ _ (plazaPass_fuses a)
  have h1 : s1.fuses = o1.s.fuses := rfl
  have h2 : s2.fuses = s1.fuses := State.pmcAdm_fuses ..
  rw [h1, ho1, ho] at h2
  clear_value s2
  split
  · exact (State.raise_fuses ..).trans h2
  · exact h2

@[simp] theorem replacePass_fuses (s : State) (a : Nat) : (replacePass s a).1.fuses = s.fuses := by
  unfold replacePass
  induction folioReached using forAnyTest with
  | any reached =>
    refine fuses_foldl_of Prod.fst _ (s, _) fun acc p => ?_
    obtain ⟨s, failed, placed⟩ := acc
    dsimp only
    split
    · exact State.raise_fuses ..
    · rfl

@[simp] theorem shedIn_fuses (a : Nat) (r : Res) (f : Nat) (plazaToo : Bool) (fuel : Nat) (acc : State × List (Nat × ChargeKind)) :
    (shedIn a r f plazaToo fuel acc).1.fuses = acc.1.fuses := by
  induction fuel generalizing acc with
  | zero => rfl
  | succ fuel ih =>
    obtain ⟨s, shed⟩ := acc
    simp only [shedIn]
    split
    · split
      · rfl
      · split
        · rfl
        · simp [ih]
    · rfl

@[simp] theorem precedence_fuses (s : State) (a : Nat) (plazaToo : Bool) : (precedence s a plazaToo).1.fuses = s.fuses := by
  have hfold := fuses_foldl_of Prod.fst ((s.ledgerFolios a).flatMap (fun f => allRes.map (fun r => (f, r))))
    (s, ([] : List (Nat × ChargeKind))) fun acc p => shedIn_fuses a p.2 p.1 plazaToo (s.adm.ledger.length + 1) acc
  unfold precedence
  dsimp only
  split
  · exact hfold
  · simp only [State.pmcAdm_fuses, State.raise_fuses]
    exact hfold

@[simp] theorem State.capacityLost_fuses (s : State) (cls unit amount : Nat) :
    (State.capacityLost s cls unit amount).fuses = s.fuses := by
  simp [State.capacityLost]

@[simp] theorem State.modPort_fuses (s : State) (i : Nat) (f : Port → Port) : (State.modPort s i f).fuses = s.fuses := (rfl)
@[simp] theorem State.refillPort_fuses (s : State) (i : Nat) : (State.refillPort s i).fuses = s.fuses := (rfl)
@[simp] theorem State.spend_fuses (s : State) (i bytes : Nat) : (State.spend s i bytes).fuses = s.fuses := (rfl)

/-! ### Machine/Ports -/

@[simp] theorem State.portCnt_fuses (s : State) (i k n : Nat) : (State.portCnt s i k n).fuses = s.fuses := (rfl)
@[simp] theorem State.portEvent_fuses (s : State) (i b : Nat) : (State.portEvent s i b).fuses = s.fuses := (rfl)
@[simp] theorem State.transmit_fuses (s : State) (i : Nat) (f : TxFrame) : (State.transmit s i f).fuses = s.fuses := (rfl)

@[simp] theorem State.sendAllowed_fuses (s : State) (i len : Nat) (f : TxFrame) :
    (State.sendAllowed s i len f).fuses = s.fuses := by
  simp [State.sendAllowed]

@[simp] theorem State.keepPlace_fuses (s : State) (i k : Nat) : (State.keepPlace s i k).fuses = s.fuses := (rfl)

@[simp] theorem State.drainWaiting_fuses (i n : Nat) (s : State) : (State.drainWaiting i n s).fuses = s.fuses := by
  induction n generalizing s with
  | zero => rfl
  | succ n ih =>
    unfold State.drainWaiting
    split
    · rfl
    · simp [ih]

@[simp] theorem linkUpPort_fuses (s : State) (i speed : Nat) : (linkUpPort s i speed).fuses = s.fuses := by simp [linkUpPort]
@[simp] theorem execLinkUp_fuses (lport speed : Nat) (s : State) : KeepsFuses s (execLinkUp lport speed s) := by simp [execLinkUp]
@[simp] theorem execLinkDown_fuses (lport : Nat) (s : State) : KeepsFuses s (execLinkDown lport s) := by simp [execLinkDown]

@[simp] theorem execFecDegraded_fuses (lport corrected uncorrected : Nat) (s : State) :
    KeepsFuses s (execFecDegraded lport corrected uncorrected s) := by
  simp [execFecDegraded]

@[simp] theorem rxIp_fuses (s : State) (i : Nat) (f : RxFrame) : (rxIp s i f).fuses = s.fuses := by simp [rxIp]

@[simp] theorem rxFrame_fuses (s : State) (i : Nat) (f : RxFrame) : (rxFrame s i f).fuses = s.fuses := by
  unfold rxFrame
  dsimp only
  repeat' split
  all_goals simp

@[simp] theorem execFrameReceive_fuses (lport : Nat) (f : RxFrame) (s : State) : KeepsFuses s (execFrameReceive lport f s) := by
  simp [execFrameReceive]

@[simp] theorem installSak_fuses (s : State) (i peer an kn : Nat) (sak : Bytes) :
    (installSak s i peer an kn sak).fuses = s.fuses := by
  simp [installSak]

@[simp] theorem execMkaFrameReceive_fuses (lport : Nat) (m : MkaMsg) (s : State) :
    KeepsFuses s (execMkaFrameReceive lport m s) := by
  unfold execMkaFrameReceive
  dsimp only
  repeat' split
  all_goals simp

@[simp] theorem execMacsecPeerLost_fuses (lport sci : Nat) (s : State) : KeepsFuses s (execMacsecPeerLost lport sci s) := by
  simp [execMacsecPeerLost]

@[simp] theorem execArpRequestReceive_fuses (lport mac ip target : Nat) (s : State) :
    KeepsFuses s (execArpRequestReceive lport mac ip target s) := by
  simp [execArpRequestReceive]

@[simp] theorem execNeighbourSolicitationReceive_fuses (lport mac ip target : Nat) (s : State) :
    KeepsFuses s (execNeighbourSolicitationReceive lport mac ip target s) := by
  simp [execNeighbourSolicitationReceive]

@[simp] theorem addNeighbour_fuses (s : State) (i ip mac : Nat) : (addNeighbour s i ip mac).fuses = s.fuses := (rfl)
@[simp] theorem addrConflict_fuses (s : State) (i ip : Nat) : (addrConflict s i ip).fuses = s.fuses := by simp [addrConflict]

@[simp] theorem execArpReplyReceive_fuses (lport mac ip : Nat) (s : State) : KeepsFuses s (execArpReplyReceive lport mac ip s) := by
  simp [execArpReplyReceive]

@[simp] theorem execNeighbourAdvertisementReceive_fuses (lport mac ip : Nat) (s : State) :
    KeepsFuses s (execNeighbourAdvertisementReceive lport mac ip s) := by
  simp [execNeighbourAdvertisementReceive]

@[simp] theorem execDadComplete_fuses (lport j : Nat) (s : State) : KeepsFuses s (execDadComplete lport j s) := by
  simp [execDadComplete]

@[simp] theorem execNeighbourEntryExpiry_fuses (lport ip : Nat) (s : State) :
    KeepsFuses s (execNeighbourEntryExpiry lport ip s) := by
  simp [execNeighbourEntryExpiry]

@[simp] theorem execIcmpEchoReceive_fuses (lport : Nat) (src : Source4) (data : Bytes) (s : State) :
    KeepsFuses s (execIcmpEchoReceive lport src data s) := by
  simp [execIcmpEchoReceive]

/-! ### Machine/Srp -/

@[simp] theorem State.putChan_fuses (s : State) (c : Nat) (x : Channel) : (State.putChan s c x).fuses = s.fuses := (rfl)
@[simp] theorem State.modChan_fuses (s : State) (c : Nat) (f : Channel → Channel) : (State.modChan s c f).fuses = s.fuses := (rfl)
@[simp] theorem State.srpCnt_fuses (s : State) (k n : Nat) : (State.srpCnt s k n).fuses = s.fuses := (rfl)
@[simp] theorem State.srpEvent_fuses (s : State) (b : Nat) : (State.srpEvent s b).fuses = s.fuses := (rfl)
@[simp] theorem State.freeChan_fuses (s : State) (c : Nat) : (State.freeChan s c).fuses = s.fuses := by simp [State.freeChan]

@[simp] theorem State.beginClosing_fuses (s : State) (c cause : Nat) : (State.beginClosing s c cause).fuses = s.fuses := by
  simp [State.beginClosing]

@[simp] theorem State.dropReply_fuses (s : State) (lport tenant : Nat) : (State.dropReply s lport tenant).fuses = s.fuses := by
  simp [State.dropReply]

@[simp] theorem State.sendOn_fuses (s : State) (c lport : Nat) (dst : Source4) (type : Nat) (close : Bool) (count : Nat)
    (rest pt : Bytes) (slots : List Nat) (allowed : Bool) :
    (State.sendOn s c lport dst type close count rest pt slots allowed).fuses = s.fuses := by
  simp [State.sendOn]

@[simp] theorem State.closeFinal_fuses (s : State) (c : Nat) : (State.closeFinal s c).fuses = s.fuses := by simp [State.closeFinal]

@[simp] theorem State.nack_fuses (s : State) (c lport : Nat) (dst : Source4) (reqSeq reason : Nat) :
    (State.nack s c lport dst reqSeq reason).fuses = s.fuses := by
  simp [State.nack]

@[simp] theorem State.nackHs_fuses (s : State) (c lport : Nat) (dst : Source4) (reqSeq reason : Nat) :
    (State.nackHs s c lport dst reqSeq reason).fuses = s.fuses := by
  simp [State.nackHs]

@[simp] theorem State.placeSlot_fuses (s : State) (x : Slot) : (State.placeSlot s x).2.fuses = s.fuses := (rfl)

@[simp] theorem State.placeRecord_fuses (s : State) (o : Origin) (type i : Nat) (r : Rec) :
    (State.placeRecord s o type i r).fuses = s.fuses := by
  simp [State.placeRecord]

@[simp] theorem State.placeAll_fuses (s : State) (o : Origin) (type i : Nat) (rs : List Rec) :
    (s.placeAll o type i rs).fuses = s.fuses := by
  induction rs generalizing s i with
  | nil => rfl
  | cons r rs ih => simp [State.placeAll, ih]

@[simp] theorem State.tagFailure_fuses (s : State) (lport : Nat) : (State.tagFailure s lport).fuses = s.fuses := by
  simp [State.tagFailure]

@[simp] theorem State.replayRefusal_fuses (s : State) (lport : Nat) : (State.replayRefusal s lport).fuses = s.fuses := by
  simp [State.replayRefusal]

@[simp] theorem State.popIngress_fuses (s : State) (lport : Nat) : (State.popIngress s lport).fuses = s.fuses := (rfl)

theorem State.headerDrop_fuses (s : State) (lport : Nat) (b : Bytes) {t : State} (hsome : State.headerDrop s lport b = some t) :
    t.fuses = s.fuses := by
  unfold State.headerDrop at hsome
  repeat' split at hsome
  all_goals cases hsome
  all_goals simp

@[simp] theorem State.dropped_fuses (s : State) (lport c : Nat) : (State.dropped s lport c).fuses = s.fuses := by
  simp [State.dropped]

theorem State.channelDrop_fuses {s t : State} {d : Dgram} {want : ChanState} (hsome : s.channelDrop d want = some t) :
    t.fuses = s.fuses := by
  unfold State.channelDrop at hsome
  extract_lets b c x at hsome
  split at hsome
  · simp [← Option.some.inj hsome]
  · split at hsome
    · simp [← Option.some.inj hsome]
    · cases hsome

@[simp] theorem acceptDgram_fuses (s : State) (d : Dgram) (c : Nat) (pt : Bytes) : (acceptDgram s d c pt).fuses = s.fuses := by
  unfold acceptDgram
  dsimp only
  repeat' split
  all_goals simp

@[simp] theorem dropHeader_fuses (s : State) (lport : Nat) (b : Bytes) : (dropHeader s lport b).fuses = s.fuses := by
  unfold dropHeader
  split
  · next hdrop => simpa using State.headerDrop_fuses _ _ _ hdrop
  · rfl

@[simp] theorem clientDgram_fuses (s : State) (lport type : Nat) : (clientDgram s lport type).fuses = s.fuses := by
  unfold clientDgram
  split
  · rfl
  · dsimp only
    split
    · simp
    · split
      · rfl
      · split
        · simp
        · split
          · next hdrop => simpa using State.channelDrop_fuses hdrop
          · repeat' split
            all_goals simp

@[simp] theorem execReqDatagramReceive_fuses (lport : Nat) (s : State) : KeepsFuses s (execReqDatagramReceive lport s) := by
  simp [execReqDatagramReceive]

@[simp] theorem execMgmtDatagramReceive_fuses (lport : Nat) (s : State) : KeepsFuses s (execMgmtDatagramReceive lport s) := by
  simp [execMgmtDatagramReceive]

@[simp] theorem execBulkDatagramReceive_fuses (lport : Nat) (s : State) : KeepsFuses s (execBulkDatagramReceive lport s) := by
  simp [execBulkDatagramReceive]

@[simp] theorem State.placeHs_fuses (s : State) (c lport : Nat) (src : Source4) (func seq len : Nat) (payload : Bytes) :
    (State.placeHs s c lport src func seq len payload).fuses = s.fuses := (rfl)

@[simp] theorem execHs1Receive_fuses (lport : Nat) (s : State) : KeepsFuses s (execHs1Receive lport s) := by
  unfold execHs1Receive
  split <;> simp

@[simp] theorem State.acceptHs3_fuses (s : State) (lport c : Nat) (src : Source4) :
    (State.acceptHs3 s lport c src).fuses = s.fuses := by
  simp [State.acceptHs3]

@[simp] theorem execHs3Receive_fuses (lport : Nat) (s : State) : KeepsFuses s (execHs3Receive lport s) := by
  unfold execHs3Receive
  split
  · simp
  · dsimp only
    split
    · simp
    · split
      · simp
      · split
        · next hdrop => simpa using State.channelDrop_fuses hdrop
        · repeat' split
          all_goals simp

@[simp] theorem execHandshakeTimeout_fuses (chan : Nat) (s : State) : KeepsFuses s (execHandshakeTimeout chan s) := by
  unfold execHandshakeTimeout
  dsimp only
  split <;> simp

@[simp] theorem execChannelIdleTimeout_fuses (chan : Nat) (s : State) : KeepsFuses s (execChannelIdleTimeout chan s) := by
  simp [execChannelIdleTimeout]

/-! ### Machine/Egress -/

@[simp] theorem formRep_fuses (s : State) (c : Nat) : (formRep s c).fuses = s.fuses := by
  unfold formRep
  split <;> simp

@[simp] theorem execRepForm_fuses (chan : Nat) (s : State) : KeepsFuses s (execRepForm chan s) := by simp [execRepForm]
@[simp] theorem State.freeSlotAt_fuses (s : State) (k : Nat) : (State.freeSlotAt s k).fuses = s.fuses := (rfl)

@[simp] theorem execReplyFrameLeft_fuses (lport : Nat) (s : State) : KeepsFuses s (execReplyFrameLeft lport s) := by
  unfold execReplyFrameLeft
  dsimp only
  split <;> simp

/-! ### Machine/KeyStore -/

@[simp] theorem State.ksCnt_fuses (s : State) (k n : Nat) : (State.ksCnt s k n).fuses = s.fuses := (rfl)
@[simp] theorem State.ksEvent_fuses (s : State) (b : Nat) : (State.ksEvent s b).fuses = s.fuses := (rfl)
@[simp] theorem State.change_fuses (s : State) : (State.change s).fuses = s.fuses := (rfl)

@[simp] theorem State.journal_fuses (s : State) (kind : Nat) (body : Bytes) : (State.journal s kind body).fuses = s.fuses := by
  simp [State.journal]

@[simp] theorem State.putSmk_fuses (s : State) (t j : Nat) (x : SmkSlot) : (State.putSmk s t j x).fuses = s.fuses := (rfl)
@[simp] theorem cacheInsert_fuses (s : State) (b : CacheBinding) : (cacheInsert s b).fuses = s.fuses := by simp [cacheInsert]
@[simp] theorem purge_fuses (s : State) (p : CacheBinding → Bool) : (purge s p).2.fuses = s.fuses := by simp [purge]

@[simp] theorem State.keyAnswer_fuses (s : State) (t st : Nat) : (State.keyAnswer s t st).fuses = s.fuses := by
  simp [State.keyAnswer]

@[simp] theorem State.putResident_fuses (s : State) (slot : Nat) (r : Resident) :
    (State.putResident s slot r).fuses = s.fuses := (rfl)

@[simp] theorem resolveResident_fuses (s : State) (t a slot : Nat) : (resolveResident s t a slot).2.fuses = s.fuses := by
  unfold resolveResident
  dsimp only
  repeat' split
  all_goals simp

@[simp] theorem cacheLookup_fuses (s : State) (p : CacheBinding → Bool) : (cacheLookup s p).2.fuses = s.fuses := by
  unfold cacheLookup
  dsimp only
  split <;> simp

@[simp] theorem lookupBlock_fuses (s : State) (t a j : Nat) (b : Bytes) : (lookupBlock s t a j b).2.fuses = s.fuses := by
  unfold lookupBlock
  split
  · simp
  · next g _ =>
    have hlook := cacheLookup_fuses s
      (fun c => c.tenant == t && c.rootSlot == j && c.rootGen == g.gen && c.digest == blockDigest b)
    dsimp only
    split
    all_goals
      next heq =>
        rw [heq] at hlook
        exact hlook

@[simp] theorem State.shares_fuses (s : State) (pub : Bool) (k : Bytes) : (State.shares s pub k).2.2.fuses = s.fuses := by
  unfold State.shares
  split <;> simp

@[simp] theorem unwrapBlock_fuses (s : State) (t a j : Nat) (b : Bytes) : (unwrapBlock s t a j b).2.fuses = s.fuses := by
  unfold unwrapBlock
  dsimp only
  repeat' split
  all_goals simp

@[simp] theorem lookupRef_fuses (s : State) (t a : Nat) (p : Bytes) (k : KRef) : (lookupRef s t a p k).2.fuses = s.fuses := by
  unfold lookupRef
  split <;> simp

@[simp] theorem resolveRef_fuses (s : State) (t a : Nat) (p : Bytes) (k : KRef) : (resolveRef s t a p k).2.fuses = s.fuses := by
  unfold resolveRef
  dsimp only
  split <;> simp

@[simp] theorem lookupChild_fuses (s : State) (h : Handle) (digest : Bytes) : (lookupChild s h digest).2.fuses = s.fuses := by
  have hlook := cacheLookup_fuses s
    (fun c => c.tenant == h.tenant && c.rootSlot == 0xFF && c.parent == h.parent && c.digest == digest)
  unfold lookupChild
  split
  · rfl
  · split
    all_goals
      next heq =>
        rw [heq] at hlook
        exact hlook

@[simp] theorem storeChild_fuses (s : State) (parent child : Handle) (digest : Bytes) (level : Nat) :
    (storeChild s parent child digest level).fuses = s.fuses := by
  simp [storeChild]

@[simp] theorem advance_fuses (s : State) (t a req slot v psn digits : Nat) (id : Bytes) :
    (advance s t a req slot v psn digits id).2.fuses = s.fuses := by
  unfold advance
  dsimp only
  repeat' split
  all_goals simp

@[simp] theorem settleClaims_fuses (s : State) (req : Nat) (claims : List (Nat × Nat)) (committed : Bool) :
    (settleClaims s req claims committed).fuses = s.fuses := by
  simp [settleClaims]

/-! ### Machine/Units -/

@[simp] theorem State.unitError_fuses (s : State) (unit kind : Nat) : (State.unitError s unit kind).fuses = s.fuses := by
  simp [State.unitError]

@[simp] theorem State.taskFlag_fuses (s : State) (core i : Nat) (v : Bool) : (State.taskFlag s core i v).fuses = s.fuses := by
  unfold State.taskFlag
  split <;> simp

/-! ### Machine/Bn -/

@[simp] theorem State.putCurve_fuses (s : State) (i : Nat) (c : CurveRec) : (State.putCurve s i c).fuses = s.fuses := (rfl)

theorem fuses_of_ite_some {o : Option State} {s : State} {c : Prop} [Decidable c] (ho : ∀ t, o = some t → t.fuses = s.fuses) :
    ∀ t, (if c then o else some s) = some t → t.fuses = s.fuses := by
  intro t ht
  split at ht
  · exact ho t ht
  · rw [← Option.some.inj ht]

@[simp] theorem State.putBnHandle_fuses (s : State) (core : Nat) (h : Nat) (x : BnHandle) :
    (State.putBnHandle s core h x).fuses = s.fuses := (rfl)

@[simp] theorem State.modEngine_fuses (s : State) (e : Nat) (f : BnEngine → BnEngine) :
    (State.modEngine s e f).fuses = s.fuses := (rfl)

@[simp] theorem State.modBank_fuses (s : State) (e b : Nat) (f : Bank → Bank) : (State.modBank s e b f).fuses = s.fuses := (rfl)
@[simp] theorem State.bnCnt_fuses (s : State) (e k n : Nat) : (State.bnCnt s e k n).fuses = s.fuses := (rfl)
@[simp] theorem State.bnEvent_fuses (s : State) (b : Nat) : (State.bnEvent s b).fuses = s.fuses := (rfl)

@[simp] theorem openHandle_fuses (s : State) (core : Nat) (h tenant : Nat) (x : BnHandle) (not : Option Nat) :
    (openHandle s core h tenant x not).fuses = s.fuses := by
  unfold openHandle
  split <;> simp

theorem bopenOp_fuses (s : State) (core : Nat) (h value : Nat) {t : State} (hsome : bopenOp s core h value = some t) :
    t.fuses = s.fuses := by
  unfold bopenOp at hsome
  dsimp only at hsome
  repeat' split at hsome
  all_goals cases hsome
  all_goals simp

theorem bptrOp_fuses (s : State) (core : Nat) (h value : Nat) {t : State} (hsome : bptrOp s core h value = some t) :
    t.fuses = s.fuses := by
  unfold bptrOp at hsome
  dsimp only at hsome
  repeat' split at hsome
  all_goals cases hsome
  all_goals simp

theorem binOp_fuses (s : State) (core : Nat) (h : Nat) (value : Word128) {t : State} (hsome : binOp s core h value = some t) :
    t.fuses = s.fuses := by
  unfold binOp at hsome
  dsimp only at hsome
  repeat' split at hsome
  all_goals cases hsome
  all_goals simp

@[simp] theorem boutOp_fuses (s : State) (core : Nat) (h : Nat) : (boutOp s core h).2.fuses = s.fuses := by
  unfold boutOp
  dsimp only
  repeat' split
  all_goals simp

@[simp] theorem finishHandle_fuses (s : State) (core : Nat) (h st : Nat) : (finishHandle s core h st).fuses = s.fuses := by
  simp [finishHandle]

theorem bgoOp_fuses {s t : State} {core h value : Nat} {declared : Option Nat} (hsome : bgoOp s core h value declared = some t) :
    t.fuses = s.fuses := by
  unfold bgoOp at hsome
  split at hsome
  · cases hsome
    rfl
  · extract_lets x cv row overDeclared key use y s1 odd0 s2 odd finish waits s3 s4 at hsome
    have h2 : s2.fuses = s.fuses := by
      simp only [s2, s1]
      split <;> simp
    have hfinish : ∀ st, (finish s2 st).fuses = s.fuses := fun st => by
      simp only [finish]
      split <;> simp [h2]
    have h4 : s4.fuses = s.fuses := by simp [s4, s3, h2]
    clear_value s4 s2 finish overDeclared row cv
    split at hsome
    · cases hsome
    · split at hsome
      · rw [← Option.some.inj hsome, hfinish]
      · split at hsome
        · rw [← Option.some.inj hsome, hfinish]
        · simp [← Option.some.inj hsome, h4]

@[simp] theorem clearBank_fuses (s : State) (e b : Nat) : (clearBank s e b).fuses = s.fuses := (rfl)
@[simp] theorem freeEngine_fuses (s : State) (e : Nat) : (freeEngine s e).fuses = s.fuses := (rfl)
@[simp] theorem abortJob_fuses (s : State) (core h st : Nat) : (abortJob s core h st).fuses = s.fuses := by simp [abortJob]
@[simp] theorem releaseOne_fuses (s : State) (core h : Nat) : (releaseOne s core h).fuses = s.fuses := by simp [releaseOne]
@[simp] theorem brelOp_fuses (s : State) (core : Nat) (h : Nat) : (brelOp s core h).fuses = s.fuses := by simp [brelOp]
@[simp] theorem babortOp_fuses (s : State) (core : Nat) (h : Nat) : (babortOp s core h).fuses = s.fuses := by simp [babortOp]
@[simp] theorem endBnHandles_fuses (s : State) (core : Nat) : (endBnHandles s core).fuses = s.fuses := by simp [endBnHandles]

@[simp] theorem runOp_fuses (ops : List Nat) (e : Nat) (s : State) : (runOp ops e s).fuses = s.fuses := by
  unfold runOp
  split <;> simp

@[simp] theorem drawReserve_fuses (s : State) (d left : Nat) : (drawReserve s d left).fuses = s.fuses := by simp [drawReserve]
@[simp] theorem countRetry_fuses (s : State) : (countRetry s).fuses = s.fuses := (rfl)

@[simp] theorem mlDsaIterationOp_fuses (s : State) (e : Nat) : (mlDsaIterationOp s e).fuses = s.fuses := by
  fun_cases mlDsaIterationOp <;> simp

@[simp] theorem completeHalf_fuses (s : State) (core : Nat) (h st cyc inv iter : Nat) (refused : Bool) :
    (completeHalf s core h st cyc inv iter refused).fuses = s.fuses := by
  simp [completeHalf]

@[simp] theorem bnCompleteOp_fuses (s : State) (e : Nat) : (bnCompleteOp s e).fuses = s.fuses := by
  unfold bnCompleteOp
  dsimp only
  repeat' split
  all_goals simp

@[simp] theorem bankClearOp_fuses (s : State) (e b : Nat) : (bankClearOp s e b).fuses = s.fuses := by
  unfold bankClearOp
  dsimp only
  repeat' split
  all_goals simp

@[simp] theorem stopRandomJobs_fuses (s : State) : (stopRandomJobs s).fuses = s.fuses := by
  unfold stopRandomJobs
  extract_lets jobs
  rw [fuses_ite, State.bnEvent_fuses, ite_self]
  refine fuses_foldl_of Prod.fst jobs (s, false) fun acc p => ?_
  dsimp only
  split <;> simp

@[simp] theorem startValidation_fuses (s : State) : (startValidation s).fuses = s.fuses := by fun_cases startValidation <;> simp

@[simp] theorem sliceEndOp_fuses (s : State) (e progress : Nat) : (sliceEndOp s e progress).fuses = s.fuses := by
  unfold sliceEndOp
  dsimp only
  repeat' split
  all_goals simp

@[simp] theorem State.bases_fuses (s : State) (n : Nat) : (s.bases n).2.fuses = s.fuses := by
  induction n generalizing s with
  | zero => rfl
  | succ n ih => exact (ih _).trans (State.random_fuses s 72)

@[simp] theorem endBackground_fuses (s : State) (e b : Nat) : (endBackground s e b).fuses = s.fuses := by simp [endBackground]

@[simp] theorem validationOp_fuses (s : State) (e : Nat) : (validationOp s e).fuses = s.fuses := by
  unfold validationOp
  split <;> simp

/-! ### Machine/Bulk -/

@[simp] theorem State.bulkCnt_fuses (s : State) (k n : Nat) : (State.bulkCnt s k n).fuses = s.fuses := (rfl)
@[simp] theorem State.bulkEvent_fuses (s : State) (b : Nat) : (State.bulkEvent s b).fuses = s.fuses := (rfl)
@[simp] theorem State.putStream_fuses (s : State) (c : Nat) (x : Stream) : (State.putStream s c x).fuses = s.fuses := (rfl)
@[simp] theorem State.noteBulk_fuses (s : State) (st : Nat) : (State.noteBulk s st).fuses = s.fuses := by simp [State.noteBulk]
@[simp] theorem failStream_fuses (s : State) (c : Nat) : (failStream s c).fuses = s.fuses := by simp [failStream]

@[simp] theorem acceptJob_fuses (s : State) (k : Nat) (op : BulkOp) (context : Nat) (rekey : Bool) :
    (acceptJob s k op context rekey).fuses = s.fuses := (rfl)

@[simp] theorem bulkAnswer_fuses (s : State) (k : Nat) (op : BulkOp) (kin kout : Handle) :
    (bulkAnswer s k op kin kout).2.fuses = s.fuses := by
  unfold bulkAnswer
  dsimp only
  repeat' split
  all_goals simp

@[simp] theorem startJob_fuses (s : State) : (startJob s).fuses = s.fuses := by
  unfold startJob
  split <;> simp

@[simp] theorem finishJob_fuses (s : State) (j : BulkJob) : (finishJob s j).2.fuses = s.fuses := by
  unfold finishJob
  dsimp only
  repeat' split
  all_goals simp

@[simp] theorem removeJob_fuses (s : State) (j : BulkJob) : (removeJob s j).fuses = s.fuses := by simp [removeJob]

@[simp] theorem withdrawJob_fuses (s : State) (k : Nat) : (withdrawJob s k).fuses = s.fuses := by
  unfold withdrawJob
  split <;> simp

@[simp] theorem countJob_fuses (s : State) (j : BulkJob) : (countJob s j).fuses = s.fuses := by simp [countJob]

@[simp] theorem rerunJob_fuses (s : State) (e : Nat) : (rerunJob s e).1.fuses = s.fuses := by
  unfold rerunJob
  dsimp only
  repeat' split
  all_goals simp

/-! ### Machine/Rng -/

@[simp] theorem State.rngCnt_fuses (s : State) (k n : Nat) : (State.rngCnt s k n).fuses = s.fuses := (rfl)
@[simp] theorem State.rngEvent_fuses (s : State) (b : Nat) : (State.rngEvent s b).fuses = s.fuses := (rfl)
@[simp] theorem State.putSource_fuses (s : State) (k : Nat) (x : Source) : (State.putSource s k x).fuses = s.fuses := (rfl)
@[simp] theorem State.putDrbg_fuses (s : State) (i : Nat) (x : Drbg) : (State.putDrbg s i x).fuses = s.fuses := (rfl)
@[simp] theorem State.setRng_fuses (s : State) (r : RngState) : (State.setRng s r).fuses = s.fuses := (rfl)
@[simp] theorem beginForced_fuses (s : State) (k : Nat) : (beginForced s k).fuses = s.fuses := by simp [beginForced]
@[simp] theorem randLost_fuses (s : State) (amount : Nat) : (randLost s amount).fuses = s.fuses := by simp [randLost]

@[simp] theorem changeActive_fuses (s : State) (k discarded : Nat) : (changeActive s k discarded).fuses = s.fuses := by
  simp [changeActive]

@[simp] theorem rngFail_fuses (s : State) (last : Nat) : (rngFail s last).fuses = s.fuses := by simp [rngFail]
@[simp] theorem rngCOnly_fuses (s : State) (discarded : Nat) : (rngCOnly s discarded).fuses = s.fuses := by simp [rngCOnly]

@[simp] theorem sourceLost_fuses (s : State) (k discarded : Nat) : (sourceLost s k discarded).fuses = s.fuses := by
  simp [sourceLost]

@[simp] theorem sourceBack_fuses (s : State) (k : Nat) : (sourceBack s k).fuses = s.fuses := by
  unfold sourceBack
  dsimp only
  repeat' split
  all_goals simp

@[simp] theorem sourceFails_fuses (s : State) (k test value : Nat) : (sourceFails s k test value).fuses = s.fuses := by
  simp [sourceFails]

@[simp] theorem windowEnd_fuses (s : State) (k : Nat) (samples : Bytes) : (windowEnd s k samples).fuses = s.fuses := by
  unfold windowEnd
  dsimp only
  repeat' split
  all_goals simp

@[simp] theorem execSourceWindowEnd_fuses (source : Nat) (samples : Bytes) (s : State) :
    KeepsFuses s (execSourceWindowEnd source samples s) := by
  simp [execSourceWindowEnd]

@[simp] theorem execSourceTestFailure_fuses (source test value : Nat) (s : State) :
    KeepsFuses s (execSourceTestFailure source test value s) := by
  simp [execSourceTestFailure]

@[simp] theorem execSourceEstimate_fuses (source ones : Nat) (sums : List Int) (s : State) :
    KeepsFuses s (execSourceEstimate source ones sums s) := by
  unfold execSourceEstimate
  dsimp only
  repeat' split
  all_goals simp

theorem State.takeSeed_fuses {s t : State} {k : Nat} {seed : Bytes} (h : s.takeSeed k = some (seed, t)) : t.fuses = s.fuses := by
  unfold State.takeSeed at h
  split at h
  · cases h
  · cases h
    rfl

@[simp] theorem reseed_fuses (s : State) (i k : Nat) (seed : Bytes) : (reseed s i k seed).fuses = s.fuses := by simp [reseed]

@[simp] theorem execDrbgScheduledReseed_fuses (instance_ : Nat) (s : State) :
    KeepsFuses s (execDrbgScheduledReseed instance_ s) := by
  unfold execDrbgScheduledReseed
  dsimp only
  split
  · simp
  · split
    · simp
    · next hseed => simpa using State.takeSeed_fuses hseed

@[simp] theorem execForcedReseedComplete_fuses (cycles : Nat) (s : State) : KeepsFuses s (execForcedReseedComplete cycles s) := by
  unfold execForcedReseedComplete
  split <;> simp

@[simp] theorem commandReseed_fuses (s : State) (chan : Nat) : (commandReseed s chan).fuses = s.fuses := by simp [commandReseed]

@[simp] theorem execRngCtrlReseed_fuses (chan : Nat) (s : State) : KeepsFuses s (execRngCtrlReseed chan s) := by
  simp [execRngCtrlReseed]

@[simp] theorem execTenantPoolFull_fuses (s : State) : KeepsFuses s (execTenantPoolFull s) := by simp [execTenantPoolFull]

@[simp] theorem execDrbgInstanceError_fuses (instance_ : Nat) (s : State) : KeepsFuses s (execDrbgInstanceError instance_ s) := by
  simp [execDrbgInstanceError]

@[simp] theorem execDrbgInstanceReturn_fuses (instance_ : Nat) (katOk : Bool) (s : State) :
    KeepsFuses s (execDrbgInstanceReturn instance_ katOk s) := by
  unfold execDrbgInstanceReturn
  dsimp only
  split
  · simp
  · split
    · simp
    · split
      · simp
      · next hseed => simpa using State.takeSeed_fuses hseed

@[simp] theorem State.putRandPort_fuses (s : State) (core : Nat) (x : RandPort) :
    (State.putRandPort s core x).fuses = s.fuses := (rfl)

@[simp] theorem drawBlocks_fuses (s : State) (tenant : Bool) (n : Nat) : (drawBlocks s tenant n).2.fuses = s.fuses := by
  simp [drawBlocks]

@[simp] theorem refuseDraw_fuses (s : State) (tenant : Option Nat) (st : Nat) : (refuseDraw s tenant st).fuses = s.fuses := by
  unfold refuseDraw
  repeat' split
  all_goals simp

theorem rreqOp_fuses (s : State) (core value : Nat) {t : State} (hsome : rreqOp s core value = some t) : t.fuses = s.fuses := by
  unfold rreqOp at hsome
  dsimp only at hsome
  repeat' split at hsome
  all_goals cases hsome
  all_goals simp

theorem rtenOp_fuses (s : State) (core value : Nat) {t : State} (hsome : rtenOp s core value = some t) : t.fuses = s.fuses := by
  unfold rtenOp at hsome
  dsimp only at hsome
  repeat' split at hsome
  all_goals cases hsome
  all_goals simp

@[simp] theorem completeDraw_fuses (s : State) (core : Nat) : (completeDraw s core).fuses = s.fuses := by
  unfold completeDraw
  dsimp only
  split <;> simp

@[simp] theorem execRandomDrawComplete_fuses (core : Nat) (s : State) : KeepsFuses s (execRandomDrawComplete core s) := by
  simp [execRandomDrawComplete]

theorem readRandom_fuses {s t : State} {w : Word32} (hok : readRandom s = .ok (w, t)) : t.fuses = s.fuses := by
  unfold readRandom at hok
  extract_lets st at hok
  clear_value st
  split at hok
  · exact nomatch hok
  · have hdrawn := drawBlocks_fuses s false 1
    generalize drawBlocks s false 1 = drawn at hok hdrawn
    cases hok
    exact hdrawn

@[simp] theorem execRngRandomRead_fuses (chan word : Nat) (s : State) : KeepsFuses s (execRngRandomRead chan word s) := by
  unfold execRngRandomRead
  split
  · simp
  · split
    · simp
    · next hok => simpa using readRandom_fuses hok

@[simp] theorem tickRng_fuses (s : State) : (tickRng s).fuses = s.fuses := by simp [tickRng]

/-! ### Machine/Power -/

@[simp] theorem State.putDistrict_fuses (s : State) (d : Nat) (x : District) : (State.putDistrict s d x).fuses = s.fuses := (rfl)

/-! ### Machine/Regs1 -/

@[simp] theorem State.putGroup_fuses (s : State) (g : Nat) (x : Group) : (State.putGroup s g x).fuses = s.fuses := (rfl)

/-! ### Machine/Regs2 -/

@[simp] theorem State.putCore_fuses (s : State) (c : Nat) (x : Core) : (State.putCore s c x).fuses = s.fuses := (rfl)
@[simp] theorem State.modCore_fuses (s : State) (c : Nat) (f : Core → Core) : (State.modCore s c f).fuses = s.fuses := (rfl)
@[simp] theorem State.modMpu_fuses (s : State) (u : Nat) (f : Mpu → Mpu) : (State.modMpu s u f).fuses = s.fuses := (rfl)

/-! ### Machine/Regs3 -/

@[simp] theorem State.putSession_fuses (s : State) (i : Nat) (x : Session) : (State.putSession s i x).fuses = s.fuses := (rfl)
@[simp] theorem State.putCard_fuses (s : State) (i : Nat) (x : Card) : (State.putCard s i x).fuses = s.fuses := (rfl)
@[simp] theorem State.putMember_fuses (s : State) (j : Nat) (m : Member) : (State.putMember s j m).fuses = s.fuses := (rfl)
@[simp] theorem State.setSelector_fuses (s : State) (chan addr v : Nat) : (State.setSelector s chan addr v).fuses = s.fuses := (rfl)

@[simp] theorem regRead_fuses (s : State) (chan addr : Nat) : (regRead s chan addr).2.fuses = s.fuses := by
  fun_cases regRead <;> simp

@[simp] theorem execHiRegisterRead_fuses (chan addr : Nat) (s : State) : KeepsFuses s (execHiRegisterRead chan addr s) := by
  unfold execHiRegisterRead
  dsimp only
  split <;> simp

@[simp] theorem regWrite_fuses (s : State) (chan addr w : Nat) : (regWrite s chan addr w).fuses = s.fuses := by
  fun_cases regWrite <;> simp

@[simp] theorem regWrites_fuses (s : State) (chan addr : Nat) (l : List Nat) : (regWrites s chan addr l).fuses = s.fuses := by
  induction l generalizing s addr with
  | nil => rfl
  | cons w l ih => simp [regWrites, ih]

/-! ### Machine/Fn -/

@[simp] theorem Fn.random_keeps (n : Nat) : Fn.Keeps (Fn.random n) := by simp [Fn.random]

/-! ### Machine/Dual -/

@[simp] theorem State.dcCnt_fuses (s : State) (k n : Nat) : (State.dcCnt s k n).fuses = s.fuses := (rfl)
@[simp] theorem State.dcEvent_fuses (s : State) (b : Nat) : (State.dcEvent s b).fuses = s.fuses := (rfl)
@[simp] theorem State.writeRegistry_fuses (s : State) : (State.writeRegistry s).fuses = s.fuses := by simp [State.writeRegistry]

@[simp] theorem State.setCard_fuses (s : State) (i : Nat) (c : Card) : (State.setCard s i c).fuses = s.fuses := by
  simp [State.setCard]

@[simp] theorem exhaustCard_fuses (s : State) (i : Nat) : (exhaustCard s i).fuses = s.fuses := by simp [exhaustCard]
@[simp] theorem warnCard_fuses (s : State) (i : Nat) : (warnCard s i).fuses = s.fuses := by simp [warnCard]
@[simp] theorem judgeCard_fuses (s : State) (i : Nat) : (judgeCard s i).fuses = s.fuses := by simp [judgeCard]
@[simp] theorem useCard_fuses (s : State) (i : Nat) : (useCard s i).fuses = s.fuses := by simp [useCard]

@[simp] theorem restoreUse_fuses (s : State) (serial : Nat) : (restoreUse s serial).fuses = s.fuses := by
  unfold restoreUse
  split <;> simp

@[simp] theorem registerCard_fuses (s : State) (c : Card) : (registerCard s c).fuses = s.fuses := by
  unfold registerCard
  split <;> simp

@[simp] theorem endSession_fuses (s : State) (i : Nat) (st : SessionState) : (endSession s i st).fuses = s.fuses := (rfl)
@[simp] theorem expireSession_fuses (s : State) (i : Nat) : (expireSession s i).fuses = s.fuses := by simp [expireSession]
@[simp] theorem openSession_fuses (s : State) (i : Nat) (x : Session) : (openSession s i x).fuses = s.fuses := by simp [openSession]
@[simp] theorem closeSession_fuses (s : State) (i : Nat) : (closeSession s i).fuses = s.fuses := by simp [closeSession]
@[simp] theorem takeSession_fuses (s : State) (k i : Nat) : (takeSession s k i).fuses = s.fuses := (rfl)

@[simp] theorem settleSession_fuses (s : State) (i : Nat) (ok : Bool) : (settleSession s i ok).fuses = s.fuses := by
  simp [settleSession]

@[simp] theorem countSignature_fuses (s : State) (i serial entry : Nat) (component : Bytes) (slot effectAt : Option Nat) :
    (countSignature s i serial entry component slot effectAt).fuses = s.fuses := by
  simp [countSignature]

@[simp] theorem refuseSignature_fuses (s : State) (t id serial st : Nat) : (refuseSignature s t id serial st).fuses = s.fuses := by
  simp [refuseSignature]

@[simp] theorem commitSignature_fuses (s : State) (i k : Nat) : (commitSignature s i k).fuses = s.fuses := (rfl)

@[simp] theorem withdrawSignature_fuses (s : State) (k : Nat) : (withdrawSignature s k).fuses = s.fuses := by
  refine fuses_foldl _ _ fun s p => ?_
  split <;> simp

@[simp] theorem tickSignatures_fuses (s : State) : (tickSignatures s).fuses = s.fuses := by
  refine fuses_foldl _ _ fun s p => ?_
  dsimp only
  split
  · rfl
  · have hcount := fuses_foldl_of Prod.fst ((s.session p.1).counted.filter (fun c => c.effectAt == some s.folio.now))
      (s, (s.countedNow (s.session p.1)).length -
        ((s.session p.1).counted.filter (fun c => c.effectAt == some s.folio.now)).length)
      (f := fun acc c => ((acc.1.dcCnt 0 1).raise evSignatureCounted srcSecurity (s.session p.1).scope
        (items [(4, sessionId p.1 (s.session p.1)), (8, c.serial), (1, acc.2 + 1)]), acc.2 + 1)) fun acc c => by simp
    split <;> simp [hcount]

@[simp] theorem revokeCard_fuses (s : State) (serial : Nat) : (revokeCard s serial).fuses = s.fuses := by
  unfold revokeCard
  split <;> simp

@[simp] theorem freeRevoked_fuses (s : State) (serial : Nat) : (freeRevoked s serial).fuses = s.fuses := by
  unfold freeRevoked
  split <;> simp

@[simp] theorem setQuorum_fuses (s : State) (scope role m : Nat) : (setQuorum s scope role m).fuses = s.fuses := by simp [setQuorum]
@[simp] theorem clearSessions_fuses (s : State) : (clearSessions s).fuses = s.fuses := (rfl)

@[simp] theorem execSessionExpiry_fuses (index : Nat) (s : State) : KeepsFuses s (execSessionExpiry index s) := by
  simp [execSessionExpiry]

@[simp] theorem execCardValidityChange_fuses (entry : Nat) (s : State) : KeepsFuses s (execCardValidityChange entry s) := by
  simp [execCardValidityChange]

@[simp] theorem State.putIface_fuses (s : State) (i : Nat) (x : CardIface) : (State.putIface s i x).fuses = s.fuses := (rfl)

@[simp] theorem endExchange_fuses (s : State) (i st : Nat) : (endExchange s i st).fuses = s.fuses := by
  unfold endExchange
  dsimp only
  split <;> simp

@[simp] theorem execCardExchangeComplete_fuses (iface serial : Nat) (sig cmsg : Bytes) (s : State) :
    KeepsFuses s (execCardExchangeComplete iface serial sig cmsg s) := by
  fun_cases execCardExchangeComplete <;> simp

@[simp] theorem execCardExchangeTimeout_fuses (iface : Nat) (lost : Bool) (s : State) :
    KeepsFuses s (execCardExchangeTimeout iface lost s) := by
  unfold execCardExchangeTimeout
  split <;> simp

@[simp] theorem execCardPresenceChange_fuses (iface : Nat) (present classA : Bool) (s : State) :
    KeepsFuses s (execCardPresenceChange iface present classA s) := by
  simp [execCardPresenceChange]

/-! ### Machine/Tamper -/

@[simp] theorem State.computeReset_fuses (s : State) : (State.computeReset s).fuses = s.fuses := (rfl)
@[simp] theorem State.clearBattery_fuses (s : State) : (State.clearBattery s).fuses = s.fuses := (rfl)
@[simp] theorem State.tmpCnt_fuses (s : State) (k n : Nat) : (State.tmpCnt s k n).fuses = s.fuses := (rfl)

@[simp] theorem eraseResponse_fuses (s : State) (sensor : Nat) (data : BitVec 16) :
    (eraseResponse s sensor data).fuses = s.fuses := by
  simp [eraseResponse]

@[simp] theorem detectLatched_fuses (s : State) (sensor : Nat) (data : BitVec 16) :
    (detectLatched s sensor data).fuses = s.fuses := by
  simp [detectLatched]

@[simp] theorem alert_fuses (s : State) (sensor : Nat) (data : BitVec 16) : (alert s sensor data).fuses = s.fuses := by simp [alert]

@[simp] theorem detect_fuses (s : State) (sensor : Nat) (data : BitVec 16) : (detect s sensor data).fuses = s.fuses := by
  simp [detect]

@[simp] theorem setActive_fuses (s : State) (sensor : Nat) (v : Bool) : (setActive s sensor v).fuses = s.fuses := (rfl)

@[simp] theorem judge_fuses (s : State) (sensor : Nat) (holds : Bool) (data : BitVec 16) :
    (judge s sensor holds data).fuses = s.fuses := by
  simp [judge]

@[simp] theorem execCoverMeshPatrol_fuses (diff0 diff1 diff2 diff3 : BitVec 64) (s : State) :
    KeepsFuses s (execCoverMeshPatrol diff0 diff1 diff2 diff3 s) := by
  simp [execCoverMeshPatrol]

@[simp] theorem execEncMeshPatrol_fuses (k : Nat) (diff : BitVec 64) (s : State) : KeepsFuses s (execEncMeshPatrol k diff s) := by
  simp [execEncMeshPatrol]

@[simp] theorem execSwitchSample_fuses (k : Nat) (high : Bool) (s : State) : KeepsFuses s (execSwitchSample k high s) := by
  simp [execSwitchSample]

@[simp] theorem execVmonExcursion_fuses (rail : Nat) (above : Bool) (s : State) :
    KeepsFuses s (execVmonExcursion rail above s) := by
  simp [execVmonExcursion]

@[simp] theorem execSupplyGlitch_fuses (which : Nat) (s : State) : KeepsFuses s (execSupplyGlitch which s) := by
  simp [execSupplyGlitch]

@[simp] theorem execClockFreq_fuses (which khz : Nat) (s : State) : KeepsFuses s (execClockFreq which khz s) := by
  simp [execClockFreq]

@[simp] theorem execClockGlitch_fuses (which : Nat) (s : State) : KeepsFuses s (execClockGlitch which s) := by
  simp [execClockGlitch]

@[simp] theorem execLight_fuses (detector : Nat) (present : Bool) (s : State) : KeepsFuses s (execLight detector present s) := by
  simp [execLight]

@[simp] theorem execLaser_fuses (detector : Nat) (present : Bool) (s : State) : KeepsFuses s (execLaser detector present s) := by
  simp [execLaser]

@[simp] theorem execEm_fuses (detector : Nat) (present : Bool) (s : State) : KeepsFuses s (execEm detector present s) := by
  simp [execEm]

@[simp] theorem execTempReading_fuses (t0 t1 t2 t3 t4 : BitVec 16) (s : State) :
    KeepsFuses s (execTempReading t0 t1 t2 t3 t4 s) := by
  simp [execTempReading]

@[simp] theorem execCrystalStop_fuses (s : State) : KeepsFuses s (execCrystalStop s) := by simp [execCrystalStop]

@[simp] theorem execTamperRecordWrite_fuses (s : State) : KeepsFuses s (execTamperRecordWrite s) := by
  unfold execTamperRecordWrite
  split <;> simp

@[simp] theorem execResetAsserted_fuses (pin : ResetPin) (s : State) : KeepsFuses s (execResetAsserted pin s) := by
  simp [execResetAsserted]

@[simp] theorem execMainRailsRemoved_fuses (s : State) : KeepsFuses s (execMainRailsRemoved s) := by simp [execMainRailsRemoved]
@[simp] theorem execMainRailsPresent_fuses (s : State) : KeepsFuses s (execMainRailsPresent s) := by simp [execMainRailsPresent]
@[simp] theorem execVsecApplied_fuses (s : State) : KeepsFuses s (execVsecApplied s) := by simp [execVsecApplied]
@[simp] theorem execVidValid_fuses (s : State) : KeepsFuses s (execVidValid s) := by simp [execVidValid]

@[simp] theorem execGutterFrameReceive_fuses (toCompute : Bool) (count : Nat) (frame : Bytes) (s : State) :
    KeepsFuses s (execGutterFrameReceive toCompute count frame s) := by
  simp [execGutterFrameReceive]

/-! ### Machine/Life -/

@[simp] theorem voidDebug_fuses (s : State) (cause : Nat) : (voidDebug s cause).fuses = s.fuses := by simp [voidDebug]
@[simp] theorem eraseTail_fuses (s : State) : (eraseTail s).fuses = s.fuses := (rfl)
@[simp] theorem eraseRegistry_fuses (s : State) : (eraseRegistry s).fuses = s.fuses := (rfl)
@[simp] theorem drawShare_fuses (s : State) : (drawShare s).fuses = s.fuses := (rfl)

@[simp] theorem transitionWipes_fuses (s : State) (i : Intent) : (transitionWipes s i).fuses = s.fuses := by
  unfold transitionWipes
  split <;> simp

@[simp] theorem lcLast_fuses (s : State) (x : Slot) (st : Nat) : (lcLast s x st).fuses = s.fuses := (rfl)

@[simp] theorem lcFn_keeps (x : Slot) {f : Fn FnRes} (hf : Fn.Keeps f) : Fn.Keeps (lcFn x f) :=
  Fn.orRefuse_keeps (Fn.keeps_bind hf fun _ => Fn.keeps_bind ((Fn.change_keeps _).2 fun s => lcLast_fuses s x stOk) fun _ =>
    Fn.keeps_pure _) fun e s => lcLast_fuses s x e

@[simp] theorem Fn.auth_keeps (k : Nat) (x : Slot) (command role compLen authOff : Nat) :
    Fn.Keeps (Fn.auth k x command role compLen authOff) := by
  unfold Fn.auth
  repeat' first
    | with_reducible refine Fn.keeps_bind ?_ fun _ => ?_
    | split
  all_goals simp

@[simp] theorem lcTransitionFn_keeps (k : Nat) (x : Slot) : Fn.Keeps (lcTransitionFn k x) := by
  unfold lcTransitionFn
  refine lcFn_keeps _ (Fn.orRefuse_keeps ?_ fun _ _ => State.raise_fuses ..)
  repeat' first
    | with_reducible refine Fn.keeps_bind ?_ fun _ => ?_
    | split
    | dsimp only
  all_goals simp

@[simp] theorem beginTransition_fuses (s : State) : (beginTransition s).fuses = s.fuses := by
  unfold beginTransition
  dsimp only
  split <;> simp

@[simp] theorem lcDebugChallengeFn_keeps (x : Slot) : Fn.Keeps (lcDebugChallengeFn x) := by
  unfold lcDebugChallengeFn
  refine lcFn_keeps _ ?_
  repeat' first
    | with_reducible refine Fn.keeps_bind ?_ fun _ => ?_
    | split
    | dsimp only
  all_goals simp

@[simp] theorem lcDebugAuthFn_keeps (k : Nat) (x : Slot) : Fn.Keeps (lcDebugAuthFn k x) := by
  unfold lcDebugAuthFn
  refine lcFn_keeps _ (Fn.orRefuse_keeps ?_ fun _ _ => State.raise_fuses ..)
  repeat' first
    | with_reducible refine Fn.keeps_bind ?_ fun _ => ?_
    | split
    | dsimp only
  all_goals simp

@[simp] theorem armDebug_fuses (s : State) (starts grantState : Nat) (quorum : Bool) :
    (armDebug s starts grantState quorum).fuses = s.fuses := by
  simp [armDebug]

@[simp] theorem lcDebugEndFn_keeps (x : Slot) : Fn.Keeps (lcDebugEndFn x) := by
  unfold lcDebugEndFn
  refine lcFn_keeps _ ?_
  repeat' first
    | with_reducible refine Fn.keeps_bind ?_ fun _ => ?_
    | split
    | dsimp only
  all_goals simp

@[simp] theorem lcIdentityFn_keeps (x : Slot) : Fn.Keeps (lcIdentityFn x) := by
  unfold lcIdentityFn
  refine lcFn_keeps _ ?_
  repeat' first
    | with_reducible refine Fn.keeps_bind ?_ fun _ => ?_
    | split
    | dsimp only
  all_goals simp

@[simp] theorem lcCertLoadFn_keeps (x : Slot) : Fn.Keeps (lcCertLoadFn x) := by
  unfold lcCertLoadFn
  refine lcFn_keeps _ ?_
  repeat' first
    | with_reducible refine Fn.keeps_bind ?_ fun _ => ?_
    | split
    | dsimp only
  all_goals simp

@[simp] theorem loadCert_fuses (s : State) (index : Nat) (cert : Bytes) : (loadCert s index cert).fuses = s.fuses := by
  simp [loadCert]

@[simp] theorem State.setTap_fuses (s : State) (f : Tap → Tap) : (State.setTap s f).fuses = s.fuses := (rfl)
@[simp] theorem execExtest_fuses (s : State) : KeepsFuses s (execExtest s) := by simp [execExtest]

@[simp] theorem execSamplePreload_fuses (pins preload : Bytes) (s : State) : KeepsFuses s (execSamplePreload pins preload s) := by
  simp [execSamplePreload]

@[simp] theorem execIdcode_fuses (s : State) : KeepsFuses s (execIdcode s) := by simp [execIdcode]
@[simp] theorem execClamp_fuses (s : State) : KeepsFuses s (execClamp s) := by simp [execClamp]
@[simp] theorem execHighz_fuses (s : State) : KeepsFuses s (execHighz s) := by simp [execHighz]
@[simp] theorem execBypass_fuses (s : State) : KeepsFuses s (execBypass s) := by simp [execBypass]
@[simp] theorem execTapReset_fuses (s : State) : KeepsFuses s (execTapReset s) := by simp [execTapReset]

@[simp] theorem execLcMailbox_fuses (function : Nat) (payload : Bytes) (s : State) :
    KeepsFuses s (execLcMailbox function payload s) := by
  simp [execLcMailbox]

@[simp] theorem execReportFrame_fuses (s : State) : KeepsFuses s (execReportFrame s) := by simp [execReportFrame]

/-! ### Machine/Boot -/

@[simp] theorem enterRecovery_fuses (s : State) (reason : Nat) : (enterRecovery s reason).fuses = s.fuses := (rfl)
@[simp] theorem recoveryStatusFn_keeps (x : Slot) : Fn.Keeps (recoveryStatusFn x) := by simp [recoveryStatusFn]

@[simp] theorem devRestartFn_keeps (k : Nat) (x : Slot) : Fn.Keeps (devRestartFn k x) := by
  unfold devRestartFn
  repeat' first
    | with_reducible refine Fn.keeps_bind ?_ fun _ => ?_
    | split
  all_goals simp

@[simp] theorem imageLoadBeginFn_keeps (x : Slot) : Fn.Keeps (imageLoadBeginFn x) := by
  unfold imageLoadBeginFn
  repeat' first
    | with_reducible refine Fn.keeps_bind ?_ fun _ => ?_
    | split
    | dsimp only
  all_goals simp

@[simp] theorem imageLoadDataFn_keeps (x : Slot) : Fn.Keeps (imageLoadDataFn x) := by
  unfold imageLoadDataFn
  repeat' first
    | with_reducible refine Fn.keeps_bind ?_ fun _ => ?_
    | split
    | dsimp only
  all_goals simp

@[simp] theorem imageLoadEndFn_keeps (x : Slot) : Fn.Keeps (imageLoadEndFn x) := by
  unfold imageLoadEndFn
  repeat' first
    | with_reducible refine Fn.keeps_bind ?_ fun _ => ?_
    | split
  all_goals simp

@[simp] theorem beginImageWrite_fuses (s : State) : (beginImageWrite s).fuses = s.fuses := (rfl)

@[simp] theorem execImageWriteComplete_fuses (error : Option Nat) (s : State) : KeepsFuses s (execImageWriteComplete error s) := by
  unfold execImageWriteComplete
  split <;> simp

@[simp] theorem restartFromRecovery_fuses (s : State) : (restartFromRecovery s).fuses = s.fuses := (rfl)
@[simp] theorem beginDrain_fuses (s : State) (r : Restart) : (beginDrain s r).fuses = s.fuses := (rfl)

@[simp] theorem tmpLatchClearFn_keeps (k : Nat) (x : Slot) : Fn.Keeps (tmpLatchClearFn k x) := by
  unfold tmpLatchClearFn
  refine Fn.orRefuse_keeps ?_ fun _ _ => ?_
  repeat' first
    | with_reducible refine Fn.keeps_bind ?_ fun _ => ?_
    | split
    | dsimp only
  all_goals simp

@[simp] theorem clearLatch_fuses (s : State) (session : Nat) : (clearLatch s session).fuses = s.fuses := by simp [clearLatch]

/-! ### Machine/Resolve -/

@[simp] theorem Fn.resolve_keeps (x : Slot) (off : Nat) (role : Handle → Bool) : Fn.Keeps (Fn.resolve x off role) := by
  unfold Fn.resolve
  repeat' with_reducible refine Fn.keeps_bind ?_ fun _ => ?_
  all_goals simp

@[simp] theorem Fn.resolveRole_keeps (x : Slot) (off : Nat) (r : Role) : Fn.Keeps (Fn.resolveRole x off r) := by
  simp [Fn.resolveRole]

@[simp] theorem Fn.draw_keeps (n : Nat) : Fn.Keeps (Fn.draw n) := by simp [Fn.draw]

@[simp] theorem Fn.wrap_keeps (kek : Bytes) (format : Nat) (a : KeyAttr) (raw : Bytes) (gen : Option Nat) (most : Nat) :
    Fn.Keeps (Fn.wrap kek format a raw gen most) := by
  unfold Fn.wrap
  repeat' first
    | with_reducible refine Fn.keeps_bind ?_ fun _ => ?_
    | split
    | dsimp only
  all_goals simp

@[simp] theorem Fn.producing_keeps (x : Slot) (j : Nat) : Fn.Keeps (Fn.producing x j) := by simp [Fn.producing]

@[simp] theorem Fn.wrapSmk_keeps (g : SmkGen) (format : Nat) (a : KeyAttr) (raw : Bytes) (most : Nat) :
    Fn.Keeps (Fn.wrapSmk g format a raw most) := by
  simp [Fn.wrapSmk]

theorem reserveDraws_fuses {n : Nat} {s t : State} (hsome : reserveDraws n s = some t) : t.fuses = s.fuses := by
  induction n generalizing s with
  | zero =>
    cases hsome
    rfl
  | succ n ih =>
    unfold reserveDraws at hsome
    dsimp only at hsome
    split at hsome
    · cases hsome
    · exact (ih hsome).trans (drawReserve_fuses ..)

@[simp] theorem Fn.mlDsaSign_keeps (seed ctx msg : Bytes) : Fn.Keeps (Fn.mlDsaSign seed ctx msg) := by
  refine Fn.keeps_bind (Fn.draw_keeps _) fun rnd => Fn.keeps_bind (Fn.need_keeps _ _) fun _ => Fn.keeps_get_bind fun s => ?_
  split
  · next hdraws => exact reserveDraws_fuses hdraws
  · exact countRetry_fuses s

@[simp] theorem Fn.ecdsaSign_keeps (c : Curve) (d : Nat) (digest : Bytes) : Fn.Keeps (Fn.ecdsaSign c d digest) := by
  unfold Fn.ecdsaSign
  repeat' first
    | with_reducible refine Fn.keeps_bind ?_ fun _ => ?_
    | split
    | dsimp only
  all_goals simp

@[simp] theorem Fn.residentRun_keeps (t n : Nat) : Fn.Keeps (Fn.residentRun t n) := by simp [Fn.residentRun]

@[simp] theorem loadResident_fuses (s : State) (unit : Nat) (r : Resident) : (loadResident s unit r).fuses = s.fuses := by
  simp [loadResident]

/-! ### Machine/KeyTick -/

@[simp] theorem Fn.armNow_keeps (k : Nat) (e : TickEffect) : Fn.Keeps (Fn.armNow k e) := by simp [Fn.armNow]
@[simp] theorem revokeStreams_fuses (s : State) (t : Nat) (p : StreamSide → Bool) : (revokeStreams s t p).fuses = s.fuses := (rfl)
@[simp] theorem retireGen_fuses (s : State) (t j gen : Nat) : (retireGen s t j gen).2.fuses = s.fuses := by simp [retireGen]

@[simp] theorem applySmk_fuses (s : State) (e : TickEffect) : (applySmk s e).fuses = s.fuses := by
  unfold applySmk
  split <;> simp

@[simp] theorem retireResident_fuses (s : State) (slot : Nat) : (retireResident s slot).fuses = s.fuses := by simp [retireResident]

@[simp] theorem setClientKey_fuses (s : State) (t index : Nat) (k : ClientKey) : (setClientKey s t index k).fuses = s.fuses := by
  simp [setClientKey]

@[simp] theorem eraseRetired_fuses (s : State) : (eraseRetired s).fuses = s.fuses := by
  unfold eraseRetired
  refine (fuses_foldl _ _ fun s p => ?streams).trans ((fuses_foldl _ _ fun s p => ?curves).trans
    ((fuses_foldl _ _ fun s p => ?residents).trans (fuses_foldl _ _ fun s p => ?generations)))
  case streams =>
    dsimp only
    split <;> simp
  case curves =>
    split <;> simp
  all_goals simp

@[simp] theorem appendBatch_fuses (s : State) (v : Vault) (fenceFlush : Bool) :
    (appendBatch s v fenceFlush).fuses = s.fuses := (rfl)

@[simp] theorem reserveBlocks_fuses (s : State) : (reserveBlocks s).fuses = s.fuses := (rfl)
@[simp] theorem writeBatch_fuses (s : State) (fenceFlush : Bool) : (writeBatch s fenceFlush).fuses = s.fuses := by simp [writeBatch]
@[simp] theorem execVaultBatchWrite_fuses (s : State) : KeepsFuses s (execVaultBatchWrite s) := by simp [execVaultBatchWrite]

@[simp] theorem execVaultOldBatchErase_fuses (s : State) : KeepsFuses s (execVaultOldBatchErase s) := by
  simp [execVaultOldBatchErase]

@[simp] theorem remaskUnit_fuses (s : State) (u : Nat) (rnd : Bytes) : (remaskUnit s u rnd).fuses = s.fuses := by
  fun_cases remaskUnit <;> simp

@[simp] theorem execMaskRefreshStep_fuses (s : State) : KeepsFuses s (execMaskRefreshStep s) := by simp [execMaskRefreshStep]

@[simp] theorem execKeySramError_fuses (resident : Bool) (unit : Nat) (s : State) :
    KeepsFuses s (execKeySramError resident unit s) := by
  unfold execKeySramError
  repeat' split
  all_goals simp

@[simp] theorem execResidentReloadComplete_fuses (unit : Nat) (s : State) : KeepsFuses s (execResidentReloadComplete unit s) := by
  simp [execResidentReloadComplete]

/-! ### Machine/KeyFns -/

@[simp] theorem Fn.assembledKey_keeps (i : Nat) (tdes : Bool) : Fn.Keeps (Fn.assembledKey i tdes) := by
  unfold Fn.assembledKey
  repeat' first
    | with_reducible refine Fn.keeps_bind ?_ fun _ => ?_
    | split
  all_goals simp

@[simp] theorem smkRewrapFn_keeps (x : Slot) : Fn.Keeps (smkRewrapFn x) := by
  unfold smkRewrapFn
  repeat' first
    | with_reducible refine Fn.keeps_bind ?_ fun _ => ?_
    | split
    | dsimp only
  all_goals simp

@[simp] theorem smkNewFn_keeps (k : Nat) (x : Slot) (code : Nat) (need : SmkSlot → Bool) (mk : Nat → Nat → SmkGen → TickEffect) :
    Fn.Keeps (smkNewFn k x code need mk) := by
  unfold smkNewFn
  repeat' first
    | with_reducible refine Fn.keeps_bind ?_ fun _ => ?_
    | split
    | dsimp only
  all_goals simp

@[simp] theorem smkCreateFn_keeps (k : Nat) (x : Slot) : Fn.Keeps (smkCreateFn k x) := by simp [smkCreateFn]
@[simp] theorem smkRotateBeginFn_keeps (k : Nat) (x : Slot) : Fn.Keeps (smkRotateBeginFn k x) := by simp [smkRotateBeginFn]

@[simp] theorem smkChangeFn_keeps (k : Nat) (x : Slot) (code : Nat) (need : SmkSlot → Bool) (mk : Nat → Nat → TickEffect) :
    Fn.Keeps (smkChangeFn k x code need mk) := by
  unfold smkChangeFn
  repeat' first
    | with_reducible refine Fn.keeps_bind ?_ fun _ => ?_
    | split
  all_goals simp

@[simp] theorem smkRotateCompleteFn_keeps (k : Nat) (x : Slot) : Fn.Keeps (smkRotateCompleteFn k x) := by simp [smkRotateCompleteFn]
@[simp] theorem smkRotateAbortFn_keeps (k : Nat) (x : Slot) : Fn.Keeps (smkRotateAbortFn k x) := by simp [smkRotateAbortFn]
@[simp] theorem smkInvalidateFn_keeps (k : Nat) (x : Slot) : Fn.Keeps (smkInvalidateFn k x) := by simp [smkInvalidateFn]
@[simp] theorem counterCreateFn_keeps (x : Slot) : Fn.Keeps (counterCreateFn x) := by simp [counterCreateFn]

@[simp] theorem clientKeySetFn_keeps (k : Nat) (x : Slot) : Fn.Keeps (clientKeySetFn k x) := by
  unfold clientKeySetFn
  repeat' first
    | with_reducible refine Fn.keeps_bind ?_ fun _ => ?_
    | split
    | dsimp only
  all_goals simp

@[simp] theorem Fn.coseSign_keeps (payload : Bytes) : Fn.Keeps (Fn.coseSign payload) := by
  unfold Fn.coseSign
  repeat' first
    | with_reducible refine Fn.keeps_bind ?_ fun _ => ?_
    | split
    | dsimp only
  all_goals simp

@[simp] theorem Fn.colophon_keeps (a : Nat) (nonce : Bytes) (tenant : Option Nat) : Fn.Keeps (Fn.colophon a nonce tenant) := by
  simp [Fn.colophon]

@[simp] theorem colophonResult_keeps (x : Slot) (c : Bytes) : Fn.Keeps (colophonResult x c) := by simp [colophonResult]
@[simp] theorem colophonFn_keeps (x : Slot) : Fn.Keeps (colophonFn x) := by simp [colophonFn]
@[simp] theorem colophonTenantFn_keeps (x : Slot) : Fn.Keeps (colophonTenantFn x) := by simp [colophonTenantFn]
@[simp] theorem certificatesFn_keeps (x : Slot) : Fn.Keeps (certificatesFn x) := by simp [certificatesFn]

/-! ### Machine/Pair -/

@[simp] theorem State.pairCnt_fuses (s : State) (k n : Nat) : (State.pairCnt s k n).fuses = s.fuses := (rfl)
@[simp] theorem State.pairEvent_fuses (s : State) (b : Nat) : (State.pairEvent s b).fuses = s.fuses := (rfl)
@[simp] theorem memberClientKeys_fuses (s : State) : (memberClientKeys s).fuses = s.fuses := (rfl)
@[simp] theorem dropMemberChannels_fuses (s : State) : (dropMemberChannels s).fuses = s.fuses := (rfl)

@[simp] theorem openMemberChannel_fuses (s : State) (j path : Nat) : (openMemberChannel s j path).fuses = s.fuses := by
  simp [openMemberChannel]

@[simp] theorem openMemberChannels_fuses (s : State) : (openMemberChannels s).fuses = s.fuses := by simp [openMemberChannels]
@[simp] theorem sealPairing_fuses (s : State) : (sealPairing s).fuses = s.fuses := by simp [sealPairing]
@[simp] theorem setRecord_fuses (s : State) (b : Bytes) : (setRecord s b).fuses = s.fuses := by simp [setRecord]

@[simp] theorem changeRecord_fuses (s : State) (count : Nat) (m : Nat → Member) : (changeRecord s count m).fuses = s.fuses := by
  simp [changeRecord]

@[simp] theorem markInChain_fuses (s : State) (j : Nat) : (markInChain s j).fuses = s.fuses := by simp [markInChain]

@[simp] theorem sendMember_fuses (s : State) (j path func : Nat) (payload : Bytes) :
    (sendMember s j path func payload).fuses = s.fuses := by
  simp [sendMember]

@[simp] theorem sendBoth_fuses (s : State) (j func : Nat) (payload : Bytes) : (sendBoth s j func payload).fuses = s.fuses := by
  simp [sendBoth]

@[simp] theorem heartbeats_fuses (s : State) : (heartbeats s).fuses = s.fuses := by simp [heartbeats]
@[simp] theorem keepPart_fuses (s : State) (b : BatchPart) : (keepPart s b).fuses = s.fuses := (rfl)
@[simp] theorem reserveForChain_fuses (s : State) (g : Nat) : (reserveForChain s g).fuses = s.fuses := by simp [reserveForChain]

@[simp] theorem sendBatch_fuses (s : State) (g : Nat) : (sendBatch s g).fuses = s.fuses := by
  unfold sendBatch
  split <;> simp

@[simp] theorem consolidateOldest_fuses (s : State) : (consolidateOldest s).fuses = s.fuses := by
  unfold consolidateOldest
  split <;> simp

@[simp] theorem applyRegistry_fuses (s : State) (b : Bytes) : (applyRegistry s b).fuses = s.fuses := by
  fun_cases applyRegistry <;> simp

@[simp] theorem appendJournal_fuses (s : State) (g : Nat) (rs : List (Nat × Bytes)) : (appendJournal s g rs).fuses = s.fuses := by
  unfold appendJournal
  dsimp only
  split <;> simp

@[simp] theorem appendComplete_fuses (n : Nat) (s : State) : (appendComplete n s).fuses = s.fuses := by
  induction n generalizing s with
  | zero => rfl
  | succ n ih =>
    unfold appendComplete
    dsimp only
    split
    · rfl
    · split
      · rw [ih]
        split <;> simp
      · rfl

@[simp] theorem resend_fuses (s : State) (j : Nat) (held : Nat) : (resend s j held).fuses = s.fuses := by simp [resend]
@[simp] theorem beginSnapshot_fuses (s : State) (j : Nat) : (beginSnapshot s j).fuses = s.fuses := by simp [beginSnapshot]

@[simp] theorem sendSnapshotPart_fuses (s : State) (used : Nat) : (sendSnapshotPart s used).fuses = s.fuses := by
  unfold sendSnapshotPart
  split <;> simp

@[simp] theorem takeSnapshot_fuses (s : State) (b : Bytes) : (takeSnapshot s b).fuses = s.fuses := by
  unfold takeSnapshot
  dsimp only
  repeat' split
  all_goals simp

@[simp] theorem heardFrom_fuses (s : State) (j path : Nat) : (heardFrom s j path).fuses = s.fuses := by simp [heardFrom]
@[simp] theorem countSilence_fuses (s : State) : (countSilence s).fuses = s.fuses := by simp [countSilence]
@[simp] theorem countJournal_fuses (s : State) : (countJournal s).fuses = s.fuses := by simp [countJournal]

@[simp] theorem declareTakeover_fuses (s : State) (cause : Nat) : (declareTakeover s cause).fuses = s.fuses := by
  simp [declareTakeover]

@[simp] theorem replayConfig_fuses (s : State) (b : Bytes) : (replayConfig s b).fuses = s.fuses := by simp [replayConfig]
@[simp] theorem announceService_fuses (s : State) : (announceService s).fuses = s.fuses := by simp [announceService]

@[simp] theorem performTakeover_fuses (s : State) (declared : Nat) : (performTakeover s declared).fuses = s.fuses := by
  simp [performTakeover]

@[simp] theorem tickTakeover_fuses (s : State) : (tickTakeover s).fuses = s.fuses := by
  unfold tickTakeover
  dsimp only
  split <;> simp

@[simp] theorem tickPair_fuses (s : State) : (tickPair s).fuses = s.fuses := by
  unfold tickPair
  repeat' split
  all_goals simp

@[simp] theorem execVaultConsolidate_fuses (s : State) : KeepsFuses s (execVaultConsolidate s) := by simp [execVaultConsolidate]
@[simp] theorem execTakeoverSilence_fuses (s : State) : KeepsFuses s (execTakeoverSilence s) := by simp [execTakeoverSilence]

@[simp] theorem execMemberDrop_fuses (memberSlot : Nat) (s : State) : KeepsFuses s (execMemberDrop memberSlot s) := by
  unfold execMemberDrop
  dsimp only
  repeat' split
  all_goals simp

/-! ### Machine/PairFns -/

@[simp] theorem pairStageFn_keeps (x : Slot) : Fn.Keeps (pairStageFn x) := by
  unfold pairStageFn
  repeat' first
    | with_reducible refine Fn.keeps_bind ?_ fun _ => ?_
    | split
    | dsimp only
  all_goals simp

@[simp] theorem clearStaging_fuses (s : State) : (clearStaging s).fuses = s.fuses := (rfl)

@[simp] theorem pairOfferFn_keeps (k : Nat) (x : Slot) : Fn.Keeps (pairOfferFn k x) := by
  unfold pairOfferFn
  repeat' first
    | with_reducible refine Fn.keeps_bind ?_ fun _ => ?_
    | split
    | dsimp only
  all_goals simp

@[simp] theorem keepOffer_fuses (s : State) (offer keys nonce : Bytes) : (keepOffer s offer keys nonce).fuses = s.fuses := (rfl)

@[simp] theorem pairAcceptFn_keeps (k : Nat) (x : Slot) : Fn.Keeps (pairAcceptFn k x) := by
  unfold pairAcceptFn
  refine Fn.orRefuse_keeps ?_ fun _ _ => ?_
  repeat' first
    | with_reducible refine Fn.keeps_bind ?_ fun _ => ?_
    | split
    | dsimp only
  all_goals simp

@[simp] theorem acceptPairing_fuses (s : State) (record pairKey : Bytes) (serial epoch : Nat) (keys : Bytes) :
    (acceptPairing s record pairKey serial epoch keys).fuses = s.fuses := by
  simp [acceptPairing]

@[simp] theorem pairConfirmFn_keeps (k : Nat) (x : Slot) : Fn.Keeps (pairConfirmFn k x) := by
  unfold pairConfirmFn
  refine Fn.orRefuse_keeps ?_ fun _ _ => ?_
  repeat' first
    | with_reducible refine Fn.keeps_bind ?_ fun _ => ?_
    | split
    | dsimp only
  all_goals simp

@[simp] theorem confirmPairing_fuses (s : State) (pairKey : Bytes) (serial : Nat) (idHash keys : Bytes) :
    (confirmPairing s pairKey serial idHash keys).fuses = s.fuses := by
  unfold confirmPairing
  dsimp only
  split <;> simp

@[simp] theorem pairHandoverFn_keeps (k : Nat) (x : Slot) : Fn.Keeps (pairHandoverFn k x) := by
  unfold pairHandoverFn
  repeat' first
    | with_reducible refine Fn.keeps_bind ?_ fun _ => ?_
    | split
  all_goals simp

@[simp] theorem beginHandover_fuses (s : State) : (beginHandover s).fuses = s.fuses := (rfl)
@[simp] theorem sendHandover_fuses (s : State) : (sendHandover s).fuses = s.fuses := by simp [sendHandover]

@[simp] theorem execDrainEnd_fuses (s : State) : KeepsFuses s (execDrainEnd s) := by
  unfold execDrainEnd
  repeat' split
  all_goals simp

@[simp] theorem finishHandover_fuses (s : State) : (finishHandover s).fuses = s.fuses := by
  unfold finishHandover
  split <;> simp

@[simp] theorem pairTakeoverFn_keeps (k : Nat) (x : Slot) : Fn.Keeps (pairTakeoverFn k x) := by
  unfold pairTakeoverFn
  repeat' first
    | with_reducible refine Fn.keeps_bind ?_ fun _ => ?_
    | split
  all_goals simp

@[simp] theorem pairLeaveFn_keeps (k : Nat) (x : Slot) : Fn.Keeps (pairLeaveFn k x) := by
  unfold pairLeaveFn
  repeat' first
    | with_reducible refine Fn.keeps_bind ?_ fun _ => ?_
    | split
  all_goals simp

@[simp] theorem leaveChain_fuses (s : State) (erase : Bool) : (leaveChain s erase).fuses = s.fuses := by simp [leaveChain]

@[simp] theorem heardAhead_fuses (s : State) (x : Slot) (heartbeat : Bool) : (heardAhead s x heartbeat).fuses = s.fuses := by
  simp [heardAhead]

@[simp] theorem journalBatchFn_keeps (x : Slot) : Fn.Keeps (journalBatchFn x) := by
  unfold journalBatchFn
  repeat' first
    | with_reducible refine Fn.keeps_bind ?_ fun _ => ?_
    | split
    | dsimp only
  all_goals simp
  intro s
  repeat' split
  all_goals simp

@[simp] theorem heartbeatFn_keeps (x : Slot) : Fn.Keeps (heartbeatFn x) := by
  unfold heartbeatFn
  repeat' first
    | with_reducible refine Fn.keeps_bind ?_ fun _ => ?_
    | split
  all_goals simp

@[simp] theorem snapshotFn_keeps (x : Slot) : Fn.Keeps (snapshotFn x) := by
  unfold snapshotFn
  repeat' first
    | with_reducible refine Fn.keeps_bind ?_ fun _ => ?_
    | split
  all_goals simp

/-! ### Machine/Tasks -/

@[simp] theorem State.tcCnt_fuses (s : State) (c k n : Nat) : (State.tcCnt s c k n).fuses = s.fuses := (rfl)

@[simp] theorem endTask_fuses (s : State) (core : Nat) : (endTask s core).fuses = s.fuses := by
  unfold endTask
  dsimp only
  split <;> simp

@[simp] theorem withdrawEffects_fuses (s : State) (k : Nat) : (withdrawEffects s k).fuses = s.fuses := by simp [withdrawEffects]

@[simp] theorem stopSlot_fuses (s : State) (k : Nat) : (stopSlot s k).fuses = s.fuses := by
  unfold stopSlot
  dsimp only
  split <;> simp

@[simp] theorem protectionEvent_fuses (s : State) (core kind tenant func : Nat) :
    (protectionEvent s core kind tenant func).fuses = s.fuses := by
  simp [protectionEvent]

@[simp] theorem noteStop_fuses (s : State) (core : Nat) (cause : StopCause) (at_ : FaultAt) :
    (noteStop s core cause at_).fuses = s.fuses := by
  unfold noteStop
  repeat' split
  all_goals simp

/-! ### Machine/Effects -/

@[simp] theorem wakeByCommit_fuses (s : State) : (wakeByCommit s).fuses = s.fuses := by simp [wakeByCommit]

@[simp] theorem suspensionEvents_fuses (before s : State) : (suspensionEvents before s).fuses = s.fuses := by
  simp [suspensionEvents]

@[simp] theorem applyGroup_fuses (s : State) (g : Nat) : (applyGroup s g).fuses = s.fuses := by simp [applyGroup]
@[simp] theorem installCak_fuses (s : State) (lport : Nat) (ckn cak : Bytes) : (installCak s lport ckn cak).fuses = s.fuses := (rfl)

@[simp] theorem deleteCurve_fuses (s : State) (i : Nat) : (deleteCurve s i).fuses = s.fuses := by
  unfold deleteCurve
  dsimp only
  repeat' split
  all_goals simp

@[simp] theorem applyTick_fuses (s : State) (e : TickEffect) : (applyTick s e).fuses = s.fuses := by
  unfold applyTick
  split <;> simp

@[simp] theorem applyDue_fuses (s : State) : (applyDue s).fuses = s.fuses := by simp [applyDue]

@[simp] theorem openChannel_fuses (s : State) (c : Nat) (c2d d2c : Bytes) : (openChannel s c c2d d2c).fuses = s.fuses := by
  simp [openChannel]

@[simp] theorem refuseChannel_fuses (s : State) (c reqSeq : Nat) : (refuseChannel s c reqSeq).fuses = s.fuses := by
  simp [refuseChannel]

@[simp] theorem sendHs2_fuses (s : State) (c : Nat) (hs2 prk : Bytes) (hsC : Bytes) (hsD : Bytes) :
    (sendHs2 s c hs2 prk hsC hsD).fuses = s.fuses := by
  simp [sendHs2]

@[simp] theorem beginExchange_fuses (s : State) (session iface : Nat) : (beginExchange s session iface).fuses = s.fuses := (rfl)

@[simp] theorem applyEffect_fuses (k : Nat) (s : State) (e : Effect) : (applyEffect k s e).fuses = s.fuses := by
  unfold applyEffect
  split <;> simp

@[simp] theorem applyRestart_fuses (s : State) (e : Effect) : (applyRestart s e).fuses = s.fuses := by
  unfold applyRestart
  split <;> simp

/-! ### Machine/Commit -/

@[simp] theorem missEvent_fuses (s : State) (x : Slot) : (missEvent s x).fuses = s.fuses := by simp [missEvent]
@[simp] theorem noteStatus_fuses (s : State) (x : Slot) (st : Nat) : (noteStatus s x st).fuses = s.fuses := by simp [noteStatus]
@[simp] theorem settleArmed_fuses (s : State) (k : Nat) : (settleArmed s k).fuses = s.fuses := (rfl)
@[simp] theorem setPred_fuses (s : State) (k : Nat) : (setPred s k).fuses = s.fuses := by simp [setPred]

@[simp] theorem settle_fuses (s : State) (k : Nat) (x : Slot) (ok : Bool) : (settle s k x ok).fuses = s.fuses := by
  unfold settle
  dsimp only
  split <;> simp

@[simp] theorem commitNow_fuses (s : State) (k st : Nat) (result : Bytes) : (commitNow s k st result).fuses = s.fuses := by
  simp [commitNow]

@[simp] theorem acceptOne_fuses (s : State) (k st : Nat) (result : Bytes) : (acceptOne s k st result).fuses = s.fuses := by
  simp [acceptOne]

@[simp] theorem releaseHeld_fuses (fuel : Nat) (s : State) : (releaseHeld fuel s).fuses = s.fuses := by
  induction fuel generalizing s with
  | zero => rfl
  | succ fuel ih =>
    unfold releaseHeld
    split
    · rfl
    · simp [ih]

@[simp] theorem accept_fuses (s : State) (k st : Nat) (result : Bytes) : (accept s k st result).fuses = s.fuses := by simp [accept]
@[simp] theorem missOne_fuses (forced : Bool) (s : State) (k : Nat) : (missOne forced s k).fuses = s.fuses := by simp [missOne]
@[simp] theorem missHeld_fuses (s : State) (k : Nat) : (missHeld s k).fuses = s.fuses := by simp [missHeld]
@[simp] theorem execMissPoint_fuses (slot : Nat) (s : State) : KeepsFuses s (execMissPoint slot s) := by simp [execMissPoint]

@[simp] theorem serveFn_fuses {codes : Nat → Bool} {f : Nat → Slot → Fn FnRes} (hf : ∀ k x, Fn.Keeps (f k x)) (k : Nat) (s : State) :
    (serveFn codes f k s).fuses = s.fuses := by
  unfold serveFn
  extract_lets x r y r'
  have hr : r.2.fuses = s.fuses := runFnOn_fuses (hf k x) s
  have hr' : r'.2.fuses = s.fuses := (runFnOn_fuses (hf k y) _).trans (State.putSlot_fuses s k y)
  clear_value r r'
  repeat' split
  all_goals simp [hr, hr']

/-! ### Machine/CorePorts -/

@[simp] theorem leaveCore_fuses (s : State) (core : Nat) : (leaveCore s core).fuses = s.fuses := by simp [leaveCore]
@[simp] theorem feedNodes_fuses (s : State) (k n : Nat) : (feedNodes s k n).fuses = s.fuses := by simp [feedNodes]

@[simp] theorem graphNodeEnd_fuses (s : State) (k n st : Nat) (result : Bytes) :
    (graphNodeEnd s k n st result).fuses = s.fuses := by
  unfold graphNodeEnd
  dsimp only
  split <;> simp

@[simp] theorem nodeEnd_fuses (s : State) (core k n st : Nat) (result : Bytes) :
    (nodeEnd s core k n st result).fuses = s.fuses := by
  simp [nodeEnd]

@[simp] theorem errorStop_fuses (s : State) (k : Nat) : (errorStop s k).fuses = s.fuses := by simp [errorStop]

@[simp] theorem stopCore_fuses (s : State) (core : Nat) (cause : StopCause) (pc : Nat) (at_ : FaultAt) :
    (stopCore s core cause pc at_).fuses = s.fuses := by
  unfold stopCore
  dsimp only
  repeat' split
  all_goals simp

@[simp] theorem takeOp_fuses (s : State) (core : Nat) : (takeOp s core).fuses = s.fuses := by simp [takeOp]
@[simp] theorem giveTask_fuses (s : State) (core : Nat) (e : ReadyEntry) : (giveTask s core e).fuses = s.fuses := by simp [giveTask]

@[simp] theorem flagClrOp_fuses (s : State) (core : Nat) (value : Word64) : (flagClrOp s core value).fuses = s.fuses := by
  unfold flagClrOp
  split <;> simp

@[simp] theorem delayOp_fuses (s : State) (core : Nat) (value : Word64) : (delayOp s core value).fuses = s.fuses := by
  unfold delayOp
  split <;> simp

@[simp] theorem doneOp_fuses (s : State) (core : Nat) (value : Word64) : (doneOp s core value).fuses = s.fuses := by
  unfold doneOp
  repeat' split
  all_goals simp

theorem winSetOp_fuses (s : State) (core : Nat) (value : Word128) {t : State} (hsome : winSetOp s core value = some t) :
    t.fuses = s.fuses := by
  unfold winSetOp at hsome
  dsimp only at hsome
  repeat' split at hsome
  all_goals cases hsome
  all_goals simp

@[simp] theorem winClrOp_fuses (s : State) (core : Nat) (value : Word64) : (winClrOp s core value).fuses = s.fuses := (rfl)

@[simp] theorem State.putHandle_fuses (s : State) (core : Nat) (h : Nat) (x : Handle) :
    (State.putHandle s core h x).fuses = s.fuses := (rfl)

@[simp] theorem State.keySubmitted_fuses (s : State) (core : Nat) : (State.keySubmitted s core).fuses = s.fuses := by
  simp [State.keySubmitted]

@[simp] theorem klookOp_fuses (s : State) (core : Nat) (value : Word64) : (klookOp s core value).fuses = s.fuses := by
  unfold klookOp
  split <;> simp

theorem kunwrapOp_fuses (s : State) (core : Nat) (value : Word64) {t : State} (hsome : kunwrapOp s core value = some t) :
    t.fuses = s.fuses := by
  unfold kunwrapOp at hsome
  repeat' split at hsome
  all_goals cases hsome
  all_goals simp

@[simp] theorem unwrapOp_fuses (s : State) (core : Nat) : (unwrapOp s core).fuses = s.fuses := by
  unfold unwrapOp
  dsimp only
  repeat' split
  all_goals simp

@[simp] theorem kdlookOp_fuses (s : State) (core : Nat) (value : Word64) : (kdlookOp s core value).fuses = s.fuses := by
  unfold kdlookOp
  split <;> simp

@[simp] theorem kdstoreOp_fuses (s : State) (core : Nat) (value : Word64) : (kdstoreOp s core value).fuses = s.fuses := by
  unfold kdstoreOp
  split <;> simp

@[simp] theorem cadvOp_fuses (s : State) (core : Nat) (iod : Word128) : (cadvOp s core iod).fuses = s.fuses := by
  unfold cadvOp
  split <;> simp

@[simp] theorem krelOp_fuses (s : State) (core : Nat) (value : Word64) : (krelOp s core value).fuses = s.fuses := (rfl)

@[simp] theorem State.putBulkStat_fuses (s : State) (core : Nat) (x : BulkStat) :
    (State.putBulkStat s core x).fuses = s.fuses := (rfl)

theorem bksubOp_fuses (s : State) (core : Nat) (value : Word64) (declared : Option Nat) {t : State}
    (hsome : bksubOp s core value declared = some t) :
    t.fuses = s.fuses := by
  unfold bksubOp at hsome
  dsimp only at hsome
  repeat' split at hsome
  all_goals cases hsome
  all_goals simp

@[simp] theorem bulkAnswerOp_fuses (s : State) (core : Nat) : (bulkAnswerOp s core).fuses = s.fuses := by
  unfold bulkAnswerOp
  repeat' split
  all_goals simp

@[simp] theorem portRead_fuses (s : State) (core a : Nat) : (portRead s core a).2.fuses = s.fuses := by
  unfold portRead
  repeat' split
  all_goals simp

@[simp] theorem portWrite_fuses (s : State) (core pc a : Nat) (iod : Word128) : (portWrite s core pc a iod).1.fuses = s.fuses := by
  unfold portWrite
  extract_lets v fine sub h
  have hfine : ∀ t : State, t.fuses = s.fuses → (fine t).1.fuses = s.fuses := fun _ ht => ht
  have hsub : ∀ o : Option State, (∀ t, o = some t → t.fuses = s.fuses) → (sub o).1.fuses = s.fuses := by
    rintro (_ | t) ho
    · rfl
    · exact ho t rfl
  clear_value fine sub
  split
  · split
    · exact hsub _ fun _ => bopenOp_fuses _ _ _ _
    · exact hsub _ fun _ => bptrOp_fuses _ _ _ _
    · exact hsub _ fun _ => binOp_fuses _ _ _ _
    · exact hsub _ fun _ => bgoOp_fuses 
    all_goals exact hfine _ (by simp)
  · split
    case h_5 =>
      split
      · next hset => exact winSetOp_fuses _ _ _ hset
      · rfl
    case h_8 => exact hsub _ fun _ => kunwrapOp_fuses _ _ _
    case h_14 => exact hsub _ fun _ => rreqOp_fuses _ _ _
    case h_15 =>
      split
      · rfl
      · exact hsub _ fun _ => rtenOp_fuses _ _ _
    case h_16 => exact hsub _ fun _ => bksubOp_fuses _ _ _ _
    all_goals exact hfine _ (by simp)

/-! ### Machine/CoreExec -/

@[simp] theorem State.putFarMem_fuses (s : State) (core : Nat) (m : List (Nat × Byte)) :
    (State.putFarMem s core m).fuses = s.fuses := by
  simp [State.putFarMem]

@[simp] theorem loseReservations_fuses (s : State) (core a n : Nat) : (loseReservations s core a n).fuses = s.fuses := by
  refine fuses_foldl _ _ fun t i => ?_
  dsimp only
  split
  · split <;> simp
  · rfl

@[simp] theorem farStore_fuses (s : State) (core a : Nat) (b : Bytes) : (farStore s core a b).fuses = s.fuses := by simp [farStore]

@[simp] theorem State.putSharedBit_fuses (s : State) (core a : Nat) (v : Bool) :
    (State.putSharedBit s core a v).fuses = s.fuses := by
  simp [State.putSharedBit]

@[simp] theorem State.result_fuses (s : State) (core : Nat) (port : OutPort) (ready : Nat) (v : Word128) :
    (State.result s core port ready v).fuses = s.fuses := (rfl)

@[simp] theorem dataAccess_fuses (s : State) (core : Nat) (x : Access) : (dataAccess s core x).1.fuses = s.fuses := by
  unfold dataAccess
  dsimp only
  repeat' split
  all_goals simp

@[simp] theorem bitAccess_fuses (s : State) (core : Nat) (x : Access) : (bitAccess s core x).1.fuses = s.fuses := by
  unfold bitAccess
  dsimp only
  repeat' split
  all_goals simp

@[simp] theorem ioReadAccess_fuses (s : State) (core : Nat) (x : Access) (n : Nat) :
    (ioReadAccess s core x n).1.fuses = s.fuses := by
  unfold ioReadAccess
  dsimp only
  repeat' split
  all_goals simp

@[simp] theorem windowWrite_fuses (s : State) (core : Nat) (ok : Nat → Bool) (a : Nat) (b : Bytes) :
    (windowWrite s core ok a b).fuses = s.fuses := by
  unfold windowWrite
  split <;> simp

@[simp] theorem ioWriteAccess_fuses (s : State) (core : Nat) (x : Access) (n : Nat) (v : Word128) :
    (ioWriteAccess s core x n v).1.fuses = s.fuses := by
  unfold ioWriteAccess
  dsimp only
  repeat' split
  all_goals simp

@[simp] theorem ioAccess_fuses (s : State) (core : Nat) (x : Access) : (ioAccess s core x).1.fuses = s.fuses := by
  fun_cases ioAccess <;> simp

@[simp] theorem performAccess_fuses (s : State) (core : Nat) (x : Access) : (performAccess s core x).fuses = s.fuses := by
  unfold performAccess
  dsimp only
  repeat' split
  all_goals simp

@[simp] theorem execDelayedAccessPerform_fuses (core : Nat) (s : State) : KeepsFuses s (execDelayedAccessPerform core s) := by
  unfold execDelayedAccessPerform
  dsimp only
  split <;> simp

@[simp] theorem enterTask_fuses (s : State) (core : Nat) (c : Core) : (enterTask s core c).fuses = s.fuses := by
  unfold enterTask
  split <;> simp

@[simp] theorem finishIssue_fuses (s : State) (core : Nat) (ms : List Move) (stalled pc : Nat) (a : Acc) :
    KeepsFuses s (finishIssue s core ms stalled pc a) := by
  unfold finishIssue
  repeat' split
  all_goals simp

@[simp] theorem issueBundle_fuses (s : State) (core : Nat) : KeepsFuses s (issueBundle s core) := by fun_cases issueBundle <;> simp
@[simp] theorem execBundleIssue_fuses (core : Nat) (s : State) : KeepsFuses s (execBundleIssue core s) := by simp [execBundleIssue]

@[simp] theorem execWaitfSatisfied_fuses (core cycles : Nat) (s : State) : KeepsFuses s (execWaitfSatisfied core cycles s) := by
  unfold execWaitfSatisfied
  dsimp only
  split
  · split
    · intro t hissue
      refine (issueBundle_fuses _ core t hissue).trans ?_
      split <;> simp
    · simp
  · simp

@[simp] theorem execWaitBoundExpiry_fuses (core : Nat) (s : State) : KeepsFuses s (execWaitBoundExpiry core s) := by
  unfold execWaitBoundExpiry
  dsimp only
  split <;> simp

@[simp] theorem execBudgetExpiry_fuses (core : Nat) (s : State) : KeepsFuses s (execBudgetExpiry core s) := by
  simp [execBudgetExpiry]

@[simp] theorem execBtestComplete_fuses (core : Nat) (pass : Bool) (s : State) : KeepsFuses s (execBtestComplete core pass s) := by
  simp [execBtestComplete]

@[simp] theorem execTaskGive_fuses (block : Nat) (s : State) : KeepsFuses s (execTaskGive block s) := by
  unfold execTaskGive
  split <;> simp

@[simp] theorem execTake_fuses (core : Nat) (s : State) : KeepsFuses s (execTake core s) := by simp [execTake]

@[simp] theorem execFlagClr_fuses (core : Nat) (value : Word64) (s : State) : KeepsFuses s (execFlagClr core value s) := by
  simp [execFlagClr]

@[simp] theorem execDelay_fuses (core : Nat) (value : Word64) (s : State) : KeepsFuses s (execDelay core value s) := by
  simp [execDelay]

@[simp] theorem execDoneTask_fuses (core : Nat) (value : Word64) (s : State) : KeepsFuses s (execDoneTask core value s) := by
  simp [execDoneTask]

@[simp] theorem portFault_fuses (s : State) (core kind a : Nat) : (portFault s core kind a).fuses = s.fuses := by simp [portFault]

@[simp] theorem orFault_fuses {o : Option State} {s : State} (ho : ∀ t, o = some t → t.fuses = s.fuses) (core kind a : Nat) :
    KeepsFuses s (orFault o s core kind a) := by
  cases o with
  | none => simp [orFault]
  | some t => simpa [orFault] using ho t rfl

@[simp] theorem execWinSet_fuses (core : Nat) (value : Word128) (s : State) : KeepsFuses s (execWinSet core value s) :=
  orFault_fuses (fun _ => winSetOp_fuses _ _ _) _ _ _

@[simp] theorem execWinClr_fuses (core : Nat) (value : Word64) (s : State) : KeepsFuses s (execWinClr core value s) := by
  simp [execWinClr]

@[simp] theorem execKlook_fuses (core : Nat) (value : Word64) (s : State) : KeepsFuses s (execKlook core value s) := by
  simp [execKlook]

@[simp] theorem execKunwrap_fuses (core : Nat) (value : Word64) (s : State) : KeepsFuses s (execKunwrap core value s) :=
  orFault_fuses (fun _ => kunwrapOp_fuses _ _ _) _ _ _

@[simp] theorem execKdlook_fuses (core : Nat) (value : Word64) (s : State) : KeepsFuses s (execKdlook core value s) := by
  simp [execKdlook]

@[simp] theorem execKdstore_fuses (core : Nat) (value : Word64) (s : State) : KeepsFuses s (execKdstore core value s) := by
  simp [execKdstore]

@[simp] theorem execCadv_fuses (core : Nat) (value : Word64) (s : State) : KeepsFuses s (execCadv core value s) := by
  simp [execCadv]

@[simp] theorem execKrel_fuses (core : Nat) (value : Word64) (s : State) : KeepsFuses s (execKrel core value s) := by
  simp [execKrel]

@[simp] theorem execKeyRequestComplete_fuses (core : Nat) (s : State) : KeepsFuses s (execKeyRequestComplete core s) := by
  simp [execKeyRequestComplete]

@[simp] theorem execUnwrapComplete_fuses (core : Nat) (s : State) : KeepsFuses s (execUnwrapComplete core s) := by
  simp [execUnwrapComplete]

@[simp] theorem execBopen_fuses (core handle : Nat) (value : Word64) (s : State) : KeepsFuses s (execBopen core handle value s) :=
  orFault_fuses (fuses_of_ite_some fun _ => bopenOp_fuses _ _ _ _) _ _ _

@[simp] theorem execBptr_fuses (core handle : Nat) (value : Word64) (s : State) : KeepsFuses s (execBptr core handle value s) :=
  orFault_fuses (fuses_of_ite_some fun _ => bptrOp_fuses _ _ _ _) _ _ _

@[simp] theorem execBin_fuses (core handle : Nat) (value : Word128) (s : State) : KeepsFuses s (execBin core handle value s) :=
  orFault_fuses (fuses_of_ite_some fun _ => binOp_fuses _ _ _ _) _ _ _

@[simp] theorem execBout_fuses (core : Nat) (handle : Nat) (s : State) : KeepsFuses s (execBout core handle s) := by simp [execBout]

@[simp] theorem execBgo_fuses (core handle : Nat) (value : Word64) (s : State) : KeepsFuses s (execBgo core handle value s) :=
  orFault_fuses (fuses_of_ite_some fun _ => bgoOp_fuses) _ _ _

@[simp] theorem execBabort_fuses (core : Nat) (handle : Nat) (s : State) : KeepsFuses s (execBabort core handle s) := by
  simp [execBabort]

@[simp] theorem execBrel_fuses (core : Nat) (handle : Nat) (s : State) : KeepsFuses s (execBrel core handle s) := by simp [execBrel]
@[simp] theorem execRsaPub_fuses (engine : Nat) (s : State) : KeepsFuses s (execRsaPub engine s) := by simp [execRsaPub]
@[simp] theorem execRsaPriv_fuses (engine : Nat) (s : State) : KeepsFuses s (execRsaPriv engine s) := by simp [execRsaPriv]

@[simp] theorem execMlKemKeygen_fuses (engine : Nat) (s : State) : KeepsFuses s (execMlKemKeygen engine s) := by
  simp [execMlKemKeygen]

@[simp] theorem execBnMlKemEncaps_fuses (engine : Nat) (s : State) : KeepsFuses s (execBnMlKemEncaps engine s) := by
  simp [execBnMlKemEncaps]

@[simp] theorem execBnMlKemDecaps_fuses (engine : Nat) (s : State) : KeepsFuses s (execBnMlKemDecaps engine s) := by
  simp [execBnMlKemDecaps]

@[simp] theorem execMlDsaKeygen_fuses (engine : Nat) (s : State) : KeepsFuses s (execMlDsaKeygen engine s) := by
  simp [execMlDsaKeygen]

@[simp] theorem execBnMlDsaSign_fuses (engine : Nat) (s : State) : KeepsFuses s (execBnMlDsaSign engine s) := by
  simp [execBnMlDsaSign]

@[simp] theorem execBnMlDsaVerify_fuses (engine : Nat) (s : State) : KeepsFuses s (execBnMlDsaVerify engine s) := by
  simp [execBnMlDsaVerify]

@[simp] theorem execEcdsaSign_fuses (engine : Nat) (s : State) : KeepsFuses s (execEcdsaSign engine s) := by simp [execEcdsaSign]

@[simp] theorem execEcdsaVerify_fuses (engine : Nat) (s : State) : KeepsFuses s (execEcdsaVerify engine s) := by
  simp [execEcdsaVerify]

@[simp] theorem execEcdh_fuses (engine : Nat) (s : State) : KeepsFuses s (execEcdh engine s) := by simp [execEcdh]
@[simp] theorem execEcKeygen_fuses (engine : Nat) (s : State) : KeepsFuses s (execEcKeygen engine s) := by simp [execEcKeygen]

@[simp] theorem execEcPointCheck_fuses (engine : Nat) (s : State) : KeepsFuses s (execEcPointCheck engine s) := by
  simp [execEcPointCheck]

@[simp] theorem execMlDsaIteration_fuses (engine : Nat) (s : State) : KeepsFuses s (execMlDsaIteration engine s) := by
  simp [execMlDsaIteration]

@[simp] theorem execBnJobComplete_fuses (engine : Nat) (s : State) : KeepsFuses s (execBnJobComplete engine s) := by
  simp [execBnJobComplete]

@[simp] theorem execBankClearComplete_fuses (engine bank : Nat) (s : State) :
    KeepsFuses s (execBankClearComplete engine bank s) := by
  simp [execBankClearComplete]

@[simp] theorem execBnSliceEnd_fuses (engine progress : Nat) (s : State) : KeepsFuses s (execBnSliceEnd engine progress s) := by
  simp [execBnSliceEnd]

@[simp] theorem execCurveValidationComplete_fuses (engine : Nat) (s : State) :
    KeepsFuses s (execCurveValidationComplete engine s) := by
  simp [execCurveValidationComplete]

@[simp] theorem execRreq_fuses (core : Nat) (value : Word64) (s : State) : KeepsFuses s (execRreq core value s) :=
  orFault_fuses (fun _ => rreqOp_fuses _ _ _) _ _ _

@[simp] theorem execRten_fuses (core : Nat) (value : Word64) (s : State) : KeepsFuses s (execRten core value s) :=
  orFault_fuses (fun _ => rtenOp_fuses _ _ _) _ _ _

@[simp] theorem execBksub_fuses (core : Nat) (value : Word64) (s : State) : KeepsFuses s (execBksub core value s) :=
  orFault_fuses (fun _ => bksubOp_fuses _ _ _ _) _ _ _

@[simp] theorem execBulkSubmissionAnswer_fuses (core : Nat) (s : State) : KeepsFuses s (execBulkSubmissionAnswer core s) := by
  simp [execBulkSubmissionAnswer]

@[simp] theorem execBulkJobStart_fuses (s : State) : KeepsFuses s (execBulkJobStart s) := by simp [execBulkJobStart]

@[simp] theorem execBulkJobComplete_fuses (slot : Nat) (s : State) : KeepsFuses s (execBulkJobComplete slot s) := by
  unfold execBulkJobComplete
  split <;> simp

/-! ### Machine/Sync -/

@[simp] theorem State.enterSync_fuses (s : State) (y : SyncState) (code : Nat) (data : Bytes) :
    (State.enterSync s y code data).fuses = s.fuses := by
  simp [State.enterSync]

@[simp] theorem State.stepFolio_fuses (s : State) (t off : Int) : (State.stepFolio s t off).fuses = s.fuses := by
  simp [State.stepFolio]

@[simp] theorem State.settle_fuses (s : State) (off : Int) : (State.settle s off).fuses = s.fuses := by
  unfold State.settle
  split <;> simp

@[simp] theorem State.measured_fuses (s : State) (off t : Int) : (State.measured s off t).fuses = s.fuses := by
  unfold State.measured
  repeat' split
  all_goals simp

@[simp] theorem State.syncMeasured_fuses (s : State) (i : Nat) (t1 t2 : Int) : (State.syncMeasured s i t1 t2).fuses = s.fuses := by
  simp [State.syncMeasured]

@[simp] theorem ptpSync_fuses (s : State) (i : Nat) (m : PtpSync) : (ptpSync s i m).fuses = s.fuses := by simp [ptpSync]

@[simp] theorem ptpFollowUp_fuses (s : State) (i domain source seq : Nat) (t1 : Int) :
    (ptpFollowUp s i domain source seq t1).fuses = s.fuses := by
  fun_cases ptpFollowUp <;> simp

@[simp] theorem ppsEdge_fuses (s : State) (t : Int) : (ppsEdge s t).fuses = s.fuses := by simp [ppsEdge]

@[simp] theorem execPtpDelayRespReceive_fuses (lport domain source : Nat) (t3 t4 : Int) (s : State) :
    KeepsFuses s (execPtpDelayRespReceive lport domain source t3 t4 s) := by
  simp [execPtpDelayRespReceive]

@[simp] theorem execPtpAnnounceReceive_fuses (lport : Nat) (m : PtpAnnounce) (s : State) :
    KeepsFuses s (execPtpAnnounceReceive lport m s) := by
  simp [execPtpAnnounceReceive]

@[simp] theorem execSyncHoldoverTimeout_fuses (s : State) : KeepsFuses s (execSyncHoldoverTimeout s) := by
  simp [execSyncHoldoverTimeout]

@[simp] theorem State.slew_fuses (s : State) : (State.slew s).fuses = s.fuses := by
  unfold State.slew
  split <;> simp

/-! ### Machine/Tick -/

@[simp] theorem countCycles_fuses (s : State) : (countCycles s).fuses = s.fuses := by simp [countCycles]
@[simp] theorem newFolio_fuses (s : State) : (newFolio s).fuses = s.fuses := by simp [newFolio]
@[simp] theorem validateCurves_fuses (s : State) : (validateCurves s).fuses = s.fuses := by simp [validateCurves]

@[simp] theorem unitLeaves_fuses (s : State) (unit : Nat) : (unitLeaves s unit).fuses = s.fuses := by
  unfold unitLeaves
  dsimp only
  repeat' split
  all_goals simp

@[simp] theorem withdrawUnit_fuses (s : State) (unit : Nat) : (withdrawUnit s unit).fuses = s.fuses := by simp [withdrawUnit]
@[simp] theorem quarantineUnit_fuses (s : State) (p : Nat × Nat) : (quarantineUnit s p).fuses = s.fuses := by simp [quarantineUnit]

@[simp] theorem returnUnit_fuses (s : State) (unit : Nat) : (returnUnit s unit).fuses = s.fuses := by
  unfold returnUnit
  dsimp only
  split <;> simp

@[simp] theorem tickUnits_fuses (s : State) : (tickUnits s).fuses = s.fuses := by simp [tickUnits]
@[simp] theorem lateDistricts_fuses (s : State) : (lateDistricts s).fuses = s.fuses := by simp [lateDistricts]
@[simp] theorem ageDistrict_fuses (ended s : State) (d : Nat) : (ageDistrict ended s d).fuses = s.fuses := (rfl)
@[simp] theorem sleepDistrict_fuses (s : State) (d code : Nat) : (sleepDistrict s d code).fuses = s.fuses := by simp [sleepDistrict]
@[simp] theorem trySleep_fuses (s : State) (d : Nat) : (trySleep s d).fuses = s.fuses := by simp [trySleep]
@[simp] theorem standbyDistricts_fuses (s : State) : (standbyDistricts s).fuses = s.fuses := by simp [standbyDistricts]

@[simp] theorem tickDistricts_fuses (ended s : State) : (tickDistricts ended s).fuses = s.fuses := by
  unfold tickDistricts
  split <;> simp

@[simp] theorem deferredAnswers_fuses (s : State) : (deferredAnswers s).fuses = s.fuses := by
  refine fuses_foldl _ _ fun t k => ?_
  dsimp only
  split
  · simp
  · split
    · simp
    · split <;> simp

@[simp] theorem commitAnswers_fuses (s : State) (l : List Nat) : (commitAnswers s l).fuses = s.fuses := by
  refine fuses_foldl _ _ fun t k => ?_
  dsimp only
  split
  · split <;> simp
  · rfl

@[simp] theorem answerAll_fuses (s : State) (st : Nat) (l : List Nat) : (answerAll s st l).fuses = s.fuses := by simp [answerAll]

@[simp] theorem beginWait_fuses (s : State) (k : Nat) : (beginWait s k).fuses = s.fuses := by
  unfold beginWait
  dsimp only
  split <;> simp

@[simp] theorem stopShed_fuses (s : State) (l : List Nat) : (stopShed s l).fuses = s.fuses := by simp [stopShed]

theorem decide_fuses (s : State) (plazaToo : Bool) : (decide_ s plazaToo).s.fuses = s.fuses := by
  unfold decide_
  split
  · rfl
  · extract_lets a errors s0
    have h0 : s0.fuses = s.fuses := answerAll_fuses ..
    have hreleased := fuses_foldl errors s0 (f := fun s k => s.release (s.slot k).req) fun s k => State.release_fuses ..
    have h1 := precedence_fuses (errors.foldl (fun s k => s.release (s.slot k).req) s0) a plazaToo
    generalize precedence _ a plazaToo = prec at h1 ⊢
    obtain ⟨s1, shed⟩ := prec
    have h2 := stopShed_fuses s1 (errors ++ shed.map (·.1))
    have h3 := replacePass_fuses (stopShed s1 (errors ++ shed.map (·.1))) a
    dsimp only
    generalize replacePass _ a = repl at h3 ⊢
    obtain ⟨s3, failed, placed⟩ := repl
    exact (admissionPass_fuses s3 a).trans (h3.trans (h2.trans (h1.trans (hreleased.trans h0))))

@[simp] theorem countOwed_fuses (s : State) : (countOwed s).fuses = s.fuses := by simp [countOwed]
@[simp] theorem tickApply_fuses (s : State) : (tickApply s).fuses = s.fuses := by simp [tickApply]
@[simp] theorem refillPorts_fuses (s : State) : (refillPorts s).fuses = s.fuses := by simp [refillPorts]
@[simp] theorem drainPorts_fuses (s : State) : (drainPorts s).fuses = s.fuses := by simp [drainPorts]

@[simp] theorem tickFolio_fuses (s : State) : (tickFolio s).fuses = s.fuses := by
  unfold tickFolio
  extract_lets s1 plazaToo s2 s3 disabled drained elsewhere s4 d u faults s5 s6 s7 s8 s9 s9' s10
  have h3 : s3.fuses = s.fuses := by simp [s3, s2, s1]
  have h4 : s4.fuses = s.fuses := by simp [s4, h3]
  have hd : d.s.fuses = s.fuses := (decide_fuses ..).trans h4
  have h5 : s5.fuses = s.fuses := by simp [s5, u, hd]
  have h8 : s8.fuses = s.fuses := by simp [s8, s7, s6, h5]
  have h10 : s10.fuses = s.fuses := by simp [s10, s9', s9, h8]
  clear_value s3 s4 s10
  split
  · simp [h3]
  · split
    · exact h10
    · simp [h10]

@[simp] theorem execTick_fuses (s : State) : KeepsFuses s (execTick s) := by simp [execTick]

/-! ### Machine/Loader -/

@[simp] theorem State.fillSpaces_fuses (s : State) (fns : List FnRec) : (State.fillSpaces s fns).fuses = s.fuses := by
  simp [State.fillSpaces]

@[simp] theorem loadLibrary_fuses (s : State) : (loadLibrary s).1.fuses = s.fuses := by
  unfold loadLibrary
  dsimp only
  split <;> simp

/-! ### Machine/Start -/

@[simp] theorem passIdentity_fuses (s : State) : (passIdentity s).fuses = s.fuses := by
  unfold passIdentity
  split <;> simp

@[simp] theorem passL1_fuses (s : State) : (passL1 s).fuses = s.fuses := by
  unfold passL1
  split <;> simp

@[simp] theorem startSource_fuses (s : State) (k : Nat) (windows : List Bytes) : (startSource s k windows).fuses = s.fuses := by
  simp [startSource]

@[simp] theorem startStep1_fuses (s : State) : (startStep1 s).after.fuses = s.fuses := by
  unfold startStep1
  dsimp only
  split <;> simp

@[simp] theorem startStep2_fuses (s : State) : (startStep2 s).after.fuses = s.fuses := by
  unfold startStep2
  split
  · simp
  · dsimp only
    split <;> simp

@[simp] theorem startStep3_fuses (s : State) : (startStep3 s).after.fuses = s.fuses := by
  unfold startStep3
  dsimp only
  split
  · simp
  · simp
  · simp
  · split <;> simp

@[simp] theorem recordCaptures_fuses (fuel : Nat) (s : State) : (recordCaptures fuel s).fuses = s.fuses := by
  induction fuel generalizing s with
  | zero => rfl
  | succ fuel ih =>
    unfold recordCaptures
    split
    · next hwrite => exact (ih _).trans (execTamperRecordWrite_fuses s _ hwrite)
    · rfl

@[simp] theorem startStep4_fuses (s : State) : (startStep4 s).after.fuses = s.fuses := by
  unfold startStep4
  extract_lets held boot recorder s0 s1
  have h1 : s1.fuses = s.fuses := by simp [s1, s0]
  clear_value s1
  split
  · simp [h1]
  · split <;> simp [h1]

@[simp] theorem startStep5_fuses (s : State) : (startStep5 s).after.fuses = s.fuses := (rfl)
@[simp] theorem keyGutter_fuses (s : State) : (keyGutter s).fuses = s.fuses := (rfl)

@[simp] theorem startStep6_fuses (s : State) : (startStep6 s).after.fuses = s.fuses := by
  unfold startStep6
  repeat' split
  all_goals simp

@[simp] theorem bistQuarantine_fuses (s : State) (unit : Nat) : (bistQuarantine s unit).fuses = s.fuses := by simp [bistQuarantine]

@[simp] theorem runMbist_fuses (s : State) (l : List BadMemory) : (runMbist s l).1.fuses = s.fuses := by
  refine fuses_foldl_of Prod.fst l (s, none) fun a m => ?_
  split <;> simp

@[simp] theorem startStep7_fuses (s : State) : (startStep7 s).after.fuses = s.fuses := by
  have htest := runMbist_fuses s s.boot.env.badMemories
  unfold startStep7
  split
  all_goals
    next heq =>
      rw [heq] at htest
      exact htest

@[simp] theorem takeValues_fuses (s : State) (g : Image) : (takeValues s g).fuses = s.fuses := (rfl)

@[simp] theorem takeTamperConfig_fuses (s : State) (g : Image) : (takeTamperConfig s g).fuses = s.fuses := by
  simp [takeTamperConfig]

@[simp] theorem writeScope_fuses (s : State) (scope : Nat) (cards : List Card) (quorums : List (Nat × Nat)) (note : Bool) :
    (writeScope s scope cards quorums note).fuses = s.fuses := by
  unfold writeScope
  dsimp only
  rw [fuses_foldl]
  · rfl
  · intro t c
    split
    · rfl
    · split <;> simp

@[simp] theorem takeCards_fuses (s : State) (g : Image) : (takeCards s g).fuses = s.fuses := by simp [takeCards]

@[simp] theorem acceptImage_fuses (s : State) (b : Bytes) (x : Accepted) : (acceptImage s b x).fuses = s.fuses := by
  simp [acceptImage]

@[simp] theorem beginAcquire_fuses (s : State) : (beginAcquire s).fuses = s.fuses := (rfl)

@[simp] theorem startStep8_fuses (s : State) : (startStep8 s).after.fuses = s.fuses := by
  unfold startStep8
  split
  · simp
  · dsimp only
    split
    · split <;> simp
    · split <;> simp

@[simp] theorem startStep9_fuses (s : State) : (startStep9 s).after.fuses = s.fuses := by
  unfold startStep9
  extract_lets refused s0
  have hload := loadLibrary_fuses s0
  rw [show s0.fuses = s.fuses by simp [s0]] at hload
  split
  · next heq =>
    rw [heq] at hload
    exact hload
  · next heq =>
    rw [heq] at hload
    dsimp only
    split <;> exact hload

@[simp] theorem instantiateAll_fuses (s : State) (k : Nat) (seed : Bytes) : (instantiateAll s k seed).fuses = s.fuses := by
  simp [instantiateAll]

theorem rngStart_fuses (s : State) : (rngStart s).after.fuses = s.fuses := by
  unfold rngStart
  extract_lets env rng s0
  split
  · exact State.raise_fuses ..
  · split
    · exact State.raise_fuses ..
    · next s1 want k _ _ =>
      have h1 : s1.fuses = s.fuses := (startSource_fuses ..).trans (startSource_fuses ..)
      clear_value s1
      split
      · exact h1
      · split
        · exact h1
        · next seed s2 h =>
          have h2 : s2.fuses = s.fuses := (State.takeSeed_fuses h).trans h1
          have h3 := (instantiateAll_fuses s2 k seed).trans h2
          dsimp only
          split
          · exact h3
          · exact (State.raise_fuses ..).trans h3

@[simp] theorem eraseVault_fuses (s : State) : (eraseVault s).fuses = s.fuses := by simp [eraseVault]
@[simp] theorem takeClientKeys_fuses (s : State) : (takeClientKeys s).fuses = s.fuses := (rfl)
@[simp] theorem unsealStores_fuses (s : State) : (unsealStores s).fuses = s.fuses := by simp [unsealStores]

@[simp] theorem startStep11_fuses (s : State) : (startStep11 s).after.fuses = s.fuses := by
  have hunsealed : ∀ u : State, ∀ e, (if u.vaultGood then unsealStores u else u.raise evVaultRefused srcKeyStore 0 e).fuses = u.fuses := by
    intro u e
    split <;> simp
  unfold startStep11
  split
  next scramble s0 hdraw =>
  have h0 := State.random_fuses s 16
  rw [hdraw] at h0
  extract_lets ks s1 s2
  have h2 : s2.fuses = s.fuses := by
    simp only [s2, s1]
    split <;> simpa using h0
  clear_value s2
  split
  · exact h2
  · simp only [StepEnd.after_done, memberClientKeys_fuses, takeClientKeys_fuses]
    exact (hunsealed s2 _).trans h2

@[simp] theorem startStep12_fuses (s : State) : (startStep12 s).after.fuses = s.fuses := by
  unfold startStep12
  split
  · simp
  · split <;> simp

@[simp] theorem holdBlocks_fuses (s : State) : (holdBlocks s).fuses = s.fuses := (rfl)

@[simp] theorem readyRecovery_fuses (s : State) : (readyRecovery s).fuses = s.fuses := by
  unfold readyRecovery
  extract_lets up s1 s2
  have h1 : s1.fuses = s.fuses := by simp [s1]
  have h2 : s2.fuses = s.fuses := by simp [s2, h1]
  clear_value s2
  split
  · exact h2
  · have h3 := (rngStart_fuses s2).trans h2
    split
    all_goals
      next heq =>
        rw [heq] at h3
        exact h3

@[simp] theorem toRecovery_fuses (s : State) (reason : Nat) : (toRecovery s reason).fuses = s.fuses := by simp [toRecovery]
@[simp] theorem endDebug_fuses (s : State) : (endDebug s).fuses = s.fuses := by simp [endDebug]
@[simp] theorem failStart_fuses (s : State) (n cause data : Nat) : (failStart s n cause data).fuses = s.fuses := by simp [failStart]
@[simp] theorem enterService_fuses (s : State) : (enterService s).fuses = s.fuses := by simp [enterService]
@[simp] theorem endStep_fuses (s : State) (n : Nat) : (endStep s n).fuses = s.fuses := (rfl)

theorem runSteps_fuses {l : List (Nat × (State → StepEnd))} (hl : ∀ p ∈ l, ∀ s, (p.2 s).after.fuses = s.fuses) (s : State) :
    (runSteps l s).fuses = s.fuses := by
  induction l generalizing s with
  | nil => exact enterService_fuses s
  | cons p rest ih =>
    obtain ⟨n, f⟩ := p
    have hrest := ih fun p hp => hl p (List.mem_cons_of_mem _ hp)
    unfold runSteps
    extract_lets boot s0
    have hstep : (f s0).after.fuses = s.fuses := hl (n, f) List.mem_cons_self s0
    split
    · rfl
    · split
      all_goals
        rename_i hend
        rw [hend] at hstep
      · exact (failStart_fuses ..).trans hstep
      · exact hstep
      · dsimp only
        split
        · simp only [toRecovery_fuses]
          simpa using hstep
        · rw [hrest]
          simpa using hstep

theorem stepsFrom_fuses (n : Nat) : ∀ p ∈ stepsFrom n, ∀ s, (p.2 s).after.fuses = s.fuses := by
  intro p hp
  have hmem := List.mem_of_mem_filter hp
  simp only [List.mem_cons, List.not_mem_nil, or_false] at hmem
  rcases hmem with rfl | rfl | rfl | rfl | rfl | rfl | rfl | rfl | rfl | rfl | rfl | rfl
  all_goals simp [rngStart_fuses]

@[simp] theorem beginStart_fuses (s : State) (env : StartEnv) : (beginStart s env).fuses = s.fuses := by
  simp [beginStart, runSteps_fuses (stepsFrom_fuses 1)]

@[simp] theorem execStartBegin_fuses (env : StartEnv) (s : State) : KeepsFuses s (execStartBegin env s) := by simp [execStartBegin]

@[simp] theorem execInternalRestart_fuses (env : StartEnv) (s : State) : KeepsFuses s (execInternalRestart env s) := by
  unfold execInternalRestart
  split <;> simp

@[simp] theorem execStartStepTimeout_fuses (s : State) : KeepsFuses s (execStartStepTimeout s) := by
  unfold execStartStepTimeout
  split <;> simp

@[simp] theorem endAcquire_fuses (s : State) : (endAcquire s).fuses = s.fuses := by
  simp [endAcquire, runSteps_fuses (stepsFrom_fuses 12)]

@[simp] theorem execAcquireWaitEnd_fuses (s : State) : KeepsFuses s (execAcquireWaitEnd s) := by simp [execAcquireWaitEnd]
@[simp] theorem acquired_fuses (s : State) : (acquired s).fuses = s.fuses := by simp [acquired]

@[simp] theorem execPtpSyncReceive_fuses (lport : Nat) (m : PtpSync) (s : State) : KeepsFuses s (execPtpSyncReceive lport m s) := by
  simp [execPtpSyncReceive]

@[simp] theorem execPtpFollowUpReceive_fuses (lport domain source seq : Nat) (t1 : Int) (s : State) :
    KeepsFuses s (execPtpFollowUpReceive lport domain source seq t1 s) := by
  simp [execPtpFollowUpReceive]

@[simp] theorem execPpsInEdge_fuses (t : Int) (s : State) : KeepsFuses s (execPpsInEdge t s) := by simp [execPpsInEdge]

/-! ### Machine/Chain -/

@[simp] theorem sendHs3_fuses (s : State) (c : Nat) (x : Channel) (lport : Nat) (src : Source4) (hs2 prk sig : Bytes) :
    (sendHs3 s c x lport src hs2 prk sig).fuses = s.fuses := by
  simp [sendHs3]

@[simp] theorem execHs2Receive_fuses (lport : Nat) (s : State) : KeepsFuses s (execHs2Receive lport s) := by
  unfold execHs2Receive
  split
  · simp
  · dsimp only
    split
    · simp
    · split
      · simp
      · split
        · simp
        · split
          · simp
          · split
            · simp
            · split
              · simp
              · split
                all_goals
                  next hrun => simp [Fn.run_keeps (Fn.ecdsaSign_keeps _ _ _) hrun]

@[simp] theorem takeRep_fuses (s : State) (lport : Nat) (want : ChanState) : (takeRep s lport want).2.fuses = s.fuses := by
  unfold takeRep
  dsimp only
  repeat' split
  all_goals simp

@[simp] theorem execReadyRepReceive_fuses (lport : Nat) (s : State) : KeepsFuses s (execReadyRepReceive lport s) := by
  have htaken := takeRep_fuses s lport .pending
  unfold execReadyRepReceive
  split
  all_goals
    rename_i heq
    rw [heq] at htaken
  · split <;> simpa using htaken
  · simpa using htaken

@[simp] theorem settleReservations_fuses (s : State) (h : Nat) : (settleReservations s h).fuses = s.fuses := by
  simp [settleReservations]

@[simp] theorem releaseJournal_fuses (s : State) (h : Nat) : (releaseJournal s h).fuses = s.fuses := (rfl)

@[simp] theorem acknowledged_fuses (s : State) (h : Nat) (batch : Bool) : (acknowledged s h batch).fuses = s.fuses := by
  unfold acknowledged
  dsimp only
  split <;> simp

@[simp] theorem memberHolds_fuses (s : State) (j path : Nat) (h : Nat) (batch : Bool) :
    (memberHolds s j path h batch).fuses = s.fuses := by
  simp [memberHolds]

@[simp] theorem selfFence_fuses (s : State) : (selfFence s).fuses = s.fuses := by simp [selfFence]

@[simp] theorem superseded_fuses (s : State) : (superseded s).fuses = s.fuses := by
  unfold superseded
  dsimp only
  split <;> simp

@[simp] theorem memberReports_fuses (s : State) (j path : Nat) (r : Bytes) : (memberReports s j path r).fuses = s.fuses := by
  simp [memberReports]

@[simp] theorem actOnReply_fuses (j path : Nat) (s : State) (r : ReplyRec) : (actOnReply j path s r).fuses = s.fuses := by
  simp [actOnReply]

@[simp] theorem repArrives_fuses (s : State) (lport : Nat) : (repArrives s lport).fuses = s.fuses := by
  have htaken := takeRep_fuses s lport .open
  unfold repArrives
  split
  all_goals
    rename_i heq
    rw [heq] at htaken
  · split <;> simpa using htaken
  · exact htaken

@[simp] theorem execJournalAck_fuses (lport : Nat) (s : State) : KeepsFuses s (execJournalAck lport s) := by simp [execJournalAck]

@[simp] theorem execHeartbeatReply_fuses (lport : Nat) (s : State) : KeepsFuses s (execHeartbeatReply lport s) := by
  simp [execHeartbeatReply]

@[simp] theorem execSelfFence_fuses (s : State) : KeepsFuses s (execSelfFence s) := by simp [execSelfFence]

/-! ### Machine/Mgmt -/

@[simp] theorem Fn.rangeOk_keeps (p : Bytes) (len : Nat) : Fn.Keeps (Fn.rangeOk p len) := by simp [Fn.rangeOk]

@[simp] theorem Fn.readRegs_keeps (chan n addr : Nat) : Fn.Keeps (Fn.readRegs chan n addr) := by
  induction n generalizing addr with
  | zero => exact Fn.keeps_pure _
  | succ n ih =>
    unfold Fn.readRegs
    extract_lets rest
    have hrest : ∀ w, Fn.Keeps (rest w) := fun w => Fn.keeps_bind (ih _) fun _ => Fn.keeps_pure _
    clear_value rest
    split
    · refine Fn.keeps_get_bind fun s => ?_
      split
      · next hok => exact (hrest _ _).trans (readRandom_fuses hok)
      · rfl
    · exact Fn.keeps_bind ((Fn.act_keeps _).2 fun s => regRead_fuses s chan addr) hrest

@[simp] theorem mgmtReadFn_keeps (x : Slot) : Fn.Keeps (mgmtReadFn x) := by
  unfold mgmtReadFn
  repeat' first
    | with_reducible refine Fn.keeps_bind ?_ fun _ => ?_
    | split
    | dsimp only
  all_goals simp

@[simp] theorem mgmtWriteFn_keeps (x : Slot) : Fn.Keeps (mgmtWriteFn x) := by
  unfold mgmtWriteFn
  repeat' first
    | with_reducible refine Fn.keeps_bind ?_ fun _ => ?_
    | split
    | dsimp only
  all_goals simp

@[simp] theorem Fn.refuseCommit_keeps (g st fail : Nat) : Fn.Keeps (Fn.refuseCommit g st fail) := by
  unfold Fn.refuseCommit
  repeat' first
    | with_reducible refine Fn.keeps_bind ?_ fun _ => ?_
    | split
  all_goals simp

@[simp] theorem mgmtCommitFn_keeps (k : Nat) (x : Slot) : Fn.Keeps (mgmtCommitFn k x) := by
  unfold mgmtCommitFn
  repeat' first
    | with_reducible refine Fn.keeps_bind ?_ fun _ => ?_
    | with_reducible refine (Fn.change_keeps _).2 fun _ => ?_
    | split
    | dsimp only
  all_goals simp

@[simp] theorem hsRespondFn_keeps (x : Slot) : Fn.Keeps (hsRespondFn x) := by
  unfold hsRespondFn
  repeat' first
    | with_reducible refine Fn.keeps_bind ?_ fun _ => ?_
    | split
  all_goals simp

@[simp] theorem hsFinishFn_keeps (x : Slot) : Fn.Keeps (hsFinishFn x) := by
  unfold hsFinishFn
  repeat' first
    | with_reducible refine Fn.keeps_bind ?_ fun _ => ?_
    | split
  all_goals simp

/-! ### Machine/Debug -/

@[simp] theorem State.putSramByte_fuses (s : State) (row o : Nat) (b : Byte) : (State.putSramByte s row o b).fuses = s.fuses := by
  unfold State.putSramByte
  split <;> simp

@[simp] theorem debugDenied_fuses (s : State) (a : Nat) : (debugDenied s a).fuses = s.fuses := by simp [debugDenied]
@[simp] theorem debugLocked_fuses (s : State) (a : Nat) : (debugLocked s a).fuses = s.fuses := by simp [debugLocked]

@[simp] theorem debugFlags_fuses (s : State) (allowed : Bool) (a : Nat) : (debugFlags s allowed a).fuses = s.fuses := by
  unfold debugFlags
  repeat' split
  all_goals simp

@[simp] theorem debugSramRead_fuses (s : State) (allowed : Bool) (a : Nat) : (debugSramRead s allowed a).2.fuses = s.fuses := by
  simp [debugSramRead]

@[simp] theorem debugSramWrite_fuses (s : State) (allowed : Bool) (a : Nat) (data : Word32) :
    (debugSramWrite s allowed a data).fuses = s.fuses := by
  refine (debugFlags_fuses ..).trans (fuses_foldl _ _ fun t i => ?_)
  split
  · split <;> simp
  · rfl

@[simp] theorem debugReg_fuses (s : State) (addr : Nat) : (debugReg s addr).2.fuses = s.fuses := by
  unfold debugReg
  split
  · split
    · next hok => exact readRandom_fuses hok
    · rfl
  · split <;> rfl

@[simp] theorem debugMgmtRead_fuses (s : State) (allowed : Bool) (a : Nat) : (debugMgmtRead s allowed a).2.fuses = s.fuses := by
  unfold debugMgmtRead
  repeat' split
  all_goals simp

@[simp] theorem debugMgmtWrite_fuses (s : State) (allowed : Bool) (a : Nat) (data : Word32) :
    (debugMgmtWrite s allowed a data).fuses = s.fuses := by
  simp [debugMgmtWrite]

@[simp] theorem execDbgAccess_fuses (write : Bool) (space addr : Nat) (data : Word32) (s : State) :
    KeepsFuses s (execDbgAccess write space addr data s) := by
  unfold execDbgAccess
  repeat' split
  all_goals simp

/-! ### Machine/Pay -/

@[simp] theorem Fn.pan_keeps (p : Bytes) (off : Nat) : Fn.Keeps (Fn.pan p off) := by simp [Fn.pan]

@[simp] theorem Fn.openPin_keeps (key : Bytes) (fmt lmin lmax : Nat) (pan : List Nat) (block : Bytes) :
    Fn.Keeps (Fn.openPin key fmt lmin lmax pan block) := by
  simp [Fn.openPin]

@[simp] theorem Fn.fill_keeps (fmt : Nat) : Fn.Keeps (Fn.fill fmt) := by simp [Fn.fill]

@[simp] theorem Fn.offsetMethod_keeps (x : Slot) (stop : Nat) (rest : Bool) (modes : List Nat) :
    Fn.Keeps (Fn.offsetMethod x stop rest modes) := by
  unfold Fn.offsetMethod
  repeat' first
    | with_reducible refine Fn.keeps_bind ?_ fun _ => ?_
    | split
  all_goals simp

@[simp] theorem pinVerifyOffsetFn_keeps (x : Slot) : Fn.Keeps (pinVerifyOffsetFn x) := by simp [pinVerifyOffsetFn]
@[simp] theorem pinOffsetGenerateFn_keeps (x : Slot) : Fn.Keeps (pinOffsetGenerateFn x) := by simp [pinOffsetGenerateFn]

@[simp] theorem Fn.pvvMethod_keeps (x : Slot) (stop : Nat) (rest : Bool) (modes : List Nat) :
    Fn.Keeps (Fn.pvvMethod x stop rest modes) := by
  unfold Fn.pvvMethod
  repeat' first
    | with_reducible refine Fn.keeps_bind ?_ fun _ => ?_
    | split
  all_goals simp

@[simp] theorem pinVerifyPvvFn_keeps (x : Slot) : Fn.Keeps (pinVerifyPvvFn x) := by simp [pinVerifyPvvFn]
@[simp] theorem pvvGenerateFn_keeps (x : Slot) : Fn.Keeps (pvvGenerateFn x) := by simp [pvvGenerateFn]

@[simp] theorem pinTranslateFn_keeps (x : Slot) : Fn.Keeps (pinTranslateFn x) := by
  unfold pinTranslateFn
  repeat' first
    | with_reducible refine Fn.keeps_bind ?_ fun _ => ?_
    | split
  all_goals simp

@[simp] theorem Fn.macFor_keeps (x : Slot) (off most : Nat) (modes : List Nat) : Fn.Keeps (Fn.macFor x off most modes) := by
  simp [Fn.macFor]

@[simp] theorem macMake_keeps (x : Slot) (most : Nat) : Fn.Keeps (macMake x most) := by simp [macMake]
@[simp] theorem macCheck_keeps (x : Slot) (most : Nat) : Fn.Keeps (macCheck x most) := by simp [macCheck]

@[simp] theorem Fn.cvvOf_keeps (x : Slot) (stop : Nat) (rest : Bool) (modes : List Nat) :
    Fn.Keeps (Fn.cvvOf x stop rest modes) := by
  unfold Fn.cvvOf
  repeat' first
    | with_reducible refine Fn.keeps_bind ?_ fun _ => ?_
    | split
  all_goals simp

@[simp] theorem cvvGenerateFn_keeps (x : Slot) : Fn.Keeps (cvvGenerateFn x) := by simp [cvvGenerateFn]
@[simp] theorem cvvVerifyFn_keeps (x : Slot) : Fn.Keeps (cvvVerifyFn x) := by simp [cvvVerifyFn]

/-! ### Machine/Emv -/

@[simp] theorem Fn.arqc_keeps (x : Slot) (off : Nat) (reserved : List (Nat × Nat)) (rest : Bool) :
    Fn.Keeps (Fn.arqc x off reserved rest) := by
  unfold Fn.arqc
  repeat' first
    | with_reducible refine Fn.keeps_bind ?_ fun _ => ?_
    | split
  all_goals simp

@[simp] theorem Fn.advance_keeps (k : Nat) (x : Slot) (unit v psn digits : Nat) (id : Bytes) :
    Fn.Keeps (Fn.advance k x unit v psn digits id) := by
  simp [Fn.advance]

@[simp] theorem arqcVerifyFn_keeps (x : Slot) : Fn.Keeps (arqcVerifyFn x) := by simp [arqcVerifyFn]
@[simp] theorem arqcVerifyArpcFn_keeps (x : Slot) : Fn.Keeps (arqcVerifyArpcFn x) := by simp [arqcVerifyArpcFn]
@[simp] theorem arqcVerifyTrackedFn_keeps (k : Nat) (x : Slot) : Fn.Keeps (arqcVerifyTrackedFn k x) := by simp [arqcVerifyTrackedFn]

@[simp] theorem smMacFn_keeps (x : Slot) : Fn.Keeps (smMacFn x) := by
  unfold smMacFn
  repeat' first
    | with_reducible refine Fn.keeps_bind ?_ fun _ => ?_
    | split
  all_goals simp

@[simp] theorem smEncryptFn_keeps (x : Slot) : Fn.Keeps (smEncryptFn x) := by
  unfold smEncryptFn
  repeat' first
    | with_reducible refine Fn.keeps_bind ?_ fun _ => ?_
    | split
  all_goals simp

@[simp] theorem smPinChangeFn_keeps (x : Slot) : Fn.Keeps (smPinChangeFn x) := by
  unfold smPinChangeFn
  repeat' first
    | with_reducible refine Fn.keeps_bind ?_ fun _ => ?_
    | split
  all_goals simp

@[simp] theorem Fn.dukpt_keeps (h : Handle) (wklen : Nat) (ksn : Bytes) (use : DukptUse) : Fn.Keeps (Fn.dukpt h wklen ksn use) := by
  simp [Fn.dukpt]

@[simp] theorem Fn.dukptMac_keeps (x : Slot) (off : Nat) (use : DukptUse) : Fn.Keeps (Fn.dukptMac x off use) := by
  unfold Fn.dukptMac
  repeat' first
    | with_reducible refine Fn.keeps_bind ?_ fun _ => ?_
    | split
  all_goals simp

@[simp] theorem dukptMacVerifyFn_keeps (x : Slot) : Fn.Keeps (dukptMacVerifyFn x) := by simp [dukptMacVerifyFn]
@[simp] theorem dukptMacGenerateFn_keeps (x : Slot) : Fn.Keeps (dukptMacGenerateFn x) := by simp [dukptMacGenerateFn]

@[simp] theorem Fn.dukptPin_keeps (x : Slot) (stop : Nat) : Fn.Keeps (Fn.dukptPin x stop) := by
  unfold Fn.dukptPin
  repeat' first
    | with_reducible refine Fn.keeps_bind ?_ fun _ => ?_
    | split
  all_goals simp

@[simp] theorem dukptPinTranslateFn_keeps (x : Slot) : Fn.Keeps (dukptPinTranslateFn x) := by simp [dukptPinTranslateFn]

@[simp] theorem dukptPinTranslateTrackedFn_keeps (k : Nat) (x : Slot) : Fn.Keeps (dukptPinTranslateTrackedFn k x) := by
  simp [dukptPinTranslateTrackedFn]

@[simp] theorem dukptData_keeps (enc : Bool) (use : DukptUse) (x : Slot) : Fn.Keeps (dukptData enc use x) := by
  unfold dukptData
  repeat' first
    | with_reducible refine Fn.keeps_bind ?_ fun _ => ?_
    | split
  all_goals simp

/-! ### Machine/PubKey -/

@[simp] theorem Fn.engine_keeps (paired : Bool) : Fn.Keeps (Fn.engine paired) := by
  unfold Fn.engine
  repeat' first
    | with_reducible refine Fn.keeps_bind ?_ fun _ => ?_
    | split
  all_goals simp

@[simp] theorem noteJob_fuses (s : State) (e op st cyc inv iter : Nat) (refused : Bool) :
    (noteJob s e op st cyc inv iter refused).fuses = s.fuses := by
  simp [noteJob]

@[simp] theorem Fn.job_keeps (j : BnJob) (row : Nat) : Fn.Keeps (Fn.job j row) := by
  unfold Fn.job
  repeat' first
    | with_reducible refine Fn.keeps_bind ?_ fun _ => ?_
    | with_reducible refine (Fn.change_keeps _).2 fun _ => ?_
    | split
    | dsimp only
  all_goals simp

@[simp] theorem Fn.rsaPrivate_keeps (h : Handle) (n : Nat) (b : Bytes) : Fn.Keeps (Fn.rsaPrivate h n b) := by simp [Fn.rsaPrivate]
@[simp] theorem Fn.rsaPublic_keeps (e : Nat) (modulus b : Bytes) : Fn.Keeps (Fn.rsaPublic e modulus b) := by simp [Fn.rsaPublic]

@[simp] theorem Fn.rsaSign_keeps (h : Handle) (n scheme : Nat) (hash : Nat) (digest : Bytes) :
    Fn.Keeps (Fn.rsaSign h n scheme hash digest) := by
  simp [Fn.rsaSign]

@[simp] theorem Fn.rsaVerify_keeps (e : Nat) (modulus : Bytes) (scheme : Nat) (hash : Nat) (digest sig : Bytes) :
    Fn.Keeps (Fn.rsaVerify e modulus scheme hash digest sig) := by
  simp [Fn.rsaVerify]

@[simp] theorem rsaPrivateFn_keeps (n : Nat) (x : Slot) : Fn.Keeps (rsaPrivateFn n x) := by
  unfold rsaPrivateFn
  repeat' first
    | with_reducible refine Fn.keeps_bind ?_ fun _ => ?_
    | split
  all_goals simp

@[simp] theorem rsaPublicFn_keeps (sizes : List Nat) (x : Slot) : Fn.Keeps (rsaPublicFn sizes x) := by
  unfold rsaPublicFn
  repeat' first
    | with_reducible refine Fn.keeps_bind ?_ fun _ => ?_
    | split
  all_goals simp

@[simp] theorem Fn.curve_keeps (x : Slot) (code : Nat) (handle : Nat) : Fn.Keeps (Fn.curve x code handle) := by
  unfold Fn.curve
  repeat' first
    | with_reducible refine Fn.keeps_bind ?_ fun _ => ?_
    | split
  all_goals simp

@[simp] theorem Fn.point_keeps (c : Curve) (pub : Bytes) : Fn.Keeps (Fn.point c pub) := by simp [Fn.point]

@[simp] theorem ecdsaSignFn_keeps (code : Nat) (x : Slot) : Fn.Keeps (ecdsaSignFn code x) := by
  unfold ecdsaSignFn
  repeat' first
    | with_reducible refine Fn.keeps_bind ?_ fun _ => ?_
    | split
  all_goals simp

@[simp] theorem ecdsaVerifyFn_keeps (code : Nat) (x : Slot) : Fn.Keeps (ecdsaVerifyFn code x) := by
  unfold ecdsaVerifyFn
  repeat' first
    | with_reducible refine Fn.keeps_bind ?_ fun _ => ?_
    | split
  all_goals simp

@[simp] theorem ecdhFn_keeps (code : Nat) (x : Slot) : Fn.Keeps (ecdhFn code x) := by
  unfold ecdhFn
  repeat' first
    | with_reducible refine Fn.keeps_bind ?_ fun _ => ?_
    | split
  all_goals simp

@[simp] theorem mlKemEncapsFn_keeps (x : Slot) : Fn.Keeps (mlKemEncapsFn x) := by
  unfold mlKemEncapsFn
  repeat' first
    | with_reducible refine Fn.keeps_bind ?_ fun _ => ?_
    | split
  all_goals simp

@[simp] theorem mlKemDecapsFn_keeps (x : Slot) : Fn.Keeps (mlKemDecapsFn x) := by
  unfold mlKemDecapsFn
  repeat' first
    | with_reducible refine Fn.keeps_bind ?_ fun _ => ?_
    | split
  all_goals simp

@[simp] theorem mlDsaSignFn_keeps (x : Slot) : Fn.Keeps (mlDsaSignFn x) := by
  unfold mlDsaSignFn
  repeat' first
    | with_reducible refine Fn.keeps_bind ?_ fun _ => ?_
    | split
  all_goals simp

@[simp] theorem mlDsaVerifyFn_keeps (x : Slot) : Fn.Keeps (mlDsaVerifyFn x) := by
  unfold mlDsaVerifyFn
  repeat' first
    | with_reducible refine Fn.keeps_bind ?_ fun _ => ?_
    | split
  all_goals simp

@[simp] theorem rsaPrivateCode_keeps (x : Slot) : Fn.Keeps (rsaPrivateCode x) := by simp [rsaPrivateCode]
@[simp] theorem rsaPublicCode_keeps (x : Slot) : Fn.Keeps (rsaPublicCode x) := by simp [rsaPublicCode]

/-! ### Machine/KeyMgmt -/

@[simp] theorem Fn.incoming_keeps (h : Handle) (b : Bytes) : Fn.Keeps (Fn.incoming h b) := by
  unfold Fn.incoming
  repeat' first
    | with_reducible refine Fn.keeps_bind ?_ fun _ => ?_
    | split
  all_goals simp

@[simp] theorem keyImportFn_keeps (most out : Nat) (x : Slot) : Fn.Keeps (keyImportFn most out x) := by
  unfold keyImportFn
  repeat' first
    | with_reducible refine Fn.keeps_bind ?_ fun _ => ?_
    | split
  all_goals simp

@[simp] theorem keyExportFn_keeps (x : Slot) : Fn.Keeps (keyExportFn x) := by
  unfold keyExportFn
  repeat' first
    | with_reducible refine Fn.keeps_bind ?_ fun _ => ?_
    | split
  all_goals simp

@[simp] theorem keyTranslateFn_keeps (x : Slot) : Fn.Keeps (keyTranslateFn x) := by
  unfold keyTranslateFn
  repeat' first
    | with_reducible refine Fn.keeps_bind ?_ fun _ => ?_
    | split
  all_goals simp

@[simp] theorem keyGenerateFn_keeps (x : Slot) : Fn.Keeps (keyGenerateFn x) := by
  unfold keyGenerateFn
  repeat' first
    | with_reducible refine Fn.keeps_bind ?_ fun _ => ?_
    | split
  all_goals simp

@[simp] theorem keyCheckValueFn_keeps (x : Slot) : Fn.Keeps (keyCheckValueFn x) := by simp [keyCheckValueFn]

@[simp] theorem keyLoadResidentFn_keeps (x : Slot) : Fn.Keeps (keyLoadResidentFn x) := by
  unfold keyLoadResidentFn
  repeat' first
    | with_reducible refine Fn.keeps_bind ?_ fun _ => ?_
    | split
  all_goals simp

@[simp] theorem keyDeleteResidentFn_keeps (k : Nat) (x : Slot) : Fn.Keeps (keyDeleteResidentFn k x) := by
  unfold keyDeleteResidentFn
  repeat' first
    | with_reducible refine Fn.keeps_bind ?_ fun _ => ?_
    | split
  all_goals simp

@[simp] theorem tr34ImportFn_keeps (x : Slot) : Fn.Keeps (tr34ImportFn x) := by
  unfold tr34ImportFn
  repeat' first
    | with_reducible refine Fn.keeps_bind ?_ fun _ => ?_
    | split
  all_goals simp

@[simp] theorem tr34ExportFn_keeps (x : Slot) : Fn.Keeps (tr34ExportFn x) := by
  unfold tr34ExportFn
  repeat' first
    | with_reducible refine Fn.keeps_bind ?_ fun _ => ?_
    | split
  all_goals simp

@[simp] theorem Fn.keyPair_keeps (x : Slot) (o : OutAttr) (g : SmkGen) (pub raw : Bytes) (curve : Nat) :
    Fn.Keeps (Fn.keyPair x o g pub raw curve) := by
  simp [Fn.keyPair]

@[simp] theorem ecKeypairGenerateFn_keeps (x : Slot) : Fn.Keeps (ecKeypairGenerateFn x) := by
  unfold ecKeypairGenerateFn
  repeat' first
    | with_reducible refine Fn.keeps_bind ?_ fun _ => ?_
    | split
  all_goals simp

@[simp] theorem latticeKeypairFn_keeps (alg op pub seed : Nat) (x : Slot) : Fn.Keeps (latticeKeypairFn alg op pub seed x) := by
  unfold latticeKeypairFn
  repeat' first
    | with_reducible refine Fn.keeps_bind ?_ fun _ => ?_
    | split
  all_goals simp

@[simp] theorem randomFn_keeps (most : Nat) (x : Slot) : Fn.Keeps (randomFn most x) := by
  unfold randomFn
  repeat' first
    | with_reducible refine Fn.keeps_bind ?_ fun _ => ?_
    | split
  all_goals simp

@[simp] theorem hashFn_keeps (x : Slot) : Fn.Keeps (hashFn x) := by simp [hashFn]

@[simp] theorem ff1Fn_keeps (enc : Bool) (x : Slot) : Fn.Keeps (ff1Fn enc x) := by
  unfold ff1Fn
  repeat' first
    | with_reducible refine Fn.keeps_bind ?_ fun _ => ?_
    | split
  all_goals simp

/-! ### Machine/Stream -/

@[simp] theorem Fn.submit_keeps (k : Nat) (op : BulkOp) (kin kout : Handle) : Fn.Keeps (Fn.submit k op kin kout) := by
  unfold Fn.submit
  repeat' first
    | with_reducible refine Fn.keeps_bind ?_ fun _ => ?_
    | split
  all_goals simp

@[simp] theorem streamOpenFn_keeps (k : Nat) (x : Slot) : Fn.Keeps (streamOpenFn k x) := by
  unfold streamOpenFn
  repeat' first
    | with_reducible refine Fn.keeps_bind ?_ fun _ => ?_
    | split
  all_goals simp

@[simp] theorem streamSegmentFn_keeps (k : Nat) (x : Slot) : Fn.Keeps (streamSegmentFn k x) := by simp [streamSegmentFn]
@[simp] theorem streamFinalFn_keeps (k : Nat) (x : Slot) : Fn.Keeps (streamFinalFn k x) := by simp [streamFinalFn]
@[simp] theorem streamAbortFn_keeps (k : Nat) (x : Slot) : Fn.Keeps (streamAbortFn k x) := by simp [streamAbortFn]

@[simp] theorem curveLoadFn_keeps (x : Slot) : Fn.Keeps (curveLoadFn x) := by
  unfold curveLoadFn
  repeat' first
    | with_reducible refine Fn.keeps_bind ?_ fun _ => ?_
    | split
  all_goals simp

@[simp] theorem Fn.curveRecord_keeps (x : Slot) (h : Nat) : Fn.Keeps (Fn.curveRecord x h) := by
  unfold Fn.curveRecord
  repeat' first
    | with_reducible refine Fn.keeps_bind ?_ fun _ => ?_
    | split
  all_goals simp

@[simp] theorem curveQueryFn_keeps (x : Slot) : Fn.Keeps (curveQueryFn x) := by
  unfold curveQueryFn
  repeat' first
    | with_reducible refine Fn.keeps_bind ?_ fun _ => ?_
    | split
  all_goals simp

@[simp] theorem curveDeleteFn_keeps (x : Slot) : Fn.Keeps (curveDeleteFn x) := by simp [curveDeleteFn]

/-! ### Machine/DevFns -/

@[simp] theorem authOpenFn_keeps (x : Slot) : Fn.Keeps (authOpenFn x) := by
  unfold authOpenFn
  repeat' first
    | with_reducible refine Fn.keeps_bind ?_ fun _ => ?_
    | split
  all_goals simp

@[simp] theorem authSignFn_keeps (k : Nat) (x : Slot) : Fn.Keeps (authSignFn k x) := by
  unfold authSignFn
  repeat' first
    | with_reducible refine Fn.keeps_bind ?_ fun _ => ?_
    | split
  all_goals simp

@[simp] theorem authCardLocalFn_keeps (x : Slot) : Fn.Keeps (authCardLocalFn x) := by
  unfold authCardLocalFn
  repeat' first
    | with_reducible refine Fn.keeps_bind ?_ fun _ => ?_
    | split
  all_goals simp

@[simp] theorem authQueryFn_keeps (x : Slot) : Fn.Keeps (authQueryFn x) := by
  unfold authQueryFn
  repeat' first
    | with_reducible refine Fn.keeps_bind ?_ fun _ => ?_
    | split
  all_goals simp

@[simp] theorem authCloseFn_keeps (x : Slot) : Fn.Keeps (authCloseFn x) := by
  unfold authCloseFn
  repeat' first
    | with_reducible refine Fn.keeps_bind ?_ fun _ => ?_
    | split
  all_goals simp

@[simp] theorem cardRegisterFn_keeps (k : Nat) (x : Slot) : Fn.Keeps (cardRegisterFn k x) := by
  unfold cardRegisterFn
  repeat' first
    | with_reducible refine Fn.keeps_bind ?_ fun _ => ?_
    | split
  all_goals simp

@[simp] theorem cardRevokeFn_keeps (k : Nat) (x : Slot) : Fn.Keeps (cardRevokeFn k x) := by
  unfold cardRevokeFn
  repeat' first
    | with_reducible refine Fn.keeps_bind ?_ fun _ => ?_
    | split
  all_goals simp

@[simp] theorem quorumSetFn_keeps (k : Nat) (x : Slot) : Fn.Keeps (quorumSetFn k x) := by
  unfold quorumSetFn
  repeat' first
    | with_reducible refine Fn.keeps_bind ?_ fun _ => ?_
    | split
  all_goals simp

@[simp] theorem macsecCakSetFn_keeps (k : Nat) (x : Slot) : Fn.Keeps (macsecCakSetFn k x) := by
  unfold macsecCakSetFn
  repeat' first
    | with_reducible refine Fn.keeps_bind ?_ fun _ => ?_
    | split
  all_goals simp

@[simp] theorem keyEnterFn_keeps (k : Nat) (x : Slot) : Fn.Keeps (keyEnterFn k x) := by
  unfold keyEnterFn
  repeat' first
    | with_reducible refine Fn.keeps_bind ?_ fun _ => ?_
    | split
  all_goals simp

@[simp] theorem recHeadFn_keeps (x : Slot) : Fn.Keeps (recHeadFn x) := by
  unfold recHeadFn
  repeat' first
    | with_reducible refine Fn.keeps_bind ?_ fun _ => ?_
    | split
  all_goals simp

@[simp] theorem recReadFn_keeps (x : Slot) : Fn.Keeps (recReadFn x) := by simp [recReadFn]

/-! ### Machine/Faults -/

@[simp] theorem faultRequest_fuses (s : State) (k : Nat) : (faultRequest s k).fuses = s.fuses := by simp [faultRequest]

@[simp] theorem errorOnCore_fuses (s : State) (core kind : Nat) : (errorOnCore s core kind).fuses = s.fuses := by
  unfold errorOnCore
  split <;> simp

@[simp] theorem errorOnBn_fuses (s : State) (e kind : Nat) : (errorOnBn s e kind).fuses = s.fuses := by fun_cases errorOnBn <;> simp

@[simp] theorem errorOnBk_fuses (s : State) (e kind : Nat) : (errorOnBk s e kind).fuses = s.fuses := by
  unfold errorOnBk
  dsimp only
  repeat' split
  all_goals simp

@[simp] theorem stopWork_fuses (s : State) (unit kind : Nat) (req : Option Nat) : (stopWork s unit kind req).fuses = s.fuses := by
  fun_cases stopWork <;> simp

@[simp] theorem failTest_fuses (s : State) (unit step : Nat) : (failTest s unit step).fuses = s.fuses := by simp [failTest]
@[simp] theorem passTest_fuses (s : State) (unit : Nat) : (passTest s unit).fuses = s.fuses := by simp [passTest]

@[simp] theorem errorOn_fuses (s : State) (unit kind : Nat) (req : Option Nat) : (errorOn s unit kind req).fuses = s.fuses := by
  simp [errorOn]

@[simp] theorem correctedError_fuses (s : State) (unit : Nat) : (correctedError s unit).fuses = s.fuses := by simp [correctedError]

@[simp] theorem requestMemoryError_fuses (s : State) (k cell : Nat) : (requestMemoryError s k cell).fuses = s.fuses := by
  simp [requestMemoryError]

@[simp] theorem execDetectedError_fuses (unit kind : Nat) (s : State) : KeepsFuses s (execDetectedError unit kind s) := by
  simp [execDetectedError]

@[simp] theorem execTargetedTestComplete_fuses (unit : Nat) (pass : Bool) (failStep : Nat) (s : State) :
    KeepsFuses s (execTargetedTestComplete unit pass failStep s) := by
  simp [execTargetedTestComplete]

@[simp] theorem wakeTest_fuses (s : State) (d : Nat) (failing : List (Nat × Nat)) : (wakeTest s d failing).fuses = s.fuses := by
  simp [wakeTest]

@[simp] theorem execDistrictWakeComplete_fuses (district : Nat) (failing : List Nat) (cycles : Nat) (s : State) :
    KeepsFuses s (execDistrictWakeComplete district failing cycles s) := by
  simp [execDistrictWakeComplete]

/-! ### Machine/Graph -/

theorem advanceCore_fuses {s t : State} {core : Nat} (hsome : advanceCore s core = some t) : t.fuses = s.fuses := by
  unfold advanceCore at hsome
  extract_lets c due at hsome
  clear_value due
  split at hsome
  · rw [← Option.some.inj hsome, performAccess_fuses]
  · split at hsome
    · split at hsome
      · next hbudget => exact Option.some.inj hsome ▸ execBudgetExpiry_fuses core s _ hbudget
      · cases hsome
    · split at hsome
      · split at hsome
        · cases hsome
        · split at hsome
          · next hissue =>
            split at hsome
            · obtain ⟨x, -, hx⟩ := Option.map_eq_some_iff.1 hsome
              rw [← hx, performAccess_fuses]
            · exact Option.some.inj hsome ▸ issueBundle_fuses s core _ hissue
          · cases hsome
      · split at hsome
        · next hwait =>
          split at hsome
          · cases hsome
          · exact Option.some.inj hsome ▸ execWaitfSatisfied_fuses core 0 s _ hwait
        · cases hsome
      · cases hsome

theorem graphAdvance_fuses {s t : State} {k : Nat} (hsome : graphAdvance s k = some t) : t.fuses = s.fuses := by
  unfold graphAdvance at hsome
  split at hsome
  · next hfound =>
    obtain ⟨_, _, hadvance⟩ := List.exists_of_findSome?_eq_some hfound
    exact Option.some.inj hsome ▸ advanceCore_fuses hadvance
  · dsimp only at hsome
    split at hsome
    · split at hsome
      · rw [← Option.some.inj hsome, giveTask_fuses]
      · cases hsome
    · cases hsome

@[simp] theorem runGraph_fuses (n : Nat) (s : State) (k : Nat) : (runGraph n s k).fuses = s.fuses := by
  induction n generalizing s with
  | zero => rfl
  | succ n ih =>
    unfold runGraph
    split
    · rfl
    · split
      · next hadvance => exact (ih _).trans (graphAdvance_fuses hadvance)
      · rfl

@[simp] theorem execGraphFunction_fuses (slot : Nat) (s : State) : KeepsFuses s (execGraphFunction slot s) := by
  simp [execGraphFunction]

/-! ### Machine/Dispatch -/

/-- Every command but the one that executes a transition leaves both copies of the life-cycle word as they are. -/
theorem exec_fuses (c : Instr) (h : c ≠ .lcTransitionExecute) (s : State) : KeepsFuses s (exec c s) := by
  cases c
  case lcTransitionExecute => exact absurd rfl h
  all_goals simp [exec, execMgmtRead, execMgmtWrite, execMgmtCommit, execHsRespond, execHsFinish, execPinVerifyOffset, execPinTranslate,
    execPinVerifyPvv, execPinOffsetGenerate, execPvvGenerate, execMacGenerate, execMacVerify, execMacGenerateLong,
    execMacVerifyLong, execCvvGenerate, execCvvVerify, execArqcVerify, execArqcVerifyArpc, execSmMac, execSmEncrypt,
    execSmPinChange, execArqcVerifyTracked, execDukptMacVerify, execDukptMacGenerate, execDukptPinTranslate,
    execDukptDataDecrypt, execDukptDataEncrypt, execDukptPinTranslateTracked, execRsaPrivate, execRsaPublic,
    execEcdsaSignFunction, execEcdsaVerifyFunction, execEcdhFunction, execMlKemEncaps, execMlKemDecaps, execMlDsaSign,
    execMlDsaVerify, execKeyImport, execKeyExport, execKeyTranslate, execKeyGenerate, execKeyCheckValue, execKeyImportLarge,
    execKeyLoadResident, execKeyDeleteResident, execTr34Import, execTr34Export, execEcKeypairGenerate, execMlKemKeypair,
    execMlDsaKeypair, execRandomShort, execRandomLong, execHash, execFf1Encrypt, execFf1Decrypt, execStreamOpen,
    execStreamSegment, execStreamFinal, execStreamAbort, execStreamSegmentTdes, execStreamFinalTdes, execCurveLoad,
    execCurveQuery, execCurveDelete, execSmkRewrap, execSmkCreate, execSmkRotateBegin, execSmkRotateComplete,
    execSmkRotateAbort, execSmkInvalidate, execCounterCreate, execClientKeySet, execColophon, execColophonTenant,
    execCertificates, execAuthOpen, execAuthSign, execAuthCardLocal, execAuthQuery, execAuthClose, execCardRegister,
    execCardRevoke, execQuorumSet, execMacsecCakSet, execKeyEnter, execLcTransition, execLcDebugChallenge, execLcDebugAuth,
    execLcDebugEnd, execLcIdentity, execLcCertLoad, execTmpLatchClear, execRecoveryStatus, execDevRestart,
    execImageLoadBegin, execImageLoadData, execImageLoadEnd, execPairStage, execPairOffer, execPairAccept, execPairConfirm,
    execPairHandover, execPairTakeover, execPairLeave, execJournalBatch, execHeartbeat, execSnapshot, execRecHead,
    execRecRead]

/-! ### Programming a stripe (R374, R381) -/

theorem stripe_testBit (w : Word64) (k b : Nat) : (stripe w k).testBit b = (decide (b < 8) && w.getLsbD (8 * k + b)) := by
  rw [stripe, show (256 : Nat) = 2 ^ 8 from rfl, Nat.testBit_mod_two_pow, ← pow_mul, Nat.testBit_div_two_pow, Nat.add_comm b]
  rfl

theorem pattern_testBit_lt {b : Nat} (hb : stripePattern.testBit b = true) : b < 8 := by
  by_contra hge
  rw [Nat.testBit_lt_two_pow (i := b) (show stripePattern < 2 ^ b from
    lt_of_lt_of_le (by decide : stripePattern < 2 ^ 8) (Nat.pow_le_pow_right (by decide) (not_lt.1 hge)))] at hb
  exact Bool.false_ne_true hb

/-- A stripe is whole where every bit of the pattern still stands in it. -/
theorem stripeDamaged_eq_false_iff (w : Word64) (k : Nat) :
    stripeDamaged w k = false ↔ ∀ b, stripePattern.testBit b = true → w.getLsbD (8 * k + b) = true := by
  have hland : Nat.land (stripe w k) stripePattern = stripePattern ↔
      ∀ b, ((stripe w k) &&& stripePattern).testBit b = stripePattern.testBit b :=
    ⟨fun h b => congrArg (Nat.testBit · b) h, fun h => Nat.eq_of_testBit_eq h⟩
  rw [stripeDamaged, decide_eq_false_iff_not, not_not, hland]
  refine forall_congr' fun b => ?_
  rw [Nat.testBit_and, stripe_testBit]
  cases hb : stripePattern.testBit b
  · simp
  · simp [pattern_testBit_lt hb]

theorem pattern_complement : ∀ b < 8, stripePattern.testBit b = true → (0xFF - stripePattern).testBit b = false := by
  decide

/-- Programming a stripe clears no bit at which the pattern has 1, in that stripe or in another. -/
theorem programStripe_getLsbD {w : Word64} {b : Nat} (j k : Nat) (hb : stripePattern.testBit b = true)
    (hw : w.getLsbD (8 * k + b) = true) : (programStripe w j).getLsbD (8 * k + b) = true := by
  have hb8 := pattern_testBit_lt hb
  have hcleared : ((0xFF - stripePattern) * 256 ^ j).testBit (8 * k + b) = false := by
    rw [show (256 : Nat) = 2 ^ 8 from rfl, ← pow_mul, Nat.testBit_mul_two_pow]
    rcases lt_trichotomy j k with hlt | rfl | hgt
    · rw [Nat.testBit_lt_two_pow (i := 8 * k + b - 8 * j), Bool.and_false]
      exact lt_of_lt_of_le (by decide : 0xFF - stripePattern < 2 ^ 8) (Nat.pow_le_pow_right (by decide) (by omega))
    · rw [Nat.add_sub_cancel_left]
      simp [pattern_complement b hb8 hb]
    · simp [show ¬ 8 * j ≤ 8 * k + b by omega]
  have hlt : 8 * k + b < 64 := BitVec.lt_of_getLsbD hw
  rw [programStripe, BitVec.getLsbD_and, BitVec.getLsbD_not, BitVec.getLsbD_ofNat, hcleared]
  simp [hw, hlt]

theorem programStripe_whole {w : Word64} (j : Nat) {k : Nat} (h : stripeDamaged w k = false) :
    stripeDamaged (programStripe w j) k = false := by
  rw [stripeDamaged_eq_false_iff] at h ⊢
  exact fun b hb => programStripe_getLsbD j k hb (h b hb)

theorem stripesWhole_of_fuses {s t : State} (hfuses : t.fuses = s.fuses) (h : s.stripesWhole) : t.stripesWhole := by
  obtain ⟨h0, h1⟩ := Prod.mk.inj hfuses
  intro k hk
  rw [h0, h1]
  exact h k hk
/-- The one command that programs the words: a stripe of an intent in both copies. -/
theorem execLcTransitionExecute_whole {s t : State} (h : s.stripesWhole) (hnext : execLcTransitionExecute s = .next t) :
    t.stripesWhole := by
  unfold execLcTransitionExecute at hnext
  split at hnext
  · cases hnext
    exact h
  · next i _ =>
    split at hnext
    · cases hnext
      exact h
    · extract_lets done s1 l close l1 s2 recorder s3 boot at hnext
      have h1 : s1.fuses = s.fuses := by
        simp only [s1]
        split <;> simp
      have h2 : s2.fuses = (programStripe s1.lc.word0 i.stripe, programStripe s1.lc.word1 i.stripe) := State.raise_fuses ..
      have h3 : s3.fuses = s2.fuses := by
        simp only [s3]
        split <;> rfl
      have ht : t.fuses = s2.fuses := by
        rw [← h3]
        cases hnext
        simp
      obtain ⟨ht0, ht1⟩ := Prod.mk.inj (ht.trans h2)
      have hwhole := stripesWhole_of_fuses h1 h
      intro k hk
      rw [ht0, ht1]
      exact ⟨programStripe_whole _ (hwhole k hk).1, programStripe_whole _ (hwhole k hk).2⟩

/-- Settles O3: one command programs a stripe, which clears no bit of the pattern; every other leaves both words as they are. -/
theorem lifeCycleStripesStayWhole : Obligations.LifeCycleStripesStayWhole := by
  intro s t hwhole hstep
  unfold step at hstep
  split at hstep
  · cases hstep
    exact hwhole
  · next c rest _ =>
    have hfront : ({ s with pending := rest } : State).stripesWhole := hwhole
    by_cases hc : c = .lcTransitionExecute
    · subst hc
      exact execLcTransitionExecute_whole hfront hstep
    · exact stripesWhole_of_fuses (exec_fuses c hc _ t hstep) hfront
end Sys2Proof.Machine
end

section
/-! SUPPORT. Chapter 13 (family 13_dual_control_and_cards), session functions: what AUTH_OPEN, AUTH_SIGN, AUTH_CARD_LOCAL, AUTH_QUERY
and AUTH_CLOSE give, and the statement about them. -/

namespace Sys2Proof.Machine

open Sys2Proof

/-- A value that a step gives unless `c` holds, as the ephemeral key of a session whose row takes components (R366). -/
theorem Fn.gives_unless_bind {α β γ : Type} {c : Prop} [Decidable c] {f : Fn α} {m : α → β} {b : β} {g : β → Fn γ} {s t u : State}
    {a : α} {r : γ} (hstep : if c then t = s else f.gives s a t) (hrest : (g (if c then b else m a)).gives t r u) :
    Fn.gives (if c then pure b >>= g else f >>= fun a => pure (m a) >>= g) s r u := by
  by_cases hc : c
  · rw [if_pos hc] at hstep hrest ⊢
    subst hstep
    exact hrest
  · rw [if_neg hc] at hstep hrest ⊢
    exact Fn.gives_bind hstep hrest

theorem authOpenFn_gives {x : Slot} {i : Nat} {challenge eph : Bytes} {t s1 s2 : State} (hlayout : layoutOk x.payload 60 [] = true)
    (hrow : rowNamed x.tenant (fld x.payload 4 2) (fld x.payload 7 1) (fld x.payload 6 1) = true) (hlife : 1 ≤ fld x.payload 8 4)
    (hmax : fld x.payload 8 4 ≤ t.dual.lifeMax) (howned : t.sessionsOpen (some x.tenant) < 8) (hall : t.sessionsOpen none < 256)
    (hpick : t.pickSession = some i) (hchallenge : (Fn.draw 32).gives t challenge s1)
    (heph : if fld x.payload 6 1 = 0 then s2 = s1 else (Fn.draw 56).gives s1 eph s2) :
    let y : Session := { gen := if 0xFFFFFF ≤ (t.session i).gen then 1 else (t.session i).gen + 1, scope := x.tenant,
                         command := fld x.payload 4 2, role := fld x.payload 7 1, compLen := fld x.payload 6 1,
                         pdigest := slice x.payload 12 48, m := t.quorum x.tenant (fld x.payload 7 1), expires := fld x.payload 8 4,
                         challenge := challenge, ephemeral := if fld x.payload 6 1 = 0 then [] else scalar384 eph }
    (authOpenFn x).gives t
      { result := beBytes 4 (sessionId i y) ++ challenge ++
          (if y.ephemeral = [] then zeros 97 else [0x04] ++ public384 y.ephemeral) ++ zeros 3
        effects := [.sessionOpen i y] } s2 := by
  have hfields : (layoutOk x.payload 60 [] && rowNamed x.tenant (fld x.payload 4 2) (fld x.payload 7 1) (fld x.payload 6 1) &&
      decide (1 ≤ fld x.payload 8 4 ∧ fld x.payload 8 4 ≤ t.dual.lifeMax)) = true := by
    simp only [hlayout, hrow, hlife, hmax, and_self, decide_true, Bool.and_self]
  refine Fn.gives_bind (Fn.get_gives t) <| Fn.gives_bind (Fn.need_gives hfields) <|
    Fn.gives_bind (Fn.need_gives (decide_eq_true ⟨howned, hall⟩)) ?_
  rw [hpick]
  exact Fn.gives_bind (Fn.get!_gives i _ t) <| Fn.gives_bind hchallenge <| Fn.gives_unless_bind heph (Fn.done_gives _ _ s2)

theorem runFnOn_authSign {k i : Nat} {x : Slot} {t : State}
    (hnamed : t.sessionNamed x.tenant (fld x.payload 4 4) false = some i)
    (hlayout : layoutOk x.payload (116 + fld x.payload 112 2) [(114, 2)] = true)
    (hclen : fld x.payload 112 2 = if (t.session i).compLen = 0 then 0 else 97 + (t.session i).compLen + 16) :
    let serial := fld x.payload 8 8
    runFnOn (authSignFn k x) t =
      match signatureStatus t (some i) x.admitTick serial (slice x.payload 16 96) (x.payload.drop 116) with
      | (_, some (e, comp)) =>
        let t1 := countSignature t i serial e comp (some k) none
        let y := t1.session i
        ({ result := beBytes 1 y.counted.length ++ beBytes 1 y.m ++ zeros 8 ++ (if comp = [] then zeros 6 else componentKcv comp)
           effects := [.signature i serial] }, t1)
      | (st, none) =>
        ({ status := if st = stOk then stAuthRequired else st }, refuseSignature t x.tenant (fld x.payload 4 4) serial st) := by
  have hfields : (layoutOk x.payload (116 + fld x.payload 112 2) [(114, 2)] &&
      decide (fld x.payload 112 2 = if (t.session i).compLen = 0 then 0 else 97 + (t.session i).compLen + 16)) = true := by
    rw [hlayout, decide_eq_true hclen, Bool.and_self]
  unfold authSignFn
  rw [runFnOn_bind _ (Fn.get_gives t)]
  simp only [hnamed]
  rw [runFnOn_bind _ (Fn.need_gives hfields)]
  rcases signatureStatus t (some i) x.admitTick (fld x.payload 8 8) (slice x.payload 16 96) (x.payload.drop 116) with ⟨st, _ | ⟨e, comp⟩⟩
  · rfl
  · rfl

theorem authCardLocalFn_gives {x : Slot} {i : Nat} {t : State}
    (hnamed : t.sessionNamed x.tenant (fld x.payload 4 4) (x.tenant == 0) = some i)
    (hlayout : layoutOk x.payload 12 [(9, 3)] = true) (hiface : fld x.payload 8 1 ≤ 1)
    (hstate : (t.session i).state = .open ∨ (t.session i).state = .granted) (hpast : State.pastE (t.session i) x.admitTick = false)
    (hfree : (t.iface (fld x.payload 8 1)).exchange = none)
    (hpromised : ∀ q ∈ t.sq.slots, ∀ j, .cardLocal j (fld x.payload 8 1) ∉ q.2.effects) :
    (authCardLocalFn x).gives t { effects := [.cardLocal i (fld x.payload 8 1)] } t := by
  have hfields : (layoutOk x.payload 12 [(9, 3)] && decide (fld x.payload 8 1 ≤ 1)) = true := by
    rw [hlayout, decide_eq_true hiface, Bool.and_self]
  have hlive : (decide ((t.session i).state = .open ∨ (t.session i).state = .granted) &&
      !State.pastE (t.session i) x.admitTick) = true := by
    rw [decide_eq_true hstate, hpast, Bool.not_false, Bool.and_self]
  refine Fn.gives_bind (Fn.need_gives hfields) <| Fn.gives_bind (Fn.get_gives t) ?_
  rw [hnamed]
  refine Fn.gives_bind (Fn.get!_gives i _ t) <| Fn.gives_bind (Fn.need_gives hlive) <|
    Fn.gives_bind (Fn.need_gives ?_) (Fn.done_gives _ _ t)
  rw [hfree, Option.isNone_none, Bool.true_and, Bool.not_eq_true', List.any_eq_false]
  intro q hq hany
  obtain ⟨e, he, hpromises⟩ := List.any_eq_true.1 hany
  split at hpromises
  · next j f => exact hpromised q hq j (beq_iff_eq.1 hpromises ▸ he)
  · cases hpromises

theorem authQueryFn_gives {x : Slot} {i : Nat} {t : State}
    (hnamed : t.sessionNamed x.tenant (fld x.payload 4 4) (x.tenant == 0) = some i) (hlayout : layoutOk x.payload 12 [(8, 4)] = true) :
    let y := t.session i
    (authQueryFn x).gives t
      { result := beBytes 1 y.state.code ++ beBytes 1 y.m ++ beBytes 1 (t.countedNow y).length ++ [0] ++ beBytes 2 y.localStatus ++
          zeros 2 ++ beBytes 8 y.expires } t := by
  refine Fn.gives_bind (Fn.need_gives hlayout) <| Fn.gives_bind (Fn.get_gives t) ?_
  rw [hnamed]
  exact Fn.gives_bind (Fn.get!_gives i _ t) (Fn.done_gives _ _ t)

theorem authCloseFn_gives {x : Slot} {i : Nat} {t : State} (hnamed : t.sessionNamed x.tenant (fld x.payload 4 4) false = some i)
    (hlayout : layoutOk x.payload 12 [(8, 4)] = true)
    (hstate : (t.session i).state = .open ∨ (t.session i).state = .granted) :
    (authCloseFn x).gives t { effects := [.sessionClose i] } t := by
  refine Fn.gives_bind (Fn.need_gives hlayout) <| Fn.gives_bind (Fn.get_gives t) ?_
  rw [hnamed]
  refine Fn.gives_bind (Fn.get!_gives i _ t) ?_
  rcases hstate with hstate | hstate
  all_goals
    rw [hstate]
    exact Fn.done_gives _ _ t

/-- Settles O19: four functions give what their lemmas above say; AUTH_SIGN ends as the checks of its signature do. -/
theorem sessionFunctions : Obligations.SessionFunctions := by
  intro s k x p t
  refine ⟨?opens, ?signs, ?localAndQuery, ?closes⟩
  case opens =>
    intro i challenge eph s1 s2 command compLen role life y hmay hlayout hrow hlife hmax howned hall hpick hchallenge heph
    exact congrArg Host.Outcome.next (serveFn_gives _ hmay
      (authOpenFn_gives hlayout hrow hlife hmax howned hall hpick hchallenge heph))
  case signs =>
    intro i serial clen hnamed hmay hlayout hclen
    subst serial clen p
    refine congrArg Host.Outcome.next (Eq.trans (serveFn_ended _ hmay) ?_)
    rw [State.endedBy, runFnOn_authSign hnamed hlayout hclen]
    rcases signatureStatus t (some i) x.admitTick (fld x.payload 8 8) (slice x.payload 16 96) (x.payload.drop 116)
      with ⟨st, _ | ⟨e, comp⟩⟩
    · rfl
    · rfl
  case localAndQuery =>
    intro i y hnamed
    constructor
    · intro hmay hlayout hiface hstate hpast hfree hpromised
      exact congrArg Host.Outcome.next (serveFn_gives _ hmay
        (authCardLocalFn_gives hnamed hlayout hiface hstate hpast hfree hpromised))
    · intro hmay hlayout
      exact congrArg Host.Outcome.next (serveFn_gives _ hmay (authQueryFn_gives hnamed hlayout))
  case closes =>
    intro i hnamed hmay hlayout hstate
    exact congrArg Host.Outcome.next (serveFn_gives _ hmay (authCloseFn_gives hnamed hlayout hstate))

end Sys2Proof.Machine
end

section
/-! SUPPORT. Chapter 13 (family 13_dual_control_and_cards), the registry: what CARD_REGISTER answers to a certificate, what
CARD_REVOKE, QUORUM_SET and MACSEC_CAK_SET give, how KEY_ENTER runs on, and the statement about them. -/

namespace Sys2Proof.Machine

open Sys2Proof

/-- The checks of CARD_REGISTER on the certificate (R351, R352), in order. -/
theorem runFnOn_cardRegister {k i : Nat} {x : Slot} {t s1 : State}
    (hlayout : layoutOk x.payload (16 + fld x.payload 12 2) [(7, 1), (14, 2)] = true) (hscope : fld x.payload 4 2 ≤ 512)
    (hrole : fld x.payload 6 1 ≤ 3) (hauth : (Fn.auth k x 0x65 0 0 8).gives t i s1)
    (hname : s1.mayName x.tenant (fld x.payload 4 2) (fld x.payload 6 1) true = true) :
    let scope := fld x.payload 4 2
    let role := fld x.payload 6 1
    runFnOn (cardRegisterFn k x) t = (match Config.readCard (x.payload.drop 16) with
      | none => { status := stSignatureInvalid }
      | some (serial, nb, na, pub) =>
        if ¬ (nb ≤ na ∧ na - nb ≤ eightYears) then { status := stSignatureInvalid }
        else if (s1.cardOf serial).isSome ∨ s1.pendingCards.any (fun c => c.serial == serial) then { status := stCardDuplicate }
        else if s1.scopeCards scope + (s1.pendingCards.filter (fun c => c.scope == scope)).length < 32 ∧
            (s1.dual.cards.filter (fun q => q.2.state != .free)).length + s1.pendingCards.length < 4096 then
          { effects := [.cardRegister { state := .active, serial := serial, scope := scope, role := role, usesLeft := 200000,
                                        notBefore := nb, notAfter := na, pub := pub }] }
        else { status := stCardRegistryFull }, s1) := by
  have hfields : (layoutOk x.payload (16 + fld x.payload 12 2) [(7, 1), (14, 2)] &&
      decide (fld x.payload 4 2 ≤ 512 ∧ fld x.payload 6 1 ≤ 3)) = true := by
    rw [hlayout, decide_eq_true ⟨hscope, hrole⟩, Bool.and_self]
  unfold cardRegisterFn
  rw [runFnOn_bind _ (Fn.need_gives hfields), runFnOn_bind _ hauth, runFnOn_bind _ (Fn.get_gives s1),
    runFnOn_bind _ (Fn.need_gives hname), runFnOn_get!]
  rcases Config.readCard (x.payload.drop 16) with _ | ⟨serial, nb, na, pub⟩
  · rfl
  · dsimp only
    have hunknown : ((s1.cardOf serial).isNone && s1.pendingCards.all (fun c => c.serial != serial)) = true ↔
        ¬ ((s1.cardOf serial).isSome ∨ s1.pendingCards.any (fun c => c.serial == serial)) := by
      simp only [Bool.and_eq_true, Option.isNone_iff_eq_none, List.all_eq_true, bne_iff_ne, Option.isSome_iff_ne_none,
        List.any_eq_true, beq_iff_eq, not_or, not_not, not_exists, not_and, ne_eq]
    rw [runFnOn_need, runFnOn_need, runFnOn_need, runFnOn_done]
    simp only [decide_eq_true_eq, hunknown, ite_not]
    split_ifs <;> rfl

theorem cardRevokeFn_gives {k i e : Nat} {x : Slot} {t s1 : State} (hlayout : layoutOk x.payload 20 [(16, 4)] = true)
    (hauth : (Fn.auth k x 0x66 0 0 12).gives t i s1) (hcard : s1.cardOf (fld x.payload 4 8) = some e)
    (hname : s1.mayName x.tenant (s1.card e).scope (s1.card e).role false = true) (hstate : (s1.card e).state ≠ .revoked)
    (hnew : .cardRevoke (fld x.payload 4 8) ∉ s1.comingEffects)
    (hquorum : s1.comingQuorum (s1.card e).scope (s1.card e).role ≤ s1.comingCards (s1.card e).scope (s1.card e).role -
      (if (s1.card e).state = .active ∨ (s1.card e).state = .warned then 1 else 0)) :
    (cardRevokeFn k x).gives t { effects := [.arm (.cardRevoke (fld x.payload 4 8))] } s1 := by
  have hfresh : (decide ((s1.card e).state ≠ .revoked) && !s1.comingEffects.contains (.cardRevoke (fld x.payload 4 8))) = true := by
    rw [decide_eq_true hstate, Bool.true_and, Bool.not_eq_true', ← Bool.not_eq_true, List.contains_iff_mem]
    exact hnew
  have husable : bit ((s1.card e).state == .active || (s1.card e).state == .warned) =
      if (s1.card e).state = .active ∨ (s1.card e).state = .warned then 1 else 0 := by
    simp only [bit, Bool.or_eq_true, beq_iff_eq]
  refine Fn.gives_bind (Fn.need_gives hlayout) <| Fn.gives_bind hauth <| Fn.gives_bind (Fn.get_gives s1) ?_
  rw [hcard]
  refine Fn.gives_bind (Fn.get!_gives e _ s1) <| Fn.gives_bind (Fn.need_gives hname) <|
    Fn.gives_bind (Fn.need_gives hfresh) <| Fn.gives_bind (Fn.need_gives (decide_eq_true ?_)) (Fn.done_gives _ _ s1)
  rw [husable]
  exact hquorum

theorem quorumSetFn_gives {k i : Nat} {x : Slot} {t s1 : State} (hlayout : layoutOk x.payload 12 [] = true)
    (hscope : fld x.payload 4 2 ≤ 512) (hrole : fld x.payload 6 1 ≤ 3)
    (hrange : quorumRange (fld x.payload 6 1) (fld x.payload 7 1) = true) (hauth : (Fn.auth k x 0x67 0 0 8).gives t i s1)
    (hname : s1.mayName x.tenant (fld x.payload 4 2) (fld x.payload 6 1) true = true)
    (hcards : fld x.payload 7 1 ≤ s1.comingCards (fld x.payload 4 2) (fld x.payload 6 1)) :
    (quorumSetFn k x).gives t
      { effects := [.arm (.quorumSet (fld x.payload 4 2) (fld x.payload 6 1) (fld x.payload 7 1))] } s1 := by
  have hfields : (layoutOk x.payload 12 [] && decide (fld x.payload 4 2 ≤ 512 ∧ fld x.payload 6 1 ≤ 3) &&
      quorumRange (fld x.payload 6 1) (fld x.payload 7 1)) = true := by
    rw [hlayout, decide_eq_true ⟨hscope, hrole⟩, hrange, Bool.and_self, Bool.and_self]
  exact Fn.gives_bind (Fn.need_gives hfields) <| Fn.gives_bind hauth <| Fn.gives_bind (Fn.get_gives s1) <|
    Fn.gives_bind (Fn.need_gives hname) <| Fn.gives_bind (Fn.need_gives (decide_eq_true hcards)) (Fn.done_gives _ _ s1)

theorem macsecCakSetFn_gives {k i : Nat} {x : Slot} {key : Bytes} {t s1 s2 : State}
    (hlayout : layoutOk x.payload (12 + fld x.payload 5 1) [(6, 2)] = true) (hlport : fld x.payload 4 1 ≤ 15)
    (h1 : 1 ≤ fld x.payload 5 1) (h32 : fld x.payload 5 1 ≤ 32) (hauth : (Fn.auth k x 0x68 1 32 8).gives t i s1)
    (hkey : (Fn.assembledKey i false).gives s1 key s2) :
    (macsecCakSetFn k x).gives t { effects := [.arm (.cakSet (fld x.payload 4 1) (x.payload.drop 12) key)] } s2 := by
  have hfields : (layoutOk x.payload (12 + fld x.payload 5 1) [(6, 2)] &&
      decide (fld x.payload 4 1 ≤ 15 ∧ 1 ≤ fld x.payload 5 1 ∧ fld x.payload 5 1 ≤ 32)) = true := by
    rw [hlayout, decide_eq_true ⟨hlport, h1, h32⟩, Bool.and_self]
  exact Fn.gives_bind (Fn.need_gives hfields) <| Fn.gives_bind hauth <| Fn.gives_bind hkey (Fn.done_gives _ _ s2)

/-- KEY_ENTER past its checks wraps the assembled key (R367, R368). -/
theorem runFnOn_keyEnter {k i : Nat} {x : Slot} {key : Bytes} {g : SmkGen} {t s1 s2 : State}
    (hlayout : layoutOk x.payload 20 [(16, 4)] = true) (hattr : outAttrOk x.payload 4 [1, 2, 3, 4, 5, 6] = true)
    (hformat : (outAttrAt x.payload 4).format ≠ 0)
    (hauth : (Fn.auth k x 0x69 1 (keyLength (outAttrAt x.payload 4).attr.alg) 12).gives t i s1)
    (hgen : (Fn.producing x (outAttrAt x.payload 4).smk).gives s1 g s1)
    (hkey : (Fn.assembledKey i (decide ((outAttrAt x.payload 4).attr.alg ≤ 2))).gives s1 key s2) :
    runFnOn (keyEnterFn k x) t =
      runFnOn (do Fn.done (← Fn.wrapSmk g (outAttrAt x.payload 4).format (outAttrAt x.payload 4).attr key 248)) s2 := by
  have hfields : (layoutOk x.payload 20 [(16, 4)] && outAttrOk x.payload 4 [1, 2, 3, 4, 5, 6]) = true := by
    rw [hlayout, hattr, Bool.and_self]
  exact (runFnOn_bind _ (Fn.need_gives hfields)).trans <| (runFnOn_bind _ hauth).trans <| (runFnOn_bind _ hgen).trans <|
    (runFnOn_bind _ (Fn.need_gives (bne_iff_ne.2 hformat))).trans (runFnOn_bind _ hkey)

/-- Settles O20: three functions give what their lemmas above say; CARD_REGISTER ends as its certificate's checks do, and KEY_ENTER
passes its checks and wraps the key. -/
theorem registryFunctions : Obligations.RegistryFunctions := by
  intro s k i s1 x p t
  refine ⟨?register, ?revoke, ?quorum, fun key s2 => ⟨?cak, ?enter⟩⟩
  case register =>
    intro scope role n hmay hlayout hscope hrole hauth hname
    exact congrArg Host.Outcome.next (serveFn_runs _ hmay (runFnOn_cardRegister hlayout hscope hrole hauth hname))
  case revoke =>
    intro e serial c hmay hlayout hauth hcard hname hstate hnew hquorum
    exact congrArg Host.Outcome.next (serveFn_gives _ hmay (cardRevokeFn_gives hlayout hauth hcard hname hstate hnew hquorum))
  case quorum =>
    intro scope role m hmay hlayout hscope hrole hrange hauth hname hcards
    exact congrArg Host.Outcome.next (serveFn_gives _ hmay
      (quorumSetFn_gives hlayout hscope hrole hrange hauth hname hcards))
  case cak =>
    intro n hmay hlayout hlport h1 h32 hauth hkey
    exact congrArg Host.Outcome.next (serveFn_gives _ hmay (macsecCakSetFn_gives hlayout hlport h1 h32 hauth hkey))
  case enter =>
    intro g o hmay hlayout hattr hformat hauth hgen hkey
    exact congrArg Host.Outcome.next (serveFn_runsOn _ hmay (runFnOn_keyEnter hlayout hattr hformat hauth hgen hkey))

end Sys2Proof.Machine
end

section
/-! SUPPORT. Chapter 13 (family 13_dual_control_and_cards), what the security die does by itself: what sessions, cards and
interfaces read after each operation, and the statement about the expiry of sessions, the local exchange and the validity of
cards. -/

namespace Sys2Proof.Machine

open Sys2Proof

/-! ### Reading sessions, cards and interfaces -/

@[simp] theorem State.raise_session (s : State) (code source tenant : Nat) (data : Bytes) (i : Nat) :
    (s.raise code source tenant data).session i = s.session i := by simp [State.session]
@[simp] theorem State.raise_card (s : State) (code source tenant : Nat) (data : Bytes) (i : Nat) :
    (s.raise code source tenant data).card i = s.card i := by simp [State.card]
@[simp] theorem State.raise_iface (s : State) (code source tenant : Nat) (data : Bytes) (i : Nat) :
    (s.raise code source tenant data).iface i = s.iface i := by simp [State.iface]
@[simp] theorem State.dcCnt_session (s : State) (k n i : Nat) : (s.dcCnt k n).session i = s.session i := (rfl)
@[simp] theorem State.dcCnt_iface (s : State) (k n i : Nat) : (s.dcCnt k n).iface i = s.iface i := (rfl)
@[simp] theorem State.dcEvent_session (s : State) (b i : Nat) : (s.dcEvent b).session i = s.session i := (rfl)
@[simp] theorem State.dcEvent_card (s : State) (b i : Nat) : (s.dcEvent b).card i = s.card i := (rfl)
@[simp] theorem State.dcEvent_iface (s : State) (b i : Nat) : (s.dcEvent b).iface i = s.iface i := (rfl)
@[simp] theorem State.putSession_iface (s : State) (i : Nat) (x : Session) (j : Nat) : (s.putSession i x).iface j = s.iface j := (rfl)
@[simp] theorem State.putCard_session (s : State) (i : Nat) (x : Card) (j : Nat) : (s.putCard i x).session j = s.session j := (rfl)
@[simp] theorem State.putCard_iface (s : State) (i : Nat) (x : Card) (j : Nat) : (s.putCard i x).iface j = s.iface j := (rfl)
@[simp] theorem State.putIface_session (s : State) (i : Nat) (x : CardIface) (j : Nat) :
    (s.putIface i x).session j = s.session j := (rfl)

theorem State.putSession_session_other (s : State) {i j : Nat} (x : Session) (h : j ≠ i) :
    (s.putSession i x).session j = s.session j := tabGet_put_other _ _ x h
theorem State.putSession_session_new (s : State) (i : Nat) {x : Session} (h : x ≠ {}) : (s.putSession i x).session i = x :=
  tabGet_put_new _ i h
theorem State.putSession_session_same {s : State} (h : tabWf {} s.dual.sessions = true) (i : Nat) (x : Session) :
    (s.putSession i x).session i = x := tabGet_put_same h i x
theorem State.putCard_card_other (s : State) {i j : Nat} (x : Card) (h : j ≠ i) : (s.putCard i x).card j = s.card j :=
  tabGet_put_other _ _ x h
theorem State.putCard_card_new (s : State) (i : Nat) {x : Card} (h : x ≠ {}) : (s.putCard i x).card i = x := tabGet_put_new _ i h
theorem State.putIface_iface_other (s : State) {i j : Nat} (x : CardIface) (h : j ≠ i) : (s.putIface i x).iface j = s.iface j :=
  tabGet_put_other _ _ x h
theorem State.putIface_iface_same {s : State} (h : tabWf {} s.dual.ifaces = true) (i : Nat) (x : CardIface) :
    (s.putIface i x).iface i = x := tabGet_put_same h i x

@[simp] theorem State.journal_dual (s : State) (kind : Nat) (body : Bytes) : (s.journal kind body).dual = s.dual := by
  simp only [State.journal]
  split_ifs <;> rfl
@[simp] theorem State.writeRegistry_session (s : State) (i : Nat) : s.writeRegistry.session i = s.session i := by
  unfold State.writeRegistry
  split_ifs <;> rfl
@[simp] theorem State.writeRegistry_card (s : State) (i : Nat) : s.writeRegistry.card i = s.card i := by
  unfold State.writeRegistry
  split_ifs <;> rfl
@[simp] theorem State.writeRegistry_iface (s : State) (i : Nat) : s.writeRegistry.iface i = s.iface i := by
  unfold State.writeRegistry
  split_ifs <;> rfl

/-- An entry that is changed is a write of the registry: what else the journal takes is outside dual control. -/
theorem State.setCard_dual (s : State) (i : Nat) (c : Card) : (s.setCard i c).dual = (s.putCard i c).writeRegistry.dual :=
  State.journal_dual _ _ _

@[simp] theorem State.setCard_session (s : State) (i : Nat) (c : Card) (j : Nat) : (s.setCard i c).session j = s.session j := by
  rw [State.session, State.setCard_dual]
  exact State.writeRegistry_session _ j
@[simp] theorem State.setCard_iface (s : State) (i : Nat) (c : Card) (j : Nat) : (s.setCard i c).iface j = s.iface j := by
  rw [State.iface, State.setCard_dual]
  exact State.writeRegistry_iface _ j
theorem State.setCard_card (s : State) (i : Nat) (c : Card) (j : Nat) : (s.setCard i c).card j = (s.putCard i c).card j := by
  rw [State.card, State.setCard_dual]
  exact State.writeRegistry_card _ j

/-! ### Cards -/

@[simp] theorem exhaustCard_session (s : State) (i j : Nat) : (exhaustCard s i).session j = s.session j := by simp [exhaustCard]
@[simp] theorem exhaustCard_iface (s : State) (i j : Nat) : (exhaustCard s i).iface j = s.iface j := by simp [exhaustCard]
@[simp] theorem warnCard_session (s : State) (i j : Nat) : (warnCard s i).session j = s.session j := by simp [warnCard]
@[simp] theorem warnCard_iface (s : State) (i j : Nat) : (warnCard s i).iface j = s.iface j := by simp [warnCard]

theorem exhaustCard_card (s : State) (i : Nat) : (exhaustCard s i).card i = { s.card i with state := .exhausted } := by
  simp [exhaustCard, State.setCard_card, State.putCard_card_new]
theorem exhaustCard_card_other (s : State) {i j : Nat} (h : j ≠ i) : (exhaustCard s i).card j = s.card j := by
  simp [exhaustCard, State.setCard_card, State.putCard_card_other _ _ h]
theorem warnCard_card (s : State) (i : Nat) : (warnCard s i).card i = { s.card i with state := .warned } := by
  simp [warnCard, State.setCard_card, State.putCard_card_new]
theorem warnCard_card_other (s : State) {i j : Nat} (h : j ≠ i) : (warnCard s i).card j = s.card j := by
  simp [warnCard, State.setCard_card, State.putCard_card_other _ _ h]

@[simp] theorem judgeCard_session (s : State) (i j : Nat) : (judgeCard s i).session j = s.session j := by
  simp only [judgeCard]
  split_ifs <;> simp
@[simp] theorem judgeCard_iface (s : State) (i j : Nat) : (judgeCard s i).iface j = s.iface j := by
  simp only [judgeCard]
  split_ifs <;> simp

/-- A usable card without uses or past its end is exhausted (R363). -/
theorem judgeCard_eq_exhaustCard {s : State} {i : Nat} (husable : (s.card i).state = .active ∨ (s.card i).state = .warned)
    (hover : (s.card i).usesLeft = 0 ∨ (s.card i).notAfter < s.registryTime) : judgeCard s i = exhaustCard s i := by
  simp only [judgeCard]
  rw [if_neg (by grind), if_pos hover]

/-- An ACTIVE card with uses and time left is warned when few are left or it is late, and else stays as it is (R363). -/
theorem judgeCard_of_active {s : State} {i : Nat} (hactive : (s.card i).state = .active) (huses : 0 < (s.card i).usesLeft)
    (htime : s.registryTime ≤ (s.card i).notAfter) :
    judgeCard s i = if (s.card i).usesLeft ≤ 20000 ∨ (s.card i).late s.registryTime = true then warnCard s i else s := by
  simp only [judgeCard, hactive]
  rw [if_neg (by simp), if_neg (by omega)]
  simp

@[simp] theorem useCard_session (s : State) (i j : Nat) : (useCard s i).session j = s.session j := by simp [useCard]
@[simp] theorem useCard_iface (s : State) (i j : Nat) : (useCard s i).iface j = s.iface j := by simp [useCard]

/-! ### Sessions -/

theorem endSession_session (s : State) (i : Nat) {st : SessionState} (h : st ≠ .free) :
    (endSession s i st).session i = { (s.session i).erase with state := st, endedAt := s.dual.ended + 1 } :=
  State.putSession_session_new _ i (fun e => h (congrArg Session.state e))
theorem endSession_session_other (s : State) {i j : Nat} (st : SessionState) (h : j ≠ i) :
    (endSession s i st).session j = s.session j := tabGet_put_other _ _ _ h

theorem expireSession_session (s : State) (i : Nat) :
    (expireSession s i).session i = { (s.session i).erase with state := .expired, endedAt := s.dual.ended + 1 } := by
  simp [expireSession, endSession_session]
theorem expireSession_session_other (s : State) {i j : Nat} (h : j ≠ i) : (expireSession s i).session j = s.session j := by
  simp [expireSession, endSession_session_other _ _ h]

/-- The expiry of a session changes dual control and the recorder alone. -/
theorem expireSession_eq (s : State) (i : Nat) :
    expireSession s i = { s with dual := (expireSession s i).dual, recorder := (expireSession s i).recorder } := by
  obtain ⟨r, h⟩ := ((endSession s i .expired).dcCnt 3 1).raise_changes_recorder evSessionExpired srcSecurity (s.session i).scope
    (items [(4, sessionId i (s.session i)), (1, (s.countedNow (s.session i)).length)])
  rw [expireSession, h]
  rfl

/-! ### Local exchanges -/

@[simp] theorem endExchange_dual_cards (s : State) (i st : Nat) : (endExchange s i st).dual.cards = s.dual.cards := by
  simp only [endExchange]
  split <;> [skip; split_ifs] <;> rfl

/-- The interface whose exchange ends keeps its card, without power. -/
theorem endExchange_iface {s : State} (h : tabWf {} s.dual.ifaces = true) (i st : Nat) :
    (endExchange s i st).iface i = { s.iface i with exchange := none, powered := false } := by
  simp only [endExchange]
  split <;> [skip; split_ifs] <;> simp [State.putIface_iface_same h]

/-- The end of an exchange changes no more of a session than LOCAL_STATUS, of the one it served. -/
theorem endExchange_session_other (s : State) {i st id j : Nat} (hx : (s.iface i).exchange = some id) (h : j ≠ id % 256) :
    (endExchange s i st).session j = s.session j := by
  simp only [endExchange, hx]
  split_ifs <;> simp [State.putSession_session_other _ _ h]

/-- The session an exchange served, after it: LOCAL_STATUS where the identifier is still its own. -/
theorem endExchange_session {s : State} {i st id : Nat} (hx : (s.iface i).exchange = some id)
    (h : tabWf {} s.dual.sessions = true ∨ st ≠ 0) :
    (endExchange s i st).session (id % 256) =
      if sessionId (id % 256) (s.session (id % 256)) = id then { s.session (id % 256) with localStatus := st }
      else s.session (id % 256) := by
  simp only [endExchange, hx, State.putIface_session]
  split_ifs with hid
  · rcases h with hwf | hst
    · exact State.putSession_session_same (s := s.putIface i _) hwf _ _
    · exact State.putSession_session_new _ _ (fun e => hst (congrArg Session.localStatus e))
  · rfl

/-- The end of an exchange leaves the signatures counted in every session. -/
theorem endExchange_counted {s : State} {i st id : Nat} (hx : (s.iface i).exchange = some id)
    (h : tabWf {} s.dual.sessions = true ∨ st ≠ 0) (j : Nat) :
    ((endExchange s i st).session j).counted = (s.session j).counted := by
  by_cases hj : j = id % 256
  · rw [hj, endExchange_session hx h]
    split_ifs <;> rfl
  · rw [endExchange_session_other s hx hj]

theorem endExchange_eq (s : State) (i st : Nat) : endExchange s i st = { s with dual := (endExchange s i st).dual } := by
  simp only [endExchange]
  split <;> [skip; split_ifs] <;> rfl

@[simp] theorem countSignature_iface (s : State) (i serial entry : Nat) (component : Bytes) (slot effectAt : Option Nat) (j : Nat) :
    (countSignature s i serial entry component slot effectAt).iface j = s.iface j := by simp [countSignature]
theorem countSignature_session_other (s : State) {i j : Nat} (serial entry : Nat) (component : Bytes) (slot effectAt : Option Nat)
    (h : j ≠ i) : (countSignature s i serial entry component slot effectAt).session j = s.session j := by
  simp [countSignature, State.putSession_session_other _ _ h]

/-- A signature counted stands at the end of its session's list. -/
theorem countSignature_counted (s : State) (i serial entry : Nat) (component : Bytes) (slot effectAt : Option Nat) :
    ((countSignature s i serial entry component slot effectAt).session i).counted = (s.session i).counted ++
      [{ serial := serial, effectAt := effectAt, component := component,
         kcv := if component = [] then [] else componentKcv component, slot := slot }] := by
  rw [countSignature, useCard_session, State.putSession_session_new]
  exact fun e => absurd (congrArg Session.counted e) (by simp)

@[simp] theorem refuseSignature_session (s : State) (t id serial st j : Nat) :
    (refuseSignature s t id serial st).session j = s.session j := by simp [refuseSignature]
@[simp] theorem refuseSignature_iface (s : State) (t id serial st j : Nat) :
    (refuseSignature s t id serial st).iface j = s.iface j := by simp [refuseSignature]

/-! ### The statement -/

/-- SESSION_EXPIRY of an OPEN or GRANTED session (R360). -/
theorem exec_sessionExpiry {s : State} {i : Nat} (h : (s.session i).state = .open ∨ (s.session i).state = .granted) :
    exec (.sessionExpiry i) s =
      if State.pastE (s.session i) s.folio.now = true then .next (expireSession s i) else .next s := by
  change execSessionExpiry i s = _
  simp [execSessionExpiry, h]

/-- Settles O57: each command is read through the operation it runs, whose effect on sessions, cards and interfaces the lemmas
above state. -/
theorem cardsAndSessions : Obligations.CardsAndSessions := by
  intro s
  refine ⟨?expiry, ?complete, ?timeout, ?idle, ?presence, ?validity⟩
  case expiry =>
    intro i hopen
    refine ⟨fun hpast => ⟨expireSession s i, ?_, ?_, ?_, ?_, fun j hj => expireSession_session_other s hj, expireSession_eq s i⟩,
      fun hpast => ?_⟩
    · rw [exec_sessionExpiry hopen, if_pos hpast]
    · rw [expireSession_session]
    · rw [expireSession_session]
      rfl
    · rw [expireSession_session]
      simp [Session.erase]
    · rw [exec_sessionExpiry hopen, if_neg (by simp [hpast])]
  case complete =>
    intro i id serial sig cmsg hifaces hsessions hx k named r
    have hexec : exec (.cardExchangeComplete i serial sig cmsg) s = .next (match r with
        | (st, none) => refuseSignature (endExchange s i st) (s.session k).scope id serial st
        | (_, some (e, comp)) => countSignature (endExchange s i stOk) k serial e comp none (some (folioAdd s.folio.now 1))) := by
      change execCardExchangeComplete i serial sig cmsg s = _
      simp only [execCardExchangeComplete, hx]
      split <;> rename_i heq <;> simp [r, named, k, heq]
    refine ⟨_, hexec, ?_⟩
    rcases r with ⟨st, _ | ⟨e, comp⟩⟩
    · exact ⟨by simp [endExchange_iface hifaces], by simp [endExchange_iface hifaces],
        fun j hj => by simp [endExchange_session_other s hx hj], by simp [endExchange_counted hx (.inl hsessions)]⟩
    · exact ⟨by simp [endExchange_iface hifaces], by simp [endExchange_iface hifaces],
        fun j hj => by
          rw [countSignature_session_other _ _ _ _ _ _ hj, endExchange_session_other s hx hj],
        by simp only [countSignature_counted, endExchange_counted hx (.inl hsessions)]⟩
  case timeout =>
    intro i id lost hifaces hx
    have hst : (if lost then stCardAbsent else stCardTimeout) ≠ 0 := by cases lost <;> decide
    set st := if lost then stCardAbsent else stCardTimeout with hdef
    have hexec : exec (.cardExchangeTimeout i lost) s =
        .next (((endExchange s i st).dcEvent 3).raise evIfaceFault srcSecurity 0 (items [(1, i), (2, st)])) := by
      change execCardExchangeTimeout i lost s = _
      simp only [execCardExchangeTimeout, hx, hdef]
    refine ⟨_, hexec, by simp [endExchange_iface hifaces], by simp [endExchange_iface hifaces],
      fun j => by simp [endExchange_counted hx (.inr hst)], ?_⟩
    obtain ⟨r, h⟩ := ((endExchange s i st).dcEvent 3).raise_changes_recorder evIfaceFault srcSecurity 0 (items [(1, i), (2, st)])
    rw [h, endExchange_eq s i st]
    rfl
  case idle =>
    intro i lost serial sig cmsg hx
    refine ⟨?_, ?_⟩
    · change execCardExchangeTimeout i lost s = _
      rw [execCardExchangeTimeout, hx]
    · change execCardExchangeComplete i serial sig cmsg s = _
      rw [execCardExchangeComplete, hx]
  case presence =>
    intro i present a hrails hi hnew hifaces
    have hexec : exec (.cardPresenceChange i present a) s =
        .next ((s.putIface i { s.iface i with present := present, classA := present && a }).raise evCardPresence srcSecurity 0
          (items [(1, i), (1, bit present)])) := by
      change execCardPresenceChange i present a s = _
      simp only [execCardPresenceChange]
      rw [if_neg (by simp [hrails, hnew]; omega)]
    refine ⟨_, hexec, by simp [State.putIface_iface_same hifaces], by simp [State.putIface_iface_same hifaces],
      by simp [State.putIface_iface_same hifaces], fun j hj => by simp [State.putIface_iface_other _ _ hj], ?_⟩
    rw [State.raise_eq]
    rfl
  case validity =>
    intro i husable
    have hexec : exec (.cardValidityChange i) s = .next (judgeCard s i) := rfl
    refine ⟨fun hover => ⟨exhaustCard s i, ?_, exhaustCard_card s i, fun j hj => exhaustCard_card_other s hj⟩,
      fun huses htime hactive => ⟨fun hlate => ⟨warnCard s i, ?_, warnCard_card s i, fun j hj => warnCard_card_other s hj⟩,
        fun hmany hearly => ?_⟩⟩
    · rw [hexec, judgeCard_eq_exhaustCard husable hover]
    · rw [hexec, judgeCard_of_active hactive huses htime, if_pos hlate]
    · rw [hexec, judgeCard_of_active hactive huses htime, if_neg (by simp [hearly, hmany])]

end Sys2Proof.Machine
end

section
/-! SUPPORT. Chapter 18 (the event recorder): what writing one record leaves of the recorder, and the statement about what the
recorder takes, writes and counts. -/

namespace Sys2Proof.Machine

open Sys2Proof

@[simp] theorem appendTail_next (x : Recorder) (r : Record) : (appendTail x r).next = x.next + 1 := (rfl)
@[simp] theorem appendTail_offered (x : Recorder) (r : Record) : (appendTail x r).offered = x.offered := (rfl)

/-- The record a tail reads at the number just written: the record appended, with its chain field. -/
theorem appendTail_tail (x : Recorder) (r d : Record) :
    tabGet d (appendTail x r).tail x.next = { r with chain := (chainNext (chainOf 0x54 x.tailChain) r).take 2 } :=
  tabGet_insert_same _ _ _ _

/-- Inside a sector no checkpoint is written. -/
theorem openSector_inside (s : State) {x : Recorder} (h : 0 < x.next % 1024) : openSector s x = x := by
  rw [openSector, if_pos (by omega)]

/-- The front matter's copy of a record (R462): what `writeRecord` writes before the tail. -/
def frontCopy (x : Recorder) (r : Record) : Recorder :=
  let c := chainNext (chainOf 0x46 x.frontChain) r
  if r.front then
    { x with front := tabInsert x.front x.frontCount { r with chain := c.take 2 }, frontChain := c, frontCount := x.frontCount + 1 }
  else x

@[simp] theorem frontCopy_next (x : Recorder) (r : Record) : (frontCopy x r).next = x.next := by
  simp only [frontCopy]
  split_ifs <;> rfl
@[simp] theorem frontCopy_offered (x : Recorder) (r : Record) : (frontCopy x r).offered = x.offered := by
  simp only [frontCopy]
  split_ifs <;> rfl

/-- A record written inside a tail sector, where it does not fill the front matter: its copy in the front matter, then the tail,
and no event. -/
theorem writeRecord_inside {s : State} (r : Record) (hsector : 0 < s.recorder.next % 1024)
    (hfront : s.recorder.frontCount + 1 < 1024 ∨ s.recorder.everDeployed = false) :
    let r1 := { r with front := decide (s.recorder.frontCount < 1024) && s.recorder.everDeployed }
    writeRecord s r = { s with recorder := appendTail (frontCopy s.recorder r1) r1 } := by
  intro r1
  have hopen : openSector s (frontCopy s.recorder r1) = frontCopy s.recorder r1 := openSector_inside s (by simpa using hsector)
  have hfull : ¬ ((decide (s.recorder.frontCount < 1024) && s.recorder.everDeployed) = true ∧
      (appendTail (frontCopy s.recorder r1) r1).frontCount = 1024) := by
    rintro ⟨hset, hcount⟩
    have : (appendTail (frontCopy s.recorder r1) r1).frontCount = s.recorder.frontCount + 1 := by
      simp [appendTail, frontCopy, r1, hset]
    rcases hfront with h | h
    · omega
    · simp [h] at hset
  have hwrite : writeRecord s r =
      if (decide (s.recorder.frontCount < 1024) && s.recorder.everDeployed) = true ∧
          (appendTail (openSector s (frontCopy s.recorder r1)) r1).frontCount = 1024
      then { s with recorder := appendTail (openSector s (frontCopy s.recorder r1)) r1 }.raise evFrontMatterFull srcRecorder 0 []
      else { s with recorder := appendTail (openSector s (frontCopy s.recorder r1)) r1 } := rfl
  rw [hwrite, hopen, if_neg hfull]

/-- What is seen of a record written inside a tail sector, where it does not fill the front matter. -/
theorem writeRecord_inside_reads {s : State} (r : Record) (hsector : 0 < s.recorder.next % 1024)
    (hfront : s.recorder.frontCount + 1 < 1024 ∨ s.recorder.everDeployed = false) :
    ∃ y : Recorder, writeRecord s r = { s with recorder := y } ∧ y.next = s.recorder.next + 1 ∧ y.offered = s.recorder.offered ∧
      ∃ f c, ∀ d, tabGet d y.tail s.recorder.next = { r with front := f, chain := c } := by
  let r1 := { r with front := decide (s.recorder.frontCount < 1024) && s.recorder.everDeployed }
  have htail := appendTail_tail (frontCopy s.recorder r1) r1
  rw [frontCopy_next] at htail
  exact ⟨appendTail (frontCopy s.recorder r1) r1, writeRecord_inside r hsector hfront, by simp, by simp, r1.front, _, htail⟩

/-- Settles O52: RECORD_WRITE and the response's capture through `writeRecord_inside`, the other commands by their definitions. -/
theorem recorderWrites : Obligations.RecorderWrites := by
  intro s x
  refine ⟨?write, ?nothingOffered, ?capture, ?noCapture, ?token, ?suppression, ?second, ?noSecond⟩
  case write =>
    intro r rest hoffered hsector hfront
    have hexec : exec (.recordWrite false) s = .next (writeRecord { s with recorder := { s.recorder with offered := rest } } r) := by
      change execRecordWrite false s = _
      simp [execRecordWrite, show s.recorder.offered = r :: rest from hoffered]
    obtain ⟨y, hy, hnext, hrest, f, c, htail⟩ :=
      writeRecord_inside_reads (s := { s with recorder := { s.recorder with offered := rest } }) r hsector hfront
    exact ⟨_, hexec.trans (congrArg _ hy), hrest, hnext, ⟨f, c, htail⟩, rfl⟩
  case nothingOffered =>
    intro f hoffered
    change execRecordWrite f s = _
    simp [execRecordWrite, show s.recorder.offered = [] from hoffered]
  case capture =>
    intro c rest hcaptures hawake
    refine ⟨fun halert => ?_, fun herase hfirst hsector hfront => ?_⟩
    · have hexec : exec .tamperRecordWrite s =
          .next { s with tmp := { s.tmp with captures := rest }, recorder := offer s.recorder (captureRecord c) } := by
        change execTamperRecordWrite s = _
        simp [execTamperRecordWrite, hcaptures, hawake, halert]
      exact ⟨_, hexec, rfl, rfl, rfl⟩
    · have hexec : exec .tamperRecordWrite s = .next (writeRecord { s with
          tmp := { s.tmp with captures := rest }, recorder := { s.recorder with bucket := s.recorder.bucket - 1 } } (captureRecord c)) := by
        change execTamperRecordWrite s = _
        simp [execTamperRecordWrite, hcaptures, hawake, herase, hfirst]
      obtain ⟨y, hy, hnext, -, f, chain, htail⟩ := writeRecord_inside_reads (s := { s with
        tmp := { s.tmp with captures := rest }, recorder := { s.recorder with bucket := s.recorder.bucket - 1 } })
        (captureRecord c) hsector hfront
      exact ⟨_, hexec.trans (congrArg _ hy), rfl, hnext, fun d => (congrArg Record.data (htail d) :), rfl⟩
  case noCapture =>
    intro h
    change execTamperRecordWrite s = _
    rcases h with hnone | hsleep
    · simp [execTamperRecordWrite, hnone]
    · rw [execTamperRecordWrite]
      split
      · rfl
      · rw [if_pos hsleep]
  case token =>
    intro hnone
    change execRecTokenGain s = _
    simp [execRecTokenGain, show s.recorder.suppressed = [] from hnone, x]
  case suppression =>
    intro hsome
    have hexec : exec .recTokenGain s = .next { s with recorder := { s.recorder with
        offered := s.recorder.offered ++ [s.record evRecordsSuppressed srcRecorder 0 (suppressedData s.recorder)],
        suppressed := [], counters := bump s.recorder.counters 2 1 } } := by
      change execRecTokenGain s = _
      simp [execRecTokenGain, show s.recorder.suppressed ≠ [] from hsome]
    exact ⟨_, hexec, rfl, rfl, ⟨_, rfl, rfl⟩, rfl⟩
  case second =>
    intro hpower hvsec
    let y := { s.recorder with seconds := s.recorder.seconds + 1 }
    have hexec : exec .operatingSecond s =
        .next { s with recorder := if (x.seconds + 1) % 64 = 0 then storeSeconds y else y } := by
      change execOperatingSecond s = _
      simp [execOperatingSecond, hpower, hvsec, x, y]
    refine ⟨_, hexec, ?_, ?_, rfl⟩ <;> split_ifs <;> rfl
  case noSecond =>
    intro h
    change execOperatingSecond s = _
    rw [execOperatingSecond, if_neg (by grind)]

end Sys2Proof.Machine
end

section
/-! SUPPORT. Chapter 14 (family 14_life_cycle_and_debug): how the functions of Table 14.7 run, and the statement about them. -/

namespace Sys2Proof.Machine

open Sys2Proof

/-! ### Steps of a function -/

theorem Fn.run_bind {α β : Type} {f : Fn α} {s t : State} {a : α} (g : α → Fn β) (h : f.gives s a t) :
    ((f >>= g).run.run s : Except Nat β × State) = (g a).run.run t := by
  unfold Fn.gives at h
  simp only [ExceptT.run_bind, StateT.run_bind, h]
  rfl

/-- A branch of which only the state matters, as the check of a session or of its absence, heads the same rest. -/
theorem Fn.run_either {α β γ : Type} {c : Prop} [Decidable c] {f : Fn α} {g : Fn β} {h : Fn γ} {s t : State}
    (hthen : c → ∃ a, f.gives s a t) (helse : ¬ c → ∃ b, g.gives s b t) :
    ((if c then f >>= fun _ => h else g >>= fun _ => h : Fn γ).run.run s : Except Nat γ × State) = h.run.run t := by
  by_cases hc : c
  · rw [if_pos hc]
    exact Fn.run_bind _ (hthen hc).choose_spec
  · rw [if_neg hc]
    exact Fn.run_bind _ (helse hc).choose_spec

/-- A life-cycle function whose body a refusal ends leaves the refusal's effect, and its status in LC_LAST. -/
theorem runFnOn_lcFn_orRefuse {f : Fn FnRes} {s t : State} {e : Nat} (x : Slot) (g : Nat → State → State)
    (h : (f.run.run s : Except Nat FnRes × State) = (.error e, t)) :
    runFnOn (lcFn x (Fn.orRefuse f g)) s = ({ status := e }, lcLast (g e t) x e) := by
  have hinner : ((Fn.orRefuse f g).run.run s : Except Nat FnRes × State) = (.error e, g e t) := by rw [Fn.orRefuse_run, h]
  have hbody : ((do let r ← Fn.orRefuse f g; Fn.change (fun s => lcLast s x stOk); return r : Fn FnRes).run.run s :
      Except Nat FnRes × State) = (.error e, g e t) := by
    simp only [ExceptT.run_bind, StateT.run_bind, hinner]
    rfl
  unfold runFnOn lcFn
  rw [Fn.orRefuse_run, hbody]

/-! ### LC_TRANSITION (R377, R381) -/

theorem lcTransitionFn_gives {k session : Nat} {x : Slot} {t s1 : State} {r : Nat × Nat × Bool}
    (hlayout : layoutOk x.payload 44 [(5, 3)] = true) (hidle : t.lc.inProgress = false)
    (hfresh : t.lc.state ≠ .invalid ∨ t.lc.liveIntent = none)
    (hrow : transitionRow t.lc.state (min (stripes t.lc.word0) (stripes t.lc.word1)) (fld x.payload 4 1) = some r) (hstripe : r.1 < 8)
    (hscrap : r.1 = 7 → stripe t.lc.word0 7 ≠ stripePattern)
    (hauth : if r.2.2 = true then x.mailbox = false ∧ (Fn.auth k x 0x70 0 0 8).gives t session s1 else fld x.payload 8 4 = 0 ∧ s1 = t)
    (hcerts : fld x.payload 4 1 = 2 → t.certsMatch = true) :
    let token := slice x.payload 12 32
    let slot := if fld x.payload 4 1 = 5 then (if tabGet [] t.lc.digests 7 = sha384B token then 7 else 8) else r.2.1
    tabGet [] t.lc.digests slot = sha384B token →
    (lcTransitionFn k x).gives t { effects := [.lcTransition] }
      (lcLast { s1 with lc := { s1.lc with intents := s1.lc.intents ++
        [{ source := t.lc.state.code, target := fld x.payload 4 1, stripe := r.1, slot := slot, quorum := r.2.2, valid := false }] } }
        x stOk) := by
  intro token slot htoken
  have hpath : (!(x.mailbox && t.lc.state != .invalid && ((some r).map (·.2.2)).getD false)) = true := by
    split_ifs at hauth with hq
    · simp [hauth.1]
    · simp [hq]
  have hfree : (decide (r.1 < 8) && !(r.1 == 7 && stripe t.lc.word0 7 == stripePattern)) = true := by
    by_cases h7 : r.1 = 7
    · simp [hstripe, hscrap h7]
    · simp [hstripe, h7]
  have hintent : (if t.lc.state = .invalid then t.lc.liveIntent else none) = none := by
    rcases hfresh with h | h
    · rw [if_neg h]
    · rw [h, ite_self]
  refine lcFn_gives x (Fn.orRefuse_gives _ ?_)
  refine Fn.gives_bind (Fn.need_gives hlayout) <| Fn.gives_bind (Fn.get_gives t) ?_
  dsimp only
  rw [hrow]
  refine Fn.gives_bind (Fn.need_gives hpath) <| Fn.gives_bind (Fn.need_gives (by rw [hidle, Bool.not_false])) ?_
  rw [hintent]
  refine Fn.gives_bind (Fn.get!_gives r _ t) <| Fn.gives_bind (Fn.need_gives hfree) ?_
  refine (Fn.run_either (t := s1) (fun hq => ⟨session, ?_⟩) (fun hq => ⟨(), ?_⟩)).trans ?_
  · rw [if_pos hq] at hauth
    exact hauth.2
  · rw [if_neg hq] at hauth
    rw [hauth.2]
    exact Fn.need_gives (beq_iff_eq.2 hauth.1)
  · exact Fn.gives_bind (Fn.need_gives (by simpa [imp_iff_not_or] using hcerts)) <|
      Fn.gives_bind (Fn.need_gives (beq_iff_eq.2 htoken)) <| Fn.gives_bind (Fn.change_gives _ s1) (Fn.done_gives _ _ _)

theorem lcTransitionFn_resumes {k : Nat} {x : Slot} {t : State} {i : Intent} (hlayout : layoutOk x.payload 44 [(5, 3)] = true)
    (hidle : t.lc.inProgress = false) (hinvalid : t.lc.state = .invalid) (hlive : t.lc.liveIntent = some i)
    (htarget : fld x.payload 4 1 = i.target) (hnone : fld x.payload 8 4 = 0)
    (htoken : tabGet [] t.lc.digests i.slot = sha384B (slice x.payload 12 32))
    (hwhole0 : stripeDamaged t.lc.word0 i.stripe = false) (hwhole1 : stripeDamaged t.lc.word1 i.stripe = false) :
    (lcTransitionFn k x).gives t { effects := [.lcTransition] }
      (lcLast (t.raise evLcResumed srcSecurity 0 (items [(1, i.target), (1, i.stripe)])) x stOk) := by
  have hundamaged : [(0, t.lc.word0), (1, t.lc.word1)].find? (fun c => stripeDamaged c.2 i.stripe) = none := by
    simp [hwhole0, hwhole1]
  refine lcFn_gives x (Fn.orRefuse_gives _ ?_)
  refine Fn.gives_bind (Fn.need_gives hlayout) <| Fn.gives_bind (Fn.get_gives t) <|
    Fn.gives_bind (Fn.need_gives (by simp [hinvalid])) <| Fn.gives_bind (Fn.need_gives (by rw [hidle, Bool.not_false])) ?_
  rw [if_pos hinvalid, hlive]
  refine Fn.gives_bind (Fn.need_gives (beq_iff_eq.2 htarget)) <| Fn.gives_bind (Fn.need_gives (beq_iff_eq.2 hnone)) <|
    Fn.gives_bind (Fn.need_gives (beq_iff_eq.2 htoken)) ?_
  rw [hundamaged]
  exact Fn.gives_bind (Fn.change_gives _ t) (Fn.done_gives _ _ _)

/-! ### Debug authorisation (R384, R385) -/

/-- The state after LC_DEBUG_CHALLENGE: the drawn nonce kept, and its event. -/
def debugChallenged (t : State) : State :=
  let s1 := (t.random 32).2
  { s1 with lc := { s1.lc with dbg := { s1.lc.dbg with challenge := some (t.random 32).1 } } }.raise evDebugChallenge srcSecurity 0
    (items [(1, t.lc.state.code)])

theorem lcDebugChallengeFn_gives {x : Slot} {t : State} (hlayout : layoutOk x.payload 8 [(4, 4)] = true)
    (hvalid : t.lc.state ≠ .invalid) (hkept : t.lc.state ≠ .scrapped) :
    (lcDebugChallengeFn x).gives t
      { result := (t.random 32).1 ++ beBytes 8 Config.serial.toNat ++ beBytes 1 t.lc.state.code ++ zeros 7 }
      (lcLast (debugChallenged t) x stOk) :=
  lcFn_gives x <| Fn.gives_bind (Fn.need_gives hlayout) <| Fn.gives_bind (Fn.st_gives _ t) <|
    Fn.gives_bind (Fn.need_gives (by simp [hvalid, hkept])) <| Fn.gives_bind (Fn.act_gives _ t) <|
    Fn.gives_bind (Fn.change_gives _ _) (Fn.done_gives _ _ _)

/-- What a debug grant signs (Table 14.8). -/
def debugGrant (l : LcState) (nonce : Bytes) (starts : Nat) : Bytes :=
  sha384B (ascii "SKZ2 debug" ++ beBytes 8 Config.serial.toNat ++ beBytes 1 l.code ++ nonce ++ beBytes 1 starts)

/-- Both signatures of a debug grant verify. -/
def debugGranted (g : Bytes) (p : Bytes) : Bool :=
  verify384 Config.debugKeyEc g (slice p 12 96) && mlDsaVerify Config.debugKeyPq [] g (slice p 108 3309)

/-- LC_DEBUG_AUTH before its refusals are noted. -/
def debugAuthBody (k : Nat) (x : Slot) : Fn FnRes := do
  let p := x.payload
  let starts := fld p 4 1
  Fn.need (layoutOk p 3417 [(5, 3)] && decide (1 ≤ starts ∧ starts ≤ 16)) stFieldInvalid
  let l ← Fn.st (·.lc)
  let quorum := l.state == .deployed
  Fn.need (quorum || fld p 8 4 == 0) stFieldInvalid
  Fn.need (!(quorum && x.mailbox)) stLcPath
  Fn.need (l.state != .invalid && l.state != .scrapped) stDebugNotPermitted
  let nonce ← Fn.get! l.dbg.challenge stDebugNoChallenge
  Fn.change (fun s => { s with lc := { s.lc with dbg := { s.lc.dbg with challenge := none } } })
  if quorum then
    let _ ← Fn.auth k x 0x72 0 0 8
  Fn.need (debugGranted (debugGrant l.state nonce starts) p) stDebugSignatureInvalid
  Fn.done [] [.debugArm starts l.state.code quorum]

theorem lcDebugAuthFn_eq (k : Nat) (x : Slot) : lcDebugAuthFn k x =
    lcFn x (Fn.orRefuse (debugAuthBody k x) (fun e s => s.raise evDebugRefused srcSecurity 0 (items [(2, e)]))) := (rfl)

section DebugAuth

variable {k session : Nat} {x : Slot} {t s1 : State} {nonce : Bytes}
  (hlayout : layoutOk x.payload 3417 [(5, 3)] = true) (hone : 1 ≤ fld x.payload 4 1) (hmost : fld x.payload 4 1 ≤ 16)
  (hvalid : t.lc.state ≠ .invalid) (hkept : t.lc.state ≠ .scrapped) (hnonce : t.lc.dbg.challenge = some nonce)
  (hauth : let used := { t with lc := { t.lc with dbg := { t.lc.dbg with challenge := none } } }
    if t.lc.state == .deployed then x.mailbox = false ∧ (Fn.auth k x 0x72 0 0 8).gives used session s1
    else fld x.payload 8 4 = 0 ∧ s1 = used)
include hlayout hone hmost hvalid hkept hnonce hauth

/-- LC_DEBUG_AUTH of a challenge given comes to the verification of its grant, with the nonce used up. -/
theorem debugAuthBody_run :
    ((debugAuthBody k x).run.run t : Except Nat FnRes × State) =
      (do Fn.need (debugGranted (debugGrant t.lc.state nonce (fld x.payload 4 1)) x.payload) stDebugSignatureInvalid
          Fn.done [] [.debugArm (fld x.payload 4 1) t.lc.state.code (t.lc.state == .deployed)] : Fn FnRes).run.run s1 := by
  have hfields : (layoutOk x.payload 3417 [(5, 3)] && decide (1 ≤ fld x.payload 4 1 ∧ fld x.payload 4 1 ≤ 16)) = true := by
    simp [hlayout, hone, hmost]
  have hnone : (t.lc.state == .deployed || fld x.payload 8 4 == 0) = true := by
    split_ifs at hauth with hq
    · rw [hq, Bool.true_or]
    · rw [hauth.1, beq_self_eq_true, Bool.or_true]
  have hpath : (!(t.lc.state == .deployed && x.mailbox)) = true := by
    split_ifs at hauth with hq
    · rw [hauth.1, Bool.and_false, Bool.not_false]
    · rw [Bool.eq_false_iff.2 hq, Bool.false_and, Bool.not_false]
  unfold debugAuthBody
  dsimp only
  rw [Fn.run_bind _ (Fn.need_gives hfields), Fn.run_bind _ (Fn.st_gives _ t), Fn.run_bind _ (Fn.need_gives hnone),
    Fn.run_bind _ (Fn.need_gives hpath), Fn.run_bind _ (Fn.need_gives (by simp [hvalid, hkept])), hnonce,
    Fn.run_bind _ (Fn.get!_gives nonce _ t), Fn.run_bind _ (Fn.change_gives _ t)]
  split_ifs at hauth with hq
  · rw [if_pos hq, Fn.run_bind _ hauth.2]
  · rw [if_neg hq, hauth.2]

/-- LC_DEBUG_AUTH of a challenge given ends as both grant signatures verify or not. -/
theorem runFnOn_lcDebugAuth :
    runFnOn (lcDebugAuthFn k x) t =
      if debugGranted (debugGrant t.lc.state nonce (fld x.payload 4 1)) x.payload then
        ({ effects := [.debugArm (fld x.payload 4 1) t.lc.state.code (t.lc.state == .deployed)] }, lcLast s1 x stOk)
      else ({ status := stDebugSignatureInvalid },
        lcLast (s1.raise evDebugRefused srcSecurity 0 (items [(2, stDebugSignatureInvalid)])) x stDebugSignatureInvalid) := by
  have hbody := debugAuthBody_run hlayout hone hmost hvalid hkept hnonce hauth
  rw [lcDebugAuthFn_eq]
  split_ifs with hgrant
  · exact runFnOn_gives (lcFn_gives x (Fn.orRefuse_gives _ (hbody.trans
      (Fn.gives_bind (Fn.need_gives hgrant) (Fn.done_gives _ _ s1)))))
  · rw [Bool.eq_false_iff.2 hgrant] at hbody
    exact runFnOn_lcFn_orRefuse x _ hbody

end DebugAuth

theorem lcDebugEndFn_gives {x : Slot} {t : State} (hlayout : layoutOk x.payload 8 [(4, 4)] = true) :
    (lcDebugEndFn x).gives t { effects := [.debugEnd] } (lcLast t x stOk) :=
  lcFn_gives x <| Fn.gives_bind (Fn.need_gives hlayout) (Fn.done_gives _ _ t)

/-! ### Identity and certificates (R388) -/

theorem lcIdentityFn_gives {x : Slot} {t : State} (hlayout : layoutOk x.payload 8 [(4, 4)] = true) (hmailbox : x.mailbox = true)
    (htest : t.lc.state = .test) :
    (lcIdentityFn x).gives t
      { result := padTo 97 (t.devicePublic.getD 0 []) ++ padTo 97 (t.devicePublic.getD 1 []) ++ zeros 2 ++
          padTo 1952 (t.devicePublic.getD 2 []) } (lcLast t x stOk) :=
  lcFn_gives x <| Fn.gives_bind (Fn.need_gives hlayout) <| Fn.gives_bind (Fn.get_gives t) <|
    Fn.gives_bind (Fn.need_gives (by rw [hmailbox, htest]; rfl)) (Fn.done_gives _ _ t)

theorem lcCertLoadFn_gives {x : Slot} {t : State} (hlayout : layoutOk x.payload (8 + fld x.payload 6 2) [(5, 1)] = true)
    (hindex : fld x.payload 4 1 ≤ 2) (hlen : fld x.payload 6 2 ≤ 8188) (hmailbox : x.mailbox = true) (htest : t.lc.state = .test) :
    (lcCertLoadFn x).gives t { effects := [.certLoad (fld x.payload 4 1) (x.payload.drop 8)] } (lcLast t x stOk) :=
  lcFn_gives x <| Fn.gives_bind (Fn.need_gives (by simp [hlayout, hindex, hlen])) <|
    Fn.gives_bind (Fn.st_gives _ t) <| Fn.gives_bind (Fn.need_gives (by rw [hmailbox, htest]; rfl)) (Fn.done_gives _ _ t)

/-- Settles O21: each function gives what its lemma above says; LC_DEBUG_AUTH runs to the verification of its grant. -/
theorem lifeCycleFunctions : Obligations.LifeCycleFunctions := by
  intro s k x p t l n
  refine ⟨?transition, ?challenge, ?auth, ?closing, ?cert⟩
  case transition =>
    intro target token hmay hlayout hidle
    refine ⟨?_, ?_⟩
    · intro r s1 session slot hfresh hrow hstripe hscrap hauth hcerts htoken
      exact congrArg Host.Outcome.next (serveFn_gives _ hmay
        (lcTransitionFn_gives hlayout hidle hfresh hrow hstripe hscrap hauth hcerts htoken))
    · intro i hinvalid hlive htarget hnone htoken hwhole0 hwhole1
      exact congrArg Host.Outcome.next (serveFn_gives _ hmay
        (lcTransitionFn_resumes hlayout hidle hinvalid hlive htarget hnone htoken hwhole0 hwhole1))
  case challenge =>
    intro nonce hmay hlayout hvalid hkept
    refine ⟨lcLast (debugChallenged t) x stOk, ?_, rfl, ?_, congrArg Host.Outcome.next
      (serveFn_gives _ hmay (lcDebugChallengeFn_gives hlayout hvalid hkept))⟩
    · simp [lcLast, debugChallenged, nonce]
    · simp [lcLast, debugChallenged]
  case auth =>
    intro nonce s1 session starts quorum used g hmay hlayout hone hmost hvalid hkept hnonce hauth
    exact (serveFn_judged _ hmay (runFnOn_lcDebugAuth hlayout hone hmost hvalid hkept hnonce hauth)).trans
      (apply_ite Host.Outcome.next _ _ _).symm
  case closing =>
    intro hlayout
    refine ⟨fun hmay => ?_, fun hmay hmailbox htest => ?_⟩
    · exact congrArg Host.Outcome.next (serveFn_gives _ hmay (lcDebugEndFn_gives hlayout))
    · exact congrArg Host.Outcome.next (serveFn_gives _ hmay (lcIdentityFn_gives hlayout hmailbox htest))
  case cert =>
    intro len hmay hlen hlayout hindex hmost hmailbox htest
    subst hlen
    exact congrArg Host.Outcome.next (serveFn_gives _ hmay (lcCertLoadFn_gives hlayout hindex hmost hmailbox htest))

end Sys2Proof.Machine
end

section
/-! SUPPORT. Chapter 14 (family 14_life_cycle_and_debug), the TAP: the instructions of an open and of a closed TAP, what a debug access
without authorisation leaves, the placing of a mailbox request, the transition, and the statement about them. -/

namespace Sys2Proof.Machine

open Sys2Proof

/-! ### The TAP instructions (R386, R387) -/

theorem tapOpen_of_ne_scrapped {s : State} (h : s.lc.state ≠ .scrapped) : s.tapOpen = true := bne_iff_ne.2 h
theorem tapOpen_of_scrapped {s : State} (h : s.lc.state = .scrapped) : s.tapOpen = false := by rw [State.tapOpen, h]; rfl

/-- A command of a SCRAPPED device's TAP: BYPASS is selected, and no more than the TAP changes. -/
def TapBypassed (c : Instr) (s : State) : Prop := ∃ u : State, exec c s = .next u ∧ u.lc.tap.instr = .bypass ∧ u = s.setTap (fun _ => u.lc.tap)

theorem tapBypassed_of {c : Instr} {s : State} (f : Tap → Tap) (hexec : exec c s = .next (s.setTap f))
    (hbypass : (f s.lc.tap).instr = .bypass) : TapBypassed c s := ⟨_, hexec, hbypass, rfl⟩

/-! ### Debug accesses without authorisation (R384, Table 7.12) -/

/-- What a debug access without authorisation may not touch: the key store, the Square, core memory, the engines, the folio. -/
def State.stores (s : State) :
    KeyStore × Square × List (Nat × Core) × List (Nat × List (Nat × Byte)) × BnState × Folio :=
  (s.ks, s.sq, s.cores.core, s.cores.blockMem, s.bn, s.folio)

theorem State.stores_eq {s u : State} (h : u.stores = s.stores) :
    u.ks = s.ks ∧ u.sq = s.sq ∧ u.cores.core = s.cores.core ∧ u.cores.blockMem = s.cores.blockMem ∧ u.bn = s.bn ∧ u.folio = s.folio := by
  simpa only [State.stores, Prod.mk.injEq] using h

@[simp] theorem State.raise_stores (s : State) (code source tenant : Nat) (data : Bytes) :
    (s.raise code source tenant data).stores = s.stores := by
  rw [State.raise_eq]
  rfl
@[simp] theorem State.setTap_stores (s : State) (f : Tap → Tap) : (s.setTap f).stores = s.stores := (rfl)
@[simp] theorem State.random_stores (s : State) (n : Nat) : (s.random n).2.stores = s.stores := (rfl)

@[simp] theorem debugDenied_stores (s : State) (a : Nat) : (debugDenied s a).stores = s.stores := by
  simp only [debugDenied]
  split_ifs
  · rfl
  · rw [State.raise_stores]
    rfl
@[simp] theorem debugLocked_stores (s : State) (a : Nat) : (debugLocked s a).stores = s.stores := by
  simp only [debugLocked]
  split_ifs
  · rfl
  · rw [State.raise_stores]
    rfl
@[simp] theorem debugFlags_stores (s : State) (allowed : Bool) (a : Nat) : (debugFlags s allowed a).stores = s.stores := by
  simp only [debugFlags]
  split <;> split <;> simp
@[simp] theorem debugSramRead_stores (s : State) (allowed : Bool) (a : Nat) : (debugSramRead s allowed a).2.stores = s.stores := by
  simp only [debugSramRead, debugFlags_stores]
  split_ifs <;> simp

/-- Without authorisation no byte of the SRAM space shows. -/
theorem debugSramRead_unauthorised (s : State) (a : Nat) : (debugSramRead s false a).1 = 0 := by
  have hzeros : ∀ byte : Nat → Byte, (∀ i, byte i = 0) → BitVec.ofNat 32 (beNat ((List.range 4).map byte)) = 0 := by
    intro byte h
    rw [funext h]
    decide
  refine hzeros _ fun i => ?_
  split <;> rfl

/-- Without authorisation a write of the SRAM space leaves its flags alone. -/
theorem debugSramWrite_unauthorised (s : State) (a : Nat) (data : Word32) :
    debugSramWrite s false a data = debugFlags s false a := by
  refine congrArg (fun u => debugFlags u false a) (List.foldl_fixed' (fun i => ?_) _)
  split <;> rfl

/-- Without authorisation the management space shows DEV_PART alone. -/
theorem debugMgmtRead_unauthorised (s : State) {a : Nat} (h : a ≠ 0) : debugMgmtRead s false a = (0, debugDenied s a) := by
  rw [debugMgmtRead, if_pos ⟨Bool.false_ne_true, h⟩]

/-- DEV_PART reads the same whatever stands in the TAP. -/
theorem debugMgmtRead_devPart (s : State) (f : Tap → Tap) (allowed : Bool) :
    (debugMgmtRead (s.setTap f) allowed 0).1 = BitVec.ofNat 32 (readPlain s (2 ^ 15) 0) := by
  have hplain : ∀ (t : State) c, splitValue t c 0 = none := by simp [splitValue, counterPage]
  simp [debugMgmtRead, debugReg, isRandomReg, hplain, readPlain, readDev]

/-- The TAP's read of a space, and its write. -/
def debugRead (s : State) (allowed : Bool) (sp a : Nat) : Word32 × State :=
  if sp = 0 then debugMgmtRead s allowed a else debugSramRead s allowed a
def debugWrite (s : State) (allowed : Bool) (sp a : Nat) (d : Word32) : State :=
  if sp = 0 then debugMgmtWrite s allowed a d else debugSramWrite s allowed a d

theorem debugRead_unauthorised (s : State) {sp a : Nat} (h : sp = 0 → a ≠ 0) :
    (debugRead s false sp a).1 = 0 ∧ (debugRead s false sp a).2.stores = s.stores := by
  unfold debugRead
  split_ifs with hsp
  · rw [debugMgmtRead_unauthorised s (h hsp)]
    exact ⟨rfl, debugDenied_stores s a⟩
  · exact ⟨debugSramRead_unauthorised s a, debugSramRead_stores s false a⟩

theorem debugWrite_unauthorised (s : State) (sp a : Nat) (d : Word32) : (debugWrite s false sp a d).stores = s.stores := by
  unfold debugWrite
  split_ifs
  · rw [debugMgmtWrite, if_pos Bool.false_ne_true, debugDenied_stores]
  · rw [debugSramWrite_unauthorised, debugFlags_stores]

/-- The TAP with DBG_ACCESS selected. -/
def State.dbgSelected (s : State) : State :=
  s.setTap (fun t => { t with instr := .dbgAccess, pinsFromBoundary := false, pinsHighZ := false })

theorem exec_dbgAccess_read {s : State} (hopen : s.lc.state ≠ .scrapped) {sp : Nat} (a : Nat) (d : Word32) (hsp : sp ≤ 1) :
    exec (.dbgAccess false sp a d) s = .next ((debugRead s.dbgSelected s.debugAllowed sp a).2.setTap
      (fun t => { t with dbgData := (debugRead s.dbgSelected s.debugAllowed sp a).1 })) := by
  change execDbgAccess false sp a d s = _
  rw [execDbgAccess, if_neg (by simp [tapOpen_of_ne_scrapped hopen])]
  match sp, hsp with
  | 0, _ => rfl
  | 1, _ => rfl

theorem exec_dbgAccess_write {s : State} (hopen : s.lc.state ≠ .scrapped) {sp : Nat} (a : Nat) (d : Word32) (hsp : sp ≤ 1) :
    exec (.dbgAccess true sp a d) s = .next (debugWrite s.dbgSelected s.debugAllowed sp a d) := by
  change execDbgAccess true sp a d s = _
  rw [execDbgAccess, if_neg (by simp [tapOpen_of_ne_scrapped hopen])]
  match sp, hsp with
  | 0, _ => rfl
  | 1, _ => rfl

/-! ### The mailbox (R377, R387) -/

/-- A placed slot holds the request given, QUEUED, and no other slot changes. -/
theorem State.placeSlot_slot (s : State) (x : Slot) :
    let u := (s.placeSlot x).2
    (∃ fl, u.slot s.freeSlot = { x with state := .queued, req := s.sq.placed + 1, arrival := s.folio.now, nodes := [(0, { flags := fl })] }) ∧
      u.sq.placed = s.sq.placed + 1 ∧ ∀ j, j ≠ s.freeSlot → u.slot j = s.slot j := by
  unfold State.placeSlot
  extract_lets k sq s1 y pred fl s2 low u
  have hqueued : SlotState.queued ≠ .free := by decide
  have hplaced : s2.slot k = { y with nodes := [(0, { flags := fl })] } := State.slot_putSlot_live s1 k hqueued
  refine ⟨⟨fl, hplaced⟩, rfl, fun j hj => ?_⟩
  have hother : s2.slot j = s1.slot j := State.slot_putSlot_other s1 _ hj
  exact hother

/-- The TAP with the mailbox selected, and what the mailbox answers. -/
def State.mailboxSelected (s : State) (reply : Option (Nat × Bytes)) : State :=
  let s1 := s.setTap (fun t => { t with instr := .mailbox, pinsFromBoundary := false, pinsHighZ := false })
  { s1 with lc := { s1.lc with mailboxReply := reply } }

/-! ### The transition (R379, R380) -/

/-- Closing the intents leaves none live. -/
theorem find_live_closed (is : List Intent) :
    (is.map (fun r => if r.live then { r with complete := true } else r)).find? (·.live) = none := by
  rw [List.find?_eq_none]
  intro r hr
  obtain ⟨i, -, rfl⟩ := List.mem_map.1 hr
  split_ifs with h
  · simp [Intent.live]
  · exact h

/-- The life cycle as a transition's steps 3 to 5 leave it: the stripe in both copies, the digest cleared, the intent COMPLETE. -/
def closeTransition (l : Lc) (i : Intent) : Lc :=
  { l with word0 := programStripe l.word0 i.stripe, word1 := programStripe l.word1 i.stripe, digests := tabPut [] l.digests i.slot [],
           intents := l.intents.map (fun r => if r.live then { r with complete := true } else r) }

theorem closeTransition_liveIntent (l : Lc) (i : Intent) : (closeTransition l i).liveIntent = none := find_live_closed l.intents

/-- The state after a transition's wipes, which are left out where both copies show its stripe already. -/
def transitionWiped (s : State) (i : Intent) : State :=
  if decide (stripe s.lc.word0 i.stripe = stripePattern ∧ stripe s.lc.word1 i.stripe = stripePattern) then s else transitionWipes s i

/-- The state after a transition's steps, before the restart. -/
def transitionDone (t : State) (i : Intent) : State :=
  let s2 := { t with lc := closeTransition t.lc i }.raise evLcTransitionDone srcSecurity 0 (items [(1, i.target), (1, i.stripe)])
  if i.target = 3 then { s2 with recorder := { s2.recorder with everDeployed := true } } else s2

theorem transitionWiped_fuses (s : State) (i : Intent) : (transitionWiped s i).fuses = s.fuses := by
  unfold transitionWiped
  split_ifs <;> simp

theorem transitionDone_lc (t : State) (i : Intent) : (transitionDone t i).lc = closeTransition t.lc i := by
  simp only [transitionDone]
  split_ifs <;> simp

/-- LC_TRANSITION_EXECUTE of an intent in progress (R379). -/
theorem exec_lcTransitionExecute {s : State} {i : Intent} (hlive : s.lc.liveIntent = some i) (hbegun : s.lc.inProgress = true)
    (hrecovery : s.dev.state = .recovery) :
    let v := transitionDone (transitionWiped s i) i
    exec .lcTransitionExecute s = .next (({ v with boot := { v.boot with attempts := 0 } }.computeReset).askRestart .start) := by
  change execLcTransitionExecute s = _
  rw [execLcTransitionExecute, hlive]
  dsimp only
  rw [if_neg (by simp [hbegun, hrecovery])]
  rfl

/-! ### Report mode (R383) -/

/-- The frame of a report: to the broadcast address, of the type 0x88B5. -/
def reportBytes : Bytes :=
  beBytes 6 (2 ^ 48 - 1) ++ beBytes 6 (0x020000 * 2 ^ 24 + Config.serial.toNat % 2 ^ 24) ++ beBytes 2 0x88B5 ++
    padTo 46 (ascii "SKZ2" ++ [5] ++ beBytes 8 Config.serial.toNat)

theorem reportBytes_broadcast : reportBytes.take 6 = List.replicate 6 0xFF := by
  rw [reportBytes, List.append_assoc, List.append_assoc, List.take_left' (beBytes_length 6 _)]
  decide

theorem reportBytes_body : reportBytes.drop 14 = padTo 46 (ascii "SKZ2" ++ [5] ++ beBytes 8 Config.serial.toNat) :=
  List.drop_left' (by simp)

theorem State.transmit_tx (s : State) (i : Nat) (f : TxFrame) : ((s.transmit i f).port i).tx = (s.port i).tx ++ [f] := by
  have hport : (s.transmit i f).port i = { s.port i with tx := (s.port i).tx ++ [f] } :=
    tabGet_put_new _ _ fun e => absurd (congrArg Port.tx e) (by simp)
  rw [hport]

/-! ### The statement -/

/-- Settles O58: each command by the operation it runs, read through the lemmas above. -/
theorem tapAndTransition : Obligations.TapAndTransition := by
  intro s
  refine ⟨?instructions, ?scrapped, ?denied, ?devPart, ?mailbox, ?transition, ?noTransition, ?report, ?noReport⟩
  case instructions =>
    intro hstate
    have hopen := tapOpen_of_ne_scrapped hstate
    refine ⟨?_, fun pins pre hpre => ?_, ?_, rfl, ?_, ?_, rfl⟩
    · change execExtest s = _
      simp only [execExtest, hopen, if_true]
    · change execSamplePreload pins pre s = _
      simp only [execSamplePreload, hopen, if_true, if_neg hpre]
    · change execIdcode s = _
      simp only [execIdcode, hopen, if_true]
    · change execClamp s = _
      simp only [execClamp, hopen, if_true]
    · change execHighz s = _
      simp only [execHighz, hopen, if_true]
  case scrapped =>
    intro hstate pins pre f p w sp a d
    have hclosed := tapOpen_of_scrapped hstate
    change ∀ c ∈ _, TapBypassed c s
    simp only [List.forall_mem_cons, List.not_mem_nil, false_imp_iff, implies_true, and_true]
    refine ⟨tapBypassed_of _ rfl ?_, tapBypassed_of _ rfl ?_, tapBypassed_of _ rfl ?_, tapBypassed_of _ rfl ?_, tapBypassed_of _ rfl ?_,
      tapBypassed_of _ rfl ?_, tapBypassed_of _ rfl rfl, tapBypassed_of (fun t => { t with instr := .bypass }) ?_ rfl,
      tapBypassed_of (fun t => { t with instr := .bypass }) ?_ rfl⟩
    iterate 6 simp [hclosed]
    · change execLcMailbox f p s = _
      rw [execLcMailbox, if_pos (by simp [hclosed])]
    · change execDbgAccess w sp a d s = _
      rw [execDbgAccess, if_pos (by simp [hclosed])]
  case denied =>
    intro hdenied hstate
    refine ⟨fun sp a hsp ha => ?_, fun sp a d hsp => ?_⟩
    · obtain ⟨hzero, hstores⟩ := debugRead_unauthorised s.dbgSelected ha
      refine ⟨_, exec_dbgAccess_read hstate a 0 hsp, ?_⟩
      rw [hdenied]
      obtain ⟨hks, hsq, hcore, hblock, hbn, -⟩ := State.stores_eq hstores
      exact ⟨hzero, hks, hsq, hcore, hblock, hbn⟩
    · refine ⟨_, exec_dbgAccess_write hstate a d hsp, ?_⟩
      rw [hdenied]
      exact State.stores_eq (debugWrite_unauthorised s.dbgSelected sp a d)
  case devPart =>
    intro d hallowed
    have hstate : s.lc.state ≠ .scrapped := by
      intro h
      simp [State.debugAllowed, h] at hallowed
    exact ⟨_, exec_dbgAccess_read hstate 0 d (by omega), debugMgmtRead_devPart s _ s.debugAllowed⟩
  case mailbox =>
    intro f p hstate hrecovery
    have hexec : exec (.lcMailbox f p) s = .next (if mailboxFn f then (s.mailboxSelected none).placeSlot
          { queue := 0, func := f, mailbox := true, payload := p, cells := ceilDiv p.length 256 } |>.2
        else s.mailboxSelected (some (stFunctionNotPermitted, []))) := by
      change execLcMailbox f p s = _
      rw [execLcMailbox, if_neg (by simp [tapOpen_of_ne_scrapped hstate])]
      dsimp only
      rw [if_neg (by simp [hrecovery])]
      split_ifs <;> rfl
    refine ⟨fun hknown => ⟨_, hexec, ?_⟩, fun hunknown => ⟨_, hexec, ?_⟩⟩
    · rw [if_pos hknown]
      obtain ⟨⟨fl, hslot⟩, hplaced, hother⟩ := State.placeSlot_slot (s.mailboxSelected none)
        { queue := 0, func := f, mailbox := true, payload := p, cells := ceilDiv p.length 256 }
      exact ⟨congrArg Slot.func hslot, congrArg Slot.payload hslot, congrArg Slot.mailbox hslot, hplaced, hother⟩
    · rw [if_neg (by simp [hunknown])]
      exact ⟨rfl, rfl⟩
  case transition =>
    intro r hlive hbegun hrecovery
    have hlc := transitionDone_lc (transitionWiped s r) r
    obtain ⟨hword0, hword1⟩ := Prod.mk.inj (transitionWiped_fuses s r)
    refine ⟨_, exec_lcTransitionExecute hlive hbegun hrecovery, ?_, ?_, ?_, rfl, rfl, rfl, ?_⟩
    · change (transitionDone (transitionWiped s r) r).lc.word0 = _
      rw [hlc, ← hword0]
      rfl
    · change (transitionDone (transitionWiped s r) r).lc.word1 = _
      rw [hlc, ← hword1]
      rfl
    · change (transitionDone (transitionWiped s r) r).lc.liveIntent = none
      rw [hlc, closeTransition_liveIntent]
    · rfl
  case noTransition =>
    intro h
    change execLcTransitionExecute s = _
    rw [execLcTransitionExecute]
    split
    · rfl
    · next hlive => rw [if_pos (by grind)]
  case report =>
    intro hstate hrecovery
    refine ⟨s.transmit 16 { bytes := reportBytes, dst := {} }, _, ?_, State.transmit_tx s 16 _, reportBytes_broadcast, reportBytes_body, rfl⟩
    change execReportFrame s = _
    rw [execReportFrame, if_pos ⟨hstate, hrecovery⟩]
    rfl
  case noReport =>
    intro h
    change execReportFrame s = _
    rw [execReportFrame, if_neg (by grind)]

end Sys2Proof.Machine
end

section
/-! SUPPORT. Chapters 15 and 16 (families 15_tamper_response and other), the tamper-latch, recovery, restart and image-load functions:
what each gives, and the statement about them. -/

namespace Sys2Proof.Machine

open Sys2Proof

theorem tmpLatchClearFn_gives {k i : Nat} {x : Slot} {t s1 : State} (hlayout : layoutOk x.payload 12 [(8, 4)] = true)
    (hcommand : x.mailbox = false) (htenant : x.tenant = 0) (hport : x.lport = 16) (hlatch : t.tmp.latch = true)
    (hauth : (Fn.auth k x 0x80 0 0 4).gives t i s1) (hquiet : s1.eraseActive = false) :
    (tmpLatchClearFn k x).gives t { effects := [.latchClear (fld x.payload 4 4)] } s1 :=
  Fn.orRefuse_gives _ <| Fn.gives_bind (Fn.need_gives hlayout) <|
    Fn.gives_bind (Fn.need_gives (by rw [hcommand, htenant, hport]; rfl)) <|
    Fn.gives_bind (Fn.st_gives _ t) <| Fn.gives_bind (Fn.need_gives hlatch) <| Fn.gives_bind hauth <|
    Fn.gives_bind (Fn.st_gives _ s1) <| Fn.gives_bind (Fn.need_gives (by rw [hquiet, Bool.not_false])) (Fn.done_gives _ _ s1)

theorem recoveryStatusFn_gives {x : Slot} {t : State} (hlayout : layoutOk x.payload 8 [(4, 4)] = true) :
    let c := t.boot.cause
    (recoveryStatusFn x).gives t
      { result := beBytes 1 c.reason ++ beBytes 1 c.cause ++ beBytes 1 c.step ++ beBytes 1 c.attempt ++ beBytes 4 c.data ++
          beBytes 5 c.seconds ++ beBytes 3 c.cycles ++ zeros 8 } t :=
  Fn.gives_bind (Fn.need_gives hlayout) <| Fn.gives_bind (Fn.st_gives _ t) (Fn.done_gives _ _ t)

/-! ### DEV_RESTART (R425) -/

/-- The event of a commanded restart, raised at the commit point. -/
def restartNote (t : State) (x : Slot) : Effect :=
  .eventOnCommit evRestartCommanded srcSecurity 0 (items [(1, fld x.payload 4 1), (4, chanId x.chan (t.chan x.chan))])

section Restart

variable {k : Nat} {x : Slot} {t : State} (hlayout : layoutOk x.payload 12 [(5, 3)] = true) (hdrain : t.boot.drain = none)
  (hload : t.boot.load.state ≠ 2) (hidle : t.lc.inProgress = false)
include hdrain hload hidle

theorem restart_notBusy : (t.boot.drain.isNone && t.boot.load.state != 2 && !t.lc.inProgress) = true := by
  simp [hdrain, hload, hidle]

include hlayout

theorem devRestartFn_gives_recovery (hrecovery : t.dev.state = .recovery) (htarget : fld x.payload 4 1 = 0)
    (hnone : fld x.payload 8 4 = 0) : (devRestartFn k x).gives t { effects := [restartNote t x, .restartNow false] } t := by
  refine Fn.gives_bind (Fn.need_gives hlayout) <| Fn.gives_bind (Fn.get_gives t) ?_
  rw [hrecovery]
  exact Fn.gives_bind (Fn.need_gives (by simp [htarget])) <| Fn.gives_bind (Fn.need_gives (by simp [hnone])) <|
    Fn.gives_bind (Fn.need_gives (restart_notBusy hdrain hload hidle)) (Fn.done_gives _ _ t)

theorem devRestartFn_gives_drain {i : Nat} {s1 : State} (hstate : t.dev.state ≠ .recovery) (htarget : fld x.payload 4 1 ≤ 1)
    (hauth : (Fn.auth k x 0x91 3 0 8).gives t i s1) :
    (devRestartFn k x).gives t { effects := [restartNote t x, .arm (.drainBegin (fld x.payload 4 1 == 1))] } s1 := by
  have hnot : (t.dev.state == .recovery) = false := beq_false_of_ne hstate
  refine Fn.gives_bind (Fn.need_gives hlayout) <| Fn.gives_bind (Fn.get_gives t) ?_
  rw [hnot]
  exact Fn.gives_bind (Fn.need_gives (by simp [htarget])) <| Fn.gives_bind (Fn.need_gives (by simp)) <|
    Fn.gives_bind (Fn.need_gives (restart_notBusy hdrain hload hidle)) <|
    Fn.gives_else Bool.false_ne_true <| Fn.gives_bind hauth (Fn.done_gives _ _ s1)

end Restart

/-! ### Image loads (R426) -/

theorem imageLoadBeginFn_gives {x : Slot} {t : State} (hlayout : layoutOk x.payload 60 [(8, 4)] = true)
    (hlen : fld x.payload 4 4 ≤ maxImage) :
    (imageLoadBeginFn x).gives t {} { t with boot := { t.boot with load := { t.boot.load with
      state := 1, percent := 0, len := fld x.payload 4 4, digest := slice x.payload 12 48, mem := [], cells := [] } } } :=
  Fn.gives_bind (Fn.need_gives hlayout) <| Fn.gives_bind (Fn.need_gives (decide_eq_true hlen)) <|
    Fn.gives_bind (Fn.change_gives _ t) (Fn.done_gives _ _ _)

theorem imageLoadDataFn_gives {x : Slot} {t : State} (hlayout : layoutOk x.payload (12 + fld x.payload 8 2) [(10, 2)] = true)
    (hmost : fld x.payload 8 2 ≤ 7936) (hopen : t.boot.load.state = 1) (haligned : fld x.payload 4 4 % 256 = 0)
    (hrange : fld x.payload 4 4 + fld x.payload 8 2 ≤ t.boot.load.len)
    (hcells : fld x.payload 8 2 % 256 = 0 ∨ fld x.payload 4 4 + fld x.payload 8 2 = t.boot.load.len) :
    (imageLoadDataFn x).gives t {} { t with boot := { t.boot with load := { t.boot.load with
      mem := memWrite t.boot.load.mem (fld x.payload 4 4) (x.payload.drop 12)
      cells := (t.boot.load.cells ++ (List.range (ceilDiv (fld x.payload 8 2) 256)).map (fld x.payload 4 4 / 256 + ·)).eraseDups } } } :=
  Fn.gives_bind (Fn.need_gives (by rw [hlayout, decide_eq_true hmost, Bool.and_self])) <| Fn.gives_bind (Fn.st_gives _ t) <|
    Fn.gives_bind (Fn.need_gives (beq_iff_eq.2 hopen)) <|
    Fn.gives_bind (Fn.need_gives (decide_eq_true ⟨haligned, hrange, hcells⟩)) <|
    Fn.gives_bind (Fn.change_gives _ t) (Fn.done_gives _ _ _)

/-- IMAGE_LOAD_END of a complete load ends as the digest and then the checks of the image say. -/
theorem runFnOn_imageLoadEnd {x : Slot} {t : State} (hlayout : layoutOk x.payload 8 [(4, 4)] = true) (hopen : t.boot.load.state = 1)
    (hcomplete : ceilDiv t.boot.load.len 256 ≤ t.boot.load.cells.length) :
    let l := t.boot.load
    let b := memRead l.mem 0 l.len
    runFnOn (imageLoadEndFn x) t =
      if sha384B b = l.digest then
        match imageCheck t b with
        | .ok _ => ({ effects := [.imageWrite] }, t)
        | .error (c, _) => ({ status := stImageRefused, result := beBytes 1 c ++ zeros 7 },
            { t with boot := { t.boot with load := { l with cause := c } } }.raise evImageRefused (srcCc 0) 0 (items [(1, c)]))
      else ({ status := stImageDigest }, t) := by
  intro l b
  unfold imageLoadEndFn
  rw [runFnOn_bind _ (Fn.need_gives hlayout), runFnOn_get]
  dsimp only
  rw [runFnOn_bind _ (Fn.need_gives (beq_iff_eq.2 hopen)), runFnOn_bind _ (Fn.need_gives (decide_eq_true hcomplete)), runFnOn_need]
  simp only [beq_iff_eq]
  refine if_congr Iff.rfl ?_ rfl
  rcases imageCheck t b with ⟨c, d⟩ | r
  · rfl
  · rfl

/-- Settles O22: each function gives what its lemma above says; IMAGE_LOAD_END ends as its image's checks do. -/
theorem recoveryFunctions : Obligations.RecoveryFunctions := by
  intro s k x p t
  refine ⟨?latch, ?status, ?restart, ?begins, ?data, ?ends⟩
  case latch =>
    intro i s1 hmay hlayout hcommand htenant hport hlatch hauth hquiet
    exact congrArg Host.Outcome.next (serveFn_gives _ hmay
      (tmpLatchClearFn_gives hlayout hcommand htenant hport hlatch hauth hquiet))
  case status =>
    intro c hmay hlayout
    exact congrArg Host.Outcome.next (serveFn_gives _ hmay (recoveryStatusFn_gives hlayout))
  case restart =>
    intro target note hmay hlayout hdrain hload hidle
    refine ⟨fun hrecovery htarget hnone => ?_, fun i s1 hstate htarget hauth => ?_⟩
    · exact congrArg Host.Outcome.next (serveFn_gives _ hmay
        (devRestartFn_gives_recovery hlayout hdrain hload hidle hrecovery htarget hnone))
    · exact congrArg Host.Outcome.next (serveFn_gives _ hmay
        (devRestartFn_gives_drain hlayout hdrain hload hidle hstate htarget hauth))
  case begins =>
    intro hmay hlayout hlen
    exact congrArg Host.Outcome.next (serveFn_gives _ hmay (imageLoadBeginFn_gives hlayout hlen))
  case data =>
    intro off n l hmay hlayout hmost hopen haligned hrange hcells
    exact congrArg Host.Outcome.next (serveFn_gives _ hmay
      (imageLoadDataFn_gives hlayout hmost hopen haligned hrange hcells))
  case ends =>
    intro l b hmay hlayout hopen hcomplete
    refine (serveFn_judged _ hmay (runFnOn_imageLoadEnd hlayout hopen hcomplete)).trans ?_
    rw [apply_ite Host.Outcome.next]
    refine if_congr Iff.rfl ?_ rfl
    generalize imageCheck t b = checked
    rcases checked with ⟨c, d⟩ | r
    · rfl
    · rfl

end Sys2Proof.Machine
end

section
/-! SUPPORT. Chapter 17 (family 17_pairing_and_fail_over), what a member answers: what JOURNAL_BATCH, HEARTBEAT and SNAPSHOT give, and
the statement about them. -/

namespace Sys2Proof.Machine

open Sys2Proof

/-- The answer of JOURNAL_BATCH and SNAPSHOT: the folio held (R443). -/
def heldAnswer (w : State) : FnRes := { result := beBytes 6 w.vault.heldFolio ++ zeros 2 }

theorem heldAnswer_gives (w : State) :
    (do Fn.done (beBytes 6 (← Fn.st (·.vault.heldFolio)) ++ zeros 2) : Fn FnRes).gives w (heldAnswer w) w :=
  Fn.gives_bind (Fn.st_gives _ w) (Fn.done_gives _ _ w)

/-! ### JOURNAL_BATCH (R443, R445) -/

/-- The part that a JOURNAL_BATCH carries. -/
def partOf (p : Bytes) : BatchPart := { folio := fld p 8 6, part := fld p 14 1, parts := fld p 15 1, records := p }

/-- A part kept, and forwarded on both paths to the successor where there is one. -/
def keepAndForward (u : State) (p : Bytes) : State :=
  let kept := keepPart u (partOf p)
  match kept.slotAt (kept.position + 1) with
  | some j => sendBoth kept j 0xA8 p
  | none => kept

/-- A part taken in: kept and forwarded, and appended once the vault holds a folio. -/
def takePart (u : State) (p : Bytes) : State :=
  let sent := keepAndForward u p
  if sent.vault.heldFolio = 0 then sent else appendComplete sent.folioGap sent

section JournalBatch

variable {x : Slot} {t : State} (hlen : 20 ≤ x.payload.length) (hprologue : prologueOk x.payload 0 = true)
  (hzero : zeroAt x.payload 18 2 = true) (hone : 1 ≤ fld x.payload 15 1) (hmost : fld x.payload 15 1 ≤ 16)
  (hpart : fld x.payload 14 1 < fld x.payload 15 1) (hepoch : t.pair.epoch ≤ fld x.payload 4 4) (hpaired : t.paired = true)
  (hstandby : t.dev.state = .standby)
include hlen hprologue hzero hone hmost hpart hepoch hpaired hstandby

/-- JOURNAL_BATCH of no lower epoch on a paired standby comes to its part, noted as heard from ahead, and ends with the folio held. -/
theorem journalBatchFn_gives {w : State}
    (hw : if t.pair.parts.any (fun q => decide (q.folio = (partOf x.payload).folio ∧ q.part = (partOf x.payload).part))
      then w = (heardAhead t x false).pairCnt 2 1 else w = takePart (heardAhead t x false) x.payload) :
    (journalBatchFn x).gives t (heldAnswer w) w := by
  have hfields : (decide (20 ≤ x.payload.length) && prologueOk x.payload 0 && zeroAt x.payload 18 2 &&
      decide (1 ≤ fld x.payload 15 1 ∧ fld x.payload 15 1 ≤ 16 ∧ fld x.payload 14 1 < fld x.payload 15 1)) = true := by
    simp only [hlen, hprologue, hzero, hone, hmost, hpart, and_self, decide_true, Bool.and_self]
  refine Fn.gives_bind (Fn.need_gives hfields) <| Fn.gives_bind (Fn.get_gives t) <|
    Fn.gives_bind (Fn.need_gives (decide_eq_true hepoch)) <|
    Fn.gives_bind (Fn.need_gives (by rw [hpaired, hstandby]; rfl)) <| Fn.gives_bind (Fn.change_gives _ t) ?_
  split_ifs at hw with hheld
  · subst hw
    exact Fn.gives_then hheld <| Fn.gives_bind (Fn.change_gives _ _) (heldAnswer_gives _)
  · subst hw
    exact Fn.gives_else hheld <| Fn.gives_bind (Fn.change_gives _ _) (heldAnswer_gives _)

end JournalBatch

/-! ### HEARTBEAT (R440) -/

/-- A heartbeat heard: the sender's held folio, where the sender is a member. -/
def takeHeartbeat (t : State) (x : Slot) : State :=
  let u := heardAhead t x true
  let j := fld x.payload 8 1
  if (u.member j).state = 0 then u else u.putMember j { u.member j with held := fld x.payload 12 6 }

theorem heartbeatFn_gives {x : Slot} {t : State} (hlayout : layoutOk x.payload 20 [(10, 2), (18, 2)] = true)
    (hslot : fld x.payload 8 1 ≤ 7) (hepoch : t.pair.epoch ≤ fld x.payload 4 4) :
    (heartbeatFn x).gives t { result := (takeHeartbeat t x).heartbeatBytes } (takeHeartbeat t x) :=
  Fn.gives_bind (Fn.need_gives (by rw [hlayout, decide_eq_true hslot, Bool.and_self])) <| Fn.gives_bind (Fn.get_gives t) <|
    Fn.gives_bind (Fn.need_gives (decide_eq_true hepoch)) <| Fn.gives_bind (Fn.change_gives _ t) <|
    Fn.gives_bind (Fn.st_gives _ _) (Fn.done_gives _ _ _)

/-! ### SNAPSHOT (R438) -/

/-- A part of a snapshot taken in: the last one missing has the snapshot taken, and the batches that follow it appended. -/
def takeSnapshotPart (t : State) (x : Slot) : State :=
  let parts := fld x.payload 8 4
  let u := heardAhead t x false
  let got := tabPut [] (if u.pair.snapshotParts = parts then u.pair.snapshot else []) (fld x.payload 4 4) (x.payload.drop 12)
  let v := { u with pair := { u.pair with snapshot := got, snapshotParts := parts } }
  if got.length = parts then
    let q := takeSnapshot v (got.flatMap (·.2))
    appendComplete q.folioGap { q with pair := { q.pair with snapshot := [], snapshotParts := 0 } }
  else v

theorem snapshotFn_gives {x : Slot} {t : State} (hlen : 12 ≤ x.payload.length) (hpart : fld x.payload 4 4 < fld x.payload 8 4)
    (hprologue : prologueOk x.payload 0 = true) (hpaired : t.paired = true) (hstandby : t.dev.state = .standby)
    (hsyncing : (t.member t.pair.slot).state = 2) :
    (snapshotFn x).gives t (heldAnswer (takeSnapshotPart t x)) (takeSnapshotPart t x) :=
  Fn.gives_bind (Fn.need_gives (by rw [decide_eq_true ⟨hlen, hpart⟩, hprologue, Bool.and_self])) <|
    Fn.gives_bind (Fn.get_gives t) <| Fn.gives_bind (Fn.need_gives (by rw [hpaired, hstandby, hsyncing]; rfl)) <|
    Fn.gives_bind (Fn.change_gives _ t) (heldAnswer_gives _)

/-- Settles O24: each function gives what its lemma above says. -/
theorem memberFunctions : Obligations.MemberFunctions := by
  intro s k x p t
  refine ⟨?batch, ?beat, ?snap⟩
  case batch =>
    intro b u answers hmay hlen hprologue hzero hone hmost hpart hepoch hpaired hstandby
    have hanswers : ∀ w : State, (if t.pair.parts.any (fun q => decide (q.folio = (partOf p).folio ∧ q.part = (partOf p).part))
        then w = u.pairCnt 2 1 else w = takePart u p) → answers w := fun w hw =>
      congrArg Host.Outcome.next (serveFn_gives _ hmay
        (journalBatchFn_gives hlen hprologue hzero hone hmost hpart hepoch hpaired hstandby hw))
    refine ⟨fun hheld => hanswers _ ?_, fun hnew => ?_⟩
    · have hany : t.pair.parts.any (fun q => decide (q.folio = (partOf p).folio ∧ q.part = (partOf p).part)) = true :=
        List.any_eq_true.2 (hheld.imp fun q hq => ⟨hq.1, decide_eq_true hq.2⟩)
      rw [if_pos hany]
    · intro kept sent
      have hnone : ¬ t.pair.parts.any (fun q => decide (q.folio = (partOf p).folio ∧ q.part = (partOf p).part)) = true := by
        simp only [List.any_eq_true, decide_eq_true_eq, not_exists, not_and]
        intro q hq hfolio hsame
        exact hnew q hq ⟨hfolio, hsame⟩
      have hsent : sent = keepAndForward u p := rfl
      refine ⟨fun hempty => hanswers _ ?_, fun hholds => hanswers _ ?_⟩
      · rw [if_neg hnone, takePart, ← hsent, if_pos hempty]
      · rw [if_neg hnone, takePart, ← hsent, if_neg hholds]
  case beat =>
    intro hmay hlayout hslot hepoch u j w
    exact congrArg Host.Outcome.next (serveFn_gives _ hmay (heartbeatFn_gives hlayout hslot hepoch))
  case snap =>
    intro part parts hmay hlen hpart hprologue hpaired hstandby hsyncing u got v w
    have hw : w = takeSnapshotPart t x := by
      unfold takeSnapshotPart
      with_reducible rfl
    rw [hw]
    exact congrArg Host.Outcome.next (serveFn_gives _ hmay
      (snapshotFn_gives hlen hpart hprologue hpaired hstandby hsyncing))

end Sys2Proof.Machine
end

section
/-! SUPPORT. Chapter 17 (family 17_pairing_and_fail_over), the pairing functions of Table 17.3: how each runs on once its session is
granted and its premises hold, and the statement about them. -/

namespace Sys2Proof.Machine

open Sys2Proof

theorem pairStageFn_gives {x : Slot} {t : State} (hlayout : layoutOk x.payload (12 + fld x.payload 10 2) [(5, 1)] = true)
    (hfirst : 1 ≤ fld x.payload 4 1) (hlast : fld x.payload 4 1 ≤ 5) (htotal : fld x.payload 6 2 ≤ 8192)
    (hmost : fld x.payload 10 2 ≤ 8000) (hrange : fld x.payload 8 2 + fld x.payload 10 2 ≤ fld x.payload 6 2) :
    let kind := fld x.payload 4 1
    let g : Staged := if (t.staged kind).total = fld x.payload 6 2 then t.staged kind else { total := fld x.payload 6 2 }
    let g1 : Staged := { g with mem := memWrite g.mem (fld x.payload 8 2) (x.payload.drop 12),
                                covered := g.covered ++ [(fld x.payload 8 2, fld x.payload 10 2)] }
    (pairStageFn x).gives t {} { t with pair := { t.pair with staging := tabPut {} t.pair.staging kind g1 } } :=
  Fn.gives_bind (Fn.need_gives (by simp only [hlayout, hfirst, hlast, htotal, hmost, hrange, and_self, decide_true, Bool.and_self])) <|
    Fn.gives_bind (Fn.st_gives _ t) <| Fn.gives_bind (Fn.change_gives _ t) (Fn.done_gives _ _ _)

section Granted

variable {k i : Nat} {x : Slot} {t s1 : State} (hlayout : layoutOk x.payload 12 [(8, 4)] = true)
include hlayout

theorem pairHandoverFn_gives (hauth : (Fn.auth k x 0xA4 0 0 4).gives t i s1) (hpaired : s1.paired = true)
    (hservice : s1.dev.state = .service) (hactive : s1.position = 0) (hchain : s1.soleActive = false) (hdrain : s1.boot.drain = none) :
    (pairHandoverFn k x).gives t { effects := [.arm .handoverDrain] } s1 :=
  Fn.gives_bind (Fn.need_gives hlayout) <| Fn.gives_bind hauth <| Fn.gives_bind (Fn.get_gives s1) <|
    Fn.gives_bind (Fn.need_gives (by rw [hpaired, hservice, hactive, hchain]; rfl)) <|
    Fn.gives_bind (Fn.need_gives (by rw [hdrain, Option.isNone_none])) (Fn.done_gives _ _ s1)

theorem pairTakeoverFn_gives (hauth : (Fn.auth k x 0xA5 0 0 4).gives t i s1) (hpaired : s1.paired = true)
    (hstandby : s1.dev.state = .standby) (hnext : s1.position = 1) (hchain : (s1.member s1.pair.slot).state = 1) :
    (pairTakeoverFn k x).gives t { effects := [.arm (.declareTakeover 2)] } s1 :=
  Fn.gives_bind (Fn.need_gives hlayout) <| Fn.gives_bind hauth <| Fn.gives_bind (Fn.get_gives s1) <|
    Fn.gives_bind (Fn.need_gives (by rw [hpaired, hstandby, hnext, hchain]; rfl)) (Fn.done_gives _ _ s1)

end Granted

theorem pairLeaveFn_gives {k i : Nat} {x : Slot} {t s1 : State} (hlayout : layoutOk x.payload 12 [(5, 3)] = true)
    (hmode : fld x.payload 4 1 ≤ 1) (hauth : (Fn.auth k x 0xA6 0 0 8).gives t i s1) (hpaired : s1.paired = true)
    (hmay : fld x.payload 4 1 = 1 ∨ (s1.position = 0 ∧ s1.pair.confirmed = false)) :
    (pairLeaveFn k x).gives t { effects := [.pairLeave (fld x.payload 4 1 == 1)] } s1 := by
  have hleaves : (s1.paired && (fld x.payload 4 1 == 1 || (s1.position == 0 && !s1.pair.confirmed))) = true := by
    rcases hmay with herase | ⟨hactive, hopen⟩
    · simp [hpaired, herase]
    · simp [hpaired, hactive, hopen]
  exact Fn.gives_bind (Fn.need_gives (by rw [hlayout, decide_eq_true hmode, Bool.and_self])) <| Fn.gives_bind hauth <|
    Fn.gives_bind (Fn.get_gives s1) <| Fn.gives_bind (Fn.need_gives hleaves) (Fn.done_gives _ _ s1)

/-- Settles O23: the staging, the handover, the takeover and the leaving give what their lemmas above say; the offer, the acceptance
and the confirmation run on past their session and premises. -/
theorem pairingFunctions : Obligations.PairingFunctions := by
  intro s k i s1 x p t
  refine ⟨?stage, fun hlayout => ⟨?offer, ?accept, ?confirm, ?handover, ?takeover⟩, ?leave⟩
  case stage =>
    intro kind total off n g hmay hlayout hfirst hlast htotal hmost hrange g1
    exact congrArg Host.Outcome.next (serveFn_gives _ hmay (pairStageFn_gives hlayout hfirst hlast htotal hmost hrange))
  case offer =>
    intro hmay hauth hoffer
    refine congrArg Host.Outcome.next (serveFn_runsOn _ hmay ?_)
    unfold pairOfferFn
    rw [runFnOn_bind _ (Fn.need_gives hlayout), runFnOn_bind _ hauth, runFnOn_bind _ (Fn.st_gives _ s1),
      runFnOn_bind _ (Fn.need_gives hoffer)]
  case accept =>
    intro hmay hauth hservice hempty hstaged
    refine congrArg Host.Outcome.next (serveFn_runsOn _ hmay ?_)
    unfold pairAcceptFn
    rw [runFnOn_orRefuse_bind _ _ (Fn.need_gives hlayout), runFnOn_orRefuse_bind _ _ hauth, runFnOn_orRefuse_bind _ _ (Fn.get_gives s1)]
    dsimp only
    rw [runFnOn_orRefuse_bind _ _ (Fn.need_gives (by rw [hservice, hempty]; rfl)),
      runFnOn_orRefuse_bind _ _ (Fn.need_gives hstaged)]
  case confirm =>
    intro hmay hauth hkept hoffer hepoch hstaged
    refine congrArg Host.Outcome.next (serveFn_runsOn _ hmay ?_)
    have hinForce : (s1.pair.offer != [] && s1.mayOffer && s1.pair.epoch == s1.pair.offerEpoch) = true := by
      simp [hkept, hoffer, hepoch]
    unfold pairConfirmFn
    rw [runFnOn_orRefuse_bind _ _ (Fn.need_gives hlayout), runFnOn_orRefuse_bind _ _ hauth, runFnOn_orRefuse_bind _ _ (Fn.get_gives s1)]
    dsimp only
    rw [runFnOn_orRefuse_bind _ _ (Fn.need_gives hinForce), runFnOn_orRefuse_bind _ _ (Fn.need_gives hstaged)]
  case handover =>
    intro hmay hauth hpaired hservice hactive hchain hdrain
    exact congrArg Host.Outcome.next (serveFn_gives _ hmay
      (pairHandoverFn_gives hlayout hauth hpaired hservice hactive hchain hdrain))
  case takeover =>
    intro hmay hauth hpaired hstandby hnext hchain
    exact congrArg Host.Outcome.next (serveFn_gives _ hmay (pairTakeoverFn_gives hlayout hauth hpaired hstandby hnext hchain))
  case leave =>
    intro hmay hlayout hmode hauth hpaired hleaves
    exact congrArg Host.Outcome.next (serveFn_gives _ hmay (pairLeaveFn_gives hlayout hmode hauth hpaired hleaves))

end Sys2Proof.Machine
end
